-- ==== Sys2Proof/Word.lean ====
section
/-! DEFINITION. The word types and their plainest arithmetic. -/

namespace Sys2Proof

/-- A 32-bit register word (R42). -/
abbrev Word := BitVec 32

/-- A byte of memory. -/
abbrev Byte := BitVec 8

/-- The signed value of the `w` low bits of `n`, two's complement. -/
def toSigned (w n : Nat) : Int :=
  let m := n % 2 ^ w
  if m < 2 ^ (w - 1) then (m : Int) else (m : Int) - (2 ^ w : Nat)

/-- The `w`-bit two's complement of an integer. -/
def ofSigned (w : Nat) (i : Int) : Nat := (i % (2 ^ w : Nat)).toNat

/-- `i` limited to the range `lo` to `hi`. -/
def clampInt (lo hi i : Int) : Int := if i < lo then lo else if hi < i then hi else i

/-- Bit `k` of `n`. -/
def bit (n k : Nat) : Bool := (n / 2 ^ k) % 2 == 1

/-- The field of `n` of width `w` from bit `lo`. -/
def bits (n lo w : Nat) : Nat := (n / 2 ^ lo) % 2 ^ w

/-- 1 for true, 0 for false. -/
def b2n (b : Bool) : Nat := if b then 1 else 0

/-- Division rounded up. -/
def ceilDiv (a b : Nat) : Nat := (a + b - 1) / b

/-- `a / b` rounded to nearest, halves away from zero. -/
def roundDiv (a : Int) (b : Nat) : Int :=
  if a < 0 then -((-a * 2 + b) / (2 * b)) else (a * 2 + b) / (2 * b)

/-- Bytes of `n`, little-endian, `k` of them. -/
def leBytes (k n : Nat) : List Nat := (List.range k).map fun i => (n / 256 ^ i) % 256

/-- The number that bytes spell, little-endian. -/
def ofLeBytes : List Nat → Nat
  | [] => 0
  | b :: r => b + 256 * ofLeBytes r

/-- Bytes of `n`, big-endian (network order), `k` of them. -/
def beBytes (k n : Nat) : List Nat := (leBytes k n).reverse

end Sys2Proof
end

