-- ==== Sys2Proof/Syntax.lean ====
section
/-! DEFINITION. The commands the block takes, and the plain-data operands they carry. -/

namespace Sys2Proof

/-- Who issues a request on the fabric (R10, R595, R644). `hart` is a control core, with its privilege apart. -/
inductive Initiator where
  | hart (c : Nat)
  | koveton (k : Nat)
  | packetEngine
  | radio
  | scheduler
  | pcieHost
  | security
  | twin
  | venue
  | tagLane
  | debugBus
deriving DecidableEq, Repr

/-- The word written to or read by a fabric access: size in bytes, and the value when it is a write. -/
structure Access where
  addr : Nat
  size : Nat
  write : Option Nat
deriving DecidableEq, Repr

/-- Fault code, detail and address of a detected fault (FAULT_CODE, FAULT_ADDR). -/
structure FaultRec where
  code : Nat
  detail : Nat
  addr : Nat
deriving DecidableEq, Repr

/-- What the samples of a reception measured over its length (R175): combined level at the ball in dBm and the level of each
radio chain, mean SNR after the detector in 0.25 dB, mean EVM, noise code. -/
structure RxMeas where
  rssi : Int
  rssiCh : List Int
  snr : Nat
  evm : Nat
  nf : Nat
deriving DecidableEq, Repr

/-- What a calibration measured on one chain (0 to 23, MON 24): words 4 to 15 of its store entry (R103). -/
structure CalFact where
  chain : Nat
  words : List Nat
deriving DecidableEq, Repr

/-- Power-detector samples of a chain over a PPDU from T + 8 µs to E: radio chain, mean and peak code (R118). -/
structure PdetFact where
  chain : Nat
  mean : Nat
  peak : Nat
deriving DecidableEq, Repr


/-- What reaches an armed instance's balls at an energy rise (R136, R139): device time in ns of the first sample and its
fraction in 2^-16 ns, the power in the primary 20 MHz channel in dBm summed over chains, and the level of each radio
chain in dBm. -/
structure Rise where
  startNs : Nat
  startFrac : Nat
  power : Int
  levels : List Int
deriving DecidableEq, Repr

/-- A preamble correlation (R136 to R138): the level in the primary 20 MHz channel at the final AGC step in dBm, how many
AGC steps were needed, and whether it is a DSSS preamble, for which `rise` tells when it began; the frequency offset that the
L-STF shows and the remainder that the L-LTF shows, in 20 Hz (R143). -/
structure Detect where
  level : Int
  steps : Nat
  dsss : Bool
  rise : Rise
  coarse : Int
  fine : Int
deriving DecidableEq, Repr

/-- The SIG fields in the order of R136 and R137. -/
inductive SigField where
  | dsssHeader
  | lSig
  | htSig
  | vhtSigA
  | heSigA
  | uSig
  | userSig
deriving DecidableEq, Repr

/-- A decided SIG field: the end of its last symbol in ns after the first sample, the REASON of a failed check (0 none),
and what the fields so far say. `lLen` is the length in the L-SIG, `versionBad` the version and disregard bits; `rise` a rise in
the cycle of the decision and whether an ADC clips in it (R150). -/
structure SigFact where
  field : SigField
  endNs : Nat
  fail : Nat
  lLen : Nat
  format : Nat
  bw : Nat
  ldpc : Bool
  punct : Nat
  mcs : Nat
  nss : Nat
  giLtf : Nat
  ruSize : Nat
  ruPos : Nat
  psduLen : Nat
  dur01 : Nat
  colour : Nat
  versionBad : Bool
  last : Bool
  rise : Option (Rise × Bool)
deriving DecidableEq, Repr

/-- A user of a trigger-based PPDU at the last LTF (R166, R167): SNR in its RU in 0.25 dB, timing offset in 12.5 ns, residual
frequency offset in 20 Hz. -/
structure LtfUser where
  snr : Nat
  timing : Int
  cfo : Int
deriving DecidableEq, Repr

/-- The LTF estimate of a data tone (R153, R190): its index in the RU, its 26-tone unit, its 20 MHz subchannel, the group of the
IEEE 802.11 grouping list it stands for, if any, and the response of each receive chain to each stream, I and Q in 2^-15. -/
structure LtfTone where
  tone : Nat
  unit : Nat
  sub : Nat
  group : Option Nat
  h : List (List (Int × Int))
deriving DecidableEq, Repr

/-- An RU at the last LTF: its users (0 alone for a single-user PPDU), the power of its STF in 0.25 dBFS (R142), the noise power in
2^-30, its tones. -/
structure LtfRu where
  users : List Nat
  stf : Int
  noise : Nat
  tones : List LtfTone
deriving DecidableEq, Repr

/-- What the end of the last LTF shows, and a rise in its cycle (R150). -/
structure LtfFact where
  users : List LtfUser
  rus : List LtfRu
  rise : Option (Rise × Bool)
deriving DecidableEq, Repr

/-- A data symbol of an RU (R144, R157): its place among the RUs, its number, what its pilots measured (the rotation of every tone
and the further rotation from tone to tone, I and Q in 2^-15), and the samples of each receive chain on its tones in 2^-15. -/
structure SymFact where
  ru : Nat
  t : Nat
  phase : Int × Int
  slope : Int × Int
  y : List (Nat × List (Int × Int))
deriving DecidableEq, Repr

/-- An LDPC codeword (R158, R159): the rows of its parity check, its LLRs, and how many codewords of the instance wait for decoding
before each iteration after the eighth. -/
structure CwFact where
  rows : List (List Nat)
  llr : List Int
  waiting : List Nat
deriving DecidableEq, Repr

/-- What the data of an MPDU brought (R144, R153 to R160): symbols, codewords, and the octets of its A-MPDU subframe from the
delimiter on, or of the MPDU itself where the PPDU carries no A-MPDU. -/
structure DataFact where
  syms : List SymFact
  cws : List CwFact
  aggregate : Bool
  octets : List Nat
deriving DecidableEq, Repr

/-- A compressed beamforming and CQI report (R188, R189): its format (0 VHT, 1 HE, 2 EHT), Nr, Nc, Ng, width as BW of the receive
report and punctured subchannels, bits of its φ and ψ angles, the segments that arrived and how many the report has, mean SNR of
each column in 0.25 dB, the angle codes of each group in the order of the report, and each group's delta SNR by column in dB
(none where the report carries none). -/
structure BfFact where
  format : Nat
  nr : Nat
  nc : Nat
  ng : Nat
  bw : Nat
  punct : Nat
  phi : Nat
  psi : Nat
  segments : List Nat
  segCount : Nat
  snrs : List Int
  angles : List (List Nat)
  delta : List (List Int)
deriving DecidableEq, Repr

/-- A Buffer Status Report in an A-Control field (R261): ACI Bitmap, Scaling Factor, Queue Size All. -/
structure BsrFact where
  acs : Nat
  scale : Nat
  all : Nat
deriving DecidableEq, Repr

/-- One subchannel of a chain in a reciprocity calibration (R196, R197): the response of the sounding sent by REF and received on
the chain, and that of the one sent by the chain and received on REF, as I and Q. -/
structure RcalLoop where
  chain : Nat
  sub : Nat
  fwd : Int × Int
  rev : Int × Int
deriving DecidableEq, Repr

/-- The loop SNR of one subchannel of a chain, in 0.25 dB (R197). -/
structure RcalSnr where
  chain : Nat
  sub : Nat
  snr : Nat
deriving DecidableEq, Repr

/-- What a received MPDU is (R224, R249, R253 to R259, R270). -/
inductive MpduKind where
  | qos (tid : Nat)
  | data
  | mgmt (subtype : Nat)
  | ack
  /-- Block Ack records: station side entry's TID, starting sequence number, acknowledged sequence numbers. -/
  | blockAck (acks : List (Nat × Nat × List Nat))
  | bar (tid ssn : Nat)
  | psPoll
  | rts
  | cts
  | cfEnd
  /-- A basic trigger: UL length, whether it asks for EHT, GI and LTF code, number of LTFs, and for each User Info AID12, RU_SIZE, RU_POS,
  first stream, streams (R358). -/
  | trigger (ulLen : Nat) (eht : Bool) (giLtf nltf : Nat) (users : List (Nat × Nat × Nat × Nat × Nat))
  /-- A compressed beamforming and CQI report (R188). -/
  | bfReport (report : BfFact)
deriving DecidableEq, Repr

/-- A received MPDU whose codewords are decoded (R160, R253): what its header says and what its protection checks gave.
`ta` is the transmitter address, `toUs` whether RA is an address of the radio or one of its BSSIDs, `bssid` which,
`mcast` a group address; `duration` its Duration field in µs; `queueSize` the Queue Size octet of its QoS Control field, where that
carries one, and `bsr` the BSR of its A-Control field (R261); `solicits` the form
of the response it asks for; `msdus` the octets of each A-MSDU subframe in IEEE 802.3 form with LLC (one for a plain MSDU,
none for a QoS Null; of a management frame the 802.11 frame); `rssi` and `snr` of its PPDU as in the receive report. -/
structure Mpdu where
  kind : MpduKind
  ta : Nat
  toUs : Bool
  mcast : Bool
  bssid : Nat
  sn : Nat
  fn : Nat
  retry : Bool
  moreFrag : Bool
  pm : Bool
  prot : Bool
  pn : Nat
  micOk : Bool
  solicits : Option Nat
  duration : Nat
  queueSize : Option Nat
  bsr : Option BsrFact
  amsdu : Bool
  msdus : List (List Nat)
  rssi : Nat
  snr : Nat
deriving DecidableEq, Repr

/-- A frame the tag lane received to its end (R371 to R375, R402): last bit in ns; octets of the O-QPSK PSDU with its FCS, or
those to which the header, payload and CRC of a GFSK burst were sliced without the equaliser; the 32 bits that its detector
took for the sync word; its discriminator samples in units of 2^-15 of the nominal deviation, two per bit, from
FF_TAPS - 1 samples before the first preamble bit; level, SNR and CFO. -/
structure TagFrame where
  endNs : Nat
  octets : List Nat
  sync : Nat
  samples : List Int
  rssi : Nat
  snr : Nat
  cfo : Nat
deriving DecidableEq, Repr

/-- What ECC found in what a bundle or access reads (R405, R576, R611): nothing, an error it corrected, or one it could not, at a
window offset or at a byte of the access. -/
inductive EccFact where
  | clean
  | corrected
  | uncorrectable (offset : Nat)
deriving DecidableEq, Repr

/-- An access on the data or register network, and what ECC finds in the words of shared SRAM, the hamper or a Koveton memory
that it reads (R405, R576). -/
structure AccessFact where
  acc : Access
  ecc : EccFact
deriving DecidableEq, Repr

/-- A data underrun (R182): the station of the user, and the entries whose MPDUs were not delivered in time. -/
structure UnderrunFact where
  sta : Nat
  ids : List Nat
deriving DecidableEq, Repr

/-- What asserts URGENT of ports 2 and 3 (R595): a started frame's transmit FIFO runs low, an MPDU read is near its symbol. -/
structure NearFact where
  fifoLow : Bool
  mpduNear : Bool
deriving DecidableEq, Repr

/-- A request to the RISC-V Debug Module (R540, R649, R651): halt or resume a hart; read or write a register of a halted hart,
numbered as abstract commands number it (0x0000 up CSRs, 0x1000 up x0 to x31, 0x1020 up f0 to f31); write word `i` of the
8-word program buffer; run the program buffer on a halted hart; a system bus access. -/
inductive DbgReq where
  | halt (h : Nat)
  | resume (h : Nat)
  | readReg (h r : Nat)
  | writeReg (h r v : Nat)
  | buffer (i w : Nat)
  | runBuffer (h : Nat)
  | bus (acc : Access)
deriving DecidableEq, Repr

/-- An image in a slot of the flash (R642): its 512-byte header and its body. -/
structure BootImg where
  header : List Nat
  body : List Nat
deriving DecidableEq, Repr

/-- What the boot ROM reads from the flash (R777, R778): the 64-byte directory and the images of slots A and B; none is a
flash read error. -/
structure BootFlash where
  dir : Option (List Nat)
  a : Option BootImg
  b : Option BootImg
deriving DecidableEq, Repr

/-- A planned place (R310, R313): the queue served (or for uplink 8 times the station plus the TID), streams, the ball power
per stream in 0.25 dBm of the sounding behind the station's record (R312), MPDUs and octets. -/
structure PlaceFact where
  queue : Nat
  nss : Nat
  soundPow : Int
  mpdus : Nat
  octets : Nat
deriving DecidableEq, Repr

/-- An RU of a candidate plan; METHOD, NG and LINE_BASE are those of the precoder job a new group needs (R198, R314). -/
structure RuFact where
  size : Nat
  pos : Nat
  precId : Nat
  nullReq : Bool
  nnull : Nat
  precBeat : Nat
  method : Nat
  ng : Nat
  lineBase : Nat
  places : List PlaceFact
deriving DecidableEq, Repr

/-- A PPDU of a candidate plan: what R177 leaves to the scheduler. `align` names the other radio of an aligned set; `trig` is
the type of a KIND 2 trigger as IEEE 802.11 numbers them (0 basic, 1 beamforming report poll, 2 MU-BAR, 3 MU-RTS, 4 BSRP),
`pad` the padding of an MU-RTS in µs (R317), `ndpa` how long the NDPA of a KIND 3 exchange lasts in 0.1 µs (R186). -/
structure PpduFact where
  kind : Nat
  trig : Nat
  pad : Nat
  ndpa : Nat
  align : Option Nat
  bssid : Nat
  ofs : Nat
  dur : Nat
  resp : Nat
  bw : Nat
  punct : Nat
  chains : Nat
  ulDur : Nat
  ulGiLtf : Nat
  ulNltf : Nat
  rus : List RuFact
deriving DecidableEq, Repr

/-- What the air shows in a slot (R237): the device time in ns of the slot boundary, and the energy of each 20 MHz subchannel in dBm,
the primary channel first. -/
structure Medium where
  atNs : Nat
  primary : Int
  energy : List Int
deriving DecidableEq, Repr

/-- What a security command meets outside its data: the first OTP word that lacks a bit on reading back (R620), and whether the two
computations of R637 differed. -/
structure SecFact where
  progBad : Option Nat
  mismatch : Bool
deriving DecidableEq, Repr

/-- A user of a TB PPDU of another cell whose estimate is passed on (R358, R360): its place among those given to the receive path, and
the 20 MHz subchannel of each group of the IEEE 802.11 grouping list for the channel and VEN_NULL's NG. -/
structure ForeignFact where
  user : Nat
  groupSub : List Nat
deriving DecidableEq, Repr

/-- Noise samples of a round in one subchannel (R170): how long in µs, whether the instance was armed and its radio transmitting
meanwhile, the subchannel's power over the last 4 µs and that of each chain, in mW times 2^64. -/
structure NfBlock where
  us : Nat
  armed : Bool
  transmitting : Bool
  recent : Nat
  chains : List Nat
deriving DecidableEq, Repr

/-- The samples of a round: instance, subchannel, blocks. -/
structure NfFact where
  inst : Nat
  sub : Nat
  blocks : List NfBlock
deriving DecidableEq, Repr

/-- What the sensors say at a boundary: the sum of voltage code times current code of the beat's samples (R679), the
temperature of each on-chip sensor in degrees (R686) and of each quad's junction (R103), the chip power over the round in mW (R680) and the noise floors of
the round (R171); and whether the governor's work is done by its deadline (R27). -/
structure BeatFact where
  viSum : Nat
  temps : List Int
  quadTemps : List Int
  chipMw : Nat
  floors : List NfFact
  onTime : Bool
deriving DecidableEq, Repr


/-- The commands: one constructor per row of the spec's table of operations and events, in its order. What
arrives from outside the block (a written value, a frame, a level on a ball, what the air or a wire carried) is an
operand; what the device decides is not. -/
inductive Instr where
  /-- BEAT_BOUNDARY (R17). Device time reaches a multiple of 250 µs while BEAT_EN is 1, so the sequencer issues
      a boundary carrying the new beat index to every block. -/
  | beatBoundary (fact : BeatFact)
  /-- BEAT_EN_SET (R19). Firmware sets BEAT_EN, and boundaries resume at the first new multiple of 250 µs above
      every index already issued. -/
  | beatEnSet
  /-- BEAT_EN_CLEAR (R20). Firmware clears BEAT_EN, which is refused while any beat-driven radio page is not
      STOPPED. -/
  | beatEnClear (value : Nat)
  /-- PTP_BEAT_LO_READ (R791). A read of PTP_BEAT_LO returns the last issued index and captures the high word
      and POS into a snapshot. -/
  | ptpBeatLoRead
  /-- QUEUE_SNAPSHOT (R27). At 30 µs before boundary m−2 the schedulers snapshot queue, station, demand and
      coordination state for the plan of beat m. -/
  | queueSnapshot 
  /-- PLAN_FREEZE (R305). The scheduler completes the plan for beat m within its budget and freezes its buffer,
      setting PLAN_FROZEN. -/
  | planFreeze (x : Nat) (draft : List PpduFact) (left : List (Nat × Nat)) (noLine : Nat)
  /-- PLAN_FREEZE_MISSED (R29). The freeze deadline passes with the plan unfinished, so the buffer is freed,
      the fallback plan is used and PLAN_LATE is set. -/
  | planFreezeMissed (radio : Nat)
  /-- ALLOWANCE_MISSED (R29). The allowance deadline passes without issue, and the published floor stands as
      the allowance. -/
  | allowanceMissed 
  /-- FABRIC_REQUEST (R60). A request on the data or register network is served by its target and ends in
      exactly one completion. -/
  | fabricRequest (who : Initiator) (machine : Bool) (fact : AccessFact)
  /-- REGISTER_WRITE (R45). A write to a register with no behaviour of its own acts on each field by its access
      type. -/
  | registerWrite (page off value : Nat)
  /-- START (R51). A RUN write of Start moves a STOPPED block to STARTING, or a DRAINING block back to RUNNING. -/
  | start (page : Nat)
  /-- DRAIN (R51). A RUN write of Drain makes a RUNNING block DRAINING, or stops a STARTING block. -/
  | drain (page : Nat)
  /-- STOP (R51). A RUN write of Stop takes the block out of service, discarding its work in flight. -/
  | stop (page : Nat)
  /-- ABORT (R51). A RUN write with ABORT set stops the block from any state, discarding work in flight. -/
  | abort (page : Nat)
  /-- START_CHECKS_PASSED (R52). A STARTING block finishes its checks and claims and becomes RUNNING. -/
  | startChecksPassed (page : Nat)
  /-- DRAIN_COMPLETE (R54). A DRAINING block finishes its accepted work and becomes STOPPED. -/
  | drainComplete (page : Nat)
  /-- FAULT_DETECTED (R51). A block detects a fault, records FAULT_CODE and goes toward FAULT, or increments
      MORE when already in FAULT. -/
  | faultDetected (page : Nat) (fault : FaultRec)
  /-- DISCARD_COMPLETE (R63). A block that was discarding its work has sent every BLOCK_UNAVAILABLE completion
      and reaches STOPPED or FAULT. -/
  | discardComplete (page : Nat)
  /-- BLOCK_RESET (R58). A write of PWR_BLK_RST holds or releases a page in reset, restoring its reset values
      and releasing its claims. -/
  | blockReset (group value : Nat)
  /-- OWNER_CLAIM (R68). A write of an owner code to an ownership register claims the ball, timer, capture
      buffer or PMBus master. -/
  | ownerClaim (kind index owner func : Nat)
  /-- OWNER_RELEASE (R68). A write with RELEASE 1 by the owner frees the resource and makes its output inert. -/
  | ownerRelease (kind index owner : Nat)
  /-- FORCED_RELEASE (R69). A machine-mode write with RELEASE and FORCE frees the resource whatever its owner
      and counts it. -/
  | forcedRelease (kind index : Nat) (machine : Bool)
  /-- PIN_CLAIM_REJ_RES_READ (R70). A read of PIN_CLAIM_REJ_RES captures PIN_CLAIM_REJ_OWN. -/
  | pinClaimRejResRead
  /-- HOP_COMMAND (R92). A write of CHP_SYN_CHAN with a non-zero centre is checked and, when accepted, retunes
      the synthesiser into SETTLING. -/
  | hopCommand (x centre width : Nat)
  /-- SYN_OFF_HOP (R92). A hop command with CENTRE 0 turns the synthesiser off at once with DONE_OFF. -/
  | synOffHop (x : Nat)
  /-- LOCK_DETECTED (R91). The synthesiser detects lock and moves to CALIBRATING, or back to LOCKED or
      CALIBRATING from RELOCKING. -/
  | lockDetected (x : Nat)
  /-- SYN_CALIBRATION_DONE (R94). The hop's stored or full calibration completes, the synthesiser is LOCKED and
      HOP_DONE is set. -/
  | synCalibrationDone (x : Nat) (failed : List Nat)
  /-- LOCK_LOST (R96). Lock is lost, so the synthesiser goes RELOCKING and transmit enables drop within 100 ns
      with ABORT_UNLOCK. -/
  | lockLost (x : Nat)
  /-- SETTLING_TIMEOUT (R91). A synthesiser SETTLING for 150 µs without lock goes OFF with LOCK_FAILED. -/
  | settlingTimeout (x : Nat)
  /-- RELOCK_TIMEOUT (R91). A synthesiser RELOCKING for 100 µs goes OFF with LOCK_FAILED. -/
  | relockTimeout (x : Nat)
  /-- TX_COMMAND (R98). The transmit path hands the chain pool a transmit command, which is clamped, checked
      for duty and held, dropped or started. -/
  | txCommand (x : Nat)
  /-- TX_DROP_POINT (R99). A held command reaches its drop point without lock and ends DROP_NO_LOCK. -/
  | txDropPoint (x : Nat)
  /-- TX_SEQUENCE_START (R115). At the scheduled time the front-end sequence starts, disabling receive,
      enabling FEM and PA, and sending the first sample. -/
  | txSequenceStart (x : Nat)
  /-- TX_PPDU_END (R115). The last sample leaves, the trailing front-end edges follow, and the completion of
      the PPDU is returned. -/
  | txPpduEnd (x : Nat) (pdet : List PdetFact) (temps : List Int)
  /-- PA_OVER_POWER (R120). A PDET code above LIMIT for 40 consecutive samples cuts that chain's PA and FEM for
      the rest of the PPDU. -/
  | paOverPower (chain : Nat)
  /-- QUAD_LOCK_TIMEOUT (R82). A STARTING quad whose owner's synthesiser is not LOCKED 100 µs after Start or
      hop enters FAULT 0x40. -/
  | quadLockTimeout (quad : Nat)
  /-- FULL_CAL_DONE (R95). A full calibration of a hop or quad start completes and the engine writes each
      chain's store entry. -/
  | fullCalDone (isQuad : Bool) (x : Nat) (facts : List CalFact)
  /-- CAL_CMD (R109). A GO in CHP_CAL_CMD calibrates a parked quad through SYN_M, or is refused NOT_PARKED. -/
  | calCmd (centre width quad : Nat)
  /-- CAL_CMD_DONE (R110). A CHP_CAL_CMD calibration ends, posts its RESULT and SYN_M hops back to MON's
      channel. -/
  | calCmdDone (facts : List CalFact)
  /-- ENERGY_RISE (R136). An armed receive instance sees an energy rise in the primary channel and begins AGC
      steps. -/
  | energyRise (x : Nat) (rise : Rise)
  /-- PACKET_DETECTION (R136). The L-STF correlation exceeds the threshold after the last AGC step, and
      detection is declared with gain frozen. -/
  | packetDetection (x : Nat) (det : Detect)
  /-- AGC_IDLE_RETURN (R141). No detection 8.0 µs after an energy rise returns every chain to idle gain. -/
  | agcIdleReturn (x : Nat)
  /-- SIG_FIELD_DECIDED (R145). A SIG field of the reception is decided and checked, ending it SIG_FAIL or
      UNSUPPORTED when it fails. -/
  | sigFieldDecided (x : Nat) (sig : SigFact)
  /-- RESTART_RISE (R146). Power rises by RESTART_DB or an ADC clips, so the reception is abandoned with
      RESTART and acquisition begins again. -/
  | restartRise (x : Nat) (rise : Rise) (clip : Bool)
  /-- LTF_END (R151). The last LTF ends, the channel estimate is ready, OBSS receptions stop and TB users are
      checked for presence. -/
  | ltfEnd (x : Nat) (ltf : LtfFact) (foreign : List ForeignFact)
  /-- OBSS_HOLD_END (R152). The end of an OBSS PPDU computed from its L-SIG ends the restart-reference hold. -/
  | obssHoldEnd (x : Nat)
  /-- TB_WINDOW_EXPIRY (R164). No detection falls in the TB window, so the common and user reports carry
      NO_SIGNAL. -/
  | tbWindowExpiry (x : Nat)
  /-- MPDU_DECODED (R160). The receive path finishes an MPDU's codewords, checks its FCS and passes a good MPDU
      to the MAC. -/
  | mpduDecoded (x user : Nat) (data : DataFact) (mpdu : Mpdu)
  /-- PPDU_RX_END (R161). The received PPDU ends and its last MPDU and receive reports are delivered. -/
  | ppduRxEnd (x endNs lastNs : Nat) (meas : List RxMeas) (rise : Option (Rise × Bool))
  /-- BACKOFF_SLOT (R239). A 9 µs slot boundary passes, idle backoff counters decrement and the grant
      conditions are tested. -/
  | backoffSlot (x : Nat) (med : Medium)
  /-- NAV_EXPIRY (R238). The NAV counts down to zero and stops holding the primary channel busy. -/
  | navExpiry (x : Nat)
  /-- TXOP_END (R242). A TXOP reaches its limit and ends. -/
  | txopEnd (x : Nat)
  /-- WINDOW_MISSED (R179). A planned PPDU is not granted by its latest start minus lead time and ends
      WINDOW_MISSED. -/
  | windowMissed (x : Nat)
  /-- DATA_UNDERRUN (R182). MPDUs not delivered before their symbols are encoded are replaced by EOF padding. -/
  | dataUnderrun (x : Nat) (fact : UnderrunFact)
  /-- RESPONSE_CUT (R245). The cut at t_end + SIFS − 4 µs passes, and later MPDUs are left out of the response. -/
  | responseCut (x : Nat)
  /-- RESPONSE_HANDOVER (R245). The MAC hands an Ack, Block Ack or CTS to the transmit path, which schedules it
      after SIFS. -/
  | responseHandover (x dur : Nat)
  /-- RESP_LATE (R184). A response not startable by its latest start is not transmitted and ends RESP_LATE. -/
  | respLate (x : Nat)
  /-- RESPONSE_TIMEOUT (R249). A solicited response does not arrive, leaving the PPDU's MPDUs unacknowledged
      and counting the attempt. -/
  | responseTimeout (x : Nat)
  /-- EMLSR_NO_CTS (R232). No CTS answers the MU-RTS to an EMLSR station, so none of its MPDUs are delivered
      that beat. -/
  | emlsrNoCts (x sta : Nat)
  /-- REORDER_TIMEOUT (R256). A held MPDU waits REORDER_TO behind a gap, so WinStart moves and release resumes
      with FLUSHED. -/
  | reorderTimeout (sta tid : Nat)
  /-- FRAGMENT_TIMEOUT (R259). An incomplete MSDU is discarded 10 ms after its first fragment. -/
  | fragmentTimeout (sta tid : Nat)
  /-- UAPSD_SP_EXPIRY (R271). A U-APSD service period with no serving PPDU within 16 beats ends. -/
  | uapsdSpExpiry (x sta : Nat)
  /-- STA_ADD (R223). MAC_STA_CMD ADD checks an entry, enters its addresses in the lookup and sets VALID. -/
  | staAdd (sta : Nat)
  /-- STA_SUSPEND (R223). MAC_STA_CMD SUSPEND leaves the entry out of later plans pending its release. -/
  | staSuspend (sta : Nat)
  /-- STA_SUSPEND_DONE (R223). No plan, PPDU or owed response names the entry any more, so SUSPENDED is set. -/
  | staSuspendDone 
  /-- STA_RESUME (R223). MAC_STA_CMD RESUME rechecks the entry, updates the lookup and clears SUSPENDED. -/
  | staResume (sta : Nat)
  /-- STA_REMOVE (R223). MAC_STA_CMD REMOVE completes queued MPDUs STA_REMOVED and clears the entry. -/
  | staRemove (sta : Nat)
  /-- STA_FLUSH (R223). MAC_STA_CMD FLUSH completes queued MPDUs of the named TIDs with FLUSHED. -/
  | staFlush (sta tids : Nat)
  /-- ENQUEUE_REQUEST (R294). An enqueue request is checked and joins its queue, or completes at once with a
      refusal code. -/
  | enqueueRequest (words : List Nat)
  /-- ADM_ADD (R299). AIR_ADM_CMD ADD reserves airtime for a flow at the lowest free index, or refuses. -/
  | admAdd (sta cls dir radio resv : Nat)
  /-- ADM_REMOVE (R299). AIR_ADM_CMD REMOVE deletes the flow at INDEX. -/
  | admRemove (index : Nat)
  /-- AIR_LAST0_READ (R305). A read of AIR_LAST0 captures AIR_LAST1 and AIR_LAST2 of the last frozen plan. -/
  | airLast0Read (x : Nat)
  /-- PLAN_SEND (R352). At the boundary of SEND_POS plus the AP_ID stagger, one PLAN message is queued to the
      configured port. -/
  | planSend 
  /-- PLAN_RECEIVED (R353). A received PLAN passes the checks and updates the neighbour's offset estimate and
      status. -/
  | planReceived 
  /-- LEAVE_RECEIVED (R354). An accepted LEAVE message makes the neighbour entry LEFT. -/
  | leaveReceived 
  /-- TIME_OK_EXPIRY (R340). After HOLD_ROUNDS rounds of holdover TIME_OK falls to 0 and every neighbour
      becomes uncoordinated. -/
  | timeOkExpiry 
  /-- NBR_ADD (R354). VEN_NBR_CMD ADD places an AP_ID in a neighbour entry as WAITING. -/
  | nbrAdd (index apId : Nat)
  /-- NBR_REMOVE (R354). VEN_NBR_CMD REMOVE empties a neighbour entry and frees its foreign slots. -/
  | nbrRemove (index : Nat)
  /-- TAG_FRAME_DETECTED (R374). The tag lane detects a frame and receives it alone until its end. -/
  | tagFrameDetected (mod startNs : Nat)
  /-- TAG_FRAME_END (R373). A tag-lane frame ends and is accepted with an RX event or dropped on FCS, CRC or
      LEN. -/
  | tagFrameEnd (frame : TagFrame)
  /-- TAG_IMM_ACK_SEND (R377). 192 µs after an acknowledged frame the lane sends its Imm-Ack without CCA. -/
  | tagImmAckSend 
  /-- TAG_ACK_TIMEOUT (R378). The 864 µs Imm-Ack wait ends without an ack, so the frame is retried or completes
      NO_ACK. -/
  | tagAckTimeout 
  /-- TAG_TX_REQUEST (R399). The lane takes the next transmit request from its ring and checks it. -/
  | tagTxRequest 
  /-- TAG_CCA_SLOT (R381). A CCA slot ends, and the channel is judged clear or busy for the occupancy. -/
  | tagCcaSlot (endNs : Nat) (energy : Int)
  /-- TAG_WAKE_BURST (R387). The next WAKE burst of a train starts at its scheduled time. -/
  | tagWakeBurst 
  /-- TAG_TRAIN_MOVE (R389). The channel is not clear in time, so the train moves to the tag's next window or
      gives up. -/
  | tagTrainMove 
  /-- TAG_OCCUPANCY_END (R383). A channel occupancy ends and the request completes with a TX_DONE event. -/
  | tagOccupancyEnd 
  /-- TAG_BEACON_SLOT (R392). A beacon window opens and the lane suspends waiting requests and starts its
      beacon CCA. -/
  | tagBeaconSlot 
  /-- TAG_BEACON_LOST (R393). The beacon window ends without a clear channel, so the slot is lost and LOST_RUN
      may trigger a move. -/
  | tagBeaconLost 
  /-- TAG_RX_CHAN_WRITE (R368). A write of TAG_RX_CHAN retunes SYN_T after any reception or transmission ends. -/
  | tagRxChanWrite (centre : Nat)
  /-- TAG_RETUNE_DONE (R368). The 40 µs change of centre completes and the lane receives again. -/
  | tagRetuneDone 
  /-- NOP (R420). Bundle whose operation slot does nothing; its move slots still act. -/
  | nop (core : Nat) (ecc : EccFact)
  /-- CMUL (R420). Complex multiply per lane into an accumulator. -/
  | cmul (core : Nat) (ecc : EccFact)
  /-- CMULJ (R420). Complex multiply by conjugate into an accumulator. -/
  | cmulj (core : Nat) (ecc : EccFact)
  /-- CMAC (R420). Complex multiply-accumulate. -/
  | cmac (core : Nat) (ecc : EccFact)
  /-- CMACJ (R420). Complex multiply-accumulate with conjugate. -/
  | cmacj (core : Nat) (ecc : EccFact)
  /-- CMSU (R420). Complex multiply-subtract. -/
  | cmsu (core : Nat) (ecc : EccFact)
  /-- CMSUJ (R420). Complex multiply-subtract with conjugate. -/
  | cmsuj (core : Nat) (ecc : EccFact)
  /-- RMUL (R420). Real multiply per element into an accumulator. -/
  | rmul (core : Nat) (ecc : EccFact)
  /-- RMAC (R420). Real multiply-accumulate per element. -/
  | rmac (core : Nat) (ecc : EccFact)
  /-- RDMAC (R420). Real dual multiply-accumulate over two register pairs. -/
  | rdmac (core : Nat) (ecc : EccFact)
  /-- AEXT (R420). Extract accumulator elements to a vector with shift and saturation. -/
  | aext (core : Nat) (ecc : EccFact)
  /-- ALD (R420). Load an accumulator from a vector with shift. -/
  | ald (core : Nat) (ecc : EccFact)
  /-- AADD (R420). Add two accumulators. -/
  | aadd (core : Nat) (ecc : EccFact)
  /-- ASUB (R420). Subtract two accumulators. -/
  | asub (core : Nat) (ecc : EccFact)
  /-- ARED (R420). Sum the eight complex lanes of an accumulator into lane 0. -/
  | ared (core : Nat) (ecc : EccFact)
  /-- AEXP (R418). Write the block exponent of an accumulator to a scalar. -/
  | aexp (core : Nat) (ecc : EccFact)
  /-- ANORM (R418). Shift an accumulator by a scalar count with saturation. -/
  | anorm (core : Nat) (ecc : EccFact)
  /-- VEXP (R418). Write the block exponent of a vector to a scalar. -/
  | vexp (core : Nat) (ecc : EccFact)
  /-- VNORM (R418). Shift each vector element by a scalar count. -/
  | vnorm (core : Nat) (ecc : EccFact)
  /-- SEXP (R418). Write the redundant sign bits of a scalar. -/
  | sexp (core : Nat) (ecc : EccFact)
  /-- VADD (R420). Vector add per element. -/
  | vadd (core : Nat) (ecc : EccFact)
  /-- VSUB (R420). Vector subtract per element. -/
  | vsub (core : Nat) (ecc : EccFact)
  /-- VSHR (R420). Vector arithmetic right shift with rounding per SAT. -/
  | vshr (core : Nat) (ecc : EccFact)
  /-- VSHL (R420). Vector left shift. -/
  | vshl (core : Nat) (ecc : EccFact)
  /-- VMAX (R420). Vector maximum per element. -/
  | vmax (core : Nat) (ecc : EccFact)
  /-- VMIN (R420). Vector minimum per element. -/
  | vmin (core : Nat) (ecc : EccFact)
  /-- VABS2 (R420). Squared magnitude of each complex lane. -/
  | vabs2 (core : Nat) (ecc : EccFact)
  /-- VCONJ (R420). Negate the imaginary elements. -/
  | vconj (core : Nat) (ecc : EccFact)
  /-- VNEG (R420). Negate all elements. -/
  | vneg (core : Nat) (ecc : EccFact)
  /-- VMOV (R420). Copy a vector. -/
  | vmov (core : Nat) (ecc : EccFact)
  /-- VBC (R420). Broadcast one lane to all lanes. -/
  | vbc (core : Nat) (ecc : EccFact)
  /-- VILV (R420). Interleave half the lanes of two vectors. -/
  | vilv (core : Nat) (ecc : EccFact)
  /-- VRCP (R420). Reciprocal per element. -/
  | vrcp (core : Nat) (ecc : EccFact)
  /-- VRSQ (R420). Reciprocal square root per element. -/
  | vrsq (core : Nat) (ecc : EccFact)
  /-- VINS (R420). Insert a scalar into one vector element. -/
  | vins (core : Nat) (ecc : EccFact)
  /-- VEXT (R420). Extract one vector element to a scalar. -/
  | vext (core : Nat) (ecc : EccFact)
  /-- SADD (R420). Scalar add setting flags. -/
  | sadd (core : Nat) (ecc : EccFact)
  /-- SSUB (R420). Scalar subtract setting flags. -/
  | ssub (core : Nat) (ecc : EccFact)
  /-- SAND (R420). Scalar AND. -/
  | sand (core : Nat) (ecc : EccFact)
  /-- SOR (R420). Scalar OR. -/
  | sor (core : Nat) (ecc : EccFact)
  /-- SXOR (R420). Scalar XOR. -/
  | sxor (core : Nat) (ecc : EccFact)
  /-- SSHL (R420). Scalar left shift. -/
  | sshl (core : Nat) (ecc : EccFact)
  /-- SSHR (R420). Scalar arithmetic right shift. -/
  | sshr (core : Nat) (ecc : EccFact)
  /-- SMUL (R420). Scalar multiply, low 32 bits. -/
  | smul (core : Nat) (ecc : EccFact)
  /-- SCMP (R420). Scalar compare setting flags only. -/
  | scmp (core : Nat) (ecc : EccFact)
  /-- SADDI (R420). Scalar add immediate. -/
  | saddi (core : Nat) (ecc : EccFact)
  /-- SLI (R420). Load a sign-extended immediate to a scalar. -/
  | sli (core : Nat) (ecc : EccFact)
  /-- SLUI (R420). Load an immediate into the upper scalar bits. -/
  | slui (core : Nat) (ecc : EccFact)
  /-- SMVA (R422). Move between a scalar and a track, step, window, loop, status or other named register. -/
  | smva (core : Nat) (ecc : EccFact)
  /-- SLD (R420). Scalar load from X or Y memory through a track register. -/
  | sld (core : Nat) (ecc : EccFact)
  /-- SST (R420). Scalar store to X or Y memory through a track register. -/
  | sst (core : Nat) (ecc : EccFact)
  /-- BR (R421). Conditional branch. -/
  | br (core : Nat) (ecc : EccFact)
  /-- CALL (R420). Call, saving the return bundle in LR. -/
  | call (core : Nat) (ecc : EccFact)
  /-- RET (R420). Return to LR. -/
  | ret (core : Nat) (ecc : EccFact)
  /-- LOOP (R423). Start a hardware loop with an immediate or scalar count. -/
  | loop (core : Nat) (ecc : EccFact)
  /-- LOOP_COUNT_EXHAUSTED (R425). A loop's count is exhausted at its END bundle and execution continues past
      it. -/
  | loopCountExhausted (core : Nat)
  /-- RETI (R430). Return from a normal interrupt and set IE. -/
  | reti (core : Nat) (ecc : EccFact)
  /-- RETF (R430). Return from the fast interrupt and restore bank 0. -/
  | retf (core : Nat) (ecc : EccFact)
  /-- MBS (R432). Send a scalar to another core's mailbox, stalling while it is full. -/
  | mbs (core : Nat) (ecc : EccFact)
  /-- MBS_ROOM (R432). A stalled MBS finds room and its entry enters the mailbox. -/
  | mbsRoom (core : Nat)
  /-- MBR (R432). Read the head of the core's own mailbox, stalling while it is empty. -/
  | mbr (core : Nat) (ecc : EccFact)
  /-- MBR_ENTRY_ARRIVES (R432). An entry arrives for a stalled MBR, which completes. -/
  | mbrEntryArrives (core : Nat)
  /-- BAR (R434). Arrive at a barrier and wait for its release. -/
  | bar (core : Nat) (ecc : EccFact)
  /-- BARRIER_RELEASE (R434). Every core in MASK has arrived, so every waiting core issues again and arrivals
      clear. -/
  | barrierRelease (bar : Nat)
  /-- DMQ (R436). Post a DMA descriptor to the core's own channel, stalling while it is full. -/
  | dmq (core : Nat) (ecc : EccFact)
  /-- DMQ_ROOM (R436). A stalled DMQ finds room in its channel and posts. -/
  | dmqRoom (core : Nat)
  /-- DMW (R420). Wait until the core's channel has at most the given outstanding descriptors. -/
  | dmw (core : Nat) (ecc : EccFact)
  /-- DMW_WAIT_ENDS (R420). The channel's outstanding count falls to the DMW limit and the core issues again. -/
  | dmwWaitEnds (core : Nat)
  /-- JEND (R445). End the job with a status byte and return the core to idle. -/
  | jend (core : Nat) (ecc : EccFact)
  /-- HALT (R420). Stop issuing and enter HALTED. -/
  | halt (core : Nat) (ecc : EccFact)
  /-- FAST_INTERRUPT_ENTRY (R427). A pending fast source is taken, switching to bank 1 and fetching from
      VEC_FAST. -/
  | fastInterruptEntry (core : Nat)
  /-- NORMAL_INTERRUPT_ENTRY (R428). A pending normal source is taken, clearing IE and fetching from VEC_IRQ. -/
  | normalInterruptEntry (core : Nat)
  /-- KOV_MBX_IN_WRITE (R432). A fabric write pushes an entry into a core mailbox, or is dropped when full. -/
  | kovMbxInWrite (core data : Nat)
  /-- KOV_SOFT_IRQ (R430). A fabric write of 1 to SOFT in KOV_IRQ_PEND raises the soft interrupt source. -/
  | kovSoftIrq (core : Nat)
  /-- KOV_TIMER_EXPIRY (R430). KOV_TMR steps to 0 and sets the TMR source. -/
  | kovTimerExpiry (core : Nat)
  /-- BARRIER_MASK_WRITE (R435). A write of a barrier's MASK applies before arrivals of the cycle and may
      release it. -/
  | barrierMaskWrite (bar mask : Nat)
  /-- DMA_FABRIC_POST (R436). A write of KOV_DMA_POST_16 or _17 posts a descriptor, or is dropped when the
      channel is full. -/
  | dmaFabricPost (chan addr : Nat) (host : List (Nat × Nat))
  /-- DMA_DESCRIPTOR_DONE (R438). A DMA descriptor completes with its status, writing a header commit last for
      KIND 2. -/
  | dmaDescriptorDone (chan : Nat) (host : List (Nat × Nat))
  /-- DMA_WAIT_EXPIRY (R406). A DMA access that waited 16 cycles is served and stalls the core one cycle. -/
  | dmaWaitExpiry (core : Nat) (wanted : Bool)
  /-- KOV_JOB_POST (R441). A job descriptor address is posted to the queue, or dropped when the queue is full. -/
  | kovJobPost (addr : Nat) (host : List (Nat × Nat))
  /-- JOB_START (R445). An idle accepting core takes the first eligible queued job and runs its kernel. -/
  | jobStart 
  /-- JOB_DUE_EXPIRY (R444). A queued job's due boundary is reached, so it ends LATE without starting. -/
  | jobDueExpiry 
  /-- JOB_LIMIT_EXPIRY (R447). A job runs KOV_JOB_LIMIT µs without JEND, putting the core in FAULT 0x40. -/
  | jobLimitExpiry (core : Nat)
  /-- FIRST_PASS (R472). A frame's first parse-and-lookup pass selects an action on the active menu. -/
  | firstPass (pipe : Nat) (host : List (Nat × Nat))
  /-- SECOND_PASS (R475). A recirculated frame takes its second pass on the menu of its epoch. -/
  | secondPass (pipe : Nat) (host : List (Nat × Nat))
  /-- MENU_SWAP (R474). A write of SWAP makes the idle menu active and increments EPOCH, or is ignored while a
      menu drains. -/
  | menuSwap
  /-- MENU_DRAIN_DONE (R475). No frame of the old epoch remains, so the draining menu becomes IDLE and
      SWAP_DONE is set. -/
  | menuDrainDone
  /-- TC_WRITE (R477). PKT_TC_CMD WRITE stores value, mask and action in a TCAM entry. -/
  | tcWrite (menu index : Nat) (anomaly : Bool)
  /-- TC_INVALIDATE (R477). PKT_TC_CMD INVALIDATE invalidates a TCAM entry. -/
  | tcInvalidate (menu index : Nat)
  /-- TC_READ (R477). PKT_TC_CMD READ fills the staging registers from an entry. -/
  | tcRead (menu index : Nat)
  /-- TC_WRITE_HDR (R477). PKT_TC_CMD WRITE_HDR sets KEY_SEL and the default action of an idle menu. -/
  | tcWriteHdr (menu : Nat)
  /-- TC_READ_HDR (R477). PKT_TC_CMD READ_HDR reads a menu header. -/
  | tcReadHdr (menu : Nat)
  /-- TC_WRITE_DIRECT (R482). PKT_TC_CMD WRITE_DIRECT stores a direct action, refusing RECIRC. -/
  | tcWriteDirect (index : Nat)
  /-- TC_READ_DIRECT (R477). PKT_TC_CMD READ_DIRECT reads a direct action. -/
  | tcReadDirect (index : Nat)
  /-- CTR_READ (R479). PKT_CTR_CMD GO reads a 64-bit packet and octet counter. -/
  | ctrRead (index : Nat)
  /-- CTR_READ_CLEAR (R479). PKT_CTR_CMD GO with CLEAR reads a counter and zeroes it in the same cycle. -/
  | ctrReadClear (index : Nat)
  /-- RING_ENABLE (R490). A PKT_RING_CFG write setting TYPE from 0 enables the ring with valid parameters. -/
  | ringEnable (ring cfg : Nat)
  /-- RING_DISABLE (R490). A PKT_RING_CFG write of TYPE 0 disables the ring once its current frame finishes. -/
  | ringDisable (ring cfg : Nat)
  /-- RING_SW_WRITE (R489). Software advances a ring's SW index, refused if it would overfill the ring. -/
  | ringSwWrite (ring sw : Nat)
  /-- TX_RING_FRAME_START (R497). Every descriptor of a TX frame is posted, so the engine copies it into
      baskets and returns its descriptors. -/
  | txRingFrameStart (ring : Nat) (host : List (Nat × Nat))
  /-- WLAN_COMPLETION (R484). A transmit queue entry's completion frees the frame's baskets and is written to
      its CPL ring. -/
  | wlanCompletion
  /-- RING_IRQ_TIMER (R500). IRQ_USEC µs after the first unsignalled advance, the ring interrupt is set. -/
  | ringIrqTimer (ring : Nat)
  /-- ETH_FRAME_RECEIVED (R509). A received Ethernet frame passes checks, filter and tagging and goes to
      pipeline 0 with its timestamp. -/
  | ethFrameReceived (m : Nat) (octets : List Nat) (codeErr : Bool) (ballNs ballFrac fecCorr fecUncorr : Nat)
  /-- PAUSE_TIME_EXPIRY (R512). A queue's pause time ends and it resumes. -/
  | pauseTimeExpiry (m queue : Nat)
  /-- PAUSE_REPEAT (R513). Half the quanta pass with the FIFO at or above XON, so the pause frame is repeated. -/
  | pauseRepeat (m : Nat)
  /-- FIFO_BELOW_XON (R513). The FIFO fill falls below XON and one pause frame of time 0 is sent. -/
  | fifoBelowXon (m : Nat)
  /-- ETH_TX_START (R516). START_THR octets of a queued frame are in the FIFO and transmission begins. -/
  | ethTxStart (m ballQ : Nat)
  /-- ETH_TX_UNDERRUN (R516). The FIFO empties mid-frame, so the frame ends with a complemented FCS and
      START_THR rises. -/
  | ethTxUnderrun (m sent : Nat)
  /-- ETH_TX_DONE (R534). A frame finishes transmission with its timestamp, one-step update and crumb. -/
  | ethTxDone (m : Nat)
  /-- ETH_LINK_CHANGE (R508). A port's link goes up or down, setting LINK_CHANGE and discarding frames while
      down. -/
  | ethLinkChange (m : Nat) (deskewed : Bool) (speed : Nat)
  /-- MDIO_ADDRESS (R519). MDIO OP 0 sends a clause 45 address frame. -/
  | mdioAddress (c45 : Bool) (phyad reg data : Nat)
  /-- MDIO_WRITE (R519). MDIO OP 1 sends a write frame. -/
  | mdioWrite (c45 : Bool) (phyad reg data : Nat)
  /-- MDIO_READ_INC (R519). MDIO OP 2 sends a clause 45 read with post-increment. -/
  | mdioReadInc (c45 : Bool) (phyad reg : Nat)
  /-- MDIO_READ (R519). MDIO OP 3 sends a read frame. -/
  | mdioRead (c45 : Bool) (phyad reg : Nat)
  /-- MDIO_DONE (R519). An MDIO frame completes, RDATA is loaded and MDIO_DONE set. -/
  | mdioDone (rdata : Nat)
  /-- ETH_CRUMB0_READ (R535). A read of ETH_CRUMB0 removes and captures the head crumb. -/
  | ethCrumb0Read (m : Nat)
  /-- ETH_OCT_LO_READ (R518). A read of an octet counter's low word captures its high word. -/
  | ethOctLoRead (m : Nat) (tx : Bool)
  /-- TIME_SET (R524). PTP_TIME_CMD SET sets device time to the staged value, as a step. -/
  | timeSet
  /-- TIME_STEP (R524). PTP_TIME_CMD STEP adds the staged signed offset to device time. -/
  | timeStep
  /-- PTP_TIME_NS_READ (R523). A read of PTP_TIME_NS captures device time for the following reads. -/
  | ptpTimeNsRead
  /-- SERVO_SAMPLE (R526). An offset sample updates the servo's integrator and slew, possibly stepping time or
      changing lock state. -/
  | servoSample (ns : Nat)
  /-- SERVO_HOLDOVER_TIMEOUT (R527). HOLD_TO ms without a sample put the servo in HOLDOVER with zero slew. -/
  | servoHoldoverTimeout
  /-- EVENT_TIMER_FIRE (R536). Device time reaches a timer's compare value and the timer fires, pulses and
      advances. -/
  | eventTimerFire (timer : Nat)
  /-- EVENT_TIMER_PULSE_END (R536). A timer's output pulse of WIDTH µs ends. -/
  | eventTimerPulseEnd (timer : Nat)
  /-- EVENT_INPUT_EDGE (R537). An enabled event input captures device time at its edge. -/
  | eventInputEdge (input ball : Nat) (falling : Bool) (ns frac : Nat)
  /-- PTP_EVI_READ (R537). A read of an event input's word 0 captures word 1 and clears VALID. -/
  | ptpEviRead (input : Nat)
  /-- HART_INSTRUCTION (R540). A control core executes one RISC-V instruction of its supported profile. -/
  | hartInstruction (core : Nat) (ecc : EccFact)
  /-- CBO_CLEAN (R544). cbo.clean writes a dirty line back at every level. -/
  | cboClean (core rs1 : Nat)
  /-- CBO_FLUSH (R544). cbo.flush writes back and invalidates a line. -/
  | cboFlush (core rs1 : Nat)
  /-- CBO_INVAL (R544). cbo.inval invalidates a line without writing it back. -/
  | cboInval (core rs1 : Nat)
  /-- PLIC_CLAIM (R546). A read of a context's claim register claims the highest pending source. -/
  | plicClaim (context : Nat)
  /-- PLIC_COMPLETE (R546). A write of a context's complete register ends the claimed interrupt. -/
  | plicComplete (context source : Nat)
  /-- MTIME_LO_READ (R548). A read of MTIME's low half captures its high half. -/
  | mtimeLoRead
  /-- SETSSIP_WRITE (R548). A write of 1 to SETSSIP sets the hart's supervisor software interrupt. -/
  | setssipWrite (hart value : Nat)
  /-- MTIMER_COMPARE (R549). MTIME reaches a hart's MTIMECMP and MTIP is asserted. -/
  | mtimerCompare (hart : Nat)
  /-- PCIE_LINK_CHANGE (R551). The PCI Express link comes up or goes down, setting LINK_UP or LINK_DOWN. -/
  | pcieLinkChange (up : Bool) (gen width : Nat) (reversed : Bool)
  /-- PCIE_OUTBOUND_COMPLETION (R552). An outbound read's PCI Express completion returns and is mapped to a
      fabric code. -/
  | pcieOutboundCompletion (index outcome data : Nat)
  /-- PCIE_CPL_TIMEOUT (R552). An outbound read gets no completion within CPL_TO and ends DATA_ERROR. -/
  | pcieCplTimeout (index : Nat)
  /-- PCIE_INBOUND_REQUEST (R553). An inbound memory request is translated, access-checked and passed to the
      fabric. -/
  | pcieInboundRequest (addr size : Nat) (write : Option Nat)
  /-- PCIE_INTX_MESSAGE (R556). An Assert or Deassert INTx message drives PLIC sources 808–811. -/
  | pcieIntxMessage (pin : Nat) (high : Bool)
  /-- MSIX_VECTOR_SIGNAL (R555). A rising edge of a mapped PLIC source signals an MSI-X vector. -/
  | msixVectorSignal (v : Nat)
  /-- PCIE_FLR (R557). A function-level reset resets configuration space and discards requests in flight. -/
  | pcieFlr
  /-- PERST_ASSERT (R557). PERST_N asserted resets the function as an FLR does and sets PERST. -/
  | perstAssert
  /-- PCIE_CFG_READ (R559). A read of PCIE_CFG_DATA issues a configuration read. -/
  | pcieCfgRead (status data : Nat)
  /-- PCIE_CFG_WRITE (R559). A write of PCIE_CFG_DATA issues a configuration write that completes on its
      completion. -/
  | pcieCfgWrite (value status : Nat)
  /-- THREAD_POST (R560). DSP_POST POST makes a thread READY, coalesces it or holds a repost. -/
  | threadPost (handle level aff : Nat)
  /-- THREAD_CANCEL (R560). DSP_POST CANCEL removes a READY thread or a pending repost. -/
  | threadCancel (handle : Nat)
  /-- DSP_ASK (R562). A read of DSP_ASK ends the core's thread and selects a ready thread or waits. -/
  | dspAsk (core : Nat)
  /-- DSP_YIELD (R562). A read of DSP_YIELD returns the current thread to READY and selects another. -/
  | dspYield (core : Nat)
  /-- ASK_TIMEOUT (R563). A waiting ask reaches ASK_WAIT µs and returns VALID 0. -/
  | askTimeout (core : Nat)
  /-- ASK_INTERRUPTED (R563). An interrupt or debug halt pending for a waiting core ends its ask with VALID 0. -/
  | askInterrupted (core : Nat)
  /-- DSP_FLOOR_WRITE (R567). A write of FW_FLOOR changes the floor in force at once. -/
  | dspFloorWrite (value : Nat)
  /-- DSP_CORE_EN_WRITE (R570). A write of a port's EN enables or disables the core, ending any wait. -/
  | dspCoreEnWrite (core by' : Nat) (en : Bool)
  /-- SCRUB_STEP (R577). The scrubber reads a word and writes back a correction. -/
  | scrubStep (addr : Nat) (ecc : EccFact)
  /-- SRM_THERMOS_WRITE (R579). A write of SRM_THERMOS sets group modes and moves groups between ON, RET and
      OFF. -/
  | srmThermosWrite (value : Nat)
  /-- GROUP_WAKE_DONE (R580). A group's 12 µs wake completes, it is ON and held accesses are served. -/
  | groupWakeDone (group : Nat)
  /-- GROUP_ZEROING_DONE (R580). A group leaving OFF finishes zeroing and becomes ON. -/
  | groupZeroingDone (group : Nat)
  /-- GROUP_IDLE_RETURN (R582). A woken group with MODE RET stays idle for IDLE_RET µs and returns to RET. -/
  | groupIdleReturn (group : Nat)
  /-- HAMPER_WIPE_REQUEST (R586). A machine-mode write of WIPE starts a hamper wipe. -/
  | hamperWipeRequest (machine : Bool)
  /-- HAMPER_WIPE_DONE (R589). A wipe ends, clearing WIPING, recording CAUSE and counting it. -/
  | hamperWipeDone
  /-- DRAM_REFRESH_DUE (R600). A bank's refresh falls due and is issued or postponed. -/
  | dramRefreshDue (channel rank bg ba : Nat)
  /-- MR4_POLL (R600). Every TEMP_POLL ms the controller reads MR4 and adjusts the refresh rate. -/
  | mr4Poll (channel rate : Nat) (high trip : Bool)
  /-- DRAM_POWER_DOWN_ENTRY (R601). A channel idle for PD_IDLE cycles enters power-down. -/
  | dramPowerDownEntry (channel : Nat)
  /-- DRAM_SELF_REFRESH_ENTRY (R602). In Doze, a channel idle for SR_IDLE ns enters self-refresh. -/
  | dramSelfRefreshEntry (channel : Nat)
  /-- DRAM_READ_RETURN (R598). A read's data returns to its port and overdue latency is recorded. -/
  | dramReadReturn (channel ns : Nat) (near : NearFact) (ecc : EccFact)
  /-- DRAM_PERIODIC_UPDATE (R610). Every 16 ms the WCK-to-DQ delay is updated, and every 128 ms a ZQ latch is
      issued. -/
  | dramPeriodicUpdate (channel : Nat) (zq : Bool)
  /-- DRAM_TRAIN (R606). DRM_TRAIN_CMD TRAIN runs the selected training steps on the named channels. -/
  | dramTrain (steps ch : Nat)
  /-- DRAM_TRAIN_SAVE (R608). DRM_TRAIN_CMD SAVE writes trained values to shared SRAM. -/
  | dramTrainSave (ch : Nat)
  /-- DRAM_TRAIN_RESTORE (R608). DRM_TRAIN_CMD RESTORE checks and applies saved values and runs ZQ and RDC. -/
  | dramTrainRestore (ch : Nat)
  /-- DRAM_TRAIN_DONE (R607). A training command completes, posting results and TRAINED bits and setting
      TRAIN_DONE. -/
  | dramTrainDone (fails : List Nat)
  /-- DRM_ERR_LO_READ (R611). A read of DRM_ERR_LO captures DRM_ERR_HI. -/
  | drmErrLoRead
  /-- RAND (R631). Security command that writes random bytes to a destination. -/
  | rand
  /-- GEN_KEY (R631). Security command that generates a key into a key-store entry. -/
  | genKey
  /-- DERIVE (R622). Security command that derives a child key by the SP 800-108 KDF. -/
  | derive
  /-- IMPORT (R624). Security command that checks and unwraps a key blob into an entry. -/
  | importKey
  /-- WRAP (R623). Security command that wraps an exportable entry into a blob. -/
  | wrap
  /-- LOAD_KEY (R626). Security command that loads a clear key from the hamper into an entry. -/
  | loadKey
  /-- CLEAR_ENTRY (R621). Security command that clears a non-fixed key-store entry. -/
  | clearEntry
  /-- SLOT_LOAD (R627). Security command that loads a WLAN MAC key slot over the private key bus. -/
  | slotLoad
  /-- SLOT_READY (R628). A loading key slot becomes READY, resetting its PN and replay counters. -/
  | slotReady
  /-- SLOT_CLEAR (R628). Security command that makes a key slot EMPTY. -/
  | slotClear
  /-- CTX_SETUP (R633). Security command that sets up a service cipher context. -/
  | ctxSetup
  /-- CTX_SAVE (R639). Security command that saves a context wrapped or in clear to the hamper. -/
  | ctxSave
  /-- CTX_RESTORE (R639). Security command that restores a context saved by this device. -/
  | ctxRestore
  /-- FORERUNNER (R625). Security command that rewraps a blob of the previous key epoch under the current one. -/
  | forerunner
  /-- OTP_PROG (R620). Security command that programs and verifies OTP words of one field. -/
  | otpProg
  /-- LC_ADVANCE (R617). Security command that performs an authorised life-cycle transition effective at next
      reset. -/
  | lcAdvance
  /-- CTX_CLEAR (R631). Security command that clears a context. -/
  | ctxClear
  /-- SEC_CMD_COMPLETE (R632). A security command finishes, posting its result in SEC_CMD_STAT and setting
      CMD_DONE. -/
  | secCmdComplete (fact : SecFact)
  /-- SEC_JOB_POSTED (R634). Firmware advances SEC_JOB_SW, posting cipher jobs to the ring. -/
  | secJobPosted (sw : Nat)
  /-- SEC_JOB_DONE (R638). A cipher job ends, its STATUS is written and SEC_JOB_HW advances. -/
  | secJobDone (mismatch : Bool)
  /-- TAMPER_TRIP (R647). A tamper source trips, latching and, for ZEROISE, wiping the hamper and clearing
      secrets. -/
  | tamperTrip (source : Nat)
  /-- TAMPER_LATCH_CLEAR (R647). A W1C write of SEC_TAMPER_LATCH clears latches and, when all ZEROISE latches
      clear, TAMPERED. -/
  | tamperLatchClear (mask : Nat)
  /-- SELFTEST_DONE (R642). The island's known-answer tests finish after reset, setting SELFTEST_OK or FAULT
      0x40. -/
  | selftestDone (ok : Bool)
  /-- DBG_READ_NONCE (R653). Debug OP READ_NONCE draws a new nonce for a token. -/
  | dbgReadNonce
  /-- DBG_UNLOCK (R653). Debug OP UNLOCK requests a level with or without a token. -/
  | dbgUnlock (level : Nat) (token : List Nat)
  /-- DBG_LOWER (R652). Debug OP LOWER lowers the debug level at once. -/
  | dbgLower (level : Nat)
  /-- DBG_LIFE_CYCLE (R653). Debug OP LIFE_CYCLE submits a life-cycle token. -/
  | dbgLifeCycle (token : List Nat)
  /-- TOKEN_CHECK_DONE (R655). A token check completes, granting the level or transition or ending BAD_TOKEN. -/
  | tokenCheckDone (mismatch : Bool)
  /-- PL_REQ_WRITE (R663). A write of PWR_PL_REQ starts a level change in a domain, at the next boundary for
      Koveton. -/
  | plReqWrite (value : Nat)
  /-- PMBUS_TXN_DONE (R664). A VOUT_COMMAND transaction ends acknowledged or, without ack, sets ERR. -/
  | pmbusTxnDone (dom : Nat) (ack : Bool)
  /-- VSETTLE_DONE (R663). VSETTLE passes after a voltage command, so the clock switches or the change ends
      with PL_DONE. -/
  | vsettleDone (dom : Nat)
  /-- SLEEP_IDLE (R667). PWR_SLEEP request for Idle is checked and entered. -/
  | sleepIdle (machine : Bool)
  /-- SLEEP_DOZE (R667). PWR_SLEEP request for Doze is checked and entered. -/
  | sleepDoze (machine : Bool)
  /-- SLEEP_NAP (R667). PWR_SLEEP request for Nap is checked and its entry sequence begins. -/
  | sleepNap (machine xoOff : Bool)
  /-- SLEEP_HIBERNATE (R667). PWR_SLEEP request for Hibernate is checked and entered. -/
  | sleepHibernate (machine : Bool)
  /-- SLEEP_OFF (R667). PWR_SLEEP request for Off is checked and entered. -/
  | sleepOff (machine : Bool)
  /-- SLEEP_ENTRY_DONE (R668). Entry to the requested state completes and STATE shows it. -/
  | sleepEntryDone
  /-- WAKE_DETECTED (R673). An enabled wake source is detected, the wake record is written and the return to
      Run starts. -/
  | wakeDetected
  /-- RETURN_TO_RUN (R669). The return sequence completes and the device is in Run with blocks resumed or C0
      released. -/
  | returnToRun (tau : Nat)
  /-- WAKE_PIN (R672). PWR_WAKE0_N or PWR_WAKE1_N goes low as a wake event. -/
  | wakePin (pin : Nat)
  /-- HOST_WAKE_WRITE (R672). A write of WAKE in PWR_HOST_WAKE raises wake source 10 in Idle or Doze. -/
  | hostWakeWrite
  /-- CLASS_STROBE (R678). A PWR_ACLS edge samples the class code, declaring an emergency when power falls. -/
  | classStrobe (code : Nat)
  /-- UNDERVOLTAGE (R683). PWR_UV_N reports undervoltage and the governor declares an emergency with zero
      allowances. -/
  | undervoltage (low : Bool)
  /-- THERMAL_SHUTDOWN (R686). The junction reaches 118 °C and all rail enables go inactive as for Off. -/
  | thermalShutdown
  /-- MODE_SELECT (R687). A write of PWR_MODE selects a service mode and loads the governor presets. -/
  | modeSelect (mode : Nat)
  /-- DOMAIN_SWITCH_WRITE (R59). A write of PWR_DOM powers a switchable domain on or off, refused while its
      pages run. -/
  | domainSwitchWrite (value : Nat)
  /-- DOMAIN_POWER_UP_DONE (R59). A domain powers up 50 µs after its bit is set and its pages stop reading
      UNPOWERED. -/
  | domainPowerUpDone (dom : Nat)
  /-- RTC_SET (R699). RTC_SET_CMD SET stages a count value for the next crystal edge. -/
  | rtcSet
  /-- RTC_ADD (R699). RTC_SET_CMD ADD stages a signed offset for the next crystal edge. -/
  | rtcAdd
  /-- RTC_CMD_APPLY (R699). A staged SET or ADD takes effect at the next crystal edge and sets SET_DONE. -/
  | rtcCmdApply
  /-- RTC_CANCEL (R700). A write of CANCEL ends a staged command with CANCELLED. -/
  | rtcCancel
  /-- RTC_CNT_LO_READ (R698). A read of RTC_CNT_LO captures the whole count. -/
  | rtcCntLoRead
  /-- OSC_STOP_DETECT (R697). No crystal edge for 122 µs sets OSC_STOP and holds the count. -/
  | oscStopDetect
  /-- OSC_STOP_CLEAR (R697). A write of 1 to OSC_STOP clears it while edges arrive. -/
  | oscStopClear
  /-- ALARM_FIRE (R701). A count change reaches an armed alarm's CMP and the alarm fires, wakes and re-arms. -/
  | alarmFire (alarm : Nat)
  /-- ALARM_ARM (R702). A write of CMP or of EN arms the alarm. -/
  | alarmArm (alarm word value : Nat)
  /-- VBAT_SWITCH (R706). VDD_AON falls below V_SW and the always-on domain switches to RTC_VBAT. -/
  | vbatSwitch
  /-- VAON_RETURN (R706). VDD_AON stays above V_SW + 50 mV for 1 ms and the domain switches back. -/
  | vaonReturn
  /-- AON_LOCKOUT_BEGIN (R707). VDD_AON falls below V_LOCK and the interface to the always-on domain is locked
      out. -/
  | aonLockoutBegin
  /-- AON_LOCKOUT_END (R707). 1 ms after VDD_AON rises above V_LOCK the lockout ends. -/
  | aonLockoutEnd
  /-- VBAT_MEASURE (R708). Once per minute RTC_VBAT is measured and BATT_LOW updated. -/
  | vbatMeasure (low : Bool)
  /-- TRIM_WINDOW_END (R709). An auto-trim window ends and TRIM is corrected from the measured error, or the
      window is discarded. -/
  | trimWindowEnd (dc dd : Nat)
  /-- AGE_UPDATE (R717). Every AGE_PERIOD seconds the ageing monitors update stress, drift and days-left
      predictions. -/
  | ageUpdate (temps : List Int) (drifts : List Nat)
  /-- HELLO_SEND (R733). While PAIRING, the twin controller sends a HELLO at boundary + HB_OFS. -/
  | helloSend
  /-- HEARTBEAT_SEND (R739). A paired device sends its HEARTBEAT at boundary + HB_OFS. -/
  | heartbeatSend
  /-- HELLO_RECEIVED (R734). A HELLO passes the checks and its UID, nonce and flags decide the roles. -/
  | helloReceived (lane atNs : Nat) (octets : List Nat)
  /-- HEARTBEAT_RECEIVED (R739). A heartbeat of the current beat is accepted, updating ACK, PMODE, pairing and
      resync requests. -/
  | heartbeatReceived (lane atNs : Nat) (octets : List Nat)
  /-- STA_FRAME_RECEIVED (R741). An in-order STA frame is applied at the Shadow as the same station command. -/
  | staFrameReceived (lane atNs : Nat) (octets : List Nat)
  /-- KEY_FRAME_RECEIVED (R741). An in-order KEY frame is delivered to the receive ring. -/
  | keyFrameReceived (lane atNs : Nat) (octets : List Nat)
  /-- MARK_FRAME_RECEIVED (R741). An in-order MARK frame updates the held PN or sequence marks. -/
  | markFrameReceived (lane atNs : Nat) (octets : List Nat)
  /-- USER_FRAME_RECEIVED (R741). An in-order USER frame is delivered to the receive ring. -/
  | userFrameReceived (lane atNs : Nat) (octets : List Nat)
  /-- TWIN_KEY_REQUEST (R741). A TX request of TYPE 0x04 is sent as a KEY frame. -/
  | twinKeyRequest
  /-- TWIN_USER_REQUEST (R741). A TX request of TYPE 0x06 is sent as a USER frame. -/
  | twinUserRequest
  /-- RETX_TIMEOUT (R743). ACK has not advanced for RETX_BEATS beats, so the stream is resent from the first
      unacknowledged frame. -/
  | retxTimeout
  /-- SOLO_WAIT_EXPIRY (R738). The solo wait passes without a HELLO and with fence high, so the device becomes
      Active solo. -/
  | soloWaitExpiry
  /-- KICK_TIMEOUT (R738). An Active without a KICK for KICK_BEATS beats becomes DEPOSED. -/
  | kickTimeout
  /-- KICK (R738). TWN_CMD KICK records firmware liveness. -/
  | kick
  /-- HANDOVER (R738). TWN_CMD HANDOVER makes the Active send one YIELD heartbeat and become DEPOSED. -/
  | handover
  /-- RESYNC (R744). TWN_CMD RESYNC sets RESYNC_REQ in the Shadow's next heartbeat. -/
  | resync
  /-- FENCE_IN_CHANGE (R737). TWN_FENCE_IN_N changes level and the fence line to the chain pool and tag lane
      follows within 100 ns. -/
  | fenceInChange (low : Bool)
  /-- TWN_LANE_CHANGE (R724). A Tuibivy lane goes up or down and LINK_CHANGE is set. -/
  | twnLaneChange (lane : Nat) (up : Bool)
  /-- AON_POWER_ON (R761). VDD_AON first rises and the always-on domain holds its power-on reset. -/
  | aonPowerOn
  /-- RAIL_ENABLE_STEP (R761). The always-on domain activates the next rail enables at its timed point of the
      power-up sequence. -/
  | railEnableStep
  /-- DEVICE_RESET (R762). SYS_RST_N low puts the device in reset with every page STOPPED and outputs inert. -/
  | deviceReset
  /-- SYS_RST_RELEASE (R772). SYS_RST_N rises, straps are sampled, harts start at the ROM and C0 begins the
      boot flow. -/
  | sysRstRelease (pcieEp xspi1s testmode : Bool) (cls tau : Nat)
  /-- BOOT_IMAGE_ACCEPTED (R777). The ROM finishes checking a slot image, writes the boot status and jumps to
      ENTRY, or falls to recovery. -/
  | bootImageAccepted (flash : BootFlash)
  /-- RECOVERY_DOORBELL (R781). A host writes the recovery doorbell and the ROM checks the image it placed. -/
  | recoveryDoorbell (value : Nat)
  /-- PARKED_HART_MSIP (R773). A parked hart's MSIP is set and it jumps to its entry address. -/
  | parkedHartMsip (hart : Nat)
  /-- MSIP_WRITE (R548). A write of a hart's MSIP sets or clears its machine software interrupt. -/
  | msipWrite (hart value : Nat)
  /-- RCAL_CMD (R195). A GO in TXP_RCAL_CMD starts the reciprocity calibration, or is refused REFUSED while the
      MAC page is not STOPPED or this page is not RUNNING. -/
  | rcalCmd (x ref : Nat)
  /-- RCAL_DONE (R196). The reciprocity procedure ends within 2,000 µs, updates TXP_RECIP except for failed
      chains, posts RESULT and sets RCAL_DONE. -/
  | rcalDone (x : Nat) (snrs : List RcalSnr) (loops : List RcalLoop)
  /-- PERST_RELEASE (R672). PERST_N is deasserted, which is a PCI Express wake event and releases the function
      from reset. -/
  | perstRelease
  /-- PCIE_L1_CHANGE (R672). The PCI Express link enters or leaves L1, or an L1 exit is requested, updating
      PCIE_LINK L1 and raising wake source 6. -/
  | pcieL1Change (kind : Nat)
  /-- PCIE_ERROR_MESSAGE (R558). In root-complex mode an error message arrives, or in endpoint mode an error is
      detected, setting ERR_MSG in PCIE_INT. -/
  | pcieErrorMessage
  /-- DEBUG_MODULE_ACCESS (R651). A JTAG request to the RISC-V Debug Module (haltreq, resume, abstract command
      or system bus access) acts under the granted level, and in Nap a haltreq is a wake request. -/
  | debugModuleAccess (req : DbgReq)
  /-- BOUNDARY_SCAN_INSTRUCTION (R649). At D2 or above a TAP instruction of SAMPLE/PRELOAD, EXTEST, CLAMP or
      HIGHZ takes over the output balls (R73). -/
  | boundaryScanInstruction (inst : Nat)
  /-- HART_INTERRUPT_ENTRY (R549). A control core takes a pending enabled interrupt (MTIP, MSIP, SSIP or PLIC
      external) between instructions and enters its trap handler. -/
  | hartInterruptEntry (core : Nat)
  /-- SERDES_LANE_STATUS_CHANGE (R508). A bit of ETH_SERDES_STAT changes (signal detect, CDR lock, block lock,
      high BER, alignment or auto-negotiation) and LANE_CHANGE is set. -/
  | serdesLaneStatusChange (lane status : Nat)
  /-- CRYSTAL_EDGES_RESUME (R697). Crystal edges arrive again after a stop, so the RTC count advances again and
      a write of OSC_STOP can now clear it. -/
  | crystalEdgesResume
  /-- TAG_TRAIN_DATA_FRAME (R387). DATA_GAP after the last WAKE burst of a train, the lane starts the KIND 2
      DATA frame. -/
  | tagTrainDataFrame 
  /-- TAG_IDLE_PERIOD_END (R383). The idle time after an occupancy passes, so the lane may start a CCA again,
      including for the next segment of a train. -/
  | tagIdlePeriodEnd 
  /-- TAG_AT_REACHED (R400). Device time reaches the AT of a request with AT_EN, and the lane begins its CCA
      and transmission. -/
  | tagAtReached 
deriving DecidableEq, Repr

end Sys2Proof
end

