-- ==== Sys2Proof/Decode.lean ====
section
/-! DEFINITION. The command a table word spells. The table gives no row any bits (every "fields" list is empty), so no word
spells one. -/

namespace Sys2Proof

def decodeTableWord (_nbits _w : Nat) : Option Instr := none

end Sys2Proof
end

