-- ==== Sys2Proof/Machine/Decibel.lean ====
section
/-! DEFINITION. Decibel arithmetic in quarter-dB steps, on fixed-point numbers of milliwatts with 64 fraction bits: what
R209, R313 and R322 compute with real numbers (log entry 20). -/

namespace Sys2Proof.Machine

/-- 10^(k/40) for k = 0 to 39, times 2^64, rounded down. -/
def pow40 : List Nat :=
  [ 0x10000000000000000, 0x10F2B408BCD78FF8B, 0x11F3C99F6BC4366C5, 0x13041AE9610AD8B93,
    0x14248EF8FC2603ADD, 0x15561A91BA81443DD, 0x1699C0F7E86E0FA41, 0x17F094CCA08E1BEA8,
    0x195BB8F6D460527E0, 0x1ADC619A23AD360B3, 0x1C73D51C54470E30F, 0x1E236D3A47FB5FC34,
    0x1FEC982D5BB8AF655, 0x21D0D9E228D86DE27, 0x23D1CD41B03D0AD13, 0x25F1258E069406E5A,
    0x2830AFD3A998BDE91, 0x2A925470B7BC8BC24, 0x2D1818B3562AC875E, 0x2FC42090A4CA9E65C,
    0x3298B075B4B6A5240, 0x35982F340BB41FF85, 0x38C5280B56947BEB5, 0x3C224CD2052F04135,
    0x3FB2783EA4DBBF29E, 0x4378B053EA2149090, 0x477828F177B5D1203, 0x4BB4468B90202D68F,
    0x5030A10C004B9BD9C, 0x54F106DEB45B60141, 0x59F9802C8D1896574, 0x5F4E52473393C826C,
    0x64F40348D22657FE5, 0x6AEF5DEAC608FE73B, 0x714575968B59B202E, 0x77FBAAB456D3FFE0C,
    0x7F17AF3B04D5048AC, 0x869F8B853CB43F21E, 0x8E99A36FE23375861, 0x970CBBC62CFB9C988 ]

/-- The power of `q` quarter dBm in mW times 2^64, rounded down. -/
def mwQ (q : Int) : Nat :=
  let k := (q % 40).toNat
  let e := q / 40
  let m := pow40.getD k 0
  if 0 ≤ e then m * 10 ^ e.toNat else m / 10 ^ (-e).toNat

/-- The largest level in quarter dBm, between -200 and 55 dBm, whose power is at most `p` (mW times 2^64). -/
def dbmFloor (p : Nat) : Int :=
  go 1020 (-800)
where
  /-- Search upward over at most `n` further levels from `q`. -/
  go : Nat → Int → Int
    | 0, q => q
    | n + 1, q => if mwQ (q + 1) ≤ p then go n (q + 1) else q

/-- The level in quarter dBm nearest to `p`. -/
def dbmNear (p : Nat) : Int :=
  let q := dbmFloor p
  -- halfway in decibels: the square against the product of both neighbours
  if mwQ q * mwQ (q + 1) ≤ p * p then q + 1 else q

/-- 10 log10 of a/b in quarter dB, nearest. -/
def dbRatio (a b : Nat) : Int := dbmNear (a * 2 ^ 64 / b)

end Sys2Proof.Machine
end

