-- ==== Sys2Proof/Machine/Map.lean ====
section
/-! DEFINITION. Sparse maps as lists of key and value pairs, keys rising; with a default, an entry equal to the default
is not listed, so that equal maps are equal data. -/

namespace Sys2Proof.Machine

/-- The value listed under key `k`. -/
def look {α : Type} : List (Nat × α) → Nat → Option α
  | [], _ => none
  | (k', v) :: r, k => if k' = k then some v else look r k

/-- List `v` under key `k`, keeping the keys rising. -/
def put {α : Type} : List (Nat × α) → Nat → α → List (Nat × α)
  | [], k, v => [(k, v)]
  | (k', v') :: r, k, v =>
    if k < k' then (k, v) :: (k', v') :: r
    else if k' = k then (k, v) :: r
    else (k', v') :: put r k v

/-- Take key `k` off the list. -/
def del {α : Type} (m : List (Nat × α)) (k : Nat) : List (Nat × α) := m.filter fun e => decide (e.1 ≠ k)

/-- Take every key from `lo` up to but not `hi` off the list. -/
def delRange {α : Type} (m : List (Nat × α)) (lo hi : Nat) : List (Nat × α) :=
  m.filter fun e => decide (e.1 < lo) || decide (hi ≤ e.1)

/-- The value at key `k` of a map with default `f`. -/
def lookD {α : Type} (f : Nat → α) (m : List (Nat × α)) (k : Nat) : α := (look m k).getD (f k)

/-- Set key `k` of a map with default `f`, keeping the canonical form. -/
def putD {α : Type} [DecidableEq α] (f : Nat → α) (m : List (Nat × α)) (k : Nat) (v : α) : List (Nat × α) :=
  if v = f k then del m k else put m k v

/-- The canonical form: keys strictly rising. -/
def rising {α : Type} : List (Nat × α) → Bool
  | [] => true
  | [_] => true
  | a :: b :: r => decide (a.1 < b.1) && rising (b :: r)

/-- The canonical form of a map with default `f`: keys strictly rising and no entry equal to the default. -/
def canonical {α : Type} [DecidableEq α] (f : Nat → α) (m : List (Nat × α)) : Bool :=
  rising m && m.all fun e => decide (e.2 ≠ f e.1)

/-- The entry of an association list under `k`, or `dflt`. -/
def lookOr {α : Type} (dflt : α) (m : List (Nat × α)) (k : Nat) : α := (look m k).getD dflt

/-- Replace element `i` of a list. -/
def setAt {α : Type} : List α → Nat → α → List α
  | [], _, _ => []
  | _ :: r, 0, v => v :: r
  | a :: r, i + 1, v => a :: setAt r i v

/-- Element `i` of a list, or a default. -/
def nth {α : Type} (dflt : α) : List α → Nat → α
  | [], _ => dflt
  | a :: _, 0 => a
  | _ :: r, i + 1 => nth dflt r i

end Sys2Proof.Machine
end

