-- ==== Sys2Proof/Machine/Fields.lean ====
section
/-! DEFINITION. The fields of the registers, one constant per field of the spec's register tables
(the tables stand at the end of each chapter; the docstring of a group names the chapter). A field is its page
offset, the stride of an indexed register, its lowest bit and its width. -/

namespace Sys2Proof.Machine

/-- A field of a register: page offset, stride between instances, lowest bit, width in bits. -/
structure Fld where
  off : Nat
  stride : Nat
  lo : Nat
  w : Nat
deriving DecidableEq, Repr

/-- The same field of instance `i` of an indexed register. -/
def Fld.at (f : Fld) (i : Nat) : Fld := { f with off := f.off + f.stride * i }

/-! ### 01_architecture.md, page kind ptp -/
def PTP_BEAT_LO.word : Fld := ⟨0x400, 0, 0, 32⟩
def PTP_BEAT_LO.BEAT_LO : Fld := ⟨0x400, 0, 0, 32⟩
def PTP_BEAT_HI.word : Fld := ⟨0x404, 0, 0, 32⟩
def PTP_BEAT_HI.BEAT_HI : Fld := ⟨0x404, 0, 0, 32⟩
def PTP_BEAT_CTL.word : Fld := ⟨0x408, 0, 0, 32⟩
def PTP_BEAT_CTL.BEAT_EN : Fld := ⟨0x408, 0, 0, 1⟩
def PTP_BEAT_CTL.HOLDOVER : Fld := ⟨0x408, 0, 1, 1⟩
def PTP_BEAT_STAGE.word : Fld := ⟨0x40C, 0, 0, 32⟩
def PTP_BEAT_STAGE.PLAN_FROZEN : Fld := ⟨0x40C, 0, 0, 3⟩
def PTP_BEAT_STAGE.ALLOW_ISSUED : Fld := ⟨0x40C, 0, 3, 1⟩
def PTP_BEAT_STAGE.PREC_READY : Fld := ⟨0x40C, 0, 4, 3⟩
def PTP_BEAT_STAGE.POS : Fld := ⟨0x40C, 0, 8, 4⟩
def PTP_BEAT_LATE.word : Fld := ⟨0x410, 0, 0, 32⟩
def PTP_BEAT_LATE.PLAN_LATE : Fld := ⟨0x410, 0, 0, 3⟩
def PTP_BEAT_LATE.ALLOW_LATE : Fld := ⟨0x410, 0, 3, 1⟩
def PTP_BEAT_LATE.PREC_LATE : Fld := ⟨0x410, 0, 4, 3⟩
def PTP_BEAT_LATE.EXEC_SKIP : Fld := ⟨0x410, 0, 7, 3⟩
def PTP_BEAT_LATE.STEP_FWD : Fld := ⟨0x410, 0, 10, 1⟩
def PTP_BEAT_LATE.STEP_BACK : Fld := ⟨0x410, 0, 11, 1⟩
def PTP_BEAT_SKIPPED.word : Fld := ⟨0x414, 0, 0, 32⟩
def PTP_BEAT_SKIPPED.SKIPPED : Fld := ⟨0x414, 0, 0, 32⟩
/-! ### 02_register_pages.md, page kind hdr -/
def PAGE_ID.word : Fld := ⟨0x0, 0, 0, 32⟩
def PAGE_ID.INSTANCE : Fld := ⟨0x0, 0, 0, 8⟩
def PAGE_ID.BLOCK : Fld := ⟨0x0, 0, 8, 8⟩
def PAGE_ID.MARK : Fld := ⟨0x0, 0, 16, 16⟩
def PAGE_VER.word : Fld := ⟨0x4, 0, 0, 32⟩
def PAGE_VER.MINOR : Fld := ⟨0x4, 0, 0, 8⟩
def PAGE_VER.MAJOR : Fld := ⟨0x4, 0, 8, 8⟩
def PAGE_VER.STEPPING : Fld := ⟨0x4, 0, 16, 8⟩
def RUN.word : Fld := ⟨0x8, 0, 0, 32⟩
def RUN.RUN : Fld := ⟨0x8, 0, 0, 1⟩
def RUN.DRAIN : Fld := ⟨0x8, 0, 1, 1⟩
def RUN.ABORT : Fld := ⟨0x8, 0, 2, 1⟩
def STATE.word : Fld := ⟨0xC, 0, 0, 32⟩
def STATE.STATE : Fld := ⟨0xC, 0, 0, 3⟩
def STATE.UNPOWERED : Fld := ⟨0xC, 0, 4, 1⟩
def STATE.IN_RESET : Fld := ⟨0xC, 0, 5, 1⟩
def INT_RAW.word : Fld := ⟨0x10, 0, 0, 32⟩
def INT_RAW.FAULT : Fld := ⟨0x10, 0, 0, 1⟩
def INT_RAW.CFG_REFUSED : Fld := ⟨0x10, 0, 1, 1⟩
def INT_RAW.STATE_DONE : Fld := ⟨0x10, 0, 2, 1⟩
def INT_RAW.BLOCK_EVENTS : Fld := ⟨0x10, 0, 8, 24⟩
def INT_EN.word : Fld := ⟨0x14, 0, 0, 32⟩
def INT_EN.EN : Fld := ⟨0x14, 0, 0, 32⟩
def INT_STAT.word : Fld := ⟨0x18, 0, 0, 32⟩
def INT_STAT.STAT : Fld := ⟨0x18, 0, 0, 32⟩
def INT_TEST.word : Fld := ⟨0x1C, 0, 0, 32⟩
def INT_TEST.TEST : Fld := ⟨0x1C, 0, 0, 32⟩
def FAULT_CODE.word : Fld := ⟨0x20, 0, 0, 32⟩
def FAULT_CODE.CODE : Fld := ⟨0x20, 0, 0, 8⟩
def FAULT_CODE.DETAIL : Fld := ⟨0x20, 0, 8, 8⟩
def FAULT_CODE.MORE : Fld := ⟨0x20, 0, 16, 8⟩
def FAULT_ADDR.word : Fld := ⟨0x24, 0, 0, 32⟩
def FAULT_ADDR.ADDR : Fld := ⟨0x24, 0, 0, 32⟩
def CFG_REJECT.word : Fld := ⟨0x28, 0, 0, 32⟩
def CFG_REJECT.VALID : Fld := ⟨0x28, 0, 0, 1⟩
def CFG_REJECT.CAUSE : Fld := ⟨0x28, 0, 1, 1⟩
def CFG_REJECT.OFFSET : Fld := ⟨0x28, 0, 2, 14⟩
def CFG_REJECT.VALUE_LO : Fld := ⟨0x28, 0, 16, 16⟩
def LOCK.word : Fld := ⟨0x2C, 0, 0, 32⟩
def LOCK.LOCK : Fld := ⟨0x2C, 0, 0, 1⟩
/-! ### 02_register_pages.md, page kind pin -/
def PIN_CLAIM_REJ_RES.word : Fld := ⟨0x80, 0, 0, 32⟩
def PIN_CLAIM_REJ_RES.INDEX : Fld := ⟨0x80, 0, 0, 10⟩
def PIN_CLAIM_REJ_RES.KIND : Fld := ⟨0x80, 0, 10, 2⟩
def PIN_CLAIM_REJ_RES.REQUESTER : Fld := ⟨0x80, 0, 16, 16⟩
def PIN_CLAIM_REJ_OWN.word : Fld := ⟨0x84, 0, 0, 32⟩
def PIN_CLAIM_REJ_OWN.OWNER : Fld := ⟨0x84, 0, 0, 16⟩
def PIN_CLAIM_REJ_CNT.word : Fld := ⟨0x88, 0, 0, 32⟩
def PIN_CLAIM_REJ_CNT.COUNT : Fld := ⟨0x88, 0, 0, 32⟩
def PIN_CLAIM_FORCED.word : Fld := ⟨0x8C, 0, 0, 32⟩
def PIN_CLAIM_FORCED.COUNT : Fld := ⟨0x8C, 0, 0, 32⟩
/-! ### 03_chain_pool.md, page kind chq -/
def CHP_QUAD_OWNER.word : Fld := ⟨0x80, 0, 0, 32⟩
def CHP_QUAD_OWNER.OWNER : Fld := ⟨0x80, 0, 0, 2⟩
def CHP_QUAD_STAT.word : Fld := ⟨0x84, 0, 0, 32⟩
def CHP_QUAD_STAT.OWNER_ACT : Fld := ⟨0x84, 0, 0, 2⟩
def CHP_QUAD_STAT.LO_OK : Fld := ⟨0x84, 0, 2, 1⟩
def CHP_QUAD_STAT.CAL_BUSY : Fld := ⟨0x84, 0, 3, 1⟩
def CHP_QUAD_STAT.CAL_VALID : Fld := ⟨0x84, 0, 4, 4⟩
def CHP_QUAD_STAT.MASKED : Fld := ⟨0x84, 0, 8, 4⟩
def CHP_QUAD_STAT.TEMP : Fld := ⟨0x84, 0, 12, 8⟩
def CHP_FEM_POL.word : Fld := ⟨0x88, 0, 0, 32⟩
def CHP_FEM_POL.POL (b : Nat) : Fld := ⟨0x88, 0, 0 + 4 * b, 4⟩
def CHP_FEM_TIME0.word : Fld := ⟨0x8C, 0, 0, 32⟩
def CHP_FEM_TIME0.T_RXOFF_TXON : Fld := ⟨0x8C, 0, 0, 8⟩
def CHP_FEM_TIME0.T_TXON_PAON : Fld := ⟨0x8C, 0, 8, 8⟩
def CHP_FEM_TIME0.T_PAON_RF : Fld := ⟨0x8C, 0, 16, 8⟩
def CHP_FEM_TIME1.word : Fld := ⟨0x90, 0, 0, 32⟩
def CHP_FEM_TIME1.T_RFEND_PAOFF : Fld := ⟨0x90, 0, 0, 8⟩
def CHP_FEM_TIME1.T_PAOFF_TXOFF : Fld := ⟨0x90, 0, 8, 8⟩
def CHP_FEM_TIME1.T_TXOFF_RXON : Fld := ⟨0x90, 0, 16, 8⟩
def CHP_CHAIN_MASK.word : Fld := ⟨0x94, 0, 0, 32⟩
def CHP_CHAIN_MASK.MASK : Fld := ⟨0x94, 0, 0, 4⟩
def CHP_PDET_LIMIT.word : Fld := ⟨0x98, 0, 0, 32⟩
def CHP_PDET_LIMIT.LIMIT : Fld := ⟨0x98, 0, 0, 10⟩
def CHP_PDET_LIMIT.LOOP_EN : Fld := ⟨0x98, 0, 16, 1⟩
def CHP_PDET_CORR.word : Fld := ⟨0x9C, 0, 0, 32⟩
def CHP_PDET_CORR.CORR (b : Nat) : Fld := ⟨0x9C, 0, 0 + 8 * b, 8⟩
def CHP_PDET.word : Fld := ⟨0xA0, 4, 0, 32⟩
def CHP_PDET.MEAN : Fld := ⟨0xA0, 4, 0, 10⟩
def CHP_PDET.PEAK : Fld := ⟨0xA0, 4, 16, 10⟩
def CHP_PDET.VALID : Fld := ⟨0xA0, 4, 31, 1⟩
def CHP_PA_OVER_CNT.word : Fld := ⟨0xB0, 0, 0, 32⟩
def CHP_PA_OVER_CNT.CNT (b : Nat) : Fld := ⟨0xB0, 0, 0 + 8 * b, 8⟩
def CHP_PDET_MAP.word : Fld := ⟨0xC0, 4, 0, 32⟩
def CHP_PDET_MAP.INTERCEPT : Fld := ⟨0xC0, 4, 0, 16⟩
def CHP_PDET_MAP.SLOPE : Fld := ⟨0xC0, 4, 16, 16⟩
/-! ### 03_chain_pool.md, page kind chs -/
def CHP_SYN_CHAN.word : Fld := ⟨0x80, 8, 0, 32⟩
def CHP_SYN_CHAN.CENTRE : Fld := ⟨0x80, 8, 0, 13⟩
def CHP_SYN_CHAN.WIDTH : Fld := ⟨0x80, 8, 13, 3⟩
def CHP_SYN_STAT.word : Fld := ⟨0x84, 8, 0, 32⟩
def CHP_SYN_STAT.SSTATE : Fld := ⟨0x84, 8, 0, 3⟩
def CHP_SYN_STAT.LAST_HOP : Fld := ⟨0x84, 8, 4, 4⟩
def CHP_SYN_STAT.CURRENT : Fld := ⟨0x84, 8, 16, 13⟩
def CHP_SYN_STAT.CUR_WIDTH : Fld := ⟨0x84, 8, 29, 3⟩
def CHP_PAIR_STAT.word : Fld := ⟨0xA0, 0, 0, 32⟩
def CHP_PAIR_STAT.AB_NONSTR : Fld := ⟨0xA0, 0, 0, 1⟩
def CHP_PAIR_STAT.AC_NONSTR : Fld := ⟨0xA0, 0, 1, 1⟩
def CHP_PAIR_STAT.BC_NONSTR : Fld := ⟨0xA0, 0, 2, 1⟩
def CHP_TX_HELD_CNT.word : Fld := ⟨0xA4, 0, 0, 32⟩
def CHP_TX_HELD_CNT.COUNT : Fld := ⟨0xA4, 0, 0, 32⟩
def CHP_TX_DROP_CNT.word : Fld := ⟨0xA8, 0, 0, 32⟩
def CHP_TX_DROP_CNT.COUNT : Fld := ⟨0xA8, 0, 0, 32⟩
def CHP_HOP_CNT.word : Fld := ⟨0xAC, 0, 0, 32⟩
def CHP_HOP_CNT.COUNT : Fld := ⟨0xAC, 0, 0, 32⟩
def CHP_UNLOCK_CNT.word : Fld := ⟨0xB0, 0, 0, 32⟩
def CHP_UNLOCK_CNT.COUNT : Fld := ⟨0xB0, 0, 0, 32⟩
def CHP_MON_FEM.word : Fld := ⟨0xB4, 0, 0, 32⟩
def CHP_MON_FEM.RXEN_POL : Fld := ⟨0xB4, 0, 0, 1⟩
def CHP_MON_FEM.LNAB_POL : Fld := ⟨0xB4, 0, 1, 1⟩
/-! ### 03_chain_pool.md, page kind chc -/
def CHP_CAL_BASE.word : Fld := ⟨0x80, 0, 0, 32⟩
def CHP_CAL_BASE.BASE : Fld := ⟨0x80, 0, 6, 26⟩
def CHP_CAL_CFG.word : Fld := ⟨0x84, 0, 0, 32⟩
def CHP_CAL_CFG.SLOTS : Fld := ⟨0x84, 0, 0, 7⟩
def CHP_CAL_CFG.TEMP_WIN : Fld := ⟨0x84, 0, 8, 8⟩
def CHP_CAL_CMD.word : Fld := ⟨0x88, 0, 0, 32⟩
def CHP_CAL_CMD.CENTRE : Fld := ⟨0x88, 0, 0, 13⟩
def CHP_CAL_CMD.WIDTH : Fld := ⟨0x88, 0, 13, 3⟩
def CHP_CAL_CMD.QUAD : Fld := ⟨0x88, 0, 16, 3⟩
def CHP_CAL_CMD.GO : Fld := ⟨0x88, 0, 31, 1⟩
def CHP_CAL_STAT.word : Fld := ⟨0x8C, 0, 0, 32⟩
def CHP_CAL_STAT.BUSY : Fld := ⟨0x8C, 0, 0, 1⟩
def CHP_CAL_STAT.QUAD : Fld := ⟨0x8C, 0, 1, 3⟩
def CHP_CAL_STAT.RESULT : Fld := ⟨0x8C, 0, 4, 4⟩
def CHP_CAL_STAT.FAILED : Fld := ⟨0x8C, 0, 8, 4⟩
def CHP_REG_STAT.word : Fld := ⟨0x90, 0, 0, 32⟩
def CHP_REG_STAT.SLOT : Fld := ⟨0x90, 0, 0, 2⟩
def CHP_REG_STAT.VALID : Fld := ⟨0x90, 0, 2, 1⟩
def CHP_REG_STAT.INDOOR : Fld := ⟨0x90, 0, 3, 1⟩
def CHP_REG_STAT.ENTRIES : Fld := ⟨0x90, 0, 8, 7⟩
def CHP_REG_STAT.DOMAIN : Fld := ⟨0x90, 0, 16, 16⟩
def CHP_CLAMP_CNT.word : Fld := ⟨0x94, 0, 0, 32⟩
def CHP_CLAMP_CNT.COUNT : Fld := ⟨0x94, 0, 0, 32⟩
def CHP_CAL_CRC_CNT.word : Fld := ⟨0xA4, 0, 0, 32⟩
def CHP_CAL_CRC_CNT.COUNT : Fld := ⟨0xA4, 0, 0, 32⟩
def CHP_CAL_WR_ERR_CNT.word : Fld := ⟨0xA8, 0, 0, 32⟩
def CHP_CAL_WR_ERR_CNT.COUNT : Fld := ⟨0xA8, 0, 0, 32⟩
def CHP_DUTY_LEFT.word : Fld := ⟨0x98, 4, 0, 32⟩
def CHP_DUTY_LEFT.LEFT : Fld := ⟨0x98, 4, 0, 24⟩
def CHP_DUTY_LEFT.LIMITED : Fld := ⟨0x98, 4, 31, 1⟩
/-! ### 04_receive_path.md, page kind rxp -/
def RXP_CFG.word : Fld := ⟨0x80, 0, 0, 32⟩
def RXP_CFG.QUAD_SET : Fld := ⟨0x80, 0, 0, 6⟩
def RXP_CFG.CHAINS : Fld := ⟨0x80, 0, 8, 5⟩
def RXP_CFG.DSSS_EN : Fld := ⟨0x80, 0, 13, 1⟩
def RXP_CFG.OBSS_DECODE : Fld := ⟨0x80, 0, 14, 1⟩
def RXP_DET.word : Fld := ⟨0x84, 0, 0, 32⟩
def RXP_DET.MIN_DET : Fld := ⟨0x84, 0, 0, 8⟩
def RXP_DET.RESTART_DB : Fld := ⟨0x84, 0, 8, 5⟩
def RXP_DET.LNAB_ON : Fld := ⟨0x84, 0, 16, 8⟩
def RXP_AGC.word : Fld := ⟨0x88, 0, 0, 32⟩
def RXP_AGC.TARGET : Fld := ⟨0x88, 0, 0, 8⟩
def RXP_AGC.STEPS : Fld := ⟨0x88, 0, 8, 2⟩
def RXP_DETECT_CFG.word : Fld := ⟨0x8C, 0, 0, 32⟩
def RXP_DETECT_CFG.OSIC_EN : Fld := ⟨0x8C, 0, 0, 1⟩
def RXP_DETECT_CFG.OSIC_MARGIN : Fld := ⟨0x8C, 0, 4, 4⟩
def RXP_DETECT_CFG.TRACK_START : Fld := ⟨0x8C, 0, 8, 5⟩
def RXP_DETECT_CFG.MU_SHIFT : Fld := ⟨0x8C, 0, 16, 4⟩
def RXP_DETECT_CFG.ITER_MAX : Fld := ⟨0x8C, 0, 24, 5⟩
def RXP_TB.word : Fld := ⟨0x90, 0, 0, 32⟩
def RXP_TB.TB_WIN : Fld := ⟨0x90, 0, 0, 6⟩
def RXP_TB.PRESENCE_DB : Fld := ⟨0x90, 0, 8, 8⟩
def RXP_REP_BASE.word : Fld := ⟨0x94, 0, 0, 32⟩
def RXP_REP_BASE.BASE : Fld := ⟨0x94, 0, 6, 26⟩
def RXP_REP_CFG.word : Fld := ⟨0x98, 0, 0, 32⟩
def RXP_REP_CFG.LOG2_N : Fld := ⟨0x98, 0, 0, 4⟩
def RXP_REP_CFG.FILTER : Fld := ⟨0x98, 0, 16, 16⟩
def RXP_REP_WR.word : Fld := ⟨0x9C, 0, 0, 32⟩
def RXP_REP_WR.WR : Fld := ⟨0x9C, 0, 0, 16⟩
def RXP_REP_RD.word : Fld := ⟨0xA0, 0, 0, 32⟩
def RXP_REP_RD.RD : Fld := ⟨0xA0, 0, 0, 16⟩
def RXP_NF_CFG.word : Fld := ⟨0xA4, 0, 0, 32⟩
def RXP_NF_CFG.MIN_IDLE : Fld := ⟨0xA4, 0, 0, 12⟩
def RXP_NF.word : Fld := ⟨0xC0, 4, 0, 32⟩
def RXP_NF.MEAN : Fld := ⟨0xC0, 4, 0, 8⟩
def RXP_NF.MAX : Fld := ⟨0xC0, 4, 8, 8⟩
def RXP_NF.MIN : Fld := ⟨0xC0, 4, 16, 8⟩
def RXP_NF.MAXCH : Fld := ⟨0xC0, 4, 24, 4⟩
def RXP_NF.VALID : Fld := ⟨0xC0, 4, 31, 1⟩
/-! ### 05_transmit_precoding.md, page kind txp -/
def TXP_CFG.word : Fld := ⟨0x80, 0, 0, 32⟩
def TXP_CFG.QUAD_SET : Fld := ⟨0x80, 0, 0, 6⟩
def TXP_CFG.CHAINS : Fld := ⟨0x80, 0, 8, 5⟩
def TXP_CFG.PRESCALE_EN : Fld := ⟨0x80, 0, 13, 1⟩
def TXP_CFG.IMPLICIT_EN : Fld := ⟨0x80, 0, 14, 1⟩
def TXP_PREC_CFG.word : Fld := ⟨0x84, 0, 0, 32⟩
def TXP_PREC_CFG.AGE_MAX : Fld := ⟨0x84, 0, 0, 8⟩
def TXP_PREC_CFG.FB_MODE : Fld := ⟨0x84, 0, 8, 2⟩
def TXP_PREC_CFG.MCS_DROP : Fld := ⟨0x84, 0, 12, 3⟩
def TXP_PREC_CFG.NULL_MIN : Fld := ⟨0x84, 0, 16, 8⟩
def TXP_SOUND_CFG.word : Fld := ⟨0x88, 0, 0, 32⟩
def TXP_SOUND_CFG.NSD : Fld := ⟨0x88, 0, 0, 4⟩
def TXP_SOUND_CFG.IMPL_NG : Fld := ⟨0x88, 0, 4, 1⟩
def TXP_SOUND_CFG.IMPL_SNR : Fld := ⟨0x88, 0, 8, 8⟩
def TXP_CHREC_BASE.word : Fld := ⟨0x8C, 0, 0, 32⟩
def TXP_CHREC_BASE.BASE : Fld := ⟨0x8C, 0, 0, 24⟩
def TXP_CHREC_CFG.word : Fld := ⟨0x90, 0, 0, 32⟩
def TXP_CHREC_CFG.SLOT_LOG2 : Fld := ⟨0x90, 0, 0, 5⟩
def TXP_RCAL_CMD.word : Fld := ⟨0x94, 0, 0, 32⟩
def TXP_RCAL_CMD.REF : Fld := ⟨0x94, 0, 0, 4⟩
def TXP_RCAL_CMD.GO : Fld := ⟨0x94, 0, 31, 1⟩
def TXP_RCAL_STAT.word : Fld := ⟨0x98, 0, 0, 32⟩
def TXP_RCAL_STAT.BUSY : Fld := ⟨0x98, 0, 0, 1⟩
def TXP_RCAL_STAT.RESULT : Fld := ⟨0x98, 0, 1, 3⟩
def TXP_RCAL_STAT.FAILED : Fld := ⟨0x98, 0, 16, 16⟩
def TXP_RECIP.word : Fld := ⟨0x400, 4, 0, 32⟩
def TXP_RECIP.I : Fld := ⟨0x400, 4, 0, 16⟩
def TXP_RECIP.Q : Fld := ⟨0x400, 4, 16, 16⟩
/-! ### 06_wlan_mac.md, page kind mac -/
def MAC_CFG.word : Fld := ⟨0x80, 0, 0, 32⟩
def MAC_CFG.BSS_COLOR : Fld := ⟨0x80, 0, 0, 6⟩
def MAC_CFG.DYN_PUNCT : Fld := ⟨0x80, 0, 6, 1⟩
def MAC_CFG.OBSS_PD_EN : Fld := ⟨0x80, 0, 7, 1⟩
def MAC_CFG.COORD_PD_EN : Fld := ⟨0x80, 0, 8, 1⟩
def MAC_CFG.ALIGN_TOL : Fld := ⟨0x80, 0, 16, 8⟩
def MAC_CFG.RETRY_MAX : Fld := ⟨0x80, 0, 24, 4⟩
def MAC_CFG.NF_CAND : Fld := ⟨0x80, 0, 28, 4⟩
def MAC_EDCA.word : Fld := ⟨0x84, 4, 0, 32⟩
def MAC_EDCA.AIFSN : Fld := ⟨0x84, 4, 0, 4⟩
def MAC_EDCA.ECWMIN : Fld := ⟨0x84, 4, 4, 4⟩
def MAC_EDCA.ECWMAX : Fld := ⟨0x84, 4, 8, 4⟩
def MAC_EDCA.TXOP : Fld := ⟨0x84, 4, 16, 12⟩
def MAC_CCA.word : Fld := ⟨0x94, 0, 0, 32⟩
def MAC_CCA.ED_THR : Fld := ⟨0x94, 0, 0, 8⟩
def MAC_CCA.PD_THR : Fld := ⟨0x94, 0, 8, 8⟩
def MAC_CCA.OBSS_PD : Fld := ⟨0x94, 0, 16, 8⟩
def MAC_CCA.COORD_PD : Fld := ⟨0x94, 0, 24, 8⟩
def MAC_FTM_DLY.word : Fld := ⟨0x98, 0, 0, 32⟩
def MAC_FTM_DLY.FTM_TX_DLY : Fld := ⟨0x98, 0, 0, 16⟩
def MAC_FTM_DLY.FTM_RX_DLY : Fld := ⟨0x98, 0, 16, 16⟩
def MAC_TSF_OFS_LO.word : Fld := ⟨0xA0, 0, 0, 32⟩
def MAC_TSF_OFS_LO.OFS : Fld := ⟨0xA0, 0, 0, 32⟩
def MAC_TSF_OFS_HI.word : Fld := ⟨0xA4, 0, 0, 32⟩
def MAC_TSF_OFS_HI.OFS : Fld := ⟨0xA4, 0, 0, 32⟩
def MAC_BCN_BASE.word : Fld := ⟨0xA8, 0, 0, 32⟩
def MAC_BCN_BASE.BASE : Fld := ⟨0xA8, 0, 11, 21⟩
def MAC_PUNCT_CAND.word : Fld := ⟨0xAC, 0, 0, 32⟩
def MAC_PUNCT_CAND.CAND : Fld := ⟨0xAC, 0, 0, 16⟩
def MAC_BSSID.word0 : Fld := ⟨0x200, 16, 0, 32⟩
def MAC_BSSID.ADDR_LO : Fld := ⟨0x200, 16, 0, 32⟩
def MAC_BSSID.word1 : Fld := ⟨0x204, 16, 0, 32⟩
def MAC_BSSID.ADDR_HI : Fld := ⟨0x204, 16, 0, 16⟩
def MAC_BSSID.EN : Fld := ⟨0x204, 16, 16, 1⟩
def MAC_BSSID.TX_BSSID : Fld := ⟨0x204, 16, 17, 1⟩
def MAC_BSSID.TXB : Fld := ⟨0x204, 16, 18, 4⟩
def MAC_BSSID.BCN_OFS : Fld := ⟨0x204, 16, 22, 10⟩
def MAC_BSSID.word2 : Fld := ⟨0x208, 16, 0, 32⟩
def MAC_BSSID.BCN_INT : Fld := ⟨0x208, 16, 0, 16⟩
def MAC_BSSID.DTIM_PERIOD : Fld := ⟨0x208, 16, 16, 8⟩
def MAC_BSSID.word3 : Fld := ⟨0x20C, 16, 0, 32⟩
def MAC_BSSID.GTK_SLOT : Fld := ⟨0x20C, 16, 0, 9⟩
def MAC_BSSID.IGTK_SLOT : Fld := ⟨0x20C, 16, 9, 9⟩
def MAC_BSSID.BIGTK_SLOT : Fld := ⟨0x20C, 16, 18, 9⟩
def MAC_TBTT.word0 : Fld := ⟨0x300, 8, 0, 32⟩
def MAC_TBTT.BEAT_LO : Fld := ⟨0x300, 8, 0, 32⟩
def MAC_TBTT.word1 : Fld := ⟨0x304, 8, 0, 32⟩
def MAC_TBTT.OFS : Fld := ⟨0x304, 8, 0, 12⟩
def MAC_TBTT.DTIM : Fld := ⟨0x304, 8, 12, 1⟩
/-! ### 06_wlan_mac.md, page kind mas -/
def MAC_STA_BASE.word : Fld := ⟨0x80, 0, 0, 32⟩
def MAC_STA_BASE.BASE : Fld := ⟨0x80, 0, 6, 26⟩
def MAC_SEQ_BASE.word : Fld := ⟨0x84, 0, 0, 32⟩
def MAC_SEQ_BASE.BASE : Fld := ⟨0x84, 0, 0, 24⟩
def MAC_RO_BASE.word : Fld := ⟨0x88, 0, 0, 32⟩
def MAC_RO_BASE.BASE : Fld := ⟨0x88, 0, 0, 24⟩
def MAC_TWT_BASE.word : Fld := ⟨0x94, 0, 0, 32⟩
def MAC_TWT_BASE.BASE : Fld := ⟨0x94, 0, 0, 24⟩
def MAC_RO_CFG.word : Fld := ⟨0x8C, 0, 0, 32⟩
def MAC_RO_CFG.ENTRIES : Fld := ⟨0x8C, 0, 0, 19⟩
def MAC_RX_CFG.word : Fld := ⟨0x90, 0, 0, 32⟩
def MAC_RX_CFG.REORDER_TO : Fld := ⟨0x90, 0, 0, 16⟩
def MAC_RX_CFG.CONV_ETH : Fld := ⟨0x90, 0, 16, 1⟩
def MAC_STA_CMD.word : Fld := ⟨0x98, 0, 0, 32⟩
def MAC_STA_CMD.STA : Fld := ⟨0x98, 0, 0, 11⟩
def MAC_STA_CMD.OP : Fld := ⟨0x98, 0, 12, 3⟩
def MAC_STA_CMD.TIDS : Fld := ⟨0x98, 0, 16, 8⟩
def MAC_STA_CMD.GO : Fld := ⟨0x98, 0, 31, 1⟩
def MAC_STA_STAT.word : Fld := ⟨0x9C, 0, 0, 32⟩
def MAC_STA_STAT.BUSY : Fld := ⟨0x9C, 0, 0, 1⟩
def MAC_STA_STAT.RESULT : Fld := ⟨0x9C, 0, 1, 3⟩
def MAC_STA_STAT.STA : Fld := ⟨0x9C, 0, 16, 11⟩
def MAC_APMLD.word0 : Fld := ⟨0x200, 8, 0, 32⟩
def MAC_APMLD.ADDR_LO : Fld := ⟨0x200, 8, 0, 32⟩
def MAC_APMLD.word1 : Fld := ⟨0x204, 8, 0, 32⟩
def MAC_APMLD.ADDR_HI : Fld := ⟨0x204, 8, 0, 16⟩
def MAC_APMLD.EN : Fld := ⟨0x204, 8, 16, 1⟩
def MAC_KEYSLOT.word0 : Fld := ⟨0x4000, 16, 0, 32⟩
def MAC_KEYSLOT.STATE : Fld := ⟨0x4000, 16, 0, 2⟩
def MAC_KEYSLOT.CIPHER : Fld := ⟨0x4000, 16, 2, 3⟩
def MAC_KEYSLOT.KEYID : Fld := ⟨0x4000, 16, 5, 3⟩
def MAC_KEYSLOT.word1 : Fld := ⟨0x4004, 16, 0, 32⟩
def MAC_KEYSLOT.TX_PN_LO : Fld := ⟨0x4004, 16, 0, 32⟩
def MAC_KEYSLOT.word2 : Fld := ⟨0x4008, 16, 0, 32⟩
def MAC_KEYSLOT.TX_PN_HI : Fld := ⟨0x4008, 16, 0, 16⟩
/-! ### 07_air_scheduler.md, page kind air -/
def AIR_PLAN_BASE.word : Fld := ⟨0x80, 0, 0, 32⟩
def AIR_PLAN_BASE.BASE : Fld := ⟨0x80, 0, 17, 15⟩
def AIR_CFG.word : Fld := ⟨0x84, 0, 0, 32⟩
def AIR_CFG.MAX_PPDU : Fld := ⟨0x84, 0, 0, 6⟩
def AIR_CFG.MAP_SRC : Fld := ⟨0x84, 0, 6, 1⟩
def AIR_CFG.JOB_BUDGET : Fld := ⟨0x84, 0, 8, 12⟩
def AIR_POLICY.word : Fld := ⟨0x88, 0, 0, 32⟩
def AIR_POLICY.RU_MIN : Fld := ⟨0x88, 0, 0, 3⟩
def AIR_POLICY.RU_MAX : Fld := ⟨0x88, 0, 3, 3⟩
def AIR_POLICY.MU_MAX : Fld := ⟨0x88, 0, 6, 4⟩
def AIR_POLICY.MAX_USERS : Fld := ⟨0x88, 0, 10, 8⟩
def AIR_POLICY.TX_PSD : Fld := ⟨0x88, 0, 18, 8⟩
def AIR_POLICY.LADDER_KEEP : Fld := ⟨0x88, 0, 26, 3⟩
def AIR_POLICY.MCS_MARGIN : Fld := ⟨0x88, 0, 29, 3⟩
def AIR_POLICY2.word : Fld := ⟨0x8C, 0, 0, 32⟩
def AIR_POLICY2.LADDER_EN : Fld := ⟨0x8C, 0, 0, 4⟩
def AIR_POLICY2.QUANTUM : Fld := ⟨0x8C, 0, 4, 12⟩
def AIR_POLICY2.SOUND_AGE : Fld := ⟨0x8C, 0, 16, 8⟩
def AIR_POLICY2.GROUP_CORR : Fld := ⟨0x8C, 0, 24, 8⟩
def AIR_UL.word : Fld := ⟨0x90, 0, 0, 32⟩
def AIR_UL.UL_TARGET : Fld := ⟨0x90, 0, 0, 8⟩
def AIR_UL.UL_SPREAD : Fld := ⟨0x90, 0, 8, 5⟩
def AIR_UL.UL_USERS_MAX : Fld := ⟨0x90, 0, 16, 8⟩
def AIR_UL.BSRP_AGE : Fld := ⟨0x90, 0, 24, 8⟩
def AIR_ROUND_MAP.word : Fld := ⟨0x94, 0, 0, 32⟩
def AIR_ROUND_MAP.TYPE (b : Nat) : Fld := ⟨0x94, 0, 0 + 2 * b, 2⟩
def AIR_PREC_CFG.word : Fld := ⟨0x98, 0, 0, 32⟩
def AIR_PREC_CFG.ENTRY_LO : Fld := ⟨0x98, 0, 0, 9⟩
def AIR_PREC_CFG.ENTRY_HI : Fld := ⟨0x98, 0, 16, 9⟩
def AIR_PREC_LINES.word : Fld := ⟨0x9C, 0, 0, 32⟩
def AIR_PREC_LINES.LINE_LO : Fld := ⟨0x9C, 0, 0, 15⟩
def AIR_PREC_LINES.LINE_HI : Fld := ⟨0x9C, 0, 16, 15⟩
def AIR_PREC_REG.word : Fld := ⟨0xA0, 0, 0, 32⟩
def AIR_PREC_REG.REG : Fld := ⟨0xA0, 0, 0, 16⟩
def AIR_PREC_REG.PREC_REFRESH : Fld := ⟨0xA0, 0, 16, 8⟩
def AIR_LAST0.word : Fld := ⟨0xA4, 0, 0, 32⟩
def AIR_LAST0.BEAT_LO : Fld := ⟨0xA4, 0, 0, 32⟩
def AIR_LAST1.word : Fld := ⟨0xA8, 0, 0, 32⟩
def AIR_LAST1.COST : Fld := ⟨0xA8, 0, 0, 24⟩
def AIR_LAST1.LADDER : Fld := ⟨0xA8, 0, 24, 5⟩
def AIR_LAST1.FALLBACK : Fld := ⟨0xA8, 0, 29, 1⟩
def AIR_LAST1.SKIP : Fld := ⟨0xA8, 0, 30, 1⟩
def AIR_LAST2.word : Fld := ⟨0xAC, 0, 0, 32⟩
def AIR_LAST2.FLOOR : Fld := ⟨0xAC, 0, 0, 24⟩
def AIR_LAST2.NPPDU : Fld := ⟨0xAC, 0, 24, 6⟩
/-! ### 07_air_scheduler.md, page kind ais -/
def AIR_QPOOL_BASE.word : Fld := ⟨0x80, 0, 0, 32⟩
def AIR_QPOOL_BASE.BASE : Fld := ⟨0x80, 0, 0, 24⟩
def AIR_QPOOL_CFG.word : Fld := ⟨0x84, 0, 0, 32⟩
def AIR_QPOOL_CFG.ENTRIES : Fld := ⟨0x84, 0, 0, 21⟩
def AIR_QPOOL_CFG.LOW_MARK : Fld := ⟨0x84, 0, 24, 8⟩
def AIR_POOL_FREE.word : Fld := ⟨0x88, 0, 0, 32⟩
def AIR_POOL_FREE.FREE : Fld := ⟨0x88, 0, 0, 21⟩
def AIR_UL_CLASS.word : Fld := ⟨0x8C, 0, 0, 32⟩
def AIR_UL_CLASS.CLASS (b : Nat) : Fld := ⟨0x8C, 0, 0 + 3 * b, 3⟩
def AIR_ECOST_RES.word : Fld := ⟨0x90, 0, 0, 32⟩
def AIR_ECOST_RES.RESP_RES : Fld := ⟨0x90, 0, 0, 16⟩
def AIR_ECOST_BB.word : Fld := ⟨0x94, 0, 0, 32⟩
def AIR_ECOST_BB.BB_TX : Fld := ⟨0x94, 0, 0, 12⟩
def AIR_ECOST_BB.BB_TONE : Fld := ⟨0x94, 0, 12, 8⟩
def AIR_ECOST_BB.RESP_CH : Fld := ⟨0x94, 0, 20, 12⟩
def AIR_ECOST.word : Fld := ⟨0x98, 4, 0, 32⟩
def AIR_ECOST.PA_IDLE : Fld := ⟨0x98, 4, 0, 12⟩
def AIR_ECOST.PA_SLOPE : Fld := ⟨0x98, 4, 12, 16⟩
def AIR_ADM_CMD0.word : Fld := ⟨0xA4, 0, 0, 32⟩
def AIR_ADM_CMD0.RESV : Fld := ⟨0xA4, 0, 0, 16⟩
def AIR_ADM_CMD0.INDEX : Fld := ⟨0xA4, 0, 16, 10⟩
def AIR_ADM_CMD0.OP : Fld := ⟨0xA4, 0, 26, 2⟩
def AIR_ADM_CMD0.GO : Fld := ⟨0xA4, 0, 31, 1⟩
def AIR_ADM_CMD1.word : Fld := ⟨0xA8, 0, 0, 32⟩
def AIR_ADM_CMD1.STA : Fld := ⟨0xA8, 0, 0, 11⟩
def AIR_ADM_CMD1.CLASS : Fld := ⟨0xA8, 0, 11, 3⟩
def AIR_ADM_CMD1.DIR : Fld := ⟨0xA8, 0, 14, 1⟩
def AIR_ADM_CMD1.RADIO : Fld := ⟨0xA8, 0, 15, 2⟩
def AIR_ADM_STAT.word : Fld := ⟨0xAC, 0, 0, 32⟩
def AIR_ADM_STAT.BUSY : Fld := ⟨0xAC, 0, 0, 1⟩
def AIR_ADM_STAT.RESULT : Fld := ⟨0xAC, 0, 1, 3⟩
def AIR_ADM_STAT.INDEX : Fld := ⟨0xAC, 0, 16, 10⟩
def AIR_ADM_LIMIT.word : Fld := ⟨0xB0, 0, 0, 32⟩
def AIR_ADM_LIMIT.ADM_LIMIT : Fld := ⟨0xB0, 0, 0, 16⟩
def AIR_CLASS.word0 : Fld := ⟨0x100, 8, 0, 32⟩
def AIR_CLASS.WEIGHT : Fld := ⟨0x100, 8, 0, 8⟩
def AIR_CLASS.STRICT : Fld := ⟨0x100, 8, 8, 1⟩
def AIR_CLASS.ADM_REQ : Fld := ⟨0x100, 8, 9, 1⟩
def AIR_CLASS.ADM_DEMOTE : Fld := ⟨0x100, 8, 10, 1⟩
def AIR_CLASS.DEMOTE_TO : Fld := ⟨0x100, 8, 11, 3⟩
def AIR_CLASS.MAX_AGE : Fld := ⟨0x100, 8, 16, 16⟩
def AIR_CLASS.word1 : Fld := ⟨0x104, 8, 0, 32⟩
def AIR_CLASS.QLIM : Fld := ⟨0x104, 8, 0, 16⟩
def AIR_CLASS.CLASS_LIM : Fld := ⟨0x104, 8, 16, 16⟩
def AIR_FLOW.word0 : Fld := ⟨0x1000, 8, 0, 32⟩
def AIR_FLOW.VALID : Fld := ⟨0x1000, 8, 0, 1⟩
def AIR_FLOW.DIR : Fld := ⟨0x1000, 8, 1, 1⟩
def AIR_FLOW.CLASS : Fld := ⟨0x1000, 8, 2, 3⟩
def AIR_FLOW.STA : Fld := ⟨0x1000, 8, 5, 11⟩
def AIR_FLOW.RADIO : Fld := ⟨0x1000, 8, 16, 2⟩
def AIR_FLOW.word1 : Fld := ⟨0x1004, 8, 0, 32⟩
def AIR_FLOW.RESV : Fld := ⟨0x1004, 8, 0, 16⟩
def AIR_FLOW.USED : Fld := ⟨0x1004, 8, 16, 16⟩
def AIR_CNT_OUT.word : Fld := ⟨0x400, 4, 0, 32⟩
def AIR_CNT_OUT.COUNT : Fld := ⟨0x400, 4, 0, 32⟩
/-! ### 08_venue_coordination.md, page kind ven -/
def VEN_CFG.word : Fld := ⟨0x80, 0, 0, 32⟩
def VEN_CFG.AP_ID : Fld := ⟨0x80, 0, 0, 11⟩
def VEN_CFG.PORT : Fld := ⟨0x80, 0, 12, 3⟩
def VEN_CFG.AUTH_EN : Fld := ⟨0x80, 0, 15, 1⟩
def VEN_CFG.DOMAIN : Fld := ⟨0x80, 0, 16, 16⟩
def VEN_DA_LO.word : Fld := ⟨0x84, 0, 0, 32⟩
def VEN_DA_LO.DA_LO : Fld := ⟨0x84, 0, 0, 32⟩
def VEN_DA_HI.word : Fld := ⟨0x88, 0, 0, 32⟩
def VEN_DA_HI.DA_HI : Fld := ⟨0x88, 0, 0, 16⟩
def VEN_DA_HI.VID : Fld := ⟨0x88, 0, 16, 12⟩
def VEN_DA_HI.PCP : Fld := ⟨0x88, 0, 28, 3⟩
def VEN_DA_HI.TAG_EN : Fld := ⟨0x88, 0, 31, 1⟩
def VEN_MAP.word : Fld := ⟨0x8C, 0, 0, 32⟩
def VEN_MAP.TYPE (b : Nat) : Fld := ⟨0x8C, 0, 0 + 2 * b, 2⟩
def VEN_LISTEN.word : Fld := ⟨0x90, 0, 0, 32⟩
def VEN_LISTEN.LISTEN : Fld := ⟨0x90, 0, 0, 16⟩
def VEN_SOLO_MAP.word : Fld := ⟨0x94, 0, 0, 32⟩
def VEN_SOLO_MAP.TYPE (b : Nat) : Fld := ⟨0x94, 0, 0 + 2 * b, 2⟩
def VEN_TIMING.word : Fld := ⟨0x98, 0, 0, 32⟩
def VEN_TIMING.SEND_POS : Fld := ⟨0x98, 0, 0, 4⟩
def VEN_TIMING.OFS_LIMIT : Fld := ⟨0x98, 0, 8, 8⟩
def VEN_TIMING.HOLD_ROUNDS : Fld := ⟨0x98, 0, 16, 16⟩
def VEN_NULL.word : Fld := ⟨0x9C, 0, 0, 32⟩
def VEN_NULL.NULL_PER_SPAN : Fld := ⟨0x9C, 0, 0, 4⟩
def VEN_NULL.NULL_AGE : Fld := ⟨0x9C, 0, 8, 8⟩
def VEN_NULL.REQ_SNR : Fld := ⟨0x9C, 0, 16, 8⟩
def VEN_NULL.NG : Fld := ⟨0x9C, 0, 24, 1⟩
def VEN_AUTH_CTX.word : Fld := ⟨0xA0, 0, 0, 32⟩
def VEN_AUTH_CTX.CTX : Fld := ⟨0xA0, 0, 0, 8⟩
def VEN_STAT.word : Fld := ⟨0xA4, 0, 0, 32⟩
def VEN_STAT.TIME_OK : Fld := ⟨0xA4, 0, 0, 1⟩
def VEN_STAT.HOLDOVER : Fld := ⟨0xA4, 0, 1, 1⟩
def VEN_STAT.NCOORD : Fld := ⟨0xA4, 0, 2, 6⟩
def VEN_STAT.HOLD_CNT : Fld := ⟨0xA4, 0, 16, 16⟩
def VEN_NBR_CMD.word : Fld := ⟨0xA8, 0, 0, 32⟩
def VEN_NBR_CMD.INDEX : Fld := ⟨0xA8, 0, 0, 5⟩
def VEN_NBR_CMD.AP_ID : Fld := ⟨0xA8, 0, 8, 11⟩
def VEN_NBR_CMD.OP : Fld := ⟨0xA8, 0, 20, 2⟩
def VEN_NBR_CMD.GO : Fld := ⟨0xA8, 0, 31, 1⟩
def VEN_NBR_STAT.word : Fld := ⟨0xAC, 0, 0, 32⟩
def VEN_NBR_STAT.BUSY : Fld := ⟨0xAC, 0, 0, 1⟩
def VEN_NBR_STAT.RESULT : Fld := ⟨0xAC, 0, 1, 3⟩
def VEN_LAST_UNLISTED.word : Fld := ⟨0xB0, 0, 0, 32⟩
def VEN_LAST_UNLISTED.AP_ID : Fld := ⟨0xB0, 0, 0, 11⟩
def VEN_LAST_UNLISTED.ROUND : Fld := ⟨0xB0, 0, 16, 16⟩
def VEN_EDGE_BASE.word : Fld := ⟨0xB4, 0, 0, 32⟩
def VEN_EDGE_BASE.NEDGE : Fld := ⟨0xB4, 0, 0, 6⟩
def VEN_EDGE.word : Fld := ⟨0x400, 4, 0, 32⟩
def VEN_EDGE.ENTRY : Fld := ⟨0x400, 4, 0, 32⟩
def VEN_NBR.word0 : Fld := ⟨0x200, 16, 0, 32⟩
def VEN_NBR.STATUS : Fld := ⟨0x200, 16, 0, 4⟩
def VEN_NBR.MISS : Fld := ⟨0x200, 16, 4, 2⟩
def VEN_NBR.AP_ID : Fld := ⟨0x200, 16, 8, 11⟩
def VEN_NBR.HAS_OFS : Fld := ⟨0x200, 16, 19, 1⟩
def VEN_NBR.NRADIO : Fld := ⟨0x200, 16, 20, 2⟩
def VEN_NBR.NEDGE : Fld := ⟨0x200, 16, 22, 6⟩
def VEN_NBR.word1 : Fld := ⟨0x204, 16, 0, 32⟩
def VEN_NBR.OFFSET : Fld := ⟨0x204, 16, 0, 32⟩
def VEN_NBR.word2 : Fld := ⟨0x208, 16, 0, 32⟩
def VEN_NBR.RTD : Fld := ⟨0x208, 16, 0, 32⟩
def VEN_NBR.word3 : Fld := ⟨0x20C, 16, 0, 32⟩
def VEN_NBR.LAST_ROUND : Fld := ⟨0x20C, 16, 0, 32⟩
def VEN_FSLOT.word : Fld := ⟨0x1000, 4, 0, 32⟩
def VEN_FSLOT.AID : Fld := ⟨0x1000, 4, 0, 11⟩
def VEN_FSLOT.RADIO : Fld := ⟨0x1000, 4, 11, 2⟩
def VEN_FSLOT.REQ : Fld := ⟨0x1000, 4, 13, 1⟩
def VEN_FSLOT.VALID : Fld := ⟨0x1000, 4, 14, 1⟩
def VEN_FSLOT.LEARNED : Fld := ⟨0x1000, 4, 15, 3⟩
def VEN_FSLOT.SNR : Fld := ⟨0x1000, 4, 24, 8⟩
/-! ### 09_tag_lane.md, page kind tag -/
def TAG_CFG.word : Fld := ⟨0x80, 0, 0, 32⟩
def TAG_CFG.OQPSK_EN : Fld := ⟨0x80, 0, 0, 1⟩
def TAG_CFG.G1M_EN : Fld := ⟨0x80, 0, 1, 1⟩
def TAG_CFG.G2M_EN : Fld := ⟨0x80, 0, 2, 1⟩
def TAG_CFG.FCS32 : Fld := ⟨0x80, 0, 3, 1⟩
def TAG_CFG.AUTO_ACK : Fld := ⟨0x80, 0, 4, 1⟩
def TAG_CFG.PROMISC : Fld := ⟨0x80, 0, 5, 1⟩
def TAG_CFG.SYNC_ERR : Fld := ⟨0x80, 0, 6, 2⟩
def TAG_CFG.ANTSW_EN : Fld := ⟨0x80, 0, 8, 1⟩
def TAG_CFG.ANTSW_BALL : Fld := ⟨0x80, 0, 9, 9⟩
def TAG_RX_CHAN.word : Fld := ⟨0x84, 0, 0, 32⟩
def TAG_RX_CHAN.CENTRE : Fld := ⟨0x84, 0, 0, 12⟩
def TAG_PAN.word : Fld := ⟨0x88, 0, 0, 32⟩
def TAG_PAN.PAN_ID : Fld := ⟨0x88, 0, 0, 16⟩
def TAG_PAN.SHORT : Fld := ⟨0x88, 0, 16, 16⟩
def TAG_EXT_LO.word : Fld := ⟨0x8C, 0, 0, 32⟩
def TAG_EXT_LO.EXT : Fld := ⟨0x8C, 0, 0, 32⟩
def TAG_EXT_HI.word : Fld := ⟨0x90, 0, 0, 32⟩
def TAG_EXT_HI.EXT : Fld := ⟨0x90, 0, 0, 32⟩
def TAG_SYNC.word : Fld := ⟨0x94, 0, 0, 32⟩
def TAG_SYNC.SYNC : Fld := ⟨0x94, 0, 0, 32⟩
def TAG_TXPWR.word : Fld := ⟨0x98, 0, 0, 32⟩
def TAG_TXPWR.TX_PWR : Fld := ⟨0x98, 0, 0, 8⟩
def TAG_GAIN.word : Fld := ⟨0x9C, 0, 0, 32⟩
def TAG_GAIN.GAIN : Fld := ⟨0x9C, 0, 0, 8⟩
def TAG_LBT.word : Fld := ⟨0xA0, 0, 0, 32⟩
def TAG_LBT.CCA_SLOT : Fld := ⟨0xA0, 0, 0, 8⟩
def TAG_LBT.ECCA_MAX : Fld := ⟨0xA0, 0, 8, 6⟩
def TAG_LBT.TL : Fld := ⟨0xA0, 0, 16, 8⟩
def TAG_LBT.COT_MAX : Fld := ⟨0xA0, 0, 24, 4⟩
def TAG_BCN.word : Fld := ⟨0xA4, 0, 0, 32⟩
def TAG_BCN.BCN_BEATS : Fld := ⟨0xA4, 0, 0, 12⟩
def TAG_BCN.BCN_PHASE : Fld := ⟨0xA4, 0, 12, 12⟩
def TAG_BCN.BCN_RATE : Fld := ⟨0xA4, 0, 24, 1⟩
def TAG_BCN_WIN.word : Fld := ⟨0xA8, 0, 0, 32⟩
def TAG_BCN_WIN.BCN_OFS : Fld := ⟨0xA8, 0, 0, 16⟩
def TAG_BCN_WIN.BCN_WIN : Fld := ⟨0xA8, 0, 16, 16⟩
def TAG_BCN_CHAN.word : Fld := ⟨0xAC, 0, 0, 32⟩
def TAG_BCN_CHAN.PRI : Fld := ⟨0xAC, 0, 0, 12⟩
def TAG_BCN_CHAN.ALT : Fld := ⟨0xAC, 0, 16, 12⟩
def TAG_BCN_STAT.word : Fld := ⟨0xB0, 0, 0, 32⟩
def TAG_BCN_STAT.LOST_RUN : Fld := ⟨0xB0, 0, 0, 2⟩
def TAG_BCN_STAT.MOVES : Fld := ⟨0xB0, 0, 8, 8⟩
def TAG_DFE.word : Fld := ⟨0xB4, 0, 0, 32⟩
def TAG_DFE.FF_TAPS : Fld := ⟨0xB4, 0, 0, 4⟩
def TAG_DFE.FB_TAPS : Fld := ⟨0xB4, 0, 4, 4⟩
def TAG_DFE.MU_SHIFT : Fld := ⟨0xB4, 0, 8, 4⟩
def TAG_DFE.DFE_EN : Fld := ⟨0xB4, 0, 12, 1⟩
def TAG_WAKE.word : Fld := ⟨0xB8, 0, 0, 32⟩
def TAG_WAKE.ERR_TOL : Fld := ⟨0xB8, 0, 0, 16⟩
def TAG_WAKE.JITTER : Fld := ⟨0xB8, 0, 16, 8⟩
def TAG_WAKE.ALPHA : Fld := ⟨0xB8, 0, 24, 4⟩
def TAG_WAKE.RETRY : Fld := ⟨0xB8, 0, 28, 4⟩
def TAG_WAKE2.word : Fld := ⟨0xBC, 0, 0, 32⟩
def TAG_WAKE2.BURST_GAP : Fld := ⟨0xBC, 0, 0, 8⟩
def TAG_WAKE2.DATA_GAP : Fld := ⟨0xBC, 0, 16, 16⟩
def TAG_TABLE_BASE.word : Fld := ⟨0xC0, 0, 0, 32⟩
def TAG_TABLE_BASE.BASE : Fld := ⟨0xC0, 0, 5, 27⟩
def TAG_EVT_BASE.word : Fld := ⟨0xC4, 0, 0, 32⟩
def TAG_EVT_BASE.BASE : Fld := ⟨0xC4, 0, 5, 27⟩
def TAG_TXQ_BASE.word : Fld := ⟨0xD4, 0, 0, 32⟩
def TAG_TXQ_BASE.BASE : Fld := ⟨0xD4, 0, 5, 27⟩
def TAG_RING_CFG.word : Fld := ⟨0xC8, 0, 0, 32⟩
def TAG_RING_CFG.EVT_LOG2 : Fld := ⟨0xC8, 0, 0, 4⟩
def TAG_RING_CFG.TXQ_LOG2 : Fld := ⟨0xC8, 0, 8, 4⟩
def TAG_EVT_WR.word : Fld := ⟨0xCC, 0, 0, 32⟩
def TAG_EVT_WR.INDEX : Fld := ⟨0xCC, 0, 0, 16⟩
def TAG_EVT_RD.word : Fld := ⟨0xD0, 0, 0, 32⟩
def TAG_EVT_RD.INDEX : Fld := ⟨0xD0, 0, 0, 16⟩
def TAG_TXQ_WR.word : Fld := ⟨0xD8, 0, 0, 32⟩
def TAG_TXQ_WR.INDEX : Fld := ⟨0xD8, 0, 0, 16⟩
def TAG_TXQ_RD.word : Fld := ⟨0xDC, 0, 0, 32⟩
def TAG_TXQ_RD.INDEX : Fld := ⟨0xDC, 0, 0, 16⟩
/-! ### 10_koveton_dsp.md, page kind kcl -/
def KOV_JOB_POST.word : Fld := ⟨0x80, 0, 0, 32⟩
def KOV_JOB_POST.DESC : Fld := ⟨0x80, 0, 0, 30⟩
def KOV_JQ_DEPTH.word : Fld := ⟨0x84, 0, 0, 32⟩
def KOV_JQ_DEPTH.DEPTH : Fld := ⟨0x84, 0, 0, 10⟩
def KOV_JQ_DEPTH.PEAK : Fld := ⟨0x84, 0, 16, 10⟩
def KOV_JC_BASE.word : Fld := ⟨0x88, 0, 0, 32⟩
def KOV_JC_BASE.BASE : Fld := ⟨0x88, 0, 0, 24⟩
def KOV_JC_CFG.word : Fld := ⟨0x8C, 0, 0, 32⟩
def KOV_JC_CFG.JC_LOG2 : Fld := ⟨0x8C, 0, 0, 4⟩
def KOV_JC_CFG.JC_EN : Fld := ⟨0x8C, 0, 4, 1⟩
def KOV_JC_WR.word : Fld := ⟨0x90, 0, 0, 32⟩
def KOV_JC_WR.INDEX : Fld := ⟨0x90, 0, 0, 16⟩
def KOV_JC_RD.word : Fld := ⟨0x94, 0, 0, 32⟩
def KOV_JC_RD.INDEX : Fld := ⟨0x94, 0, 0, 16⟩
def KOV_JOB_VEC.word : Fld := ⟨0x98, 0, 0, 32⟩
def KOV_JOB_VEC.ENTRY_PREC : Fld := ⟨0x98, 0, 0, 12⟩
def KOV_JOB_VEC.ENTRY_FW : Fld := ⟨0x98, 0, 16, 12⟩
def KOV_JOB_LIMIT.word : Fld := ⟨0x9C, 0, 0, 32⟩
def KOV_JOB_LIMIT.LIMIT : Fld := ⟨0x9C, 0, 0, 16⟩
def KOV_BAR.word : Fld := ⟨0xA0, 4, 0, 32⟩
def KOV_BAR.MASK : Fld := ⟨0xA0, 4, 0, 16⟩
def KOV_BAR.ARRIVED : Fld := ⟨0xA0, 4, 16, 16⟩
def KOV_DMA_POST_16.word : Fld := ⟨0xC0, 0, 0, 32⟩
def KOV_DMA_POST_16.DESC : Fld := ⟨0xC0, 0, 0, 31⟩
def KOV_DMA_POST_17.word : Fld := ⟨0xC4, 0, 0, 32⟩
def KOV_DMA_POST_17.DESC : Fld := ⟨0xC4, 0, 0, 31⟩
def KOV_DMA_STAT_FW.word : Fld := ⟨0xC8, 0, 0, 32⟩
def KOV_DMA_STAT_FW.OUT16 : Fld := ⟨0xC8, 0, 0, 5⟩
def KOV_DMA_STAT_FW.OUT17 : Fld := ⟨0xC8, 0, 16, 5⟩
def KOV_DMA_STAT_FW.LAST16 : Fld := ⟨0xC8, 0, 5, 3⟩
def KOV_DMA_STAT_FW.LAST17 : Fld := ⟨0xC8, 0, 21, 3⟩
/-! ### 10_koveton_dsp.md, page kind kco -/
def KOV_CORE_CFG.word : Fld := ⟨0x80, 0, 0, 32⟩
def KOV_CORE_CFG.ACCEPT : Fld := ⟨0x80, 0, 0, 2⟩
def KOV_CORE_CFG.FREE_RUN : Fld := ⟨0x80, 0, 2, 1⟩
def KOV_CORE_CFG.ENTRY : Fld := ⟨0x80, 0, 4, 12⟩
def KOV_CORE_STAT.word : Fld := ⟨0x84, 0, 0, 32⟩
def KOV_CORE_STAT.RSTATE : Fld := ⟨0x84, 0, 0, 2⟩
def KOV_CORE_STAT.WAIT : Fld := ⟨0x84, 0, 4, 3⟩
def KOV_CORE_STAT.PC : Fld := ⟨0x84, 0, 8, 12⟩
def KOV_CORE_STAT.JOB_TYPE : Fld := ⟨0x84, 0, 20, 8⟩
def KOV_VEC.word : Fld := ⟨0x88, 0, 0, 32⟩
def KOV_VEC.VEC_IRQ : Fld := ⟨0x88, 0, 0, 12⟩
def KOV_VEC.VEC_FAST : Fld := ⟨0x88, 0, 16, 12⟩
def KOV_IRQ_EN.word : Fld := ⟨0x8C, 0, 0, 32⟩
def KOV_IRQ_EN.MBX : Fld := ⟨0x8C, 0, 0, 1⟩
def KOV_IRQ_EN.DMA : Fld := ⟨0x8C, 0, 1, 1⟩
def KOV_IRQ_EN.TMR : Fld := ⟨0x8C, 0, 2, 1⟩
def KOV_IRQ_EN.SOFT : Fld := ⟨0x8C, 0, 3, 1⟩
def KOV_IRQ_FAST.word : Fld := ⟨0x90, 0, 0, 32⟩
def KOV_IRQ_FAST.MBX : Fld := ⟨0x90, 0, 0, 1⟩
def KOV_IRQ_FAST.DMA : Fld := ⟨0x90, 0, 1, 1⟩
def KOV_IRQ_FAST.TMR : Fld := ⟨0x90, 0, 2, 1⟩
def KOV_IRQ_FAST.SOFT : Fld := ⟨0x90, 0, 3, 1⟩
def KOV_IRQ_PEND.word : Fld := ⟨0x94, 0, 0, 32⟩
def KOV_IRQ_PEND.MBX : Fld := ⟨0x94, 0, 0, 1⟩
def KOV_IRQ_PEND.DMA : Fld := ⟨0x94, 0, 1, 1⟩
def KOV_IRQ_PEND.TMR : Fld := ⟨0x94, 0, 2, 1⟩
def KOV_IRQ_PEND.SOFT : Fld := ⟨0x94, 0, 3, 1⟩
def KOV_TMR.word : Fld := ⟨0x98, 0, 0, 32⟩
def KOV_TMR.COUNT : Fld := ⟨0x98, 0, 0, 32⟩
def KOV_MBX_IN.word : Fld := ⟨0x9C, 0, 0, 32⟩
def KOV_MBX_IN.DATA : Fld := ⟨0x9C, 0, 0, 32⟩
def KOV_MBX_STAT.word : Fld := ⟨0xA0, 0, 0, 32⟩
def KOV_MBX_STAT.COUNT : Fld := ⟨0xA0, 0, 0, 4⟩
def KOV_MBX_STAT.DROP : Fld := ⟨0xA0, 0, 16, 16⟩
def KOV_DMA_STAT.word : Fld := ⟨0xA4, 0, 0, 32⟩
def KOV_DMA_STAT.OUT : Fld := ⟨0xA4, 0, 0, 5⟩
def KOV_DMA_STAT.LAST : Fld := ⟨0xA4, 0, 5, 3⟩
/-! ### 11_packet_engine.md, page kind pkp -/
def PKT_MENU_CTL.word : Fld := ⟨0x80, 0, 0, 32⟩
def PKT_MENU_CTL.ACTIVE : Fld := ⟨0x80, 0, 0, 1⟩
def PKT_MENU_CTL.OLD_STATE : Fld := ⟨0x80, 0, 1, 1⟩
def PKT_MENU_CTL.SWAP : Fld := ⟨0x80, 0, 8, 1⟩
def PKT_MENU_CTL.SWAP_REJ : Fld := ⟨0x80, 0, 9, 1⟩
def PKT_MENU_CTL.EPOCH : Fld := ⟨0x80, 0, 16, 16⟩
def PKT_TC_CMD.word : Fld := ⟨0x84, 0, 0, 32⟩
def PKT_TC_CMD.INDEX : Fld := ⟨0x84, 0, 0, 14⟩
def PKT_TC_CMD.MENU : Fld := ⟨0x84, 0, 14, 1⟩
def PKT_TC_CMD.ANOMALY : Fld := ⟨0x84, 0, 15, 1⟩
def PKT_TC_CMD.OP : Fld := ⟨0x84, 0, 16, 3⟩
def PKT_TC_CMD.GO : Fld := ⟨0x84, 0, 31, 1⟩
def PKT_TC_STAT.word : Fld := ⟨0x88, 0, 0, 32⟩
def PKT_TC_STAT.BUSY : Fld := ⟨0x88, 0, 0, 1⟩
def PKT_TC_STAT.RESULT : Fld := ⟨0x88, 0, 1, 3⟩
def PKT_EXC_CFG.word : Fld := ⟨0x8C, 0, 0, 32⟩
def PKT_EXC_CFG.EXC_RING : Fld := ⟨0x8C, 0, 0, 8⟩
def PKT_EXC_CFG.EXC_EN : Fld := ⟨0x8C, 0, 8, 1⟩
def PKT_TC_VAL.word : Fld := ⟨0xA0, 4, 0, 32⟩
def PKT_TC_VAL.BITS : Fld := ⟨0xA0, 4, 0, 32⟩
def PKT_TC_MSK.word : Fld := ⟨0xD0, 4, 0, 32⟩
def PKT_TC_MSK.BITS : Fld := ⟨0xD0, 4, 0, 32⟩
def PKT_TC_ACT.word : Fld := ⟨0x200, 4, 0, 32⟩
def PKT_TC_ACT.WORD : Fld := ⟨0x200, 4, 0, 32⟩
/-! ### 11_packet_engine.md, page kind pka -/
def PKT_TMPL_BASE.word : Fld := ⟨0x80, 0, 0, 32⟩
def PKT_TMPL_BASE.BASE : Fld := ⟨0x80, 0, 17, 15⟩
def PKT_CTR_CMD.word : Fld := ⟨0x84, 0, 0, 32⟩
def PKT_CTR_CMD.INDEX : Fld := ⟨0x84, 0, 0, 14⟩
def PKT_CTR_CMD.CLEAR : Fld := ⟨0x84, 0, 30, 1⟩
def PKT_CTR_CMD.GO : Fld := ⟨0x84, 0, 31, 1⟩
def PKT_CTR_PKTS_LO.word : Fld := ⟨0x8C, 0, 0, 32⟩
def PKT_CTR_PKTS_LO.VALUE : Fld := ⟨0x8C, 0, 0, 32⟩
def PKT_CTR_PKTS_HI.word : Fld := ⟨0x90, 0, 0, 32⟩
def PKT_CTR_PKTS_HI.VALUE : Fld := ⟨0x90, 0, 0, 32⟩
def PKT_CTR_BYTES_LO.word : Fld := ⟨0x94, 0, 0, 32⟩
def PKT_CTR_BYTES_LO.VALUE : Fld := ⟨0x94, 0, 0, 32⟩
def PKT_CTR_BYTES_HI.word : Fld := ⟨0x98, 0, 0, 32⟩
def PKT_CTR_BYTES_HI.VALUE : Fld := ⟨0x98, 0, 0, 32⟩
def PKT_ADDR.word0 : Fld := ⟨0x8000, 8, 0, 32⟩
def PKT_ADDR.ADDR_LO : Fld := ⟨0x8000, 8, 0, 32⟩
def PKT_ADDR.word1 : Fld := ⟨0x8004, 8, 0, 32⟩
def PKT_ADDR.ADDR_HI : Fld := ⟨0x8004, 8, 0, 16⟩
/-! ### 11_packet_engine.md, page kind pkm -/
def PKT_DRAM_BASE.word : Fld := ⟨0x80, 0, 0, 32⟩
def PKT_DRAM_BASE.BASE : Fld := ⟨0x80, 0, 0, 24⟩
def PKT_DRAM_UNITS.word : Fld := ⟨0x84, 0, 0, 32⟩
def PKT_DRAM_UNITS.UNITS : Fld := ⟨0x84, 0, 0, 21⟩
def PKT_SPILL.word : Fld := ⟨0x88, 0, 0, 32⟩
def PKT_SPILL.SPILL_MARK : Fld := ⟨0x88, 0, 0, 16⟩
def PKT_SPILL.LOW_MARK : Fld := ⟨0x88, 0, 16, 16⟩
def PKT_FREE_ON.word : Fld := ⟨0x8C, 0, 0, 32⟩
def PKT_FREE_ON.FREE : Fld := ⟨0x8C, 0, 0, 16⟩
def PKT_FREE_ON.MIN : Fld := ⟨0x8C, 0, 16, 16⟩
def PKT_FREE_DRAM.word : Fld := ⟨0x90, 0, 0, 32⟩
def PKT_FREE_DRAM.FREE : Fld := ⟨0x90, 0, 0, 21⟩
/-! ### 12_ethernet_time.md, page kind eth -/
def ETH_CFG.word : Fld := ⟨0x80, 0, 0, 32⟩
def ETH_CFG.PROMISC : Fld := ⟨0x80, 0, 0, 1⟩
def ETH_CFG.PASS_ALL_MCAST : Fld := ⟨0x80, 0, 1, 1⟩
def ETH_CFG.BCAST_DROP : Fld := ⟨0x80, 0, 2, 1⟩
def ETH_CFG.RX_PAUSE_EN : Fld := ⟨0x80, 0, 3, 1⟩
def ETH_CFG.TX_PAUSE_EN : Fld := ⟨0x80, 0, 4, 1⟩
def ETH_CFG.PFC_EN : Fld := ⟨0x80, 0, 5, 1⟩
def ETH_CFG.RX_TAG : Fld := ⟨0x80, 0, 6, 2⟩
def ETH_CFG.TX_INSERT : Fld := ⟨0x80, 0, 8, 1⟩
def ETH_CFG.TX_STRIP : Fld := ⟨0x80, 0, 9, 1⟩
def ETH_CFG.ONE_STEP : Fld := ⟨0x80, 0, 10, 1⟩
def ETH_CFG.PVID : Fld := ⟨0x80, 0, 16, 12⟩
def ETH_CFG.DEF_PCP : Fld := ⟨0x80, 0, 28, 3⟩
def ETH_ADDR_LO.word : Fld := ⟨0x84, 0, 0, 32⟩
def ETH_ADDR_LO.ADDR : Fld := ⟨0x84, 0, 0, 32⟩
def ETH_ADDR_HI.word : Fld := ⟨0x88, 0, 0, 32⟩
def ETH_ADDR_HI.ADDR : Fld := ⟨0x88, 0, 0, 32⟩
def ETH_MAX_LEN.word : Fld := ⟨0x8C, 0, 0, 32⟩
def ETH_MAX_LEN.MAX_LEN : Fld := ⟨0x8C, 0, 0, 14⟩
def ETH_TX_THR.word : Fld := ⟨0x90, 0, 0, 32⟩
def ETH_TX_THR.START_THR : Fld := ⟨0x90, 0, 0, 14⟩
def ETH_TX_THR.THR_STEP : Fld := ⟨0x90, 0, 16, 8⟩
def ETH_PAUSE.word : Fld := ⟨0x94, 0, 0, 32⟩
def ETH_PAUSE.QUANTA : Fld := ⟨0x94, 0, 0, 16⟩
def ETH_PAUSE.PFC_TX_MASK : Fld := ⟨0x94, 0, 16, 8⟩
def ETH_FIFO_THR.word : Fld := ⟨0x98, 0, 0, 32⟩
def ETH_FIFO_THR.XOFF : Fld := ⟨0x98, 0, 0, 9⟩
def ETH_FIFO_THR.XON : Fld := ⟨0x98, 0, 16, 9⟩
def ETH_TS_ASYM.word : Fld := ⟨0x9C, 0, 0, 32⟩
def ETH_TS_ASYM.EGR_DLY : Fld := ⟨0x9C, 0, 0, 16⟩
def ETH_TS_ASYM.ING_DLY : Fld := ⟨0x9C, 0, 16, 16⟩
def ETH_CRUMB_STAT.word : Fld := ⟨0xA0, 0, 0, 32⟩
def ETH_CRUMB_STAT.COUNT : Fld := ⟨0xA0, 0, 0, 7⟩
def ETH_CRUMB0.word : Fld := ⟨0xA4, 0, 0, 32⟩
def ETH_CRUMB0.VALID : Fld := ⟨0xA4, 0, 0, 1⟩
def ETH_CRUMB0.GAP : Fld := ⟨0xA4, 0, 1, 1⟩
def ETH_CRUMB0.PTP : Fld := ⟨0xA4, 0, 2, 1⟩
def ETH_CRUMB0.ONE_STEP : Fld := ⟨0xA4, 0, 3, 1⟩
def ETH_CRUMB0.UNDERRUN : Fld := ⟨0xA4, 0, 4, 1⟩
def ETH_CRUMB0.DISCARD : Fld := ⟨0xA4, 0, 5, 1⟩
def ETH_CRUMB0.MSG_TYPE : Fld := ⟨0xA4, 0, 8, 4⟩
def ETH_CRUMB0.SEQ_ID : Fld := ⟨0xA4, 0, 16, 16⟩
def ETH_CRUMB1.word : Fld := ⟨0xA8, 0, 0, 32⟩
def ETH_CRUMB1.NS32 : Fld := ⟨0xA8, 0, 0, 32⟩
def ETH_CRUMB2.word : Fld := ⟨0xAC, 0, 0, 32⟩
def ETH_CRUMB2.FRAC : Fld := ⟨0xAC, 0, 0, 16⟩
def ETH_CRUMB2.SEC : Fld := ⟨0xAC, 0, 16, 16⟩
def ETH_CRUMB3.word : Fld := ⟨0xB0, 0, 0, 32⟩
def ETH_CRUMB3.RING : Fld := ⟨0xB0, 0, 0, 8⟩
def ETH_CRUMB3.DESC : Fld := ⟨0xB0, 0, 8, 17⟩
def ETH_LINK.word : Fld := ⟨0xB4, 0, 0, 32⟩
def ETH_LINK.LINK : Fld := ⟨0xB4, 0, 0, 1⟩
def ETH_LINK.PAUSED : Fld := ⟨0xB4, 0, 1, 1⟩
def ETH_LINK.PFC_PAUSED : Fld := ⟨0xB4, 0, 2, 8⟩
def ETH_LINK.SPEED : Fld := ⟨0xB4, 0, 10, 2⟩
def ETH_MDIO_CMD.word : Fld := ⟨0xB8, 0, 0, 32⟩
def ETH_MDIO_CMD.DATA : Fld := ⟨0xB8, 0, 0, 16⟩
def ETH_MDIO_CMD.REG : Fld := ⟨0xB8, 0, 16, 5⟩
def ETH_MDIO_CMD.PHYAD : Fld := ⟨0xB8, 0, 21, 5⟩
def ETH_MDIO_CMD.OP : Fld := ⟨0xB8, 0, 26, 2⟩
def ETH_MDIO_CMD.C45 : Fld := ⟨0xB8, 0, 28, 1⟩
def ETH_MDIO_CMD.GO : Fld := ⟨0xB8, 0, 31, 1⟩
def ETH_MDIO_STAT.word : Fld := ⟨0xBC, 0, 0, 32⟩
def ETH_MDIO_STAT.RDATA : Fld := ⟨0xBC, 0, 0, 16⟩
def ETH_MDIO_STAT.BUSY : Fld := ⟨0xBC, 0, 16, 1⟩
def ETH_MC_HASH.word : Fld := ⟨0xC0, 4, 0, 32⟩
def ETH_MC_HASH.BITS : Fld := ⟨0xC0, 4, 0, 32⟩
def ETH_PADDR.word0 : Fld := ⟨0x300, 8, 0, 32⟩
def ETH_PADDR.ADDR_LO : Fld := ⟨0x300, 8, 0, 32⟩
def ETH_PADDR.word1 : Fld := ⟨0x304, 8, 0, 32⟩
def ETH_PADDR.ADDR_HI : Fld := ⟨0x304, 8, 0, 16⟩
def ETH_PADDR.EN : Fld := ⟨0x304, 8, 16, 1⟩
def ETH_CNT_HALF.word : Fld := ⟨0x160, 0, 0, 32⟩
def ETH_CNT_HALF.HALF : Fld := ⟨0x160, 0, 0, 24⟩
/-! ### 12_ethernet_time.md, page kind sds -/
def ETH_SERDES_MODE.word : Fld := ⟨0x80, 0, 0, 32⟩
def ETH_SERDES_MODE.R4 : Fld := ⟨0x80, 0, 0, 1⟩
def ETH_SERDES_MODE.E4_SGMII : Fld := ⟨0x80, 0, 1, 1⟩
def ETH_LANE.word : Fld := ⟨0x84, 4, 0, 32⟩
def ETH_LANE.SPEED : Fld := ⟨0x84, 4, 0, 1⟩
def ETH_LANE.RSFEC : Fld := ⟨0x84, 4, 1, 1⟩
def ETH_LANE.TX_INV : Fld := ⟨0x84, 4, 2, 1⟩
def ETH_LANE.RX_INV : Fld := ⟨0x84, 4, 3, 1⟩
def ETH_LANE.TX_PRE : Fld := ⟨0x84, 4, 4, 6⟩
def ETH_LANE.TX_POST : Fld := ⟨0x84, 4, 10, 6⟩
def ETH_LANE.TX_MAIN : Fld := ⟨0x84, 4, 16, 6⟩
def ETH_SERDES_STAT.word : Fld := ⟨0x98, 0, 0, 32⟩
def ETH_SERDES_STAT.SIG_DET (b : Nat) : Fld := ⟨0x98, 0, 0 + 6 * b, 1⟩
def ETH_SERDES_STAT.CDR_LOCK (b : Nat) : Fld := ⟨0x98, 0, 1 + 6 * b, 1⟩
def ETH_SERDES_STAT.BLOCK_LOCK (b : Nat) : Fld := ⟨0x98, 0, 2 + 6 * b, 1⟩
def ETH_SERDES_STAT.HI_BER (b : Nat) : Fld := ⟨0x98, 0, 3 + 6 * b, 1⟩
def ETH_SERDES_STAT.AM_LOCK (b : Nat) : Fld := ⟨0x98, 0, 4 + 6 * b, 1⟩
def ETH_SERDES_STAT.AN_DONE (b : Nat) : Fld := ⟨0x98, 0, 5 + 6 * b, 1⟩
/-! ### 12_ethernet_time.md, page kind ptp -/
def PTP_TIME_NS.word : Fld := ⟨0x80, 0, 0, 32⟩
def PTP_TIME_NS.NS : Fld := ⟨0x80, 0, 0, 30⟩
def PTP_TIME_SEC_LO.word : Fld := ⟨0x84, 0, 0, 32⟩
def PTP_TIME_SEC_LO.VALUE : Fld := ⟨0x84, 0, 0, 32⟩
def PTP_TIME_SEC_HI.word : Fld := ⟨0x88, 0, 0, 32⟩
def PTP_TIME_SEC_HI.VALUE : Fld := ⟨0x88, 0, 0, 32⟩
def PTP_TIME_FRAC.word : Fld := ⟨0x8C, 0, 0, 32⟩
def PTP_TIME_FRAC.VALUE : Fld := ⟨0x8C, 0, 0, 32⟩
def PTP_TIME_NS32.word : Fld := ⟨0x90, 0, 0, 32⟩
def PTP_TIME_NS32.VALUE : Fld := ⟨0x90, 0, 0, 32⟩
def PTP_SET_NS.word : Fld := ⟨0x94, 0, 0, 32⟩
def PTP_SET_NS.VALUE : Fld := ⟨0x94, 0, 0, 32⟩
def PTP_SET_SEC_LO.word : Fld := ⟨0x98, 0, 0, 32⟩
def PTP_SET_SEC_LO.VALUE : Fld := ⟨0x98, 0, 0, 32⟩
def PTP_SET_HI.word : Fld := ⟨0x9C, 0, 0, 32⟩
def PTP_SET_HI.VALUE : Fld := ⟨0x9C, 0, 0, 32⟩
def PTP_TIME_CMD.word : Fld := ⟨0xA0, 0, 0, 32⟩
def PTP_TIME_CMD.OP : Fld := ⟨0xA0, 0, 0, 2⟩
def PTP_TIME_CMD.BUSY : Fld := ⟨0xA0, 0, 2, 1⟩
def PTP_TIME_CMD.RESULT : Fld := ⟨0xA0, 0, 3, 2⟩
def PTP_TIME_CMD.GO : Fld := ⟨0xA0, 0, 31, 1⟩
def PTP_FREQ_TRIM.word : Fld := ⟨0xA4, 0, 0, 32⟩
def PTP_FREQ_TRIM.PPB : Fld := ⟨0xA4, 0, 0, 32⟩
def PTP_FREQ_ADJ.word : Fld := ⟨0xA8, 0, 0, 32⟩
def PTP_FREQ_ADJ.PPB : Fld := ⟨0xA8, 0, 0, 32⟩
def PTP_SERVO_CFG.word : Fld := ⟨0xAC, 0, 0, 32⟩
def PTP_SERVO_CFG.SERVO_EN : Fld := ⟨0xAC, 0, 0, 1⟩
def PTP_SERVO_CFG.STEP_EN : Fld := ⟨0xAC, 0, 1, 1⟩
def PTP_SERVO_CFG.SRC : Fld := ⟨0xAC, 0, 2, 1⟩
def PTP_SERVO_CFG.LOCK_N : Fld := ⟨0xAC, 0, 8, 8⟩
def PTP_SERVO_CFG.HOLD_TO : Fld := ⟨0xAC, 0, 16, 16⟩
def PTP_SERVO_GAIN.word : Fld := ⟨0xB0, 0, 0, 32⟩
def PTP_SERVO_GAIN.KP : Fld := ⟨0xB0, 0, 0, 16⟩
def PTP_SERVO_GAIN.KI : Fld := ⟨0xB0, 0, 16, 16⟩
def PTP_SERVO_THR.word : Fld := ⟨0xB4, 0, 0, 32⟩
def PTP_SERVO_THR.LOCK_THR : Fld := ⟨0xB4, 0, 0, 8⟩
def PTP_SERVO_THR.UNLOCK_THR : Fld := ⟨0xB4, 0, 8, 8⟩
def PTP_SERVO_THR.STEP_THR : Fld := ⟨0xB4, 0, 16, 16⟩
def PTP_SERVO_LIMIT.word : Fld := ⟨0xB8, 0, 0, 32⟩
def PTP_SERVO_LIMIT.FREQ_MAX : Fld := ⟨0xB8, 0, 0, 16⟩
def PTP_SERVO_LIMIT.SLEW_MAX : Fld := ⟨0xB8, 0, 16, 16⟩
def PTP_SERVO_OFS.word : Fld := ⟨0xBC, 0, 0, 32⟩
def PTP_SERVO_OFS.NS : Fld := ⟨0xBC, 0, 0, 32⟩
def PTP_SERVO_OFS_FRAC.word : Fld := ⟨0xC0, 0, 0, 32⟩
def PTP_SERVO_OFS_FRAC.OFS_FRAC : Fld := ⟨0xC0, 0, 0, 16⟩
def PTP_SERVO_STAT.word : Fld := ⟨0xC4, 0, 0, 32⟩
def PTP_SERVO_STAT.SSTATE : Fld := ⟨0xC4, 0, 0, 2⟩
def PTP_SERVO_STAT.HOLDOVER : Fld := ⟨0xC4, 0, 2, 1⟩
def PTP_SERVO_STAT.LOCK_CNT : Fld := ⟨0xC4, 0, 8, 8⟩
def PTP_SERVO_LAST.word : Fld := ⟨0xC8, 0, 0, 32⟩
def PTP_SERVO_LAST.VALUE : Fld := ⟨0xC8, 0, 0, 32⟩
def PTP_SERVO_INTEG.word : Fld := ⟨0xCC, 0, 0, 32⟩
def PTP_SERVO_INTEG.VALUE : Fld := ⟨0xCC, 0, 0, 32⟩
def PTP_EVI.word0 : Fld := ⟨0xD0, 8, 0, 32⟩
def PTP_EVI.NS : Fld := ⟨0xD0, 8, 0, 30⟩
def PTP_EVI.VALID : Fld := ⟨0xD0, 8, 31, 1⟩
def PTP_EVI.word1 : Fld := ⟨0xD4, 8, 0, 32⟩
def PTP_EVI.FRAC : Fld := ⟨0xD4, 8, 0, 16⟩
def PTP_EVI.SEC : Fld := ⟨0xD4, 8, 16, 16⟩
def PTP_EVI_CFG.word : Fld := ⟨0xE0, 0, 0, 32⟩
def PTP_EVI_CFG.EN0 : Fld := ⟨0xE0, 0, 0, 1⟩
def PTP_EVI_CFG.EN1 : Fld := ⟨0xE0, 0, 1, 1⟩
def PTP_EVI_CFG.FALL0 : Fld := ⟨0xE0, 0, 2, 1⟩
def PTP_EVI_CFG.FALL1 : Fld := ⟨0xE0, 0, 3, 1⟩
def PTP_TMR.word0 : Fld := ⟨0x200, 16, 0, 32⟩
def PTP_TMR.CMP_SEC : Fld := ⟨0x200, 16, 0, 32⟩
def PTP_TMR.word1 : Fld := ⟨0x204, 16, 0, 32⟩
def PTP_TMR.CMP_NS : Fld := ⟨0x204, 16, 0, 30⟩
def PTP_TMR.word2 : Fld := ⟨0x208, 16, 0, 32⟩
def PTP_TMR.PERIOD_NS : Fld := ⟨0x208, 16, 0, 32⟩
def PTP_TMR.word3 : Fld := ⟨0x20C, 16, 0, 32⟩
def PTP_TMR.EN : Fld := ⟨0x20C, 16, 0, 1⟩
def PTP_TMR.OUT : Fld := ⟨0x20C, 16, 1, 1⟩
def PTP_TMR.FIRED : Fld := ⟨0x20C, 16, 2, 1⟩
def PTP_TMR.STEPPED : Fld := ⟨0x20C, 16, 3, 1⟩
def PTP_TMR.WIDTH : Fld := ⟨0x20C, 16, 16, 16⟩
/-! ### 13_control_cluster.md, page kind pc0 -/
def PCIE_CTL.word : Fld := ⟨0x0, 0, 0, 32⟩
def PCIE_CTL.MODE : Fld := ⟨0x0, 0, 0, 1⟩
def PCIE_CTL.LTSSM_EN : Fld := ⟨0x0, 0, 1, 1⟩
def PCIE_CTL.MAX_GEN : Fld := ⟨0x0, 0, 2, 2⟩
def PCIE_CTL.X1 : Fld := ⟨0x0, 0, 4, 1⟩
def PCIE_CTL.ASPM_L1 : Fld := ⟨0x0, 0, 5, 1⟩
def PCIE_LINK.word : Fld := ⟨0x4, 0, 0, 32⟩
def PCIE_LINK.UP : Fld := ⟨0x4, 0, 0, 1⟩
def PCIE_LINK.GEN : Fld := ⟨0x4, 0, 1, 3⟩
def PCIE_LINK.WIDTH : Fld := ⟨0x4, 0, 4, 2⟩
def PCIE_LINK.REVERSED : Fld := ⟨0x4, 0, 6, 1⟩
def PCIE_LINK.L1 : Fld := ⟨0x4, 0, 7, 1⟩
def PCIE_INT.word : Fld := ⟨0x8, 0, 0, 32⟩
def PCIE_INT.LINK_UP : Fld := ⟨0x8, 0, 0, 1⟩
def PCIE_INT.LINK_DOWN : Fld := ⟨0x8, 0, 1, 1⟩
def PCIE_INT.CPL_TIMEOUT : Fld := ⟨0x8, 0, 2, 1⟩
def PCIE_INT.ERR_MSG : Fld := ⟨0x8, 0, 3, 1⟩
def PCIE_INT.FLR : Fld := ⟨0x8, 0, 4, 1⟩
def PCIE_INT.PERST : Fld := ⟨0x8, 0, 5, 1⟩
def PCIE_INT.MSI_DROP : Fld := ⟨0x8, 0, 6, 1⟩
def PCIE_INT_EN.word : Fld := ⟨0xC, 0, 0, 32⟩
def PCIE_INT_EN.LINK_UP : Fld := ⟨0xC, 0, 0, 1⟩
def PCIE_INT_EN.LINK_DOWN : Fld := ⟨0xC, 0, 1, 1⟩
def PCIE_INT_EN.CPL_TIMEOUT : Fld := ⟨0xC, 0, 2, 1⟩
def PCIE_INT_EN.ERR_MSG : Fld := ⟨0xC, 0, 3, 1⟩
def PCIE_INT_EN.FLR : Fld := ⟨0xC, 0, 4, 1⟩
def PCIE_INT_EN.PERST : Fld := ⟨0xC, 0, 5, 1⟩
def PCIE_INT_EN.MSI_DROP : Fld := ⟨0xC, 0, 6, 1⟩
def PCIE_CPL_TO.word : Fld := ⟨0x10, 0, 0, 32⟩
def PCIE_CPL_TO.CPL_TO : Fld := ⟨0x10, 0, 0, 16⟩
def PCIE_ERR_CNT.word : Fld := ⟨0x14, 0, 0, 32⟩
def PCIE_ERR_CNT.CPL_TO_CNT : Fld := ⟨0x14, 0, 0, 16⟩
def PCIE_ERR_CNT.INBOUND_ERR : Fld := ⟨0x14, 0, 16, 16⟩
/-! ### 13_control_cluster.md, page kind pc1 -/
def PCIE_OUTWIN.word0 : Fld := ⟨0x0, 16, 0, 32⟩
def PCIE_OUTWIN.FAB : Fld := ⟨0x0, 16, 0, 17⟩
def PCIE_OUTWIN.EN : Fld := ⟨0x0, 16, 31, 1⟩
def PCIE_OUTWIN.word1 : Fld := ⟨0x4, 16, 0, 32⟩
def PCIE_OUTWIN.LOG2 : Fld := ⟨0x4, 16, 0, 6⟩
def PCIE_OUTWIN.word2 : Fld := ⟨0x8, 16, 0, 32⟩
def PCIE_OUTWIN.PCI_LO : Fld := ⟨0x8, 16, 16, 16⟩
def PCIE_OUTWIN.word3 : Fld := ⟨0xC, 16, 0, 32⟩
def PCIE_OUTWIN.PCI_HI : Fld := ⟨0xC, 16, 0, 32⟩
/-! ### 13_control_cluster.md, page kind pc2 -/
def PCIE_INWIN.word0 : Fld := ⟨0x0, 16, 0, 32⟩
def PCIE_INWIN.PCI_LO : Fld := ⟨0x0, 16, 16, 16⟩
def PCIE_INWIN.word1 : Fld := ⟨0x4, 16, 0, 32⟩
def PCIE_INWIN.PCI_HI : Fld := ⟨0x4, 16, 0, 32⟩
def PCIE_INWIN.word2 : Fld := ⟨0x8, 16, 0, 32⟩
def PCIE_INWIN.FAB : Fld := ⟨0x8, 16, 0, 20⟩
def PCIE_INWIN.LOG2 : Fld := ⟨0x8, 16, 20, 6⟩
def PCIE_INWIN.EN : Fld := ⟨0x8, 16, 31, 1⟩
def PCIE_MSI_LO.word : Fld := ⟨0x40, 0, 0, 32⟩
def PCIE_MSI_LO.ADDR : Fld := ⟨0x40, 0, 0, 32⟩
def PCIE_MSI_HI.word : Fld := ⟨0x44, 0, 0, 32⟩
def PCIE_MSI_HI.ADDR : Fld := ⟨0x44, 0, 0, 32⟩
def PCIE_MSIX_MAP.word : Fld := ⟨0x100, 4, 0, 32⟩
def PCIE_MSIX_MAP.SOURCE : Fld := ⟨0x100, 4, 0, 10⟩
def PCIE_MSIX_MAP.EN : Fld := ⟨0x100, 4, 31, 1⟩
/-! ### 13_control_cluster.md, page kind pc3 -/
def PCIE_CFG_ADDR.word : Fld := ⟨0x2000, 0, 0, 32⟩
def PCIE_CFG_ADDR.REG : Fld := ⟨0x2000, 0, 2, 10⟩
def PCIE_CFG_ADDR.FUNC : Fld := ⟨0x2000, 0, 12, 3⟩
def PCIE_CFG_ADDR.DEV : Fld := ⟨0x2000, 0, 15, 5⟩
def PCIE_CFG_ADDR.BUS : Fld := ⟨0x2000, 0, 20, 8⟩
/-! ### 13_control_cluster.md, page kind dsp -/
def DSP_THR_BASE.word : Fld := ⟨0x80, 0, 0, 32⟩
def DSP_THR_BASE.BASE : Fld := ⟨0x80, 0, 0, 24⟩
def DSP_TRAIL_BASE.word : Fld := ⟨0x84, 0, 0, 32⟩
def DSP_TRAIL_BASE.BASE : Fld := ⟨0x84, 0, 0, 24⟩
def DSP_CFG.word : Fld := ⟨0x88, 0, 0, 32⟩
def DSP_CFG.THREADS_LOG2 : Fld := ⟨0x88, 0, 0, 5⟩
def DSP_CFG.ASK_WAIT : Fld := ⟨0x88, 0, 8, 8⟩
def DSP_CFG.PREEMPT_LVL : Fld := ⟨0x88, 0, 16, 6⟩
def DSP_CFG.PREEMPT_EN : Fld := ⟨0x88, 0, 22, 1⟩
def DSP_FLOOR.word : Fld := ⟨0x8C, 0, 0, 32⟩
def DSP_FLOOR.FW_FLOOR : Fld := ⟨0x8C, 0, 0, 6⟩
def DSP_FLOOR.GOV_FLOOR : Fld := ⟨0x8C, 0, 8, 6⟩
def DSP_FLOOR.FLOOR : Fld := ⟨0x8C, 0, 16, 6⟩
def DSP_FLOOR.THROTTLE : Fld := ⟨0x8C, 0, 24, 1⟩
def DSP_POST.word : Fld := ⟨0x90, 0, 0, 32⟩
def DSP_POST.HANDLE : Fld := ⟨0x90, 0, 0, 16⟩
def DSP_POST.LEVEL : Fld := ⟨0x90, 0, 16, 6⟩
def DSP_POST.AFF : Fld := ⟨0x90, 0, 22, 8⟩
def DSP_POST.OP : Fld := ⟨0x90, 0, 30, 2⟩
def DSP_POST_REJ.word : Fld := ⟨0x94, 0, 0, 32⟩
def DSP_POST_REJ.VALUE : Fld := ⟨0x94, 0, 0, 32⟩
def DSP_READY.word : Fld := ⟨0x98, 0, 0, 32⟩
def DSP_READY.ON_CHIP : Fld := ⟨0x98, 0, 0, 13⟩
def DSP_READY.TOP : Fld := ⟨0x98, 0, 16, 6⟩
def DSP_READY.ANY : Fld := ⟨0x98, 0, 22, 1⟩
def DSP_TRAIL_CNT.word : Fld := ⟨0x9C, 0, 0, 32⟩
def DSP_TRAIL_CNT.COUNT : Fld := ⟨0x9C, 0, 0, 17⟩
def DSP_NUDGE.word : Fld := ⟨0xA0, 0, 0, 32⟩
def DSP_NUDGE.NUDGED : Fld := ⟨0xA0, 0, 0, 8⟩
def DSP_NUDGE.WAITING : Fld := ⟨0xA0, 0, 8, 8⟩
def DSP_NUDGE.IDLE : Fld := ⟨0xA0, 0, 16, 8⟩
/-! ### 14_memory.md, page kind srm -/
def SRM_MAP.word : Fld := ⟨0x80, 0, 0, 32⟩
def SRM_MAP.ILV_GROUPS : Fld := ⟨0x80, 0, 0, 4⟩
def SRM_THERMOS.word : Fld := ⟨0x84, 0, 0, 32⟩
def SRM_THERMOS.MODE (b : Nat) : Fld := ⟨0x84, 0, 0 + 2 * b, 2⟩
def SRM_THERMOS_CFG.word : Fld := ⟨0x88, 0, 0, 32⟩
def SRM_THERMOS_CFG.NAP : Fld := ⟨0x88, 0, 0, 8⟩
def SRM_THERMOS_CFG.AUTOWAKE : Fld := ⟨0x88, 0, 8, 8⟩
def SRM_THERMOS_CFG.IDLE_RET : Fld := ⟨0x88, 0, 16, 16⟩
def SRM_GROUP_STAT.word : Fld := ⟨0x8C, 0, 0, 32⟩
def SRM_GROUP_STAT.STATE (b : Nat) : Fld := ⟨0x8C, 0, 0 + 3 * b, 3⟩
def SRM_SCRUB.word : Fld := ⟨0x90, 0, 0, 32⟩
def SRM_SCRUB.SCRUB_EN : Fld := ⟨0x90, 0, 0, 1⟩
def SRM_SCRUB.PERIOD : Fld := ⟨0x90, 0, 16, 16⟩
def SRM_ECC_ADDR.word : Fld := ⟨0x94, 0, 0, 32⟩
def SRM_ECC_ADDR.OFS : Fld := ⟨0x94, 0, 0, 24⟩
def SRM_ECC_ADDR.HAMPER : Fld := ⟨0x94, 0, 24, 1⟩
def SRM_ECC_ADDR.VALID : Fld := ⟨0x94, 0, 25, 1⟩
def SRM_HAMPER.word : Fld := ⟨0x98, 0, 0, 32⟩
def SRM_HAMPER.WIPING : Fld := ⟨0x98, 0, 0, 1⟩
def SRM_HAMPER.CAUSE : Fld := ⟨0x98, 0, 1, 3⟩
def SRM_HAMPER.WIPES : Fld := ⟨0x98, 0, 16, 16⟩
def SRM_HAMPER_WIPE.word : Fld := ⟨0x9C, 0, 0, 32⟩
def SRM_HAMPER_WIPE.WIPE : Fld := ⟨0x9C, 0, 0, 1⟩
/-! ### 14_memory.md, page kind drc -/
def DRM_GEOM.word : Fld := ⟨0x80, 0, 0, 32⟩
def DRM_GEOM.DENSITY : Fld := ⟨0x80, 0, 0, 2⟩
def DRM_GEOM.RANKS : Fld := ⟨0x80, 0, 2, 1⟩
def DRM_GEOM.RATE : Fld := ⟨0x80, 0, 4, 3⟩
def DRM_GEOM.XOR_EN : Fld := ⟨0x80, 0, 8, 1⟩
def DRM_GEOM.LINK_ECC : Fld := ⟨0x80, 0, 9, 1⟩
def DRM_SIZE.word : Fld := ⟨0x84, 0, 0, 32⟩
def DRM_SIZE.MIB : Fld := ⟨0x84, 0, 0, 16⟩
def DRM_TIMING_ADJ.word : Fld := ⟨0x88, 0, 0, 32⟩
def DRM_TIMING_ADJ.RCD_ADD : Fld := ⟨0x88, 0, 0, 4⟩
def DRM_TIMING_ADJ.RP_ADD : Fld := ⟨0x88, 0, 4, 4⟩
def DRM_TIMING_ADJ.WR_ADD : Fld := ⟨0x88, 0, 8, 4⟩
def DRM_TIMING_ADJ.RAS_ADD : Fld := ⟨0x88, 0, 12, 4⟩
def DRM_REFRESH.word : Fld := ⟨0x8C, 0, 0, 32⟩
def DRM_REFRESH.PER_BANK : Fld := ⟨0x8C, 0, 0, 1⟩
def DRM_REFRESH.POSTPONE : Fld := ⟨0x8C, 0, 1, 4⟩
def DRM_REFRESH.TEMP_POLL : Fld := ⟨0x8C, 0, 16, 8⟩
def DRM_PASR.word : Fld := ⟨0x90, 0, 0, 32⟩
def DRM_PASR.KEEP0 : Fld := ⟨0x90, 0, 0, 8⟩
def DRM_PASR.KEEP1 : Fld := ⟨0x90, 0, 8, 8⟩
def DRM_PASR.PASR_EN : Fld := ⟨0x90, 0, 16, 1⟩
def DRM_PASR_STAT.word : Fld := ⟨0x94, 0, 0, 32⟩
def DRM_PASR_STAT.LOST0 : Fld := ⟨0x94, 0, 0, 8⟩
def DRM_PASR_STAT.LOST1 : Fld := ⟨0x94, 0, 8, 8⟩
def DRM_SR.word : Fld := ⟨0x98, 0, 0, 32⟩
def DRM_SR.SR_IDLE : Fld := ⟨0x98, 0, 0, 16⟩
def DRM_SR.PD_IDLE : Fld := ⟨0x98, 0, 16, 16⟩
def DRM_TRAIN_CMD.word : Fld := ⟨0x9C, 0, 0, 32⟩
def DRM_TRAIN_CMD.STEPS : Fld := ⟨0x9C, 0, 0, 6⟩
def DRM_TRAIN_CMD.CH : Fld := ⟨0x9C, 0, 8, 4⟩
def DRM_TRAIN_CMD.OP : Fld := ⟨0x9C, 0, 12, 2⟩
def DRM_TRAIN_CMD.GO : Fld := ⟨0x9C, 0, 31, 1⟩
def DRM_TRAIN_STAT.word : Fld := ⟨0xA0, 0, 0, 32⟩
def DRM_TRAIN_STAT.BUSY : Fld := ⟨0xA0, 0, 0, 1⟩
def DRM_TRAIN_STAT.REFUSED : Fld := ⟨0xA0, 0, 1, 1⟩
def DRM_TRAIN_STAT.RESULT (b : Nat) : Fld := ⟨0xA0, 0, 4 + 4 * b, 4⟩
def DRM_TRAIN_STAT.TRAINED : Fld := ⟨0xA0, 0, 20, 4⟩
def DRM_TRAIN_BUF.word : Fld := ⟨0xA4, 0, 0, 32⟩
def DRM_TRAIN_BUF.BASE : Fld := ⟨0xA4, 0, 6, 26⟩
def DRM_ERR_LO.word : Fld := ⟨0xA8, 0, 0, 32⟩
def DRM_ERR_LO.OFS_LO : Fld := ⟨0xA8, 0, 0, 32⟩
def DRM_ERR_HI.word : Fld := ⟨0xAC, 0, 0, 32⟩
def DRM_ERR_HI.OFS_HI : Fld := ⟨0xAC, 0, 0, 2⟩
def DRM_ERR_HI.CHANNEL : Fld := ⟨0xAC, 0, 2, 2⟩
def DRM_ERR_HI.RANK : Fld := ⟨0xAC, 0, 4, 1⟩
def DRM_ERR_HI.BG : Fld := ⟨0xAC, 0, 5, 2⟩
def DRM_ERR_HI.BA : Fld := ⟨0xAC, 0, 7, 2⟩
def DRM_ERR_HI.VALID : Fld := ⟨0xAC, 0, 31, 1⟩
def DRM_PORT.word0 : Fld := ⟨0xC0, 8, 0, 32⟩
def DRM_PORT.TGT : Fld := ⟨0xC0, 8, 0, 16⟩
def DRM_PORT.URG_EN : Fld := ⟨0xC0, 8, 16, 1⟩
def DRM_PORT.word1 : Fld := ⟨0xC4, 8, 0, 32⟩
def DRM_PORT.LAT_MAX : Fld := ⟨0xC4, 8, 0, 16⟩
def DRM_PORT.OVERDUE : Fld := ⟨0xC4, 8, 16, 16⟩
/-! ### 14_memory.md, page kind phy -/
def DRM_PHY_DRV.word : Fld := ⟨0x80, 0, 0, 32⟩
def DRM_PHY_DRV.PDDS : Fld := ⟨0x80, 0, 0, 3⟩
def DRM_PHY_DRV.DQ_ODT : Fld := ⟨0x80, 0, 4, 3⟩
def DRM_PHY_DRV.CA_ODT : Fld := ⟨0x80, 0, 8, 3⟩
def DRM_PHY_DRV.SOC_ODT : Fld := ⟨0x80, 0, 12, 3⟩
def DRM_PHY_STAT.word : Fld := ⟨0x84, 0, 0, 32⟩
def DRM_PHY_STAT.PLL_LOCK : Fld := ⟨0x84, 0, 0, 1⟩
def DRM_PHY_STAT.TRAINED : Fld := ⟨0x84, 0, 1, 1⟩
def DRM_PHY_STAT.SELF_REFRESH : Fld := ⟨0x84, 0, 2, 1⟩
def DRM_PHY_STAT.POWER_DOWN : Fld := ⟨0x84, 0, 3, 1⟩
def DRM_PHY_STAT.REF_RATE : Fld := ⟨0x84, 0, 4, 5⟩
/-! ### 15_security.md, page kind sec -/
def SEC_STATUS.word : Fld := ⟨0x80, 0, 0, 32⟩
def SEC_STATUS.LC : Fld := ⟨0x80, 0, 0, 3⟩
def SEC_STATUS.LC_PENDING : Fld := ⟨0x80, 0, 3, 1⟩
def SEC_STATUS.LC_TARGET : Fld := ⟨0x80, 0, 4, 3⟩
def SEC_STATUS.DBG_LEVEL : Fld := ⟨0x80, 0, 8, 2⟩
def SEC_STATUS.TAMPERED : Fld := ⟨0x80, 0, 10, 1⟩
def SEC_STATUS.SELFTEST_OK : Fld := ⟨0x80, 0, 11, 1⟩
def SEC_STATUS.KEPOCH : Fld := ⟨0x80, 0, 16, 7⟩
def SEC_CMD.word : Fld := ⟨0x84, 0, 0, 32⟩
def SEC_CMD.OP : Fld := ⟨0x84, 0, 0, 8⟩
def SEC_CMD.GO : Fld := ⟨0x84, 0, 31, 1⟩
def SEC_CMD_ADDR.word : Fld := ⟨0x88, 0, 0, 32⟩
def SEC_CMD_ADDR.ADDR : Fld := ⟨0x88, 0, 0, 30⟩
def SEC_CMD_STAT.word : Fld := ⟨0x8C, 0, 0, 32⟩
def SEC_CMD_STAT.BUSY : Fld := ⟨0x8C, 0, 0, 1⟩
def SEC_CMD_STAT.RESULT : Fld := ⟨0x8C, 0, 8, 8⟩
def SEC_CMD_STAT.OP : Fld := ⟨0x8C, 0, 16, 8⟩
def SEC_JOB_BASE.word : Fld := ⟨0x90, 0, 0, 32⟩
def SEC_JOB_BASE.BASE : Fld := ⟨0x90, 0, 0, 30⟩
def SEC_JOB_CFG.word : Fld := ⟨0x94, 0, 0, 32⟩
def SEC_JOB_CFG.LOG2 : Fld := ⟨0x94, 0, 0, 4⟩
def SEC_JOB_SW.word : Fld := ⟨0x98, 0, 0, 32⟩
def SEC_JOB_SW.INDEX : Fld := ⟨0x98, 0, 0, 16⟩
def SEC_JOB_HW.word : Fld := ⟨0x9C, 0, 0, 32⟩
def SEC_JOB_HW.INDEX : Fld := ⟨0x9C, 0, 0, 16⟩
def SEC_TAMPER_CFG.word : Fld := ⟨0xA0, 0, 0, 32⟩
def SEC_TAMPER_CFG.RESP (b : Nat) : Fld := ⟨0xA0, 0, 0 + 2 * b, 2⟩
def SEC_TAMPER_CFG.MODE0 : Fld := ⟨0xA0, 0, 12, 2⟩
def SEC_TAMPER_CFG.MODE1 : Fld := ⟨0xA0, 0, 14, 2⟩
def SEC_TAMPER_LATCH.word : Fld := ⟨0xA4, 0, 0, 32⟩
def SEC_TAMPER_LATCH.LATCH : Fld := ⟨0xA4, 0, 0, 6⟩
def SEC_FCHK.word : Fld := ⟨0xA8, 0, 0, 32⟩
def SEC_FCHK.FCHK_LIMIT : Fld := ⟨0xA8, 0, 0, 8⟩
def SEC_ACCESS.word : Fld := ⟨0xAC, 0, 0, 32⟩
def SEC_ACCESS.HAMPER_S : Fld := ⟨0xAC, 0, 0, 1⟩
def SEC_ACCESS.PCIE_REG_DENY : Fld := ⟨0xAC, 0, 1, 1⟩
def SEC_ACCESS.DCHK_FORCE : Fld := ⟨0xAC, 0, 2, 1⟩
def SEC_DBG.word : Fld := ⟨0xB0, 0, 0, 32⟩
def SEC_DBG.LEVEL : Fld := ⟨0xB0, 0, 0, 2⟩
def SEC_DBG.OP : Fld := ⟨0xB0, 0, 4, 3⟩
def SEC_DBG.GO : Fld := ⟨0xB0, 0, 31, 1⟩
def SEC_DBG_STAT.word : Fld := ⟨0xB4, 0, 0, 32⟩
def SEC_DBG_STAT.NONCE_VALID : Fld := ⟨0xB4, 0, 0, 1⟩
def SEC_DBG_STAT.CHECKING : Fld := ⟨0xB4, 0, 1, 1⟩
def SEC_DBG_STAT.RESULT : Fld := ⟨0xB4, 0, 2, 8⟩
def SEC_DBG_NONCE.word : Fld := ⟨0xC0, 4, 0, 32⟩
def SEC_DBG_NONCE.NONCE : Fld := ⟨0xC0, 4, 0, 32⟩
def SEC_KEYENT.word : Fld := ⟨0x1000, 4, 0, 32⟩
def SEC_KEYENT.VALID : Fld := ⟨0x1000, 4, 0, 1⟩
def SEC_KEYENT.LEN : Fld := ⟨0x1000, 4, 1, 1⟩
def SEC_KEYENT.ATTR : Fld := ⟨0x1000, 4, 2, 7⟩
def SEC_CTXENT.word : Fld := ⟨0x1400, 4, 0, 32⟩
def SEC_CTXENT.READY : Fld := ⟨0x1400, 4, 0, 1⟩
def SEC_CTXENT.MODE : Fld := ⟨0x1400, 4, 1, 4⟩
def SEC_CTXENT.DUAL : Fld := ⟨0x1400, 4, 5, 1⟩
def SEC_CTXENT.IN_MSG : Fld := ⟨0x1400, 4, 6, 1⟩
/-! ### 16_power_budget.md, page kind pwr -/
def PWR_MODE.word : Fld := ⟨0x80, 0, 0, 32⟩
def PWR_MODE.MODE : Fld := ⟨0x80, 0, 0, 3⟩
def PWR_SLEEP.word : Fld := ⟨0x84, 0, 0, 32⟩
def PWR_SLEEP.TARGET : Fld := ⟨0x84, 0, 0, 3⟩
def PWR_SLEEP.NAP_XO_OFF : Fld := ⟨0x84, 0, 3, 1⟩
def PWR_SLEEP.GO : Fld := ⟨0x84, 0, 31, 1⟩
def PWR_STATE.word : Fld := ⟨0x88, 0, 0, 32⟩
def PWR_STATE.STATE : Fld := ⟨0x88, 0, 0, 3⟩
def PWR_STATE.PHASE : Fld := ⟨0x88, 0, 3, 2⟩
def PWR_STATE.RESULT : Fld := ⟨0x88, 0, 8, 3⟩
def PWR_STATE.BLOCKER : Fld := ⟨0x88, 0, 16, 8⟩
def PWR_WAKE_EN.word : Fld := ⟨0x8C, 0, 0, 32⟩
def PWR_WAKE_EN.EN : Fld := ⟨0x8C, 0, 0, 16⟩
def PWR_WAKE_REC0.word : Fld := ⟨0x90, 0, 0, 32⟩
def PWR_WAKE_REC0.SOURCE : Fld := ⟨0x90, 0, 0, 4⟩
def PWR_WAKE_REC0.FROM : Fld := ⟨0x90, 0, 4, 3⟩
def PWR_WAKE_REC0.DURING_ENTRY : Fld := ⟨0x90, 0, 7, 1⟩
def PWR_WAKE_REC0.ASSERTED : Fld := ⟨0x90, 0, 8, 16⟩
def PWR_WAKE_REC1.word : Fld := ⟨0x94, 0, 0, 32⟩
def PWR_WAKE_REC1.TICKS : Fld := ⟨0x94, 0, 0, 32⟩
def PWR_WAKE_REC2.word : Fld := ⟨0x98, 0, 0, 32⟩
def PWR_WAKE_REC2.TICKS : Fld := ⟨0x98, 0, 0, 32⟩
def PWR_PL_REQ.word : Fld := ⟨0xA0, 0, 0, 32⟩
def PWR_PL_REQ.LEVEL (b : Nat) : Fld := ⟨0xA0, 0, 0 + 3 * b, 3⟩
def PWR_PL_CAP.word : Fld := ⟨0xA8, 0, 0, 32⟩
def PWR_PL_CAP.LEVEL (b : Nat) : Fld := ⟨0xA8, 0, 0 + 3 * b, 3⟩
def PWR_PL_STAT.word : Fld := ⟨0xA4, 0, 0, 32⟩
def PWR_PL_STAT.LEVEL (b : Nat) : Fld := ⟨0xA4, 0, 0 + 3 * b, 3⟩
def PWR_PL_STAT.BUSY : Fld := ⟨0xA4, 0, 12, 4⟩
def PWR_PL_STAT.ERR : Fld := ⟨0xA4, 0, 16, 4⟩
def PWR_AVS_TRIM.word : Fld := ⟨0xAC, 0, 0, 32⟩
def PWR_AVS_TRIM.TRIM (b : Nat) : Fld := ⟨0xAC, 0, 0 + 8 * b, 8⟩
def PWR_CLASS.word : Fld := ⟨0xB0, 0, 0, 32⟩
def PWR_CLASS.CODE : Fld := ⟨0xB0, 0, 0, 3⟩
def PWR_CLASS.CLASS_MW : Fld := ⟨0xB0, 0, 8, 17⟩
def PWR_LLDP.word : Fld := ⟨0xB4, 0, 0, 32⟩
def PWR_LLDP.MW : Fld := ⟨0xB4, 0, 0, 17⟩
def PWR_LLDP.VALID : Fld := ⟨0xB4, 0, 31, 1⟩
def PWR_AUX.word : Fld := ⟨0xB8, 0, 0, 32⟩
def PWR_AUX.MW : Fld := ⟨0xB8, 0, 0, 17⟩
def PWR_AUX.VALID : Fld := ⟨0xB8, 0, 31, 1⟩
def PWR_BUDGET.word : Fld := ⟨0xBC, 0, 0, 32⟩
def PWR_BUDGET.MW : Fld := ⟨0xBC, 0, 0, 18⟩
def PWR_GOV_CFG.word : Fld := ⟨0xC0, 0, 0, 32⟩
def PWR_GOV_CFG.MARGIN : Fld := ⟨0xC0, 0, 0, 8⟩
def PWR_GOV_CFG.RESERVE : Fld := ⟨0xC0, 0, 8, 16⟩
def PWR_GOV_CFG.BASE_ALPHA : Fld := ⟨0xC0, 0, 24, 4⟩
def PWR_GOV_CFG.SENSE_EN : Fld := ⟨0xC0, 0, 31, 1⟩
def PWR_BANK_CFG0.word : Fld := ⟨0xC4, 0, 0, 32⟩
def PWR_BANK_CFG0.BANK_MAX : Fld := ⟨0xC4, 0, 0, 16⟩
def PWR_BANK_CFG0.BANK_SPEND : Fld := ⟨0xC4, 0, 16, 16⟩
def PWR_BANK_CFG1.word : Fld := ⟨0xC8, 0, 0, 32⟩
def PWR_BANK_CFG1.BANK_REPAY : Fld := ⟨0xC8, 0, 0, 16⟩
def PWR_BANK_CFG1.BANK_THROT : Fld := ⟨0xC8, 0, 16, 16⟩
def PWR_SHARE.word : Fld := ⟨0xCC, 0, 0, 32⟩
def PWR_SHARE.SHARE_A : Fld := ⟨0xCC, 0, 0, 8⟩
def PWR_SHARE.SHARE_B : Fld := ⟨0xCC, 0, 8, 8⟩
def PWR_SHARE.SHARE_C : Fld := ⟨0xCC, 0, 16, 8⟩
def PWR_SAFE_FLOOR.word : Fld := ⟨0xD0, 0, 0, 32⟩
def PWR_SAFE_FLOOR.SAFE_FLOOR : Fld := ⟨0xD0, 0, 0, 16⟩
def PWR_BASE.word : Fld := ⟨0xD4, 0, 0, 32⟩
def PWR_BASE.VALUE : Fld := ⟨0xD4, 0, 0, 32⟩
def PWR_BANK.word : Fld := ⟨0xD8, 0, 0, 32⟩
def PWR_BANK.VALUE : Fld := ⟨0xD8, 0, 0, 32⟩
def PWR_MEAS.word : Fld := ⟨0xDC, 0, 0, 32⟩
def PWR_MEAS.VALUE : Fld := ⟨0xDC, 0, 0, 32⟩
def PWR_FLOOR.word : Fld := ⟨0xE0, 4, 0, 32⟩
def PWR_FLOOR.VALUE : Fld := ⟨0xE0, 4, 0, 32⟩
def PWR_SENSE.word : Fld := ⟨0xEC, 0, 0, 32⟩
def PWR_SENSE.VSCALE : Fld := ⟨0xEC, 0, 0, 16⟩
def PWR_SENSE.ISCALE : Fld := ⟨0xEC, 0, 16, 16⟩
def PWR_THERM.word : Fld := ⟨0xF0, 0, 0, 32⟩
def PWR_THERM.T_WARN : Fld := ⟨0xF0, 0, 0, 8⟩
def PWR_THERM.T_THROT : Fld := ⟨0xF0, 0, 8, 8⟩
def PWR_THERM.T_TRIP : Fld := ⟨0xF0, 0, 16, 8⟩
def PWR_TEMP.word : Fld := ⟨0xF4, 0, 0, 32⟩
def PWR_TEMP.TEMP : Fld := ⟨0xF4, 0, 0, 8⟩
def PWR_TEMP.SENSOR : Fld := ⟨0xF4, 0, 8, 5⟩
def PWR_CHIP.word : Fld := ⟨0xF8, 0, 0, 32⟩
def PWR_CHIP.MW : Fld := ⟨0xF8, 0, 0, 16⟩
def PWR_THROT.word : Fld := ⟨0xFC, 0, 0, 32⟩
def PWR_THROT.FLOOR_THROT : Fld := ⟨0xFC, 0, 0, 6⟩
def PWR_THROT.CHIP_CAP : Fld := ⟨0xFC, 0, 8, 16⟩
def PWR_THROT.CAUSE : Fld := ⟨0xFC, 0, 28, 3⟩
def PWR_THROT.THROTTLE : Fld := ⟨0xFC, 0, 31, 1⟩
def PWR_CAL_BASE.word : Fld := ⟨0x140, 0, 0, 32⟩
def PWR_CAL_BASE.BASE : Fld := ⟨0x140, 0, 7, 25⟩
def PWR_CAL_CFG.word : Fld := ⟨0x144, 0, 0, 32⟩
def PWR_CAL_CFG.LOG2 : Fld := ⟨0x144, 0, 0, 4⟩
def PWR_CAL_CFG.CAL_EN : Fld := ⟨0x144, 0, 4, 1⟩
def PWR_CAL_WR.word : Fld := ⟨0x148, 0, 0, 32⟩
def PWR_CAL_WR.INDEX : Fld := ⟨0x148, 0, 0, 16⟩
def PWR_HOST_WAKE.word : Fld := ⟨0x14C, 0, 0, 32⟩
def PWR_HOST_WAKE.WAKE : Fld := ⟨0x14C, 0, 0, 1⟩
def PWR_RAIL.word0 : Fld := ⟨0x200, 8, 0, 32⟩
def PWR_RAIL.ADDR : Fld := ⟨0x200, 8, 0, 7⟩
def PWR_RAIL.PAGE : Fld := ⟨0x200, 8, 8, 8⟩
def PWR_RAIL.EXP : Fld := ⟨0x200, 8, 16, 5⟩
def PWR_RAIL.EN : Fld := ⟨0x200, 8, 31, 1⟩
def PWR_RAIL.word1 : Fld := ⟨0x204, 8, 0, 32⟩
def PWR_RAIL.VSETTLE : Fld := ⟨0x204, 8, 0, 16⟩
def PWR_BLK_RST.word : Fld := ⟨0x400, 4, 0, 32⟩
def PWR_BLK_RST.RST : Fld := ⟨0x400, 4, 0, 32⟩
def PWR_DOM.word : Fld := ⟨0x420, 0, 0, 32⟩
def PWR_DOM.KOV : Fld := ⟨0x420, 0, 0, 1⟩
def PWR_DOM.BB : Fld := ⟨0x420, 0, 1, 1⟩
def PWR_DOM.PCIE : Fld := ⟨0x420, 0, 2, 1⟩
def PWR_DOM_STAT.word : Fld := ⟨0x424, 0, 0, 32⟩
def PWR_DOM_STAT.KOV : Fld := ⟨0x424, 0, 0, 1⟩
def PWR_DOM_STAT.BB : Fld := ⟨0x424, 0, 1, 1⟩
def PWR_DOM_STAT.PCIE : Fld := ⟨0x424, 0, 2, 1⟩
/-! ### 17_rtc_health.md, page kind rtc -/
def RTC_CNT_LO.word : Fld := ⟨0x80, 0, 0, 32⟩
def RTC_CNT_LO.TICKS_LO : Fld := ⟨0x80, 0, 0, 32⟩
def RTC_CNT_HI.word : Fld := ⟨0x84, 0, 0, 32⟩
def RTC_CNT_HI.VALUE : Fld := ⟨0x84, 0, 0, 32⟩
def RTC_CNT_FRAC.word : Fld := ⟨0x88, 0, 0, 32⟩
def RTC_CNT_FRAC.VALUE : Fld := ⟨0x88, 0, 0, 32⟩
def RTC_SET_LO.word : Fld := ⟨0x8C, 0, 0, 32⟩
def RTC_SET_LO.VALUE : Fld := ⟨0x8C, 0, 0, 32⟩
def RTC_SET_HI.word : Fld := ⟨0x90, 0, 0, 32⟩
def RTC_SET_HI.VALUE : Fld := ⟨0x90, 0, 0, 32⟩
def RTC_SET_FRAC.word : Fld := ⟨0x94, 0, 0, 32⟩
def RTC_SET_FRAC.VALUE : Fld := ⟨0x94, 0, 0, 32⟩
def RTC_SET_CMD.word : Fld := ⟨0x98, 0, 0, 32⟩
def RTC_SET_CMD.OP : Fld := ⟨0x98, 0, 0, 2⟩
def RTC_SET_CMD.BUSY : Fld := ⟨0x98, 0, 2, 1⟩
def RTC_SET_CMD.RESULT : Fld := ⟨0x98, 0, 3, 3⟩
def RTC_SET_CMD.CANCEL : Fld := ⟨0x98, 0, 30, 1⟩
def RTC_SET_CMD.GO : Fld := ⟨0x98, 0, 31, 1⟩
def RTC_TRIM.word : Fld := ⟨0x9C, 0, 0, 32⟩
def RTC_TRIM.TRIM : Fld := ⟨0x9C, 0, 0, 32⟩
def RTC_TRIM_CFG.word : Fld := ⟨0xA0, 0, 0, 32⟩
def RTC_TRIM_CFG.AUTO_TRIM : Fld := ⟨0xA0, 0, 0, 1⟩
def RTC_TRIM_CFG.TRIM_WIN : Fld := ⟨0xA0, 0, 1, 15⟩
def RTC_TRIM_CFG.ALPHA : Fld := ⟨0xA0, 0, 16, 4⟩
def RTC_TRIM_MEAS.word : Fld := ⟨0xA4, 0, 0, 32⟩
def RTC_TRIM_MEAS.ERROR : Fld := ⟨0xA4, 0, 0, 24⟩
def RTC_TRIM_MEAS.SKIPPED : Fld := ⟨0xA4, 0, 24, 8⟩
def RTC_STAT.word : Fld := ⟨0xA8, 0, 0, 32⟩
def RTC_STAT.OSC_STOP : Fld := ⟨0xA8, 0, 0, 1⟩
def RTC_STAT.ON_BATT : Fld := ⟨0xA8, 0, 1, 1⟩
def RTC_STAT.BATT_USED : Fld := ⟨0xA8, 0, 2, 1⟩
def RTC_STAT.BATT_LOW : Fld := ⟨0xA8, 0, 3, 1⟩
def RTC_STAT.SNAP_VALID : Fld := ⟨0xA8, 0, 4, 1⟩
def RTC_DERIVE.word : Fld := ⟨0xAC, 0, 0, 32⟩
def RTC_DERIVE.DSTATUS : Fld := ⟨0xAC, 0, 0, 2⟩
def RTC_DERIVE.FROM_HIB : Fld := ⟨0xAC, 0, 2, 1⟩
def RTC_DERIVE_TICKS.word : Fld := ⟨0xB0, 0, 0, 32⟩
def RTC_DERIVE_TICKS.TICKS : Fld := ⟨0xB0, 0, 0, 32⟩
def RTC_ALARM.word0 : Fld := ⟨0x100, 16, 0, 32⟩
def RTC_ALARM.CMP_LO : Fld := ⟨0x100, 16, 0, 32⟩
def RTC_ALARM.word1 : Fld := ⟨0x104, 16, 0, 32⟩
def RTC_ALARM.CMP_HI : Fld := ⟨0x104, 16, 0, 32⟩
def RTC_ALARM.word2 : Fld := ⟨0x108, 16, 0, 32⟩
def RTC_ALARM.PERIOD : Fld := ⟨0x108, 16, 0, 32⟩
def RTC_ALARM.word3 : Fld := ⟨0x10C, 16, 0, 32⟩
def RTC_ALARM.EN : Fld := ⟨0x10C, 16, 0, 1⟩
def RTC_ALARM.WAKE : Fld := ⟨0x10C, 16, 1, 1⟩
def RTC_ALARM.ARMED : Fld := ⟨0x10C, 16, 2, 1⟩
def RTC_ALARM.FIRED : Fld := ⟨0x10C, 16, 3, 1⟩
def RTC_ALARM.BY_WRITE : Fld := ⟨0x10C, 16, 4, 1⟩
def RTC_ALARM.MISSED : Fld := ⟨0x10C, 16, 16, 16⟩
/-! ### 17_rtc_health.md, page kind age -/
def AGE_CFG.word : Fld := ⟨0x80, 0, 0, 32⟩
def AGE_CFG.ALPHA : Fld := ⟨0x80, 0, 0, 4⟩
def AGE_CFG.EOL_WARN : Fld := ⟨0x80, 0, 4, 12⟩
def AGE_CFG.AGE_PERIOD : Fld := ⟨0x80, 0, 16, 16⟩
def AGE_HOURS.word : Fld := ⟨0x84, 0, 0, 32⟩
def AGE_HOURS.HOURS : Fld := ⟨0x84, 0, 0, 32⟩
def AGE_SECS.word : Fld := ⟨0x94, 0, 0, 32⟩
def AGE_SECS.SECS : Fld := ⟨0x94, 0, 0, 12⟩
def AGE_PROFILE.word : Fld := ⟨0x88, 0, 0, 32⟩
def AGE_PROFILE.L_REF : Fld := ⟨0x88, 0, 0, 24⟩
def AGE_PROFILE.T_REF : Fld := ⟨0x88, 0, 24, 8⟩
def AGE_PA_CFG0.word : Fld := ⟨0x8C, 0, 0, 32⟩
def AGE_PA_CFG0.PA_LIFE : Fld := ⟨0x8C, 0, 0, 24⟩
def AGE_PA_CFG1.word : Fld := ⟨0x90, 0, 0, 32⟩
def AGE_PA_CFG1.PA_PREF : Fld := ⟨0x90, 0, 0, 8⟩
def AGE_PA_CFG1.PA_PDBL : Fld := ⟨0x90, 0, 8, 8⟩
def AGE_PA_CFG1.PA_TREF : Fld := ⟨0x90, 0, 16, 8⟩
def AGE_PA_CFG1.DROP_EOL : Fld := ⟨0x90, 0, 24, 8⟩
def AGE_DOM.word0 : Fld := ⟨0x100, 16, 0, 32⟩
def AGE_DOM.CONSUMED : Fld := ⟨0x100, 16, 0, 32⟩
def AGE_DOM.word1 : Fld := ⟨0x104, 16, 0, 32⟩
def AGE_DOM.AF_AVG : Fld := ⟨0x104, 16, 0, 16⟩
def AGE_DOM.DRIFT : Fld := ⟨0x104, 16, 16, 16⟩
def AGE_DOM.word2 : Fld := ⟨0x108, 16, 0, 32⟩
def AGE_DOM.DAYS_LEFT : Fld := ⟨0x108, 16, 0, 16⟩
def AGE_DOM.SOURCE : Fld := ⟨0x108, 16, 16, 1⟩
def AGE_DOM.EOL : Fld := ⟨0x108, 16, 17, 1⟩
def AGE_PA.word0 : Fld := ⟨0x400, 16, 0, 32⟩
def AGE_PA.CONSUMED : Fld := ⟨0x400, 16, 0, 32⟩
def AGE_PA.word1 : Fld := ⟨0x404, 16, 0, 32⟩
def AGE_PA.BASE : Fld := ⟨0x404, 16, 0, 16⟩
def AGE_PA.BASE_VALID : Fld := ⟨0x404, 16, 16, 1⟩
def AGE_PA.word2 : Fld := ⟨0x408, 16, 0, 32⟩
def AGE_PA.DROP : Fld := ⟨0x408, 16, 0, 16⟩
def AGE_PA.AF_AVG : Fld := ⟨0x408, 16, 16, 16⟩
def AGE_PA.word3 : Fld := ⟨0x40C, 16, 0, 32⟩
def AGE_PA.DAYS_LEFT : Fld := ⟨0x40C, 16, 0, 16⟩
def AGE_PA.SOURCE : Fld := ⟨0x40C, 16, 16, 1⟩
def AGE_PA.EOL : Fld := ⟨0x40C, 16, 17, 1⟩
def AGE_PA.BASE_HOURS : Fld := ⟨0x40C, 16, 18, 14⟩
/-! ### 18_twin_pair.md, page kind twn -/
def TWN_CFG.word : Fld := ⟨0x80, 0, 0, 32⟩
def TWN_CFG.PREF_ACTIVE : Fld := ⟨0x80, 0, 0, 1⟩
def TWN_CFG.LANE0_EN : Fld := ⟨0x80, 0, 1, 1⟩
def TWN_CFG.LANE1_EN : Fld := ⟨0x80, 0, 2, 1⟩
def TWN_CFG.AUTH_CTX : Fld := ⟨0x80, 0, 8, 8⟩
def TWN_CFG.HB_OFS : Fld := ⟨0x80, 0, 16, 8⟩
def TWN_TIMING.word : Fld := ⟨0x84, 0, 0, 32⟩
def TWN_TIMING.KICK_BEATS : Fld := ⟨0x84, 0, 0, 8⟩
def TWN_TIMING.SOLO_BEATS : Fld := ⟨0x84, 0, 8, 16⟩
def TWN_TIMING.RETX_BEATS : Fld := ⟨0x84, 0, 24, 8⟩
def TWN_MARK_CFG.word : Fld := ⟨0x88, 0, 0, 32⟩
def TWN_MARK_CFG.PN_LOG2 : Fld := ⟨0x88, 0, 0, 5⟩
def TWN_ROLE.word : Fld := ⟨0x8C, 0, 0, 32⟩
def TWN_ROLE.ROLE : Fld := ⟨0x8C, 0, 0, 3⟩
def TWN_ROLE.PAIRED : Fld := ⟨0x8C, 0, 3, 1⟩
def TWN_ROLE.SOLO : Fld := ⟨0x8C, 0, 4, 1⟩
def TWN_ROLE.MIR_OK : Fld := ⟨0x8C, 0, 5, 1⟩
def TWN_ROLE.FENCE_IN : Fld := ⟨0x8C, 0, 6, 1⟩
def TWN_ROLE.FENCE_OUT : Fld := ⟨0x8C, 0, 7, 1⟩
def TWN_ROLE.SELF_FENCE : Fld := ⟨0x8C, 0, 8, 1⟩
def TWN_ROLE.ADJ_DONE : Fld := ⟨0x8C, 0, 9, 1⟩
def TWN_ROLE.PN_UNSAFE : Fld := ⟨0x8C, 0, 10, 1⟩
def TWN_ROLE.MISS : Fld := ⟨0x8C, 0, 11, 2⟩
def TWN_ROLE.FENCE_HELD : Fld := ⟨0x8C, 0, 13, 1⟩
def TWN_ROLE.PMODE : Fld := ⟨0x8C, 0, 14, 3⟩
def TWN_ROLE.LANE_UP : Fld := ⟨0x8C, 0, 17, 2⟩
def TWN_CMD.word : Fld := ⟨0x90, 0, 0, 32⟩
def TWN_CMD.KICK : Fld := ⟨0x90, 0, 0, 1⟩
def TWN_CMD.HANDOVER : Fld := ⟨0x90, 0, 1, 1⟩
def TWN_CMD.RESYNC : Fld := ⟨0x90, 0, 2, 1⟩
def TWN_PARTNER_LO.word : Fld := ⟨0x94, 0, 0, 32⟩
def TWN_PARTNER_LO.UID : Fld := ⟨0x94, 0, 0, 32⟩
def TWN_PARTNER_HI.word : Fld := ⟨0x98, 0, 0, 32⟩
def TWN_PARTNER_HI.UID : Fld := ⟨0x98, 0, 0, 32⟩
def TWN_LANE.word : Fld := ⟨0x9C, 4, 0, 32⟩
def TWN_LANE.TX_INV : Fld := ⟨0x9C, 4, 2, 1⟩
def TWN_LANE.RX_INV : Fld := ⟨0x9C, 4, 3, 1⟩
def TWN_LANE.TX_PRE : Fld := ⟨0x9C, 4, 4, 6⟩
def TWN_LANE.TX_POST : Fld := ⟨0x9C, 4, 10, 6⟩
def TWN_LANE.TX_MAIN : Fld := ⟨0x9C, 4, 16, 6⟩
def TWN_TXQ_BASE.word : Fld := ⟨0xA4, 0, 0, 32⟩
def TWN_TXQ_BASE.BASE : Fld := ⟨0xA4, 0, 0, 24⟩
def TWN_RXQ_BASE.word : Fld := ⟨0xA8, 0, 0, 32⟩
def TWN_RXQ_BASE.BASE : Fld := ⟨0xA8, 0, 0, 24⟩
def TWN_RING_CFG.word : Fld := ⟨0xAC, 0, 0, 32⟩
def TWN_RING_CFG.TXQ_LOG2 : Fld := ⟨0xAC, 0, 0, 4⟩
def TWN_RING_CFG.RXQ_LOG2 : Fld := ⟨0xAC, 0, 8, 4⟩
def TWN_TXQ_WR.word : Fld := ⟨0xB0, 0, 0, 32⟩
def TWN_TXQ_WR.INDEX : Fld := ⟨0xB0, 0, 0, 16⟩
def TWN_TXQ_RD.word : Fld := ⟨0xB4, 0, 0, 32⟩
def TWN_TXQ_RD.INDEX : Fld := ⟨0xB4, 0, 0, 16⟩
def TWN_RXQ_WR.word : Fld := ⟨0xB8, 0, 0, 32⟩
def TWN_RXQ_WR.INDEX : Fld := ⟨0xB8, 0, 0, 16⟩
def TWN_RXQ_RD.word : Fld := ⟨0xBC, 0, 0, 32⟩
def TWN_RXQ_RD.INDEX : Fld := ⟨0xBC, 0, 0, 16⟩
/-! ### 19_package_electrical.md, page kind pin -/
def PIN_GPIO_OUT.word : Fld := ⟨0x2000, 4, 0, 32⟩
def PIN_GPIO_OUT.OUT : Fld := ⟨0x2000, 4, 0, 24⟩
def PIN_GPIO_IN.word : Fld := ⟨0x2010, 4, 0, 32⟩
def PIN_GPIO_IN.IN : Fld := ⟨0x2010, 4, 0, 24⟩
def PIN_PULL.word : Fld := ⟨0x2020, 4, 0, 32⟩
def PIN_PULL.PD : Fld := ⟨0x2020, 4, 0, 24⟩
def PIN_PULLUP.word : Fld := ⟨0x2030, 4, 0, 32⟩
def PIN_PULLUP.PU : Fld := ⟨0x2030, 4, 0, 24⟩
/-! ### 04_receive_path.md, page kind rxp -/
def RXP_CNT_DETECT.word : Fld := ⟨0x100, 0, 0, 32⟩
def RXP_CNT_DETECT.COUNT : Fld := ⟨0x100, 0, 0, 32⟩
def RXP_CNT_OK.word : Fld := ⟨0x104, 0, 0, 32⟩
def RXP_CNT_OK.COUNT : Fld := ⟨0x104, 0, 0, 32⟩
def RXP_CNT_CWERR.word : Fld := ⟨0x108, 0, 0, 32⟩
def RXP_CNT_CWERR.COUNT : Fld := ⟨0x108, 0, 0, 32⟩
def RXP_CNT_SIGFAIL.word : Fld := ⟨0x10C, 0, 0, 32⟩
def RXP_CNT_SIGFAIL.COUNT : Fld := ⟨0x10C, 0, 0, 32⟩
def RXP_CNT_RESTART.word : Fld := ⟨0x110, 0, 0, 32⟩
def RXP_CNT_RESTART.COUNT : Fld := ⟨0x110, 0, 0, 32⟩
def RXP_CNT_ABANDON.word : Fld := ⟨0x114, 0, 0, 32⟩
def RXP_CNT_ABANDON.COUNT : Fld := ⟨0x114, 0, 0, 32⟩
def RXP_CNT_NOSIG.word : Fld := ⟨0x118, 0, 0, 32⟩
def RXP_CNT_NOSIG.COUNT : Fld := ⟨0x118, 0, 0, 32⟩
def RXP_CNT_UNSUP.word : Fld := ⟨0x11C, 0, 0, 32⟩
def RXP_CNT_UNSUP.COUNT : Fld := ⟨0x11C, 0, 0, 32⟩
def RXP_CNT_REPDROP.word : Fld := ⟨0x120, 0, 0, 32⟩
def RXP_CNT_REPDROP.COUNT : Fld := ⟨0x120, 0, 0, 32⟩
def RXP_CNT_DECLATE.word : Fld := ⟨0x124, 0, 0, 32⟩
def RXP_CNT_DECLATE.COUNT : Fld := ⟨0x124, 0, 0, 32⟩
/-! ### 05_transmit_precoding.md, page kind txp -/
def TXP_CNT_PPDU.word : Fld := ⟨0x100, 0, 0, 32⟩
def TXP_CNT_PPDU.COUNT : Fld := ⟨0x100, 0, 0, 32⟩
def TXP_CNT_WINMISS.word : Fld := ⟨0x104, 0, 0, 32⟩
def TXP_CNT_WINMISS.COUNT : Fld := ⟨0x104, 0, 0, 32⟩
def TXP_CNT_RESPLATE.word : Fld := ⟨0x108, 0, 0, 32⟩
def TXP_CNT_RESPLATE.COUNT : Fld := ⟨0x108, 0, 0, 32⟩
def TXP_CNT_UNDERRUN.word : Fld := ⟨0x10C, 0, 0, 32⟩
def TXP_CNT_UNDERRUN.COUNT : Fld := ⟨0x10C, 0, 0, 32⟩
def TXP_CNT_RU_OK.word : Fld := ⟨0x110, 0, 0, 32⟩
def TXP_CNT_RU_OK.COUNT : Fld := ⟨0x110, 0, 0, 32⟩
def TXP_CNT_RU_STALE.word : Fld := ⟨0x114, 0, 0, 32⟩
def TXP_CNT_RU_STALE.COUNT : Fld := ⟨0x114, 0, 0, 32⟩
def TXP_CNT_RU_OPEN.word : Fld := ⟨0x118, 0, 0, 32⟩
def TXP_CNT_RU_OPEN.COUNT : Fld := ⟨0x118, 0, 0, 32⟩
def TXP_CNT_RU_UNASSIGNED.word : Fld := ⟨0x11C, 0, 0, 32⟩
def TXP_CNT_RU_UNASSIGNED.COUNT : Fld := ⟨0x11C, 0, 0, 32⟩
def TXP_CNT_JOB_LATE.word : Fld := ⟨0x120, 0, 0, 32⟩
def TXP_CNT_JOB_LATE.COUNT : Fld := ⟨0x120, 0, 0, 32⟩
def TXP_CNT_CHREC_WR.word : Fld := ⟨0x124, 0, 0, 32⟩
def TXP_CNT_CHREC_WR.COUNT : Fld := ⟨0x124, 0, 0, 32⟩
def TXP_CNT_CHREC_ERR.word : Fld := ⟨0x128, 0, 0, 32⟩
def TXP_CNT_CHREC_ERR.COUNT : Fld := ⟨0x128, 0, 0, 32⟩
def TXP_CNT_PRESCALE.word : Fld := ⟨0x12C, 0, 0, 32⟩
def TXP_CNT_PRESCALE.COUNT : Fld := ⟨0x12C, 0, 0, 32⟩
/-! ### 06_wlan_mac.md, page kind mac -/
def MAC_CNT_MPDU_TX.word : Fld := ⟨0x100, 0, 0, 32⟩
def MAC_CNT_MPDU_TX.COUNT : Fld := ⟨0x100, 0, 0, 32⟩
def MAC_CNT_ACKED.word : Fld := ⟨0x104, 0, 0, 32⟩
def MAC_CNT_ACKED.COUNT : Fld := ⟨0x104, 0, 0, 32⟩
def MAC_CNT_RETRY.word : Fld := ⟨0x108, 0, 0, 32⟩
def MAC_CNT_RETRY.COUNT : Fld := ⟨0x108, 0, 0, 32⟩
def MAC_CNT_RETRYLIMIT.word : Fld := ⟨0x10C, 0, 0, 32⟩
def MAC_CNT_RETRYLIMIT.COUNT : Fld := ⟨0x10C, 0, 0, 32⟩
def MAC_CNT_RESP.word : Fld := ⟨0x110, 0, 0, 32⟩
def MAC_CNT_RESP.COUNT : Fld := ⟨0x110, 0, 0, 32⟩
def MAC_CNT_RESPCUT.word : Fld := ⟨0x114, 0, 0, 32⟩
def MAC_CNT_RESPCUT.COUNT : Fld := ⟨0x114, 0, 0, 32⟩
def MAC_CNT_BUSY_US.word : Fld := ⟨0x118, 0, 0, 32⟩
def MAC_CNT_BUSY_US.COUNT : Fld := ⟨0x118, 0, 0, 32⟩
def MAC_CNT_OBSSPD.word : Fld := ⟨0x11C, 0, 0, 32⟩
def MAC_CNT_OBSSPD.COUNT : Fld := ⟨0x11C, 0, 0, 32⟩
def MAC_CNT_COORDPD.word : Fld := ⟨0x120, 0, 0, 32⟩
def MAC_CNT_COORDPD.COUNT : Fld := ⟨0x120, 0, 0, 32⟩
def MAC_CNT_BCN.word : Fld := ⟨0x124, 0, 0, 32⟩
def MAC_CNT_BCN.COUNT : Fld := ⟨0x124, 0, 0, 32⟩
def MAC_CNT_BCNLOST.word : Fld := ⟨0x128, 0, 0, 32⟩
def MAC_CNT_BCNLOST.COUNT : Fld := ⟨0x128, 0, 0, 32⟩
def MAC_CNT_MPDU_RX.word : Fld := ⟨0x12C, 0, 0, 32⟩
def MAC_CNT_MPDU_RX.COUNT : Fld := ⟨0x12C, 0, 0, 32⟩
def MAC_CNT_EMLSR_NOCTS.word : Fld := ⟨0x130, 0, 0, 32⟩
def MAC_CNT_EMLSR_NOCTS.COUNT : Fld := ⟨0x130, 0, 0, 32⟩
/-! ### 06_wlan_mac.md, page kind mas -/
def MAC_CNT_NOSTA.word : Fld := ⟨0x100, 0, 0, 32⟩
def MAC_CNT_NOSTA.COUNT : Fld := ⟨0x100, 0, 0, 32⟩
def MAC_CNT_SUSPDROP.word : Fld := ⟨0x104, 0, 0, 32⟩
def MAC_CNT_SUSPDROP.COUNT : Fld := ⟨0x104, 0, 0, 32⟩
def MAC_CNT_DUP.word : Fld := ⟨0x108, 0, 0, 32⟩
def MAC_CNT_DUP.COUNT : Fld := ⟨0x108, 0, 0, 32⟩
def MAC_CNT_KEYMISS.word : Fld := ⟨0x10C, 0, 0, 32⟩
def MAC_CNT_KEYMISS.COUNT : Fld := ⟨0x10C, 0, 0, 32⟩
def MAC_CNT_UNPROT.word : Fld := ⟨0x110, 0, 0, 32⟩
def MAC_CNT_UNPROT.COUNT : Fld := ⟨0x110, 0, 0, 32⟩
def MAC_CNT_MICFAIL.word : Fld := ⟨0x114, 0, 0, 32⟩
def MAC_CNT_MICFAIL.COUNT : Fld := ⟨0x114, 0, 0, 32⟩
def MAC_CNT_ROFULL.word : Fld := ⟨0x118, 0, 0, 32⟩
def MAC_CNT_ROFULL.COUNT : Fld := ⟨0x118, 0, 0, 32⟩
def MAC_CNT_ROFLUSH.word : Fld := ⟨0x11C, 0, 0, 32⟩
def MAC_CNT_ROFLUSH.COUNT : Fld := ⟨0x11C, 0, 0, 32⟩
def MAC_CNT_REPLAY.word : Fld := ⟨0x120, 0, 0, 32⟩
def MAC_CNT_REPLAY.COUNT : Fld := ⟨0x120, 0, 0, 32⟩
def MAC_CNT_PSWITHHELD.word : Fld := ⟨0x124, 0, 0, 32⟩
def MAC_CNT_PSWITHHELD.COUNT : Fld := ⟨0x124, 0, 0, 32⟩
def MAC_CNT_REASM_DROP.word : Fld := ⟨0x128, 0, 0, 32⟩
def MAC_CNT_REASM_DROP.COUNT : Fld := ⟨0x128, 0, 0, 32⟩
def MAC_CNT_RXREFUSED.word : Fld := ⟨0x12C, 0, 0, 32⟩
def MAC_CNT_RXREFUSED.COUNT : Fld := ⟨0x12C, 0, 0, 32⟩
/-! ### 07_air_scheduler.md, page kind air -/
def AIR_CNT_PLAN.word : Fld := ⟨0x100, 0, 0, 32⟩
def AIR_CNT_PLAN.COUNT : Fld := ⟨0x100, 0, 0, 32⟩
def AIR_CNT_FALLBACK.word : Fld := ⟨0x104, 0, 0, 32⟩
def AIR_CNT_FALLBACK.COUNT : Fld := ⟨0x104, 0, 0, 32⟩
def AIR_CNT_PLANLATE.word : Fld := ⟨0x108, 0, 0, 32⟩
def AIR_CNT_PLANLATE.COUNT : Fld := ⟨0x108, 0, 0, 32⟩
def AIR_CNT_SKIP.word : Fld := ⟨0x10C, 0, 0, 32⟩
def AIR_CNT_SKIP.COUNT : Fld := ⟨0x10C, 0, 0, 32⟩
def AIR_CNT_STEP1.word : Fld := ⟨0x110, 0, 0, 32⟩
def AIR_CNT_STEP1.COUNT : Fld := ⟨0x110, 0, 0, 32⟩
def AIR_CNT_STEP2.word : Fld := ⟨0x114, 0, 0, 32⟩
def AIR_CNT_STEP2.COUNT : Fld := ⟨0x114, 0, 0, 32⟩
def AIR_CNT_STEP3.word : Fld := ⟨0x118, 0, 0, 32⟩
def AIR_CNT_STEP3.COUNT : Fld := ⟨0x118, 0, 0, 32⟩
def AIR_CNT_STEP4.word : Fld := ⟨0x11C, 0, 0, 32⟩
def AIR_CNT_STEP4.COUNT : Fld := ⟨0x11C, 0, 0, 32⟩
def AIR_CNT_STEP5.word : Fld := ⟨0x120, 0, 0, 32⟩
def AIR_CNT_STEP5.COUNT : Fld := ⟨0x120, 0, 0, 32⟩
def AIR_CNT_UL_USER.word : Fld := ⟨0x124, 0, 0, 32⟩
def AIR_CNT_UL_USER.COUNT : Fld := ⟨0x124, 0, 0, 32⟩
def AIR_CNT_UL_NOSIG.word : Fld := ⟨0x128, 0, 0, 32⟩
def AIR_CNT_UL_NOSIG.COUNT : Fld := ⟨0x128, 0, 0, 32⟩
def AIR_CNT_JOB_POST.word : Fld := ⟨0x12C, 0, 0, 32⟩
def AIR_CNT_JOB_POST.COUNT : Fld := ⟨0x12C, 0, 0, 32⟩
def AIR_CNT_JOB_NOLINE.word : Fld := ⟨0x130, 0, 0, 32⟩
def AIR_CNT_JOB_NOLINE.COUNT : Fld := ⟨0x130, 0, 0, 32⟩
def AIR_CNT_SOUND.word : Fld := ⟨0x134, 0, 0, 32⟩
def AIR_CNT_SOUND.COUNT : Fld := ⟨0x134, 0, 0, 32⟩
/-! ### 08_venue_coordination.md, page kind ven -/
def VEN_CNT_TX.word : Fld := ⟨0x100, 0, 0, 32⟩
def VEN_CNT_TX.COUNT : Fld := ⟨0x100, 0, 0, 32⟩
def VEN_CNT_RX.word : Fld := ⟨0x104, 0, 0, 32⟩
def VEN_CNT_RX.COUNT : Fld := ⟨0x104, 0, 0, 32⟩
def VEN_CNT_BADMSG.word : Fld := ⟨0x108, 0, 0, 32⟩
def VEN_CNT_BADMSG.COUNT : Fld := ⟨0x108, 0, 0, 32⟩
def VEN_CNT_OTHERDOM.word : Fld := ⟨0x10C, 0, 0, 32⟩
def VEN_CNT_OTHERDOM.COUNT : Fld := ⟨0x10C, 0, 0, 32⟩
def VEN_CNT_AUTHFAIL.word : Fld := ⟨0x110, 0, 0, 32⟩
def VEN_CNT_AUTHFAIL.COUNT : Fld := ⟨0x110, 0, 0, 32⟩
def VEN_CNT_UNLISTED.word : Fld := ⟨0x114, 0, 0, 32⟩
def VEN_CNT_UNLISTED.COUNT : Fld := ⟨0x114, 0, 0, 32⟩
def VEN_CNT_SKEW.word : Fld := ⟨0x118, 0, 0, 32⟩
def VEN_CNT_SKEW.COUNT : Fld := ⟨0x118, 0, 0, 32⟩
def VEN_CNT_STALE.word : Fld := ⟨0x11C, 0, 0, 32⟩
def VEN_CNT_STALE.COUNT : Fld := ⟨0x11C, 0, 0, 32⟩
def VEN_CNT_MISS.word : Fld := ⟨0x120, 0, 0, 32⟩
def VEN_CNT_MISS.COUNT : Fld := ⟨0x120, 0, 0, 32⟩
def VEN_CNT_TRIG.word : Fld := ⟨0x124, 0, 0, 32⟩
def VEN_CNT_TRIG.COUNT : Fld := ⟨0x124, 0, 0, 32⟩
def VEN_CNT_LEARN.word : Fld := ⟨0x128, 0, 0, 32⟩
def VEN_CNT_LEARN.COUNT : Fld := ⟨0x128, 0, 0, 32⟩
def VEN_CNT_NULLS.word : Fld := ⟨0x12C, 0, 0, 32⟩
def VEN_CNT_NULLS.COUNT : Fld := ⟨0x12C, 0, 0, 32⟩
def VEN_CNT_NOTSENT.word : Fld := ⟨0x130, 0, 0, 32⟩
def VEN_CNT_NOTSENT.COUNT : Fld := ⟨0x130, 0, 0, 32⟩
/-! ### 09_tag_lane.md, page kind tag -/
def TAG_CNT_RX154.word : Fld := ⟨0x100, 0, 0, 32⟩
def TAG_CNT_RX154.COUNT : Fld := ⟨0x100, 0, 0, 32⟩
def TAG_CNT_RXGFSK.word : Fld := ⟨0x104, 0, 0, 32⟩
def TAG_CNT_RXGFSK.COUNT : Fld := ⟨0x104, 0, 0, 32⟩
def TAG_CNT_FCS_BAD.word : Fld := ⟨0x108, 0, 0, 32⟩
def TAG_CNT_FCS_BAD.COUNT : Fld := ⟨0x108, 0, 0, 32⟩
def TAG_CNT_ACK.word : Fld := ⟨0x10C, 0, 0, 32⟩
def TAG_CNT_ACK.COUNT : Fld := ⟨0x10C, 0, 0, 32⟩
def TAG_CNT_TX.word : Fld := ⟨0x110, 0, 0, 32⟩
def TAG_CNT_TX.COUNT : Fld := ⟨0x110, 0, 0, 32⟩
def TAG_CNT_NOACK.word : Fld := ⟨0x114, 0, 0, 32⟩
def TAG_CNT_NOACK.COUNT : Fld := ⟨0x114, 0, 0, 32⟩
def TAG_CNT_LBT_BUSY.word : Fld := ⟨0x118, 0, 0, 32⟩
def TAG_CNT_LBT_BUSY.COUNT : Fld := ⟨0x118, 0, 0, 32⟩
def TAG_CNT_GIVEUP.word : Fld := ⟨0x11C, 0, 0, 32⟩
def TAG_CNT_GIVEUP.COUNT : Fld := ⟨0x11C, 0, 0, 32⟩
def TAG_CNT_TRAINS.word : Fld := ⟨0x120, 0, 0, 32⟩
def TAG_CNT_TRAINS.COUNT : Fld := ⟨0x120, 0, 0, 32⟩
def TAG_CNT_BCN.word : Fld := ⟨0x124, 0, 0, 32⟩
def TAG_CNT_BCN.COUNT : Fld := ⟨0x124, 0, 0, 32⟩
def TAG_CNT_BCN_LOST.word : Fld := ⟨0x128, 0, 0, 32⟩
def TAG_CNT_BCN_LOST.COUNT : Fld := ⟨0x128, 0, 0, 32⟩
def TAG_CNT_EVT_DROP.word : Fld := ⟨0x12C, 0, 0, 32⟩
def TAG_CNT_EVT_DROP.COUNT : Fld := ⟨0x12C, 0, 0, 32⟩
/-! ### 10_koveton_dsp.md, page kind kcl -/
def KOV_CNT_POSTED.word : Fld := ⟨0x100, 0, 0, 32⟩
def KOV_CNT_POSTED.COUNT : Fld := ⟨0x100, 0, 0, 32⟩
def KOV_CNT_POST_FULL.word : Fld := ⟨0x104, 0, 0, 32⟩
def KOV_CNT_POST_FULL.COUNT : Fld := ⟨0x104, 0, 0, 32⟩
def KOV_CNT_STARTED.word : Fld := ⟨0x108, 0, 0, 32⟩
def KOV_CNT_STARTED.COUNT : Fld := ⟨0x108, 0, 0, 32⟩
def KOV_CNT_LATE_START.word : Fld := ⟨0x10C, 0, 0, 32⟩
def KOV_CNT_LATE_START.COUNT : Fld := ⟨0x10C, 0, 0, 32⟩
def KOV_CNT_DISCARDED.word : Fld := ⟨0x110, 0, 0, 32⟩
def KOV_CNT_DISCARDED.COUNT : Fld := ⟨0x110, 0, 0, 32⟩
def KOV_CNT_BAD_TYPE.word : Fld := ⟨0x114, 0, 0, 32⟩
def KOV_CNT_BAD_TYPE.COUNT : Fld := ⟨0x114, 0, 0, 32⟩
def KOV_CNT_JC_DROP.word : Fld := ⟨0x118, 0, 0, 32⟩
def KOV_CNT_JC_DROP.COUNT : Fld := ⟨0x118, 0, 0, 32⟩
def KOV_CNT_DMA_REFUSED.word : Fld := ⟨0x11C, 0, 0, 32⟩
def KOV_CNT_DMA_REFUSED.COUNT : Fld := ⟨0x11C, 0, 0, 32⟩
/-! ### 10_koveton_dsp.md, page kind kco -/
def KOV_CNT_BUNDLES.word : Fld := ⟨0x100, 0, 0, 32⟩
def KOV_CNT_BUNDLES.COUNT : Fld := ⟨0x100, 0, 0, 32⟩
def KOV_CNT_STALL_DATA.word : Fld := ⟨0x104, 0, 0, 32⟩
def KOV_CNT_STALL_DATA.COUNT : Fld := ⟨0x104, 0, 0, 32⟩
def KOV_CNT_STALL_WAIT.word : Fld := ⟨0x108, 0, 0, 32⟩
def KOV_CNT_STALL_WAIT.COUNT : Fld := ⟨0x108, 0, 0, 32⟩
def KOV_CNT_STALL_DMA.word : Fld := ⟨0x10C, 0, 0, 32⟩
def KOV_CNT_STALL_DMA.COUNT : Fld := ⟨0x10C, 0, 0, 32⟩
def KOV_CNT_JOBS.word : Fld := ⟨0x110, 0, 0, 32⟩
def KOV_CNT_JOBS.COUNT : Fld := ⟨0x110, 0, 0, 32⟩
def KOV_CNT_SAT.word : Fld := ⟨0x114, 0, 0, 32⟩
def KOV_CNT_SAT.COUNT : Fld := ⟨0x114, 0, 0, 32⟩
def KOV_CNT_ECC.word : Fld := ⟨0x118, 0, 0, 32⟩
def KOV_CNT_ECC.COUNT : Fld := ⟨0x118, 0, 0, 32⟩
/-! ### 11_packet_engine.md, page kind pkp -/
def PKT_CNT_PASS1.word : Fld := ⟨0x100, 0, 0, 32⟩
def PKT_CNT_PASS1.COUNT : Fld := ⟨0x100, 0, 0, 32⟩
def PKT_CNT_PASS2.word : Fld := ⟨0x104, 0, 0, 32⟩
def PKT_CNT_PASS2.COUNT : Fld := ⟨0x104, 0, 0, 32⟩
def PKT_CNT_DEFAULT.word : Fld := ⟨0x108, 0, 0, 32⟩
def PKT_CNT_DEFAULT.COUNT : Fld := ⟨0x108, 0, 0, 32⟩
def PKT_CNT_DEPTH.word : Fld := ⟨0x10C, 0, 0, 32⟩
def PKT_CNT_DEPTH.COUNT : Fld := ⟨0x10C, 0, 0, 32⟩
def PKT_CNT_LENBAD.word : Fld := ⟨0x110, 0, 0, 32⟩
def PKT_CNT_LENBAD.COUNT : Fld := ⟨0x110, 0, 0, 32⟩
def PKT_CNT_FRAG.word : Fld := ⟨0x114, 0, 0, 32⟩
def PKT_CNT_FRAG.COUNT : Fld := ⟨0x114, 0, 0, 32⟩
def PKT_CNT_RECIRC_LIMIT.word : Fld := ⟨0x118, 0, 0, 32⟩
def PKT_CNT_RECIRC_LIMIT.COUNT : Fld := ⟨0x118, 0, 0, 32⟩
def PKT_CNT_IN_FULL.word : Fld := ⟨0x11C, 0, 0, 32⟩
def PKT_CNT_IN_FULL.COUNT : Fld := ⟨0x11C, 0, 0, 32⟩
/-! ### 11_packet_engine.md, page kind pka -/
def PKT_CNT_DROP.word : Fld := ⟨0x100, 0, 0, 32⟩
def PKT_CNT_DROP.COUNT : Fld := ⟨0x100, 0, 0, 32⟩
def PKT_CNT_ETH_REFUSED.word : Fld := ⟨0x104, 0, 0, 32⟩
def PKT_CNT_ETH_REFUSED.COUNT : Fld := ⟨0x104, 0, 0, 32⟩
def PKT_CNT_WLAN_ENQ.word : Fld := ⟨0x108, 0, 0, 32⟩
def PKT_CNT_WLAN_ENQ.COUNT : Fld := ⟨0x108, 0, 0, 32⟩
def PKT_CNT_WLAN_REFUSED.word : Fld := ⟨0x10C, 0, 0, 32⟩
def PKT_CNT_WLAN_REFUSED.COUNT : Fld := ⟨0x10C, 0, 0, 32⟩
def PKT_CNT_STA_MISS.word : Fld := ⟨0x110, 0, 0, 32⟩
def PKT_CNT_STA_MISS.COUNT : Fld := ⟨0x110, 0, 0, 32⟩
def PKT_CNT_REWRITE_SKIP.word : Fld := ⟨0x114, 0, 0, 32⟩
def PKT_CNT_REWRITE_SKIP.COUNT : Fld := ⟨0x114, 0, 0, 32⟩
def PKT_CNT_TTL.word : Fld := ⟨0x118, 0, 0, 32⟩
def PKT_CNT_TTL.COUNT : Fld := ⟨0x118, 0, 0, 32⟩
def PKT_CNT_VEN.word : Fld := ⟨0x11C, 0, 0, 32⟩
def PKT_CNT_VEN.COUNT : Fld := ⟨0x11C, 0, 0, 32⟩
def PKT_CNT_DEST_OFF.word : Fld := ⟨0x120, 0, 0, 32⟩
def PKT_CNT_DEST_OFF.COUNT : Fld := ⟨0x120, 0, 0, 32⟩
def PKT_CNT_CPL_LOST.word : Fld := ⟨0x124, 0, 0, 32⟩
def PKT_CNT_CPL_LOST.COUNT : Fld := ⟨0x124, 0, 0, 32⟩
/-! ### 11_packet_engine.md, page kind pkr -/
def PKT_CNT_RX_FRAMES.word : Fld := ⟨0x100, 0, 0, 32⟩
def PKT_CNT_RX_FRAMES.COUNT : Fld := ⟨0x100, 0, 0, 32⟩
def PKT_CNT_RX_EMPTY.word : Fld := ⟨0x104, 0, 0, 32⟩
def PKT_CNT_RX_EMPTY.COUNT : Fld := ⟨0x104, 0, 0, 32⟩
def PKT_CNT_RX_EXH.word : Fld := ⟨0x108, 0, 0, 32⟩
def PKT_CNT_RX_EXH.COUNT : Fld := ⟨0x108, 0, 0, 32⟩
def PKT_CNT_TX_FRAMES.word : Fld := ⟨0x10C, 0, 0, 32⟩
def PKT_CNT_TX_FRAMES.COUNT : Fld := ⟨0x10C, 0, 0, 32⟩
def PKT_CNT_TX_BADDESC.word : Fld := ⟨0x110, 0, 0, 32⟩
def PKT_CNT_TX_BADDESC.COUNT : Fld := ⟨0x110, 0, 0, 32⟩
def PKT_CNT_CPL.word : Fld := ⟨0x114, 0, 0, 32⟩
def PKT_CNT_CPL.COUNT : Fld := ⟨0x114, 0, 0, 32⟩
/-! ### 11_packet_engine.md, page kind pkm -/
def PKT_CNT_NO_BASKET.word : Fld := ⟨0x100, 0, 0, 32⟩
def PKT_CNT_NO_BASKET.COUNT : Fld := ⟨0x100, 0, 0, 32⟩
def PKT_CNT_SPILL.word : Fld := ⟨0x104, 0, 0, 32⟩
def PKT_CNT_SPILL.COUNT : Fld := ⟨0x104, 0, 0, 32⟩
def PKT_CNT_TOO_LONG.word : Fld := ⟨0x108, 0, 0, 32⟩
def PKT_CNT_TOO_LONG.COUNT : Fld := ⟨0x108, 0, 0, 32⟩
/-! ### 12_ethernet_time.md, page kind ptp -/
def PTP_CNT_SAMPLES.word : Fld := ⟨0x100, 0, 0, 32⟩
def PTP_CNT_SAMPLES.COUNT : Fld := ⟨0x100, 0, 0, 32⟩
def PTP_CNT_STEPS.word : Fld := ⟨0x104, 0, 0, 32⟩
def PTP_CNT_STEPS.COUNT : Fld := ⟨0x104, 0, 0, 32⟩
def PTP_CNT_UNLOCK.word : Fld := ⟨0x108, 0, 0, 32⟩
def PTP_CNT_UNLOCK.COUNT : Fld := ⟨0x108, 0, 0, 32⟩
def PTP_CNT_HOLDOVER.word : Fld := ⟨0x10C, 0, 0, 32⟩
def PTP_CNT_HOLDOVER.COUNT : Fld := ⟨0x10C, 0, 0, 32⟩
/-! ### 13_control_cluster.md, page kind dsp -/
def DSP_CNT_POST.word : Fld := ⟨0x100, 0, 0, 32⟩
def DSP_CNT_POST.COUNT : Fld := ⟨0x100, 0, 0, 32⟩
def DSP_CNT_COALESCE.word : Fld := ⟨0x104, 0, 0, 32⟩
def DSP_CNT_COALESCE.COUNT : Fld := ⟨0x104, 0, 0, 32⟩
def DSP_CNT_REFUSED.word : Fld := ⟨0x108, 0, 0, 32⟩
def DSP_CNT_REFUSED.COUNT : Fld := ⟨0x108, 0, 0, 32⟩
def DSP_CNT_DISPATCH.word : Fld := ⟨0x10C, 0, 0, 32⟩
def DSP_CNT_DISPATCH.COUNT : Fld := ⟨0x10C, 0, 0, 32⟩
def DSP_CNT_EMPTY.word : Fld := ⟨0x110, 0, 0, 32⟩
def DSP_CNT_EMPTY.COUNT : Fld := ⟨0x110, 0, 0, 32⟩
def DSP_CNT_FLOOR_HELD.word : Fld := ⟨0x114, 0, 0, 32⟩
def DSP_CNT_FLOOR_HELD.COUNT : Fld := ⟨0x114, 0, 0, 32⟩
def DSP_CNT_SPILL.word : Fld := ⟨0x118, 0, 0, 32⟩
def DSP_CNT_SPILL.COUNT : Fld := ⟨0x118, 0, 0, 32⟩
def DSP_CNT_NUDGE.word : Fld := ⟨0x11C, 0, 0, 32⟩
def DSP_CNT_NUDGE.COUNT : Fld := ⟨0x11C, 0, 0, 32⟩
def DSP_CNT_CANCEL.word : Fld := ⟨0x120, 0, 0, 32⟩
def DSP_CNT_CANCEL.COUNT : Fld := ⟨0x120, 0, 0, 32⟩
/-! ### 14_memory.md, page kind srm -/
def SRM_CNT_CORR.word : Fld := ⟨0x100, 0, 0, 32⟩
def SRM_CNT_CORR.COUNT : Fld := ⟨0x100, 0, 0, 32⟩
def SRM_CNT_UNCORR.word : Fld := ⟨0x104, 0, 0, 32⟩
def SRM_CNT_UNCORR.COUNT : Fld := ⟨0x104, 0, 0, 32⟩
def SRM_CNT_WAKE.word : Fld := ⟨0x108, 0, 0, 32⟩
def SRM_CNT_WAKE.COUNT : Fld := ⟨0x108, 0, 0, 32⟩
def SRM_CNT_REFUSED.word : Fld := ⟨0x10C, 0, 0, 32⟩
def SRM_CNT_REFUSED.COUNT : Fld := ⟨0x10C, 0, 0, 32⟩
def SRM_CNT_WIPE.word : Fld := ⟨0x110, 0, 0, 32⟩
def SRM_CNT_WIPE.COUNT : Fld := ⟨0x110, 0, 0, 32⟩
/-! ### 14_memory.md, page kind drc -/
def DRM_CNT_RD.word : Fld := ⟨0x100, 0, 0, 32⟩
def DRM_CNT_RD.COUNT : Fld := ⟨0x100, 0, 0, 32⟩
def DRM_CNT_WR.word : Fld := ⟨0x104, 0, 0, 32⟩
def DRM_CNT_WR.COUNT : Fld := ⟨0x104, 0, 0, 32⟩
def DRM_CNT_CORR.word : Fld := ⟨0x108, 0, 0, 32⟩
def DRM_CNT_CORR.COUNT : Fld := ⟨0x108, 0, 0, 32⟩
def DRM_CNT_UNCORR.word : Fld := ⟨0x10C, 0, 0, 32⟩
def DRM_CNT_UNCORR.COUNT : Fld := ⟨0x10C, 0, 0, 32⟩
def DRM_CNT_OVERDUE.word : Fld := ⟨0x110, 0, 0, 32⟩
def DRM_CNT_OVERDUE.COUNT : Fld := ⟨0x110, 0, 0, 32⟩
def DRM_CNT_SR_EXIT.word : Fld := ⟨0x114, 0, 0, 32⟩
def DRM_CNT_SR_EXIT.COUNT : Fld := ⟨0x114, 0, 0, 32⟩
def DRM_CNT_REF_POSTPONE.word : Fld := ⟨0x118, 0, 0, 32⟩
def DRM_CNT_REF_POSTPONE.COUNT : Fld := ⟨0x118, 0, 0, 32⟩
def DRM_CNT_DECODE.word : Fld := ⟨0x11C, 0, 0, 32⟩
def DRM_CNT_DECODE.COUNT : Fld := ⟨0x11C, 0, 0, 32⟩
def DRM_CNT_RETRAIN.word : Fld := ⟨0x120, 0, 0, 32⟩
def DRM_CNT_RETRAIN.COUNT : Fld := ⟨0x120, 0, 0, 32⟩
/-! ### 15_security.md, page kind sec -/
def SEC_CNT_CMD.word : Fld := ⟨0x100, 0, 0, 32⟩
def SEC_CNT_CMD.COUNT : Fld := ⟨0x100, 0, 0, 32⟩
def SEC_CNT_JOB.word : Fld := ⟨0x104, 0, 0, 32⟩
def SEC_CNT_JOB.COUNT : Fld := ⟨0x104, 0, 0, 32⟩
def SEC_CNT_FCHK.word : Fld := ⟨0x108, 0, 0, 32⟩
def SEC_CNT_FCHK.COUNT : Fld := ⟨0x108, 0, 0, 32⟩
def SEC_CNT_AUTHFAIL.word : Fld := ⟨0x10C, 0, 0, 32⟩
def SEC_CNT_AUTHFAIL.COUNT : Fld := ⟨0x10C, 0, 0, 32⟩
def SEC_CNT_TAMPER.word : Fld := ⟨0x110, 0, 0, 32⟩
def SEC_CNT_TAMPER.COUNT : Fld := ⟨0x110, 0, 0, 32⟩
def SEC_CNT_TOKEN_BAD.word : Fld := ⟨0x114, 0, 0, 32⟩
def SEC_CNT_TOKEN_BAD.COUNT : Fld := ⟨0x114, 0, 0, 32⟩
/-! ### 16_power_budget.md, page kind pwr -/
def PWR_CNT_SLEEP.word : Fld := ⟨0x100, 0, 0, 32⟩
def PWR_CNT_SLEEP.COUNT : Fld := ⟨0x100, 0, 0, 32⟩
def PWR_CNT_WAKE_RACE.word : Fld := ⟨0x104, 0, 0, 32⟩
def PWR_CNT_WAKE_RACE.COUNT : Fld := ⟨0x104, 0, 0, 32⟩
def PWR_CNT_EMERG.word : Fld := ⟨0x108, 0, 0, 32⟩
def PWR_CNT_EMERG.COUNT : Fld := ⟨0x108, 0, 0, 32⟩
def PWR_CNT_THROT.word : Fld := ⟨0x10C, 0, 0, 32⟩
def PWR_CNT_THROT.COUNT : Fld := ⟨0x10C, 0, 0, 32⟩
def PWR_CNT_PMB_ERR.word : Fld := ⟨0x110, 0, 0, 32⟩
def PWR_CNT_PMB_ERR.COUNT : Fld := ⟨0x110, 0, 0, 32⟩
def PWR_CNT_ALLOW_LATE.word : Fld := ⟨0x114, 0, 0, 32⟩
def PWR_CNT_ALLOW_LATE.COUNT : Fld := ⟨0x114, 0, 0, 32⟩
/-! ### 18_twin_pair.md, page kind twn -/
def TWN_CNT_HB_TX.word : Fld := ⟨0x100, 0, 0, 32⟩
def TWN_CNT_HB_TX.COUNT : Fld := ⟨0x100, 0, 0, 32⟩
def TWN_CNT_HB_RX.word : Fld := ⟨0x104, 0, 0, 32⟩
def TWN_CNT_HB_RX.COUNT : Fld := ⟨0x104, 0, 0, 32⟩
def TWN_CNT_MISS.word : Fld := ⟨0x108, 0, 0, 32⟩
def TWN_CNT_MISS.COUNT : Fld := ⟨0x108, 0, 0, 32⟩
def TWN_CNT_CRC.word : Fld := ⟨0x10C, 0, 0, 32⟩
def TWN_CNT_CRC.COUNT : Fld := ⟨0x10C, 0, 0, 32⟩
def TWN_CNT_BADFRM.word : Fld := ⟨0x110, 0, 0, 32⟩
def TWN_CNT_BADFRM.COUNT : Fld := ⟨0x110, 0, 0, 32⟩
def TWN_CNT_AUTH.word : Fld := ⟨0x114, 0, 0, 32⟩
def TWN_CNT_AUTH.COUNT : Fld := ⟨0x114, 0, 0, 32⟩
def TWN_CNT_STALE.word : Fld := ⟨0x118, 0, 0, 32⟩
def TWN_CNT_STALE.COUNT : Fld := ⟨0x118, 0, 0, 32⟩
def TWN_CNT_RETX.word : Fld := ⟨0x11C, 0, 0, 32⟩
def TWN_CNT_RETX.COUNT : Fld := ⟨0x11C, 0, 0, 32⟩
def TWN_CNT_MIR_APPLIED.word : Fld := ⟨0x120, 0, 0, 32⟩
def TWN_CNT_MIR_APPLIED.COUNT : Fld := ⟨0x120, 0, 0, 32⟩
def TWN_CNT_MIR_ERR.word : Fld := ⟨0x124, 0, 0, 32⟩
def TWN_CNT_MIR_ERR.COUNT : Fld := ⟨0x124, 0, 0, 32⟩
def TWN_CNT_TAKEOVER.word : Fld := ⟨0x128, 0, 0, 32⟩
def TWN_CNT_TAKEOVER.COUNT : Fld := ⟨0x128, 0, 0, 32⟩
def TWN_CNT_BADREQ.word : Fld := ⟨0x12C, 0, 0, 32⟩
def TWN_CNT_BADREQ.COUNT : Fld := ⟨0x12C, 0, 0, 32⟩
/-! ### 12_ethernet_time.md, page kind eth -/
def ETH_RX_OK.word : Fld := ⟨0x100, 0, 0, 32⟩
def ETH_RX_OK.COUNT : Fld := ⟨0x100, 0, 0, 32⟩
def ETH_RX_OCT_LO.word : Fld := ⟨0x104, 0, 0, 32⟩
def ETH_RX_OCT_LO.COUNT : Fld := ⟨0x104, 0, 0, 32⟩
def ETH_RX_OCT_HI.word : Fld := ⟨0x108, 0, 0, 32⟩
def ETH_RX_OCT_HI.COUNT : Fld := ⟨0x108, 0, 0, 32⟩
def ETH_RX_MCAST.word : Fld := ⟨0x10C, 0, 0, 32⟩
def ETH_RX_MCAST.COUNT : Fld := ⟨0x10C, 0, 0, 32⟩
def ETH_RX_BCAST.word : Fld := ⟨0x110, 0, 0, 32⟩
def ETH_RX_BCAST.COUNT : Fld := ⟨0x110, 0, 0, 32⟩
def ETH_RX_FCS.word : Fld := ⟨0x114, 0, 0, 32⟩
def ETH_RX_FCS.COUNT : Fld := ⟨0x114, 0, 0, 32⟩
def ETH_RX_CODE.word : Fld := ⟨0x118, 0, 0, 32⟩
def ETH_RX_CODE.COUNT : Fld := ⟨0x118, 0, 0, 32⟩
def ETH_RX_RUNT.word : Fld := ⟨0x11C, 0, 0, 32⟩
def ETH_RX_RUNT.COUNT : Fld := ⟨0x11C, 0, 0, 32⟩
def ETH_RX_LONG.word : Fld := ⟨0x120, 0, 0, 32⟩
def ETH_RX_LONG.COUNT : Fld := ⟨0x120, 0, 0, 32⟩
def ETH_RX_FILTERED.word : Fld := ⟨0x124, 0, 0, 32⟩
def ETH_RX_FILTERED.COUNT : Fld := ⟨0x124, 0, 0, 32⟩
def ETH_RX_OVF.word : Fld := ⟨0x128, 0, 0, 32⟩
def ETH_RX_OVF.COUNT : Fld := ⟨0x128, 0, 0, 32⟩
def ETH_RX_PAUSE.word : Fld := ⟨0x12C, 0, 0, 32⟩
def ETH_RX_PAUSE.COUNT : Fld := ⟨0x12C, 0, 0, 32⟩
def ETH_TX_OK.word : Fld := ⟨0x130, 0, 0, 32⟩
def ETH_TX_OK.COUNT : Fld := ⟨0x130, 0, 0, 32⟩
def ETH_TX_OCT_LO.word : Fld := ⟨0x134, 0, 0, 32⟩
def ETH_TX_OCT_LO.COUNT : Fld := ⟨0x134, 0, 0, 32⟩
def ETH_TX_OCT_HI.word : Fld := ⟨0x138, 0, 0, 32⟩
def ETH_TX_OCT_HI.COUNT : Fld := ⟨0x138, 0, 0, 32⟩
def ETH_TX_MCAST.word : Fld := ⟨0x13C, 0, 0, 32⟩
def ETH_TX_MCAST.COUNT : Fld := ⟨0x13C, 0, 0, 32⟩
def ETH_TX_BCAST.word : Fld := ⟨0x140, 0, 0, 32⟩
def ETH_TX_BCAST.COUNT : Fld := ⟨0x140, 0, 0, 32⟩
def ETH_TX_PAUSE.word : Fld := ⟨0x144, 0, 0, 32⟩
def ETH_TX_PAUSE.COUNT : Fld := ⟨0x144, 0, 0, 32⟩
def ETH_TX_UNDERRUN.word : Fld := ⟨0x148, 0, 0, 32⟩
def ETH_TX_UNDERRUN.COUNT : Fld := ⟨0x148, 0, 0, 32⟩
def ETH_TX_LINKDOWN.word : Fld := ⟨0x14C, 0, 0, 32⟩
def ETH_TX_LINKDOWN.COUNT : Fld := ⟨0x14C, 0, 0, 32⟩
def ETH_TX_REFUSED.word : Fld := ⟨0x150, 0, 0, 32⟩
def ETH_TX_REFUSED.COUNT : Fld := ⟨0x150, 0, 0, 32⟩
def ETH_CRUMB_LOST.word : Fld := ⟨0x154, 0, 0, 32⟩
def ETH_CRUMB_LOST.COUNT : Fld := ⟨0x154, 0, 0, 32⟩
def ETH_FEC_CORR.word : Fld := ⟨0x158, 0, 0, 32⟩
def ETH_FEC_CORR.COUNT : Fld := ⟨0x158, 0, 0, 32⟩
def ETH_FEC_UNCORR.word : Fld := ⟨0x15C, 0, 0, 32⟩
def ETH_FEC_UNCORR.COUNT : Fld := ⟨0x15C, 0, 0, 32⟩
/-! ### 02_register_pages.md, page kind pin -/
def PIN_OWN_BALL.word : Fld := ⟨0x1000, 4, 0, 32⟩
def PIN_OWN_BALL.OWNER : Fld := ⟨0x1000, 4, 0, 16⟩
def PIN_OWN_BALL.FUNC : Fld := ⟨0x1000, 4, 16, 6⟩
def PIN_OWN_BALL.RELEASE : Fld := ⟨0x1000, 4, 30, 1⟩
def PIN_OWN_BALL.FORCE : Fld := ⟨0x1000, 4, 31, 1⟩
def PIN_OWN_TMR.word : Fld := ⟨0x1800, 4, 0, 32⟩
def PIN_OWN_TMR.OWNER : Fld := ⟨0x1800, 4, 0, 16⟩
def PIN_OWN_TMR.RELEASE : Fld := ⟨0x1800, 4, 30, 1⟩
def PIN_OWN_TMR.FORCE : Fld := ⟨0x1800, 4, 31, 1⟩
def PIN_OWN_CAP.word : Fld := ⟨0x1840, 4, 0, 32⟩
def PIN_OWN_CAP.OWNER : Fld := ⟨0x1840, 4, 0, 16⟩
def PIN_OWN_CAP.RELEASE : Fld := ⟨0x1840, 4, 30, 1⟩
def PIN_OWN_CAP.FORCE : Fld := ⟨0x1840, 4, 31, 1⟩
def PIN_OWN_PMB.word : Fld := ⟨0x1860, 0, 0, 32⟩
def PIN_OWN_PMB.OWNER : Fld := ⟨0x1860, 0, 0, 16⟩
def PIN_OWN_PMB.RELEASE : Fld := ⟨0x1860, 0, 30, 1⟩
def PIN_OWN_PMB.FORCE : Fld := ⟨0x1860, 0, 31, 1⟩
/-! ### 13_control_cluster.md, page kind dsp -/
def DSP_ASK.word : Fld := ⟨0x1000, 64, 0, 32⟩
def DSP_ASK.HANDLE : Fld := ⟨0x1000, 64, 0, 16⟩
def DSP_ASK.LEVEL : Fld := ⟨0x1000, 64, 16, 6⟩
def DSP_ASK.VALID : Fld := ⟨0x1000, 64, 31, 1⟩
def DSP_YIELD.word : Fld := ⟨0x1004, 64, 0, 32⟩
def DSP_YIELD.HANDLE : Fld := ⟨0x1004, 64, 0, 16⟩
def DSP_YIELD.LEVEL : Fld := ⟨0x1004, 64, 16, 6⟩
def DSP_YIELD.VALID : Fld := ⟨0x1004, 64, 31, 1⟩
def DSP_CUR.word : Fld := ⟨0x1008, 64, 0, 32⟩
def DSP_CUR.HANDLE : Fld := ⟨0x1008, 64, 0, 16⟩
def DSP_CUR.LEVEL : Fld := ⟨0x1008, 64, 16, 6⟩
def DSP_CUR.VALID : Fld := ⟨0x1008, 64, 31, 1⟩
def DSP_CORE_CTL.word : Fld := ⟨0x100C, 64, 0, 32⟩
def DSP_CORE_CTL.EN : Fld := ⟨0x100C, 64, 0, 1⟩
/-! ### 13_control_cluster.md, page kind pc3 -/
def PCIE_CFG_DATA.word : Fld := ⟨0x2004, 0, 0, 32⟩
def PCIE_CFG_DATA.DATA : Fld := ⟨0x2004, 0, 0, 32⟩
def PCIE_CFG_STAT.word : Fld := ⟨0x2008, 0, 0, 32⟩
def PCIE_CFG_STAT.STATUS : Fld := ⟨0x2008, 0, 0, 2⟩
def PCIE_CFG_STAT.BUSY : Fld := ⟨0x2008, 0, 2, 1⟩
/-! ### 15_security.md, page kind sec -/
def SEC_DBG_TOKEN.word : Fld := ⟨0x200, 4, 0, 32⟩
def SEC_DBG_TOKEN.BYTES : Fld := ⟨0x200, 4, 0, 32⟩
/-! ### 11_packet_engine.md, page kind pkr -/
def PKT_RING_BASE_LO.word : Fld := ⟨0x1000, 32, 0, 32⟩
def PKT_RING_BASE_LO.BASE : Fld := ⟨0x1000, 32, 5, 27⟩
def PKT_RING_BASE_HI.word : Fld := ⟨0x1004, 32, 0, 32⟩
def PKT_RING_BASE_HI.BASE_HI : Fld := ⟨0x1004, 32, 0, 4⟩
def PKT_RING_CFG.word : Fld := ⟨0x1008, 32, 0, 32⟩
def PKT_RING_CFG.TYPE : Fld := ⟨0x1008, 32, 0, 2⟩
def PKT_RING_CFG.LOG2 : Fld := ⟨0x1008, 32, 3, 5⟩
def PKT_RING_CFG.BUF : Fld := ⟨0x1008, 32, 8, 8⟩
def PKT_RING_SW.word : Fld := ⟨0x100C, 32, 0, 32⟩
def PKT_RING_SW.INDEX : Fld := ⟨0x100C, 32, 0, 17⟩
def PKT_RING_HW.word : Fld := ⟨0x1010, 32, 0, 32⟩
def PKT_RING_HW.INDEX : Fld := ⟨0x1010, 32, 0, 17⟩
def PKT_RING_IRQ.word : Fld := ⟨0x1014, 32, 0, 32⟩
def PKT_RING_IRQ.IRQ_COUNT : Fld := ⟨0x1014, 32, 0, 16⟩
def PKT_RING_IRQ.IRQ_USEC : Fld := ⟨0x1014, 32, 16, 16⟩
def PKT_RING_STAT.word : Fld := ⟨0x1018, 32, 0, 32⟩
def PKT_RING_STAT.IRQ : Fld := ⟨0x1018, 32, 0, 1⟩
def PKT_RING_STAT.ACTIVE : Fld := ⟨0x1018, 32, 1, 1⟩
def PKT_RING_DROP.word : Fld := ⟨0x101C, 32, 0, 32⟩
def PKT_RING_DROP.EMPTY : Fld := ⟨0x101C, 32, 0, 16⟩
def PKT_RING_DROP.EXH : Fld := ⟨0x101C, 32, 16, 16⟩

end Sys2Proof.Machine
end

