-- ==== Sys2Proof/Machine/RegTable.lean ====
section
/-! DEFINITION. The register map (spec chapters 01 to 20, register tables; R39 the page table, R44 to R46 the access
types). One row per register word: where it stands in its page, its reset value(s), and which of its bits have which
access type. Bits in no mask are read-only or reserved. -/

namespace Sys2Proof.Machine

/-- Kinds of register page: pages of one kind hold the same registers. -/
inductive PageKind where
  | ptp
  | hdr
  | pin
  | chq
  | chs
  | chc
  | rxp
  | txp
  | mac
  | mas
  | air
  | ais
  | ven
  | tag
  | kcl
  | kco
  | pkp
  | pka
  | pkm
  | eth
  | sds
  | pc0
  | pc1
  | pc2
  | pc3
  | dsp
  | srm
  | drc
  | phy
  | sec
  | pwr
  | rtc
  | age
  | twn
  | pkr
deriving DecidableEq, Repr

/-- One register word of a page kind: offset, stride and count of its instances, reset value(s) (the last one
repeats), and the masks of its access types (R45). `ro` marks the bits a read returns that no write changes. -/
structure RegRow where
  off : Nat
  stride : Nat
  count : Nat
  reset : List Nat
  rw : Nat
  wo : Nat
  w1c : Nat
  w1s : Nat
  cfg : Nat
  lck : Nat
  ro : Nat
deriving DecidableEq, Repr

def rows_ptp0 : List RegRow := [
  ⟨0x400, 0, 1, [0x0], 0x0, 0x0, 0x0, 0x0, 0x0, 0x0, 0xFFFFFFFF⟩, -- PTP_BEAT_LO
  ⟨0x404, 0, 1, [0x0], 0x0, 0x0, 0x0, 0x0, 0x0, 0x0, 0xFFFFFFFF⟩, -- PTP_BEAT_HI
  ⟨0x408, 0, 1, [0x0], 0x1, 0x0, 0x0, 0x0, 0x0, 0x0, 0x2⟩, -- PTP_BEAT_CTL
  ⟨0x40C, 0, 1, [0x0], 0x0, 0x0, 0x0, 0x0, 0x0, 0x0, 0xF7F⟩, -- PTP_BEAT_STAGE
  ⟨0x410, 0, 1, [0x0], 0x0, 0x0, 0xFFF, 0x0, 0x0, 0x0, 0x0⟩, -- PTP_BEAT_LATE
  ⟨0x414, 0, 1, [0x0], 0x0, 0x0, 0x0, 0x0, 0x0, 0x0, 0xFFFFFFFF⟩, -- PTP_BEAT_SKIPPED
  ⟨0x80, 0, 1, [0x0], 0x0, 0x0, 0x0, 0x0, 0x0, 0x0, 0x3FFFFFFF⟩, -- PTP_TIME_NS
  ⟨0x84, 0, 1, [0x0], 0x0, 0x0, 0x0, 0x0, 0x0, 0x0, 0xFFFFFFFF⟩, -- PTP_TIME_SEC_LO
  ⟨0x88, 0, 1, [0x0], 0x0, 0x0, 0x0, 0x0, 0x0, 0x0, 0xFFFFFFFF⟩, -- PTP_TIME_SEC_HI
  ⟨0x8C, 0, 1, [0x0], 0x0, 0x0, 0x0, 0x0, 0x0, 0x0, 0xFFFFFFFF⟩, -- PTP_TIME_FRAC
  ⟨0x90, 0, 1, [0x0], 0x0, 0x0, 0x0, 0x0, 0x0, 0x0, 0xFFFFFFFF⟩, -- PTP_TIME_NS32
  ⟨0x94, 0, 1, [0x0], 0xFFFFFFFF, 0x0, 0x0, 0x0, 0x0, 0x0, 0x0⟩, -- PTP_SET_NS
  ⟨0x98, 0, 1, [0x0], 0xFFFFFFFF, 0x0, 0x0, 0x0, 0x0, 0x0, 0x0⟩, -- PTP_SET_SEC_LO
  ⟨0x9C, 0, 1, [0x0], 0xFFFFFFFF, 0x0, 0x0, 0x0, 0x0, 0x0, 0x0⟩, -- PTP_SET_HI
  ⟨0xA0, 0, 1, [0x0], 0x3, 0x0, 0x0, 0x80000000, 0x0, 0x0, 0x1C⟩, -- PTP_TIME_CMD
  ⟨0xA4, 0, 1, [0x0], 0xFFFFFFFF, 0x0, 0x0, 0x0, 0x0, 0x0, 0x0⟩, -- PTP_FREQ_TRIM
  ⟨0xA8, 0, 1, [0x0], 0x0, 0x0, 0x0, 0x0, 0x0, 0x0, 0xFFFFFFFF⟩, -- PTP_FREQ_ADJ
  ⟨0xAC, 0, 1, [0xBB80802], 0x0, 0x0, 0x0, 0x0, 0xFFFFFF07, 0x0, 0x0⟩, -- PTP_SERVO_CFG
  ⟨0xB0, 0, 1, [0x4D059A], 0x0, 0x0, 0x0, 0x0, 0xFFFFFFFF, 0x0, 0x0⟩, -- PTP_SERVO_GAIN
  ⟨0xB4, 0, 1, [0x646414], 0x0, 0x0, 0x0, 0x0, 0xFFFFFFFF, 0x0, 0x0⟩, -- PTP_SERVO_THR
  ⟨0xB8, 0, 1, [0x27104E20], 0x0, 0x0, 0x0, 0x0, 0xFFFFFFFF, 0x0, 0x0⟩, -- PTP_SERVO_LIMIT
  ⟨0xBC, 0, 1, [0x0], 0x0, 0xFFFFFFFF, 0x0, 0x0, 0x0, 0x0, 0x0⟩, -- PTP_SERVO_OFS
  ⟨0xC0, 0, 1, [0x0], 0xFFFF, 0x0, 0x0, 0x0, 0x0, 0x0, 0x0⟩, -- PTP_SERVO_OFS_FRAC
  ⟨0xC4, 0, 1, [0x0], 0x0, 0x0, 0x0, 0x0, 0x0, 0x0, 0xFF07⟩ -- PTP_SERVO_STAT
  ]

def rows_ptp1 : List RegRow := [
  ⟨0xC8, 0, 1, [0x0], 0x0, 0x0, 0x0, 0x0, 0x0, 0x0, 0xFFFFFFFF⟩, -- PTP_SERVO_LAST
  ⟨0xCC, 0, 1, [0x0], 0x0, 0x0, 0x0, 0x0, 0x0, 0x0, 0xFFFFFFFF⟩, -- PTP_SERVO_INTEG
  ⟨0xD0, 8, 2, [0x0], 0x0, 0x0, 0x0, 0x0, 0x0, 0x0, 0xBFFFFFFF⟩, -- PTP_EVI word 0
  ⟨0xD4, 8, 2, [0x0], 0x0, 0x0, 0x0, 0x0, 0x0, 0x0, 0xFFFFFFFF⟩, -- PTP_EVI word 1
  ⟨0xE0, 0, 1, [0x0], 0xF, 0x0, 0x0, 0x0, 0x0, 0x0, 0x0⟩, -- PTP_EVI_CFG
  ⟨0x200, 16, 16, [0x0], 0xFFFFFFFF, 0x0, 0x0, 0x0, 0x0, 0x0, 0x0⟩, -- PTP_TMR word 0
  ⟨0x204, 16, 16, [0x0], 0x3FFFFFFF, 0x0, 0x0, 0x0, 0x0, 0x0, 0x0⟩, -- PTP_TMR word 1
  ⟨0x208, 16, 16, [0x0], 0xFFFFFFFF, 0x0, 0x0, 0x0, 0x0, 0x0, 0x0⟩, -- PTP_TMR word 2
  ⟨0x20C, 16, 16, [0x0], 0xFFFF0003, 0x0, 0xC, 0x0, 0x0, 0x0, 0x0⟩, -- PTP_TMR word 3
  ⟨0x100, 0, 1, [0x0], 0x0, 0x0, 0x0, 0x0, 0x0, 0x0, 0xFFFFFFFF⟩, -- PTP_CNT_SAMPLES
  ⟨0x104, 0, 1, [0x0], 0x0, 0x0, 0x0, 0x0, 0x0, 0x0, 0xFFFFFFFF⟩, -- PTP_CNT_STEPS
  ⟨0x108, 0, 1, [0x0], 0x0, 0x0, 0x0, 0x0, 0x0, 0x0, 0xFFFFFFFF⟩, -- PTP_CNT_UNLOCK
  ⟨0x10C, 0, 1, [0x0], 0x0, 0x0, 0x0, 0x0, 0x0, 0x0, 0xFFFFFFFF⟩ -- PTP_CNT_HOLDOVER
  ]

/-- The registers of a page of kind `ptp`. -/
def rowsOf_ptp : List RegRow := rows_ptp0 ++ rows_ptp1

def rows_hdr0 : List RegRow := [
  ⟨0x0, 0, 1, [0x4C4D0000], 0x0, 0x0, 0x0, 0x0, 0x0, 0x0, 0xFFFFFFFF⟩, -- PAGE_ID
  ⟨0x4, 0, 1, [0xB00100], 0x0, 0x0, 0x0, 0x0, 0x0, 0x0, 0xFFFFFF⟩, -- PAGE_VER
  ⟨0x8, 0, 1, [0x0], 0x3, 0x0, 0x0, 0x4, 0x0, 0x0, 0x0⟩, -- RUN
  ⟨0xC, 0, 1, [0x0], 0x0, 0x0, 0x0, 0x0, 0x0, 0x0, 0x37⟩, -- STATE
  ⟨0x10, 0, 1, [0x0], 0x0, 0x0, 0xFFFFFF07, 0x0, 0x0, 0x0, 0x0⟩, -- INT_RAW
  ⟨0x14, 0, 1, [0x0], 0xFFFFFFFF, 0x0, 0x0, 0x0, 0x0, 0x0, 0x0⟩, -- INT_EN
  ⟨0x18, 0, 1, [0x0], 0x0, 0x0, 0x0, 0x0, 0x0, 0x0, 0xFFFFFFFF⟩, -- INT_STAT
  ⟨0x1C, 0, 1, [0x0], 0x0, 0x0, 0x0, 0xFFFFFFFF, 0x0, 0x0, 0x0⟩, -- INT_TEST
  ⟨0x20, 0, 1, [0x0], 0x0, 0x0, 0x0, 0x0, 0x0, 0x0, 0xFFFFFF⟩, -- FAULT_CODE
  ⟨0x24, 0, 1, [0x0], 0x0, 0x0, 0x0, 0x0, 0x0, 0x0, 0xFFFFFFFF⟩, -- FAULT_ADDR
  ⟨0x28, 0, 1, [0x0], 0x0, 0x0, 0x0, 0x0, 0x0, 0x0, 0xFFFFFFFF⟩, -- CFG_REJECT
  ⟨0x2C, 0, 1, [0x0], 0x0, 0x0, 0x0, 0x1, 0x0, 0x0, 0x0⟩ -- LOCK
  ]

/-- The registers of a page of kind `hdr`. -/
def rowsOf_hdr : List RegRow := rows_hdr0

def rows_pin0 : List RegRow := [
  ⟨0x80, 0, 1, [0x0], 0x0, 0x0, 0x0, 0x0, 0x0, 0x0, 0xFFFF0FFF⟩, -- PIN_CLAIM_REJ_RES
  ⟨0x84, 0, 1, [0x0], 0x0, 0x0, 0x0, 0x0, 0x0, 0x0, 0xFFFF⟩, -- PIN_CLAIM_REJ_OWN
  ⟨0x88, 0, 1, [0x0], 0x0, 0x0, 0x0, 0x0, 0x0, 0x0, 0xFFFFFFFF⟩, -- PIN_CLAIM_REJ_CNT
  ⟨0x8C, 0, 1, [0x0], 0x0, 0x0, 0x0, 0x0, 0x0, 0x0, 0xFFFFFFFF⟩, -- PIN_CLAIM_FORCED
  ⟨0x2000, 4, 4, [0x0], 0xFFFFFF, 0x0, 0x0, 0x0, 0x0, 0x0, 0x0⟩, -- PIN_GPIO_OUT
  ⟨0x2010, 4, 4, [0x0], 0x0, 0x0, 0x0, 0x0, 0x0, 0x0, 0xFFFFFF⟩, -- PIN_GPIO_IN
  ⟨0x2020, 4, 4, [0xFFFFFF], 0xFFFFFF, 0x0, 0x0, 0x0, 0x0, 0x0, 0x0⟩, -- PIN_PULL
  ⟨0x2030, 4, 4, [0x0], 0xFFFFFF, 0x0, 0x0, 0x0, 0x0, 0x0, 0x0⟩, -- PIN_PULLUP
  ⟨0x1000, 4, 512, [0x0], 0x3FFFFF, 0xC0000000, 0x0, 0x0, 0x0, 0x0, 0x0⟩, -- PIN_OWN_BALL
  ⟨0x1800, 4, 16, [0x0], 0xFFFF, 0xC0000000, 0x0, 0x0, 0x0, 0x0, 0x0⟩, -- PIN_OWN_TMR
  ⟨0x1840, 4, 8, [0x0], 0xFFFF, 0xC0000000, 0x0, 0x0, 0x0, 0x0, 0x0⟩, -- PIN_OWN_CAP
  ⟨0x1860, 0, 1, [0x0], 0xFFFF, 0xC0000000, 0x0, 0x0, 0x0, 0x0, 0x0⟩ -- PIN_OWN_PMB
  ]

/-- The registers of a page of kind `pin`. -/
def rowsOf_pin : List RegRow := rows_pin0

def rows_chq0 : List RegRow := [
  ⟨0x80, 0, 1, [0x0], 0x0, 0x0, 0x0, 0x0, 0x3, 0x0, 0x0⟩, -- CHP_QUAD_OWNER
  ⟨0x84, 0, 1, [0x0], 0x0, 0x0, 0x0, 0x0, 0x0, 0x0, 0xFFFFF⟩, -- CHP_QUAD_STAT
  ⟨0x88, 0, 1, [0x0], 0x0, 0x0, 0x0, 0x0, 0xFFFF, 0x0, 0x0⟩, -- CHP_FEM_POL
  ⟨0x8C, 0, 1, [0x28140A], 0x0, 0x0, 0x0, 0x0, 0xFFFFFF, 0x0, 0x0⟩, -- CHP_FEM_TIME0
  ⟨0x90, 0, 1, [0x140F05], 0x0, 0x0, 0x0, 0x0, 0xFFFFFF, 0x0, 0x0⟩, -- CHP_FEM_TIME1
  ⟨0x94, 0, 1, [0x0], 0xF, 0x0, 0x0, 0x0, 0x0, 0x0, 0x0⟩, -- CHP_CHAIN_MASK
  ⟨0x98, 0, 1, [0x333], 0x103FF, 0x0, 0x0, 0x0, 0x0, 0x0, 0x0⟩, -- CHP_PDET_LIMIT
  ⟨0x9C, 0, 1, [0x0], 0x0, 0x0, 0x0, 0x0, 0x0, 0x0, 0xFFFFFFFF⟩, -- CHP_PDET_CORR
  ⟨0xA0, 4, 4, [0x0], 0x0, 0x0, 0x0, 0x0, 0x0, 0x0, 0x83FF03FF⟩, -- CHP_PDET
  ⟨0xB0, 0, 1, [0x0], 0x0, 0x0, 0x0, 0x0, 0x0, 0x0, 0xFFFFFFFF⟩, -- CHP_PA_OVER_CNT
  ⟨0xC0, 4, 12, [0x0], 0x0, 0x0, 0x0, 0x0, 0xFFFFFFFF, 0x0, 0x0⟩ -- CHP_PDET_MAP
  ]

/-- The registers of a page of kind `chq`. -/
def rowsOf_chq : List RegRow := rows_chq0

def rows_chs0 : List RegRow := [
  ⟨0x80, 8, 4, [0x0], 0xFFFF, 0x0, 0x0, 0x0, 0x0, 0x0, 0x0⟩, -- CHP_SYN_CHAN
  ⟨0x84, 8, 4, [0x0], 0x0, 0x0, 0x0, 0x0, 0x0, 0x0, 0xFFFF00F7⟩, -- CHP_SYN_STAT
  ⟨0xA0, 0, 1, [0x0], 0x0, 0x0, 0x0, 0x0, 0x0, 0x0, 0x7⟩, -- CHP_PAIR_STAT
  ⟨0xA4, 0, 1, [0x0], 0x0, 0x0, 0x0, 0x0, 0x0, 0x0, 0xFFFFFFFF⟩, -- CHP_TX_HELD_CNT
  ⟨0xA8, 0, 1, [0x0], 0x0, 0x0, 0x0, 0x0, 0x0, 0x0, 0xFFFFFFFF⟩, -- CHP_TX_DROP_CNT
  ⟨0xAC, 0, 1, [0x0], 0x0, 0x0, 0x0, 0x0, 0x0, 0x0, 0xFFFFFFFF⟩, -- CHP_HOP_CNT
  ⟨0xB0, 0, 1, [0x0], 0x0, 0x0, 0x0, 0x0, 0x0, 0x0, 0xFFFFFFFF⟩, -- CHP_UNLOCK_CNT
  ⟨0xB4, 0, 1, [0x0], 0x0, 0x0, 0x0, 0x0, 0x3, 0x0, 0x0⟩ -- CHP_MON_FEM
  ]

/-- The registers of a page of kind `chs`. -/
def rowsOf_chs : List RegRow := rows_chs0

def rows_chc0 : List RegRow := [
  ⟨0x80, 0, 1, [0x0], 0x0, 0x0, 0x0, 0x0, 0xFFFFFFC0, 0x0, 0x0⟩, -- CHP_CAL_BASE
  ⟨0x84, 0, 1, [0xA40], 0x0, 0x0, 0x0, 0x0, 0xFF7F, 0x0, 0x0⟩, -- CHP_CAL_CFG
  ⟨0x88, 0, 1, [0x0], 0x7FFFF, 0x0, 0x0, 0x80000000, 0x0, 0x0, 0x0⟩, -- CHP_CAL_CMD
  ⟨0x8C, 0, 1, [0x0], 0x0, 0x0, 0x0, 0x0, 0x0, 0x0, 0xFFF⟩, -- CHP_CAL_STAT
  ⟨0x90, 0, 1, [0x0], 0x0, 0x0, 0x0, 0x0, 0x0, 0x0, 0xFFFF7F0F⟩, -- CHP_REG_STAT
  ⟨0x94, 0, 1, [0x0], 0x0, 0x0, 0x0, 0x0, 0x0, 0x0, 0xFFFFFFFF⟩, -- CHP_CLAMP_CNT
  ⟨0xA4, 0, 1, [0x0], 0x0, 0x0, 0x0, 0x0, 0x0, 0x0, 0xFFFFFFFF⟩, -- CHP_CAL_CRC_CNT
  ⟨0xA8, 0, 1, [0x0], 0x0, 0x0, 0x0, 0x0, 0x0, 0x0, 0xFFFFFFFF⟩, -- CHP_CAL_WR_ERR_CNT
  ⟨0x98, 4, 3, [0xFFFFFF], 0x0, 0x0, 0x0, 0x0, 0x0, 0x0, 0x80FFFFFF⟩ -- CHP_DUTY_LEFT
  ]

/-- The registers of a page of kind `chc`. -/
def rowsOf_chc : List RegRow := rows_chc0

def rows_rxp0 : List RegRow := [
  ⟨0x80, 0, 1, [0x2000], 0x0, 0x0, 0x0, 0x0, 0x7F3F, 0x0, 0x0⟩, -- RXP_CFG
  ⟨0x84, 0, 1, [0xD8099E], 0x0, 0x0, 0x0, 0x0, 0xFF1FFF, 0x0, 0x0⟩, -- RXP_DET
  ⟨0x88, 0, 1, [0x3F4], 0x0, 0x0, 0x0, 0x0, 0x3FF, 0x0, 0x0⟩, -- RXP_AGC
  ⟨0x8C, 0, 1, [0x8061021], 0x0, 0x0, 0x0, 0x0, 0x1F0F1FF1, 0x0, 0x0⟩, -- RXP_DETECT_CFG
  ⟨0x90, 0, 1, [0xC20], 0x0, 0x0, 0x0, 0x0, 0xFF3F, 0x0, 0x0⟩, -- RXP_TB
  ⟨0x94, 0, 1, [0x0], 0x0, 0x0, 0x0, 0x0, 0xFFFFFFC0, 0x0, 0x0⟩, -- RXP_REP_BASE
  ⟨0x98, 0, 1, [0xFFFF0008], 0x0, 0x0, 0x0, 0x0, 0xFFFF000F, 0x0, 0x0⟩, -- RXP_REP_CFG
  ⟨0x9C, 0, 1, [0x0], 0x0, 0x0, 0x0, 0x0, 0x0, 0x0, 0xFFFF⟩, -- RXP_REP_WR
  ⟨0xA0, 0, 1, [0x0], 0xFFFF, 0x0, 0x0, 0x0, 0x0, 0x0, 0x0⟩, -- RXP_REP_RD
  ⟨0xA4, 0, 1, [0xC8], 0xFFF, 0x0, 0x0, 0x0, 0x0, 0x0, 0x0⟩, -- RXP_NF_CFG
  ⟨0xC0, 4, 16, [0x0], 0x0, 0x0, 0x0, 0x0, 0x0, 0x0, 0x8FFFFFFF⟩, -- RXP_NF
  ⟨0x100, 0, 1, [0x0], 0x0, 0x0, 0x0, 0x0, 0x0, 0x0, 0xFFFFFFFF⟩, -- RXP_CNT_DETECT
  ⟨0x104, 0, 1, [0x0], 0x0, 0x0, 0x0, 0x0, 0x0, 0x0, 0xFFFFFFFF⟩, -- RXP_CNT_OK
  ⟨0x108, 0, 1, [0x0], 0x0, 0x0, 0x0, 0x0, 0x0, 0x0, 0xFFFFFFFF⟩, -- RXP_CNT_CWERR
  ⟨0x10C, 0, 1, [0x0], 0x0, 0x0, 0x0, 0x0, 0x0, 0x0, 0xFFFFFFFF⟩, -- RXP_CNT_SIGFAIL
  ⟨0x110, 0, 1, [0x0], 0x0, 0x0, 0x0, 0x0, 0x0, 0x0, 0xFFFFFFFF⟩, -- RXP_CNT_RESTART
  ⟨0x114, 0, 1, [0x0], 0x0, 0x0, 0x0, 0x0, 0x0, 0x0, 0xFFFFFFFF⟩, -- RXP_CNT_ABANDON
  ⟨0x118, 0, 1, [0x0], 0x0, 0x0, 0x0, 0x0, 0x0, 0x0, 0xFFFFFFFF⟩, -- RXP_CNT_NOSIG
  ⟨0x11C, 0, 1, [0x0], 0x0, 0x0, 0x0, 0x0, 0x0, 0x0, 0xFFFFFFFF⟩, -- RXP_CNT_UNSUP
  ⟨0x120, 0, 1, [0x0], 0x0, 0x0, 0x0, 0x0, 0x0, 0x0, 0xFFFFFFFF⟩, -- RXP_CNT_REPDROP
  ⟨0x124, 0, 1, [0x0], 0x0, 0x0, 0x0, 0x0, 0x0, 0x0, 0xFFFFFFFF⟩ -- RXP_CNT_DECLATE
  ]

/-- The registers of a page of kind `rxp`. -/
def rowsOf_rxp : List RegRow := rows_rxp0

def rows_txp0 : List RegRow := [
  ⟨0x80, 0, 1, [0x2000], 0x0, 0x0, 0x0, 0x0, 0x7F3F, 0x0, 0x0⟩, -- TXP_CFG
  ⟨0x84, 0, 1, [0x1E2028], 0x0, 0x0, 0x0, 0x0, 0xFF73FF, 0x0, 0x0⟩, -- TXP_PREC_CFG
  ⟨0x88, 0, 1, [0x5010], 0x0, 0x0, 0x0, 0x0, 0xFF1F, 0x0, 0x0⟩, -- TXP_SOUND_CFG
  ⟨0x8C, 0, 1, [0x0], 0x0, 0x0, 0x0, 0x0, 0xFFFFFF, 0x0, 0x0⟩, -- TXP_CHREC_BASE
  ⟨0x90, 0, 1, [0x11], 0x0, 0x0, 0x0, 0x0, 0x1F, 0x0, 0x0⟩, -- TXP_CHREC_CFG
  ⟨0x94, 0, 1, [0x0], 0xF, 0x0, 0x0, 0x80000000, 0x0, 0x0, 0x0⟩, -- TXP_RCAL_CMD
  ⟨0x98, 0, 1, [0x0], 0x0, 0x0, 0x0, 0x0, 0x0, 0x0, 0xFFFF000F⟩, -- TXP_RCAL_STAT
  ⟨0x400, 4, 256, [0x4000], 0xFFFFFFFF, 0x0, 0x0, 0x0, 0x0, 0x0, 0x0⟩, -- TXP_RECIP
  ⟨0x100, 0, 1, [0x0], 0x0, 0x0, 0x0, 0x0, 0x0, 0x0, 0xFFFFFFFF⟩, -- TXP_CNT_PPDU
  ⟨0x104, 0, 1, [0x0], 0x0, 0x0, 0x0, 0x0, 0x0, 0x0, 0xFFFFFFFF⟩, -- TXP_CNT_WINMISS
  ⟨0x108, 0, 1, [0x0], 0x0, 0x0, 0x0, 0x0, 0x0, 0x0, 0xFFFFFFFF⟩, -- TXP_CNT_RESPLATE
  ⟨0x10C, 0, 1, [0x0], 0x0, 0x0, 0x0, 0x0, 0x0, 0x0, 0xFFFFFFFF⟩, -- TXP_CNT_UNDERRUN
  ⟨0x110, 0, 1, [0x0], 0x0, 0x0, 0x0, 0x0, 0x0, 0x0, 0xFFFFFFFF⟩, -- TXP_CNT_RU_OK
  ⟨0x114, 0, 1, [0x0], 0x0, 0x0, 0x0, 0x0, 0x0, 0x0, 0xFFFFFFFF⟩, -- TXP_CNT_RU_STALE
  ⟨0x118, 0, 1, [0x0], 0x0, 0x0, 0x0, 0x0, 0x0, 0x0, 0xFFFFFFFF⟩, -- TXP_CNT_RU_OPEN
  ⟨0x11C, 0, 1, [0x0], 0x0, 0x0, 0x0, 0x0, 0x0, 0x0, 0xFFFFFFFF⟩, -- TXP_CNT_RU_UNASSIGNED
  ⟨0x120, 0, 1, [0x0], 0x0, 0x0, 0x0, 0x0, 0x0, 0x0, 0xFFFFFFFF⟩, -- TXP_CNT_JOB_LATE
  ⟨0x124, 0, 1, [0x0], 0x0, 0x0, 0x0, 0x0, 0x0, 0x0, 0xFFFFFFFF⟩, -- TXP_CNT_CHREC_WR
  ⟨0x128, 0, 1, [0x0], 0x0, 0x0, 0x0, 0x0, 0x0, 0x0, 0xFFFFFFFF⟩, -- TXP_CNT_CHREC_ERR
  ⟨0x12C, 0, 1, [0x0], 0x0, 0x0, 0x0, 0x0, 0x0, 0x0, 0xFFFFFFFF⟩ -- TXP_CNT_PRESCALE
  ]

/-- The registers of a page of kind `txp`. -/
def rowsOf_txp : List RegRow := rows_txp0

def rows_mac0 : List RegRow := [
  ⟨0x80, 0, 1, [0x6A140000], 0x0, 0x0, 0x0, 0x0, 0xFFFF01FF, 0x0, 0x0⟩, -- MAC_CFG
  ⟨0x84, 4, 4, [0x643, 0xA47, 0x5E0431, 0x2F0321], 0x0, 0x0, 0x0, 0x0, 0xFFF0FFF, 0x0, 0x0⟩, -- MAC_EDCA
  ⟨0x94, 0, 1, [0xC2AEAEC2], 0x0, 0x0, 0x0, 0x0, 0xFFFFFFFF, 0x0, 0x0⟩, -- MAC_CCA
  ⟨0x98, 0, 1, [0x0], 0x0, 0x0, 0x0, 0x0, 0xFFFFFFFF, 0x0, 0x0⟩, -- MAC_FTM_DLY
  ⟨0xA0, 0, 1, [0x0], 0x0, 0x0, 0x0, 0x0, 0xFFFFFFFF, 0x0, 0x0⟩, -- MAC_TSF_OFS_LO
  ⟨0xA4, 0, 1, [0x0], 0x0, 0x0, 0x0, 0x0, 0xFFFFFFFF, 0x0, 0x0⟩, -- MAC_TSF_OFS_HI
  ⟨0xA8, 0, 1, [0x0], 0x0, 0x0, 0x0, 0x0, 0xFFFFF800, 0x0, 0x0⟩, -- MAC_BCN_BASE
  ⟨0xAC, 0, 1, [0x0], 0x0, 0x0, 0x0, 0x0, 0x0, 0x0, 0xFFFF⟩, -- MAC_PUNCT_CAND
  ⟨0x200, 16, 16, [0x0], 0x0, 0x0, 0x0, 0x0, 0xFFFFFFFF, 0x0, 0x0⟩, -- MAC_BSSID word 0
  ⟨0x204, 16, 16, [0x0], 0x0, 0x0, 0x0, 0x0, 0xFFFFFFFF, 0x0, 0x0⟩, -- MAC_BSSID word 1
  ⟨0x208, 16, 16, [0x10064], 0x0, 0x0, 0x0, 0x0, 0xFFFFFF, 0x0, 0x0⟩, -- MAC_BSSID word 2
  ⟨0x20C, 16, 16, [0x7FFFFFF], 0x0, 0x0, 0x0, 0x0, 0x7FFFFFF, 0x0, 0x0⟩, -- MAC_BSSID word 3
  ⟨0x300, 8, 16, [0x0], 0x0, 0x0, 0x0, 0x0, 0x0, 0x0, 0xFFFFFFFF⟩, -- MAC_TBTT word 0
  ⟨0x304, 8, 16, [0x0], 0x0, 0x0, 0x0, 0x0, 0x0, 0x0, 0x1FFF⟩, -- MAC_TBTT word 1
  ⟨0x100, 0, 1, [0x0], 0x0, 0x0, 0x0, 0x0, 0x0, 0x0, 0xFFFFFFFF⟩, -- MAC_CNT_MPDU_TX
  ⟨0x104, 0, 1, [0x0], 0x0, 0x0, 0x0, 0x0, 0x0, 0x0, 0xFFFFFFFF⟩, -- MAC_CNT_ACKED
  ⟨0x108, 0, 1, [0x0], 0x0, 0x0, 0x0, 0x0, 0x0, 0x0, 0xFFFFFFFF⟩, -- MAC_CNT_RETRY
  ⟨0x10C, 0, 1, [0x0], 0x0, 0x0, 0x0, 0x0, 0x0, 0x0, 0xFFFFFFFF⟩, -- MAC_CNT_RETRYLIMIT
  ⟨0x110, 0, 1, [0x0], 0x0, 0x0, 0x0, 0x0, 0x0, 0x0, 0xFFFFFFFF⟩, -- MAC_CNT_RESP
  ⟨0x114, 0, 1, [0x0], 0x0, 0x0, 0x0, 0x0, 0x0, 0x0, 0xFFFFFFFF⟩, -- MAC_CNT_RESPCUT
  ⟨0x118, 0, 1, [0x0], 0x0, 0x0, 0x0, 0x0, 0x0, 0x0, 0xFFFFFFFF⟩, -- MAC_CNT_BUSY_US
  ⟨0x11C, 0, 1, [0x0], 0x0, 0x0, 0x0, 0x0, 0x0, 0x0, 0xFFFFFFFF⟩, -- MAC_CNT_OBSSPD
  ⟨0x120, 0, 1, [0x0], 0x0, 0x0, 0x0, 0x0, 0x0, 0x0, 0xFFFFFFFF⟩, -- MAC_CNT_COORDPD
  ⟨0x124, 0, 1, [0x0], 0x0, 0x0, 0x0, 0x0, 0x0, 0x0, 0xFFFFFFFF⟩ -- MAC_CNT_BCN
  ]

def rows_mac1 : List RegRow := [
  ⟨0x128, 0, 1, [0x0], 0x0, 0x0, 0x0, 0x0, 0x0, 0x0, 0xFFFFFFFF⟩, -- MAC_CNT_BCNLOST
  ⟨0x12C, 0, 1, [0x0], 0x0, 0x0, 0x0, 0x0, 0x0, 0x0, 0xFFFFFFFF⟩, -- MAC_CNT_MPDU_RX
  ⟨0x130, 0, 1, [0x0], 0x0, 0x0, 0x0, 0x0, 0x0, 0x0, 0xFFFFFFFF⟩ -- MAC_CNT_EMLSR_NOCTS
  ]

/-- The registers of a page of kind `mac`. -/
def rowsOf_mac : List RegRow := rows_mac0 ++ rows_mac1

def rows_mas0 : List RegRow := [
  ⟨0x80, 0, 1, [0x0], 0x0, 0x0, 0x0, 0x0, 0xFFFFFFC0, 0x0, 0x0⟩, -- MAC_STA_BASE
  ⟨0x84, 0, 1, [0x0], 0x0, 0x0, 0x0, 0x0, 0xFFFFFF, 0x0, 0x0⟩, -- MAC_SEQ_BASE
  ⟨0x88, 0, 1, [0x0], 0x0, 0x0, 0x0, 0x0, 0xFFFFFF, 0x0, 0x0⟩, -- MAC_RO_BASE
  ⟨0x94, 0, 1, [0x0], 0x0, 0x0, 0x0, 0x0, 0xFFFFFF, 0x0, 0x0⟩, -- MAC_TWT_BASE
  ⟨0x8C, 0, 1, [0x40000], 0x0, 0x0, 0x0, 0x0, 0x7FFFF, 0x0, 0x0⟩, -- MAC_RO_CFG
  ⟨0x90, 0, 1, [0x107D0], 0x0, 0x0, 0x0, 0x0, 0x1FFFF, 0x0, 0x0⟩, -- MAC_RX_CFG
  ⟨0x98, 0, 1, [0x0], 0xFF77FF, 0x0, 0x0, 0x80000000, 0x0, 0x0, 0x0⟩, -- MAC_STA_CMD
  ⟨0x9C, 0, 1, [0x0], 0x0, 0x0, 0x0, 0x0, 0x0, 0x0, 0x7FF000F⟩, -- MAC_STA_STAT
  ⟨0x200, 8, 16, [0x0], 0x0, 0x0, 0x0, 0x0, 0xFFFFFFFF, 0x0, 0x0⟩, -- MAC_APMLD word 0
  ⟨0x204, 8, 16, [0x0], 0x0, 0x0, 0x0, 0x0, 0x1FFFF, 0x0, 0x0⟩, -- MAC_APMLD word 1
  ⟨0x4000, 16, 2304, [0x0], 0x0, 0x0, 0x0, 0x0, 0x0, 0x0, 0xFF⟩, -- MAC_KEYSLOT word 0
  ⟨0x4004, 16, 2304, [0x0], 0x0, 0x0, 0x0, 0x0, 0x0, 0x0, 0xFFFFFFFF⟩, -- MAC_KEYSLOT word 1
  ⟨0x4008, 16, 2304, [0x0], 0x0, 0x0, 0x0, 0x0, 0x0, 0x0, 0xFFFF⟩, -- MAC_KEYSLOT word 2
  ⟨0x100, 0, 1, [0x0], 0x0, 0x0, 0x0, 0x0, 0x0, 0x0, 0xFFFFFFFF⟩, -- MAC_CNT_NOSTA
  ⟨0x104, 0, 1, [0x0], 0x0, 0x0, 0x0, 0x0, 0x0, 0x0, 0xFFFFFFFF⟩, -- MAC_CNT_SUSPDROP
  ⟨0x108, 0, 1, [0x0], 0x0, 0x0, 0x0, 0x0, 0x0, 0x0, 0xFFFFFFFF⟩, -- MAC_CNT_DUP
  ⟨0x10C, 0, 1, [0x0], 0x0, 0x0, 0x0, 0x0, 0x0, 0x0, 0xFFFFFFFF⟩, -- MAC_CNT_KEYMISS
  ⟨0x110, 0, 1, [0x0], 0x0, 0x0, 0x0, 0x0, 0x0, 0x0, 0xFFFFFFFF⟩, -- MAC_CNT_UNPROT
  ⟨0x114, 0, 1, [0x0], 0x0, 0x0, 0x0, 0x0, 0x0, 0x0, 0xFFFFFFFF⟩, -- MAC_CNT_MICFAIL
  ⟨0x118, 0, 1, [0x0], 0x0, 0x0, 0x0, 0x0, 0x0, 0x0, 0xFFFFFFFF⟩, -- MAC_CNT_ROFULL
  ⟨0x11C, 0, 1, [0x0], 0x0, 0x0, 0x0, 0x0, 0x0, 0x0, 0xFFFFFFFF⟩, -- MAC_CNT_ROFLUSH
  ⟨0x120, 0, 1, [0x0], 0x0, 0x0, 0x0, 0x0, 0x0, 0x0, 0xFFFFFFFF⟩, -- MAC_CNT_REPLAY
  ⟨0x124, 0, 1, [0x0], 0x0, 0x0, 0x0, 0x0, 0x0, 0x0, 0xFFFFFFFF⟩, -- MAC_CNT_PSWITHHELD
  ⟨0x128, 0, 1, [0x0], 0x0, 0x0, 0x0, 0x0, 0x0, 0x0, 0xFFFFFFFF⟩ -- MAC_CNT_REASM_DROP
  ]

def rows_mas1 : List RegRow := [
  ⟨0x12C, 0, 1, [0x0], 0x0, 0x0, 0x0, 0x0, 0x0, 0x0, 0xFFFFFFFF⟩ -- MAC_CNT_RXREFUSED
  ]

/-- The registers of a page of kind `mas`. -/
def rowsOf_mas : List RegRow := rows_mas0 ++ rows_mas1

def rows_air0 : List RegRow := [
  ⟨0x80, 0, 1, [0x0], 0x0, 0x0, 0x0, 0x0, 0xFFFE0000, 0x0, 0x0⟩, -- AIR_PLAN_BASE
  ⟨0x84, 0, 1, [0x64020], 0x0, 0x0, 0x0, 0x0, 0xFFF7F, 0x0, 0x0⟩, -- AIR_CFG
  ⟨0x88, 0, 1, [0x4F09012A], 0xFFFFFFFF, 0x0, 0x0, 0x0, 0x0, 0x0, 0x0⟩, -- AIR_POLICY
  ⟨0x8C, 0, 1, [0x4D20014F], 0xFFFFFFFF, 0x0, 0x0, 0x0, 0x0, 0x0, 0x0⟩, -- AIR_POLICY2
  ⟨0x90, 0, 1, [0x409014C4], 0xFFFF1FFF, 0x0, 0x0, 0x0, 0x0, 0x0, 0x0⟩, -- AIR_UL
  ⟨0x94, 0, 1, [0xAAAAAAAA], 0x0, 0x0, 0x0, 0x0, 0x0, 0xFFFFFFFF, 0x0⟩, -- AIR_ROUND_MAP
  ⟨0x98, 0, 1, [0x1BF0000], 0x0, 0x0, 0x0, 0x0, 0x1FF01FF, 0x0, 0x0⟩, -- AIR_PREC_CFG
  ⟨0x9C, 0, 1, [0x6FFF0000], 0x0, 0x0, 0x0, 0x0, 0x7FFF7FFF, 0x0, 0x0⟩, -- AIR_PREC_LINES
  ⟨0xA0, 0, 1, [0x80080], 0x0, 0x0, 0x0, 0x0, 0xFFFFFF, 0x0, 0x0⟩, -- AIR_PREC_REG
  ⟨0xA4, 0, 1, [0x0], 0x0, 0x0, 0x0, 0x0, 0x0, 0x0, 0xFFFFFFFF⟩, -- AIR_LAST0
  ⟨0xA8, 0, 1, [0x0], 0x0, 0x0, 0x0, 0x0, 0x0, 0x0, 0x7FFFFFFF⟩, -- AIR_LAST1
  ⟨0xAC, 0, 1, [0x0], 0x0, 0x0, 0x0, 0x0, 0x0, 0x0, 0x3FFFFFFF⟩, -- AIR_LAST2
  ⟨0x100, 0, 1, [0x0], 0x0, 0x0, 0x0, 0x0, 0x0, 0x0, 0xFFFFFFFF⟩, -- AIR_CNT_PLAN
  ⟨0x104, 0, 1, [0x0], 0x0, 0x0, 0x0, 0x0, 0x0, 0x0, 0xFFFFFFFF⟩, -- AIR_CNT_FALLBACK
  ⟨0x108, 0, 1, [0x0], 0x0, 0x0, 0x0, 0x0, 0x0, 0x0, 0xFFFFFFFF⟩, -- AIR_CNT_PLANLATE
  ⟨0x10C, 0, 1, [0x0], 0x0, 0x0, 0x0, 0x0, 0x0, 0x0, 0xFFFFFFFF⟩, -- AIR_CNT_SKIP
  ⟨0x110, 0, 1, [0x0], 0x0, 0x0, 0x0, 0x0, 0x0, 0x0, 0xFFFFFFFF⟩, -- AIR_CNT_STEP1
  ⟨0x114, 0, 1, [0x0], 0x0, 0x0, 0x0, 0x0, 0x0, 0x0, 0xFFFFFFFF⟩, -- AIR_CNT_STEP2
  ⟨0x118, 0, 1, [0x0], 0x0, 0x0, 0x0, 0x0, 0x0, 0x0, 0xFFFFFFFF⟩, -- AIR_CNT_STEP3
  ⟨0x11C, 0, 1, [0x0], 0x0, 0x0, 0x0, 0x0, 0x0, 0x0, 0xFFFFFFFF⟩, -- AIR_CNT_STEP4
  ⟨0x120, 0, 1, [0x0], 0x0, 0x0, 0x0, 0x0, 0x0, 0x0, 0xFFFFFFFF⟩, -- AIR_CNT_STEP5
  ⟨0x124, 0, 1, [0x0], 0x0, 0x0, 0x0, 0x0, 0x0, 0x0, 0xFFFFFFFF⟩, -- AIR_CNT_UL_USER
  ⟨0x128, 0, 1, [0x0], 0x0, 0x0, 0x0, 0x0, 0x0, 0x0, 0xFFFFFFFF⟩, -- AIR_CNT_UL_NOSIG
  ⟨0x12C, 0, 1, [0x0], 0x0, 0x0, 0x0, 0x0, 0x0, 0x0, 0xFFFFFFFF⟩ -- AIR_CNT_JOB_POST
  ]

def rows_air1 : List RegRow := [
  ⟨0x130, 0, 1, [0x0], 0x0, 0x0, 0x0, 0x0, 0x0, 0x0, 0xFFFFFFFF⟩, -- AIR_CNT_JOB_NOLINE
  ⟨0x134, 0, 1, [0x0], 0x0, 0x0, 0x0, 0x0, 0x0, 0x0, 0xFFFFFFFF⟩ -- AIR_CNT_SOUND
  ]

/-- The registers of a page of kind `air`. -/
def rowsOf_air : List RegRow := rows_air0 ++ rows_air1

def rows_ais0 : List RegRow := [
  ⟨0x80, 0, 1, [0x0], 0x0, 0x0, 0x0, 0x0, 0xFFFFFF, 0x0, 0x0⟩, -- AIR_QPOOL_BASE
  ⟨0x84, 0, 1, [0x10040000], 0x0, 0x0, 0x0, 0x0, 0xFF1FFFFF, 0x0, 0x0⟩, -- AIR_QPOOL_CFG
  ⟨0x88, 0, 1, [0x0], 0x0, 0x0, 0x0, 0x0, 0x0, 0x0, 0x1FFFFF⟩, -- AIR_POOL_FREE
  ⟨0x8C, 0, 1, [0xB6464B], 0xFFFFFF, 0x0, 0x0, 0x0, 0x0, 0x0, 0x0⟩, -- AIR_UL_CLASS
  ⟨0x90, 0, 1, [0xC8], 0xFFFF, 0x0, 0x0, 0x0, 0x0, 0x0, 0x0⟩, -- AIR_ECOST_RES
  ⟨0x94, 0, 1, [0x960F320], 0xFFFFFFFF, 0x0, 0x0, 0x0, 0x0, 0x0, 0x0⟩, -- AIR_ECOST_BB
  ⟨0x98, 4, 3, [0x4B012C, 0x64015E, 0x7D0190], 0xFFFFFFF, 0x0, 0x0, 0x0, 0x0, 0x0, 0x0⟩, -- AIR_ECOST
  ⟨0xA4, 0, 1, [0x0], 0xFFFFFFF, 0x0, 0x0, 0x80000000, 0x0, 0x0, 0x0⟩, -- AIR_ADM_CMD0
  ⟨0xA8, 0, 1, [0x0], 0x1FFFF, 0x0, 0x0, 0x0, 0x0, 0x0, 0x0⟩, -- AIR_ADM_CMD1
  ⟨0xAC, 0, 1, [0x0], 0x0, 0x0, 0x0, 0x0, 0x0, 0x0, 0x3FF000F⟩, -- AIR_ADM_STAT
  ⟨0xB0, 0, 1, [0x640], 0xFFFF, 0x0, 0x0, 0x0, 0x0, 0x0, 0x0⟩, -- AIR_ADM_LIMIT
  ⟨0x100, 8, 8, [0xFA00000, 0x7D00001, 0x3200002, 0x1900004, 0x640006, 0x280008, 0x501F00, 0x280100], 0xFFFF3FFF, 0x0, 0x0, 0x0, 0x0, 0x0, 0x0⟩, -- AIR_CLASS word 0
  ⟨0x104, 8, 8, [0x400], 0xFFFFFFFF, 0x0, 0x0, 0x0, 0x0, 0x0, 0x0⟩, -- AIR_CLASS word 1
  ⟨0x1000, 8, 1024, [0x0], 0x0, 0x0, 0x0, 0x0, 0x0, 0x0, 0x3FFFF⟩, -- AIR_FLOW word 0
  ⟨0x1004, 8, 1024, [0x0], 0x0, 0x0, 0x0, 0x0, 0x0, 0x0, 0xFFFFFFFF⟩, -- AIR_FLOW word 1
  ⟨0x400, 4, 64, [0x0], 0x0, 0x0, 0x0, 0x0, 0x0, 0x0, 0xFFFFFFFF⟩ -- AIR_CNT_OUT
  ]

/-- The registers of a page of kind `ais`. -/
def rowsOf_ais : List RegRow := rows_ais0

def rows_ven0 : List RegRow := [
  ⟨0x80, 0, 1, [0x0], 0x0, 0x0, 0x0, 0x0, 0xFFFFF7FF, 0x0, 0x0⟩, -- VEN_CFG
  ⟨0x84, 0, 1, [0x0], 0x0, 0x0, 0x0, 0x0, 0xFFFFFFFF, 0x0, 0x0⟩, -- VEN_DA_LO
  ⟨0x88, 0, 1, [0x0], 0x0, 0x0, 0x0, 0x0, 0xFFFFFFFF, 0x0, 0x0⟩, -- VEN_DA_HI
  ⟨0x8C, 0, 1, [0xAAAAAAAA], 0x0, 0x0, 0x0, 0x0, 0xFFFFFFFF, 0x0, 0x0⟩, -- VEN_MAP
  ⟨0x90, 0, 1, [0x0], 0x0, 0x0, 0x0, 0x0, 0xFFFF, 0x0, 0x0⟩, -- VEN_LISTEN
  ⟨0x94, 0, 1, [0xAAAAAAAA], 0xFFFFFFFF, 0x0, 0x0, 0x0, 0x0, 0x0, 0x0⟩, -- VEN_SOLO_MAP
  ⟨0x98, 0, 1, [0xFA3208], 0x0, 0x0, 0x0, 0x0, 0xFFFFFF0F, 0x0, 0x0⟩, -- VEN_TIMING
  ⟨0x9C, 0, 1, [0x1282008], 0x0, 0x0, 0x0, 0x0, 0x1FFFF0F, 0x0, 0x0⟩, -- VEN_NULL
  ⟨0xA0, 0, 1, [0x0], 0x0, 0x0, 0x0, 0x0, 0xFF, 0x0, 0x0⟩, -- VEN_AUTH_CTX
  ⟨0xA4, 0, 1, [0x0], 0x0, 0x0, 0x0, 0x0, 0x0, 0x0, 0xFFFF00FF⟩, -- VEN_STAT
  ⟨0xA8, 0, 1, [0x0], 0x37FF1F, 0x0, 0x0, 0x80000000, 0x0, 0x0, 0x0⟩, -- VEN_NBR_CMD
  ⟨0xAC, 0, 1, [0x0], 0x0, 0x0, 0x0, 0x0, 0x0, 0x0, 0xF⟩, -- VEN_NBR_STAT
  ⟨0xB0, 0, 1, [0x0], 0x0, 0x0, 0x0, 0x0, 0x0, 0x0, 0xFFFF07FF⟩, -- VEN_LAST_UNLISTED
  ⟨0xB4, 0, 1, [0x0], 0x3F, 0x0, 0x0, 0x0, 0x0, 0x0, 0x0⟩, -- VEN_EDGE_BASE
  ⟨0x400, 4, 32, [0x0], 0xFFFFFFFF, 0x0, 0x0, 0x0, 0x0, 0x0, 0x0⟩, -- VEN_EDGE
  ⟨0x200, 16, 32, [0x0], 0x0, 0x0, 0x0, 0x0, 0x0, 0x0, 0xFFFFF3F⟩, -- VEN_NBR word 0
  ⟨0x204, 16, 32, [0x0], 0x0, 0x0, 0x0, 0x0, 0x0, 0x0, 0xFFFFFFFF⟩, -- VEN_NBR word 1
  ⟨0x208, 16, 32, [0x0], 0x0, 0x0, 0x0, 0x0, 0x0, 0x0, 0xFFFFFFFF⟩, -- VEN_NBR word 2
  ⟨0x20C, 16, 32, [0x0], 0x0, 0x0, 0x0, 0x0, 0x0, 0x0, 0xFFFFFFFF⟩, -- VEN_NBR word 3
  ⟨0x1000, 4, 1024, [0x0], 0x0, 0x0, 0x0, 0x0, 0x0, 0x0, 0xFF03FFFF⟩, -- VEN_FSLOT
  ⟨0x100, 0, 1, [0x0], 0x0, 0x0, 0x0, 0x0, 0x0, 0x0, 0xFFFFFFFF⟩, -- VEN_CNT_TX
  ⟨0x104, 0, 1, [0x0], 0x0, 0x0, 0x0, 0x0, 0x0, 0x0, 0xFFFFFFFF⟩, -- VEN_CNT_RX
  ⟨0x108, 0, 1, [0x0], 0x0, 0x0, 0x0, 0x0, 0x0, 0x0, 0xFFFFFFFF⟩, -- VEN_CNT_BADMSG
  ⟨0x10C, 0, 1, [0x0], 0x0, 0x0, 0x0, 0x0, 0x0, 0x0, 0xFFFFFFFF⟩ -- VEN_CNT_OTHERDOM
  ]

def rows_ven1 : List RegRow := [
  ⟨0x110, 0, 1, [0x0], 0x0, 0x0, 0x0, 0x0, 0x0, 0x0, 0xFFFFFFFF⟩, -- VEN_CNT_AUTHFAIL
  ⟨0x114, 0, 1, [0x0], 0x0, 0x0, 0x0, 0x0, 0x0, 0x0, 0xFFFFFFFF⟩, -- VEN_CNT_UNLISTED
  ⟨0x118, 0, 1, [0x0], 0x0, 0x0, 0x0, 0x0, 0x0, 0x0, 0xFFFFFFFF⟩, -- VEN_CNT_SKEW
  ⟨0x11C, 0, 1, [0x0], 0x0, 0x0, 0x0, 0x0, 0x0, 0x0, 0xFFFFFFFF⟩, -- VEN_CNT_STALE
  ⟨0x120, 0, 1, [0x0], 0x0, 0x0, 0x0, 0x0, 0x0, 0x0, 0xFFFFFFFF⟩, -- VEN_CNT_MISS
  ⟨0x124, 0, 1, [0x0], 0x0, 0x0, 0x0, 0x0, 0x0, 0x0, 0xFFFFFFFF⟩, -- VEN_CNT_TRIG
  ⟨0x128, 0, 1, [0x0], 0x0, 0x0, 0x0, 0x0, 0x0, 0x0, 0xFFFFFFFF⟩, -- VEN_CNT_LEARN
  ⟨0x12C, 0, 1, [0x0], 0x0, 0x0, 0x0, 0x0, 0x0, 0x0, 0xFFFFFFFF⟩, -- VEN_CNT_NULLS
  ⟨0x130, 0, 1, [0x0], 0x0, 0x0, 0x0, 0x0, 0x0, 0x0, 0xFFFFFFFF⟩ -- VEN_CNT_NOTSENT
  ]

/-- The registers of a page of kind `ven`. -/
def rowsOf_ven : List RegRow := rows_ven0 ++ rows_ven1

def rows_tag0 : List RegRow := [
  ⟨0x80, 0, 1, [0x57], 0x0, 0x0, 0x0, 0x0, 0x3FFFF, 0x0, 0x0⟩, -- TAG_CFG
  ⟨0x84, 0, 1, [0x965], 0xFFF, 0x0, 0x0, 0x0, 0x0, 0x0, 0x0⟩, -- TAG_RX_CHAN
  ⟨0x88, 0, 1, [0xFFFFFFFF], 0x0, 0x0, 0x0, 0x0, 0xFFFFFFFF, 0x0, 0x0⟩, -- TAG_PAN
  ⟨0x8C, 0, 1, [0x0], 0x0, 0x0, 0x0, 0x0, 0xFFFFFFFF, 0x0, 0x0⟩, -- TAG_EXT_LO
  ⟨0x90, 0, 1, [0x0], 0x0, 0x0, 0x0, 0x0, 0xFFFFFFFF, 0x0, 0x0⟩, -- TAG_EXT_HI
  ⟨0x94, 0, 1, [0x8E3A6C5D], 0x0, 0x0, 0x0, 0x0, 0xFFFFFFFF, 0x0, 0x0⟩, -- TAG_SYNC
  ⟨0x98, 0, 1, [0x0], 0xFF, 0x0, 0x0, 0x0, 0x0, 0x0, 0x0⟩, -- TAG_TXPWR
  ⟨0x9C, 0, 1, [0x0], 0x0, 0x0, 0x0, 0x0, 0x0, 0xFF, 0x0⟩, -- TAG_GAIN
  ⟨0xA0, 0, 1, [0xAC42014], 0x0, 0x0, 0x0, 0x0, 0xFFF3FFF, 0x0, 0x0⟩, -- TAG_LBT
  ⟨0xA4, 0, 1, [0x190], 0x0, 0x0, 0x0, 0x0, 0x1FFFFFF, 0x0, 0x0⟩, -- TAG_BCN
  ⟨0xA8, 0, 1, [0x7D00014], 0x0, 0x0, 0x0, 0x0, 0xFFFFFFFF, 0x0, 0x0⟩, -- TAG_BCN_WIN
  ⟨0xAC, 0, 1, [0x9B00965], 0xFFF0FFF, 0x0, 0x0, 0x0, 0x0, 0x0, 0x0⟩, -- TAG_BCN_CHAN
  ⟨0xB0, 0, 1, [0x0], 0x0, 0x0, 0x0, 0x0, 0x0, 0x0, 0xFF03⟩, -- TAG_BCN_STAT
  ⟨0xB4, 0, 1, [0x1648], 0x0, 0x0, 0x0, 0x0, 0x1FFF, 0x0, 0x0⟩, -- TAG_DFE
  ⟨0xB8, 0, 1, [0x231E07D0], 0x0, 0x0, 0x0, 0x0, 0xFFFFFFFF, 0x0, 0x0⟩, -- TAG_WAKE
  ⟨0xBC, 0, 1, [0x64000C], 0x0, 0x0, 0x0, 0x0, 0xFFFF00FF, 0x0, 0x0⟩, -- TAG_WAKE2
  ⟨0xC0, 0, 1, [0x0], 0x0, 0x0, 0x0, 0x0, 0xFFFFFFE0, 0x0, 0x0⟩, -- TAG_TABLE_BASE
  ⟨0xC4, 0, 1, [0x0], 0x0, 0x0, 0x0, 0x0, 0xFFFFFFE0, 0x0, 0x0⟩, -- TAG_EVT_BASE
  ⟨0xD4, 0, 1, [0x0], 0x0, 0x0, 0x0, 0x0, 0xFFFFFFE0, 0x0, 0x0⟩, -- TAG_TXQ_BASE
  ⟨0xC8, 0, 1, [0x808], 0x0, 0x0, 0x0, 0x0, 0xF0F, 0x0, 0x0⟩, -- TAG_RING_CFG
  ⟨0xCC, 0, 1, [0x0], 0x0, 0x0, 0x0, 0x0, 0x0, 0x0, 0xFFFF⟩, -- TAG_EVT_WR
  ⟨0xD0, 0, 1, [0x0], 0xFFFF, 0x0, 0x0, 0x0, 0x0, 0x0, 0x0⟩, -- TAG_EVT_RD
  ⟨0xD8, 0, 1, [0x0], 0xFFFF, 0x0, 0x0, 0x0, 0x0, 0x0, 0x0⟩, -- TAG_TXQ_WR
  ⟨0xDC, 0, 1, [0x0], 0x0, 0x0, 0x0, 0x0, 0x0, 0x0, 0xFFFF⟩ -- TAG_TXQ_RD
  ]

def rows_tag1 : List RegRow := [
  ⟨0x100, 0, 1, [0x0], 0x0, 0x0, 0x0, 0x0, 0x0, 0x0, 0xFFFFFFFF⟩, -- TAG_CNT_RX154
  ⟨0x104, 0, 1, [0x0], 0x0, 0x0, 0x0, 0x0, 0x0, 0x0, 0xFFFFFFFF⟩, -- TAG_CNT_RXGFSK
  ⟨0x108, 0, 1, [0x0], 0x0, 0x0, 0x0, 0x0, 0x0, 0x0, 0xFFFFFFFF⟩, -- TAG_CNT_FCS_BAD
  ⟨0x10C, 0, 1, [0x0], 0x0, 0x0, 0x0, 0x0, 0x0, 0x0, 0xFFFFFFFF⟩, -- TAG_CNT_ACK
  ⟨0x110, 0, 1, [0x0], 0x0, 0x0, 0x0, 0x0, 0x0, 0x0, 0xFFFFFFFF⟩, -- TAG_CNT_TX
  ⟨0x114, 0, 1, [0x0], 0x0, 0x0, 0x0, 0x0, 0x0, 0x0, 0xFFFFFFFF⟩, -- TAG_CNT_NOACK
  ⟨0x118, 0, 1, [0x0], 0x0, 0x0, 0x0, 0x0, 0x0, 0x0, 0xFFFFFFFF⟩, -- TAG_CNT_LBT_BUSY
  ⟨0x11C, 0, 1, [0x0], 0x0, 0x0, 0x0, 0x0, 0x0, 0x0, 0xFFFFFFFF⟩, -- TAG_CNT_GIVEUP
  ⟨0x120, 0, 1, [0x0], 0x0, 0x0, 0x0, 0x0, 0x0, 0x0, 0xFFFFFFFF⟩, -- TAG_CNT_TRAINS
  ⟨0x124, 0, 1, [0x0], 0x0, 0x0, 0x0, 0x0, 0x0, 0x0, 0xFFFFFFFF⟩, -- TAG_CNT_BCN
  ⟨0x128, 0, 1, [0x0], 0x0, 0x0, 0x0, 0x0, 0x0, 0x0, 0xFFFFFFFF⟩, -- TAG_CNT_BCN_LOST
  ⟨0x12C, 0, 1, [0x0], 0x0, 0x0, 0x0, 0x0, 0x0, 0x0, 0xFFFFFFFF⟩ -- TAG_CNT_EVT_DROP
  ]

/-- The registers of a page of kind `tag`. -/
def rowsOf_tag : List RegRow := rows_tag0 ++ rows_tag1

def rows_kcl0 : List RegRow := [
  ⟨0x80, 0, 1, [0x0], 0x0, 0x3FFFFFFF, 0x0, 0x0, 0x0, 0x0, 0x0⟩, -- KOV_JOB_POST
  ⟨0x84, 0, 1, [0x0], 0x0, 0x0, 0x0, 0x0, 0x0, 0x0, 0x3FF03FF⟩, -- KOV_JQ_DEPTH
  ⟨0x88, 0, 1, [0x0], 0x0, 0x0, 0x0, 0x0, 0xFFFFFF, 0x0, 0x0⟩, -- KOV_JC_BASE
  ⟨0x8C, 0, 1, [0x18], 0x0, 0x0, 0x0, 0x0, 0x1F, 0x0, 0x0⟩, -- KOV_JC_CFG
  ⟨0x90, 0, 1, [0x0], 0x0, 0x0, 0x0, 0x0, 0x0, 0x0, 0xFFFF⟩, -- KOV_JC_WR
  ⟨0x94, 0, 1, [0x0], 0xFFFF, 0x0, 0x0, 0x0, 0x0, 0x0, 0x0⟩, -- KOV_JC_RD
  ⟨0x98, 0, 1, [0x0], 0x0, 0x0, 0x0, 0x0, 0xFFF0FFF, 0x0, 0x0⟩, -- KOV_JOB_VEC
  ⟨0x9C, 0, 1, [0x3E8], 0x0, 0x0, 0x0, 0x0, 0xFFFF, 0x0, 0x0⟩, -- KOV_JOB_LIMIT
  ⟨0xA0, 4, 8, [0x0], 0xFFFF, 0x0, 0x0, 0x0, 0x0, 0x0, 0xFFFF0000⟩, -- KOV_BAR
  ⟨0xC0, 0, 1, [0x0], 0x0, 0x7FFFFFFF, 0x0, 0x0, 0x0, 0x0, 0x0⟩, -- KOV_DMA_POST_16
  ⟨0xC4, 0, 1, [0x0], 0x0, 0x7FFFFFFF, 0x0, 0x0, 0x0, 0x0, 0x0⟩, -- KOV_DMA_POST_17
  ⟨0xC8, 0, 1, [0x0], 0x0, 0x0, 0x0, 0x0, 0x0, 0x0, 0xFF00FF⟩, -- KOV_DMA_STAT_FW
  ⟨0x100, 0, 1, [0x0], 0x0, 0x0, 0x0, 0x0, 0x0, 0x0, 0xFFFFFFFF⟩, -- KOV_CNT_POSTED
  ⟨0x104, 0, 1, [0x0], 0x0, 0x0, 0x0, 0x0, 0x0, 0x0, 0xFFFFFFFF⟩, -- KOV_CNT_POST_FULL
  ⟨0x108, 0, 1, [0x0], 0x0, 0x0, 0x0, 0x0, 0x0, 0x0, 0xFFFFFFFF⟩, -- KOV_CNT_STARTED
  ⟨0x10C, 0, 1, [0x0], 0x0, 0x0, 0x0, 0x0, 0x0, 0x0, 0xFFFFFFFF⟩, -- KOV_CNT_LATE_START
  ⟨0x110, 0, 1, [0x0], 0x0, 0x0, 0x0, 0x0, 0x0, 0x0, 0xFFFFFFFF⟩, -- KOV_CNT_DISCARDED
  ⟨0x114, 0, 1, [0x0], 0x0, 0x0, 0x0, 0x0, 0x0, 0x0, 0xFFFFFFFF⟩, -- KOV_CNT_BAD_TYPE
  ⟨0x118, 0, 1, [0x0], 0x0, 0x0, 0x0, 0x0, 0x0, 0x0, 0xFFFFFFFF⟩, -- KOV_CNT_JC_DROP
  ⟨0x11C, 0, 1, [0x0], 0x0, 0x0, 0x0, 0x0, 0x0, 0x0, 0xFFFFFFFF⟩ -- KOV_CNT_DMA_REFUSED
  ]

/-- The registers of a page of kind `kcl`. -/
def rowsOf_kcl : List RegRow := rows_kcl0

def rows_kco0 : List RegRow := [
  ⟨0x80, 0, 1, [0x3], 0x0, 0x0, 0x0, 0x0, 0xFFF7, 0x0, 0x0⟩, -- KOV_CORE_CFG
  ⟨0x84, 0, 1, [0x0], 0x0, 0x0, 0x0, 0x0, 0x0, 0x0, 0xFFFFF73⟩, -- KOV_CORE_STAT
  ⟨0x88, 0, 1, [0x0], 0x0, 0x0, 0x0, 0x0, 0xFFF0FFF, 0x0, 0x0⟩, -- KOV_VEC
  ⟨0x8C, 0, 1, [0x0], 0xF, 0x0, 0x0, 0x0, 0x0, 0x0, 0x0⟩, -- KOV_IRQ_EN
  ⟨0x90, 0, 1, [0x0], 0xF, 0x0, 0x0, 0x0, 0x0, 0x0, 0x0⟩, -- KOV_IRQ_FAST
  ⟨0x94, 0, 1, [0x0], 0x0, 0x0, 0xF, 0x0, 0x0, 0x0, 0x0⟩, -- KOV_IRQ_PEND
  ⟨0x98, 0, 1, [0x0], 0xFFFFFFFF, 0x0, 0x0, 0x0, 0x0, 0x0, 0x0⟩, -- KOV_TMR
  ⟨0x9C, 0, 1, [0x0], 0x0, 0xFFFFFFFF, 0x0, 0x0, 0x0, 0x0, 0x0⟩, -- KOV_MBX_IN
  ⟨0xA0, 0, 1, [0x0], 0x0, 0x0, 0x0, 0x0, 0x0, 0x0, 0xFFFF000F⟩, -- KOV_MBX_STAT
  ⟨0xA4, 0, 1, [0x0], 0x0, 0x0, 0x0, 0x0, 0x0, 0x0, 0xFF⟩, -- KOV_DMA_STAT
  ⟨0x100, 0, 1, [0x0], 0x0, 0x0, 0x0, 0x0, 0x0, 0x0, 0xFFFFFFFF⟩, -- KOV_CNT_BUNDLES
  ⟨0x104, 0, 1, [0x0], 0x0, 0x0, 0x0, 0x0, 0x0, 0x0, 0xFFFFFFFF⟩, -- KOV_CNT_STALL_DATA
  ⟨0x108, 0, 1, [0x0], 0x0, 0x0, 0x0, 0x0, 0x0, 0x0, 0xFFFFFFFF⟩, -- KOV_CNT_STALL_WAIT
  ⟨0x10C, 0, 1, [0x0], 0x0, 0x0, 0x0, 0x0, 0x0, 0x0, 0xFFFFFFFF⟩, -- KOV_CNT_STALL_DMA
  ⟨0x110, 0, 1, [0x0], 0x0, 0x0, 0x0, 0x0, 0x0, 0x0, 0xFFFFFFFF⟩, -- KOV_CNT_JOBS
  ⟨0x114, 0, 1, [0x0], 0x0, 0x0, 0x0, 0x0, 0x0, 0x0, 0xFFFFFFFF⟩, -- KOV_CNT_SAT
  ⟨0x118, 0, 1, [0x0], 0x0, 0x0, 0x0, 0x0, 0x0, 0x0, 0xFFFFFFFF⟩ -- KOV_CNT_ECC
  ]

/-- The registers of a page of kind `kco`. -/
def rowsOf_kco : List RegRow := rows_kco0

def rows_pkp0 : List RegRow := [
  ⟨0x80, 0, 1, [0x0], 0x0, 0x0, 0x200, 0x100, 0x0, 0x0, 0xFFFF0003⟩, -- PKT_MENU_CTL
  ⟨0x84, 0, 1, [0x0], 0x7FFFF, 0x0, 0x0, 0x80000000, 0x0, 0x0, 0x0⟩, -- PKT_TC_CMD
  ⟨0x88, 0, 1, [0x0], 0x0, 0x0, 0x0, 0x0, 0x0, 0x0, 0xF⟩, -- PKT_TC_STAT
  ⟨0x8C, 0, 1, [0x0], 0x1FF, 0x0, 0x0, 0x0, 0x0, 0x0, 0x0⟩, -- PKT_EXC_CFG
  ⟨0xA0, 4, 10, [0x0], 0xFFFFFFFF, 0x0, 0x0, 0x0, 0x0, 0x0, 0x0⟩, -- PKT_TC_VAL
  ⟨0xD0, 4, 10, [0x0], 0xFFFFFFFF, 0x0, 0x0, 0x0, 0x0, 0x0, 0x0⟩, -- PKT_TC_MSK
  ⟨0x200, 4, 8, [0x0], 0xFFFFFFFF, 0x0, 0x0, 0x0, 0x0, 0x0, 0x0⟩, -- PKT_TC_ACT
  ⟨0x100, 0, 1, [0x0], 0x0, 0x0, 0x0, 0x0, 0x0, 0x0, 0xFFFFFFFF⟩, -- PKT_CNT_PASS1
  ⟨0x104, 0, 1, [0x0], 0x0, 0x0, 0x0, 0x0, 0x0, 0x0, 0xFFFFFFFF⟩, -- PKT_CNT_PASS2
  ⟨0x108, 0, 1, [0x0], 0x0, 0x0, 0x0, 0x0, 0x0, 0x0, 0xFFFFFFFF⟩, -- PKT_CNT_DEFAULT
  ⟨0x10C, 0, 1, [0x0], 0x0, 0x0, 0x0, 0x0, 0x0, 0x0, 0xFFFFFFFF⟩, -- PKT_CNT_DEPTH
  ⟨0x110, 0, 1, [0x0], 0x0, 0x0, 0x0, 0x0, 0x0, 0x0, 0xFFFFFFFF⟩, -- PKT_CNT_LENBAD
  ⟨0x114, 0, 1, [0x0], 0x0, 0x0, 0x0, 0x0, 0x0, 0x0, 0xFFFFFFFF⟩, -- PKT_CNT_FRAG
  ⟨0x118, 0, 1, [0x0], 0x0, 0x0, 0x0, 0x0, 0x0, 0x0, 0xFFFFFFFF⟩, -- PKT_CNT_RECIRC_LIMIT
  ⟨0x11C, 0, 1, [0x0], 0x0, 0x0, 0x0, 0x0, 0x0, 0x0, 0xFFFFFFFF⟩ -- PKT_CNT_IN_FULL
  ]

/-- The registers of a page of kind `pkp`. -/
def rowsOf_pkp : List RegRow := rows_pkp0

def rows_pka0 : List RegRow := [
  ⟨0x80, 0, 1, [0x0], 0x0, 0x0, 0x0, 0x0, 0xFFFE0000, 0x0, 0x0⟩, -- PKT_TMPL_BASE
  ⟨0x84, 0, 1, [0x0], 0x40003FFF, 0x0, 0x0, 0x80000000, 0x0, 0x0, 0x0⟩, -- PKT_CTR_CMD
  ⟨0x8C, 0, 1, [0x0], 0x0, 0x0, 0x0, 0x0, 0x0, 0x0, 0xFFFFFFFF⟩, -- PKT_CTR_PKTS_LO
  ⟨0x90, 0, 1, [0x0], 0x0, 0x0, 0x0, 0x0, 0x0, 0x0, 0xFFFFFFFF⟩, -- PKT_CTR_PKTS_HI
  ⟨0x94, 0, 1, [0x0], 0x0, 0x0, 0x0, 0x0, 0x0, 0x0, 0xFFFFFFFF⟩, -- PKT_CTR_BYTES_LO
  ⟨0x98, 0, 1, [0x0], 0x0, 0x0, 0x0, 0x0, 0x0, 0x0, 0xFFFFFFFF⟩, -- PKT_CTR_BYTES_HI
  ⟨0x8000, 8, 4096, [0x0], 0xFFFFFFFF, 0x0, 0x0, 0x0, 0x0, 0x0, 0x0⟩, -- PKT_ADDR word 0
  ⟨0x8004, 8, 4096, [0x0], 0xFFFF, 0x0, 0x0, 0x0, 0x0, 0x0, 0x0⟩, -- PKT_ADDR word 1
  ⟨0x100, 0, 1, [0x0], 0x0, 0x0, 0x0, 0x0, 0x0, 0x0, 0xFFFFFFFF⟩, -- PKT_CNT_DROP
  ⟨0x104, 0, 1, [0x0], 0x0, 0x0, 0x0, 0x0, 0x0, 0x0, 0xFFFFFFFF⟩, -- PKT_CNT_ETH_REFUSED
  ⟨0x108, 0, 1, [0x0], 0x0, 0x0, 0x0, 0x0, 0x0, 0x0, 0xFFFFFFFF⟩, -- PKT_CNT_WLAN_ENQ
  ⟨0x10C, 0, 1, [0x0], 0x0, 0x0, 0x0, 0x0, 0x0, 0x0, 0xFFFFFFFF⟩, -- PKT_CNT_WLAN_REFUSED
  ⟨0x110, 0, 1, [0x0], 0x0, 0x0, 0x0, 0x0, 0x0, 0x0, 0xFFFFFFFF⟩, -- PKT_CNT_STA_MISS
  ⟨0x114, 0, 1, [0x0], 0x0, 0x0, 0x0, 0x0, 0x0, 0x0, 0xFFFFFFFF⟩, -- PKT_CNT_REWRITE_SKIP
  ⟨0x118, 0, 1, [0x0], 0x0, 0x0, 0x0, 0x0, 0x0, 0x0, 0xFFFFFFFF⟩, -- PKT_CNT_TTL
  ⟨0x11C, 0, 1, [0x0], 0x0, 0x0, 0x0, 0x0, 0x0, 0x0, 0xFFFFFFFF⟩, -- PKT_CNT_VEN
  ⟨0x120, 0, 1, [0x0], 0x0, 0x0, 0x0, 0x0, 0x0, 0x0, 0xFFFFFFFF⟩, -- PKT_CNT_DEST_OFF
  ⟨0x124, 0, 1, [0x0], 0x0, 0x0, 0x0, 0x0, 0x0, 0x0, 0xFFFFFFFF⟩ -- PKT_CNT_CPL_LOST
  ]

/-- The registers of a page of kind `pka`. -/
def rowsOf_pka : List RegRow := rows_pka0

def rows_pkm0 : List RegRow := [
  ⟨0x80, 0, 1, [0x0], 0x0, 0x0, 0x0, 0x0, 0xFFFFFF, 0x0, 0x0⟩, -- PKT_DRAM_BASE
  ⟨0x84, 0, 1, [0x0], 0x0, 0x0, 0x0, 0x0, 0x1FFFFF, 0x0, 0x0⟩, -- PKT_DRAM_UNITS
  ⟨0x88, 0, 1, [0x8000400], 0xFFFFFFFF, 0x0, 0x0, 0x0, 0x0, 0x0, 0x0⟩, -- PKT_SPILL
  ⟨0x8C, 0, 1, [0x0], 0x0, 0x0, 0x0, 0x0, 0x0, 0x0, 0xFFFFFFFF⟩, -- PKT_FREE_ON
  ⟨0x90, 0, 1, [0x0], 0x0, 0x0, 0x0, 0x0, 0x0, 0x0, 0x1FFFFF⟩, -- PKT_FREE_DRAM
  ⟨0x100, 0, 1, [0x0], 0x0, 0x0, 0x0, 0x0, 0x0, 0x0, 0xFFFFFFFF⟩, -- PKT_CNT_NO_BASKET
  ⟨0x104, 0, 1, [0x0], 0x0, 0x0, 0x0, 0x0, 0x0, 0x0, 0xFFFFFFFF⟩, -- PKT_CNT_SPILL
  ⟨0x108, 0, 1, [0x0], 0x0, 0x0, 0x0, 0x0, 0x0, 0x0, 0xFFFFFFFF⟩ -- PKT_CNT_TOO_LONG
  ]

/-- The registers of a page of kind `pkm`. -/
def rowsOf_pkm : List RegRow := rows_pkm0

def rows_eth0 : List RegRow := [
  ⟨0x80, 0, 1, [0x0], 0x0, 0x0, 0x0, 0x0, 0x7FFF07FF, 0x0, 0x0⟩, -- ETH_CFG
  ⟨0x84, 0, 1, [0x0], 0x0, 0x0, 0x0, 0x0, 0xFFFFFFFF, 0x0, 0x0⟩, -- ETH_ADDR_LO
  ⟨0x88, 0, 1, [0x0], 0x0, 0x0, 0x0, 0x0, 0xFFFFFFFF, 0x0, 0x0⟩, -- ETH_ADDR_HI
  ⟨0x8C, 0, 1, [0x5F2], 0x0, 0x0, 0x0, 0x0, 0x3FFF, 0x0, 0x0⟩, -- ETH_MAX_LEN
  ⟨0x90, 0, 1, [0x40100], 0xFF3FFF, 0x0, 0x0, 0x0, 0x0, 0x0, 0x0⟩, -- ETH_TX_THR
  ⟨0x94, 0, 1, [0xFFFFFF], 0x0, 0x0, 0x0, 0x0, 0xFFFFFF, 0x0, 0x0⟩, -- ETH_PAUSE
  ⟨0x98, 0, 1, [0x1000180], 0x0, 0x0, 0x0, 0x0, 0x1FF01FF, 0x0, 0x0⟩, -- ETH_FIFO_THR
  ⟨0x9C, 0, 1, [0x0], 0x0, 0x0, 0x0, 0x0, 0xFFFFFFFF, 0x0, 0x0⟩, -- ETH_TS_ASYM
  ⟨0xA0, 0, 1, [0x0], 0x0, 0x0, 0x0, 0x0, 0x0, 0x0, 0x7F⟩, -- ETH_CRUMB_STAT
  ⟨0xA4, 0, 1, [0x0], 0x0, 0x0, 0x0, 0x0, 0x0, 0x0, 0xFFFF0F3F⟩, -- ETH_CRUMB0
  ⟨0xA8, 0, 1, [0x0], 0x0, 0x0, 0x0, 0x0, 0x0, 0x0, 0xFFFFFFFF⟩, -- ETH_CRUMB1
  ⟨0xAC, 0, 1, [0x0], 0x0, 0x0, 0x0, 0x0, 0x0, 0x0, 0xFFFFFFFF⟩, -- ETH_CRUMB2
  ⟨0xB0, 0, 1, [0x0], 0x0, 0x0, 0x0, 0x0, 0x0, 0x0, 0x1FFFFFF⟩, -- ETH_CRUMB3
  ⟨0xB4, 0, 1, [0x0], 0x0, 0x0, 0x0, 0x0, 0x0, 0x0, 0xFFF⟩, -- ETH_LINK
  ⟨0xB8, 0, 1, [0x0], 0x1FFFFFFF, 0x0, 0x0, 0x80000000, 0x0, 0x0, 0x0⟩, -- ETH_MDIO_CMD
  ⟨0xBC, 0, 1, [0x0], 0x0, 0x0, 0x0, 0x0, 0x0, 0x0, 0x1FFFF⟩, -- ETH_MDIO_STAT
  ⟨0xC0, 4, 16, [0x0], 0x0, 0x0, 0x0, 0x0, 0xFFFFFFFF, 0x0, 0x0⟩, -- ETH_MC_HASH
  ⟨0x300, 8, 8, [0x0], 0x0, 0x0, 0x0, 0x0, 0xFFFFFFFF, 0x0, 0x0⟩, -- ETH_PADDR word 0
  ⟨0x304, 8, 8, [0x0], 0x0, 0x0, 0x0, 0x0, 0x1FFFF, 0x0, 0x0⟩, -- ETH_PADDR word 1
  ⟨0x160, 0, 1, [0x0], 0x0, 0x0, 0xFFFFFF, 0x0, 0x0, 0x0, 0x0⟩, -- ETH_CNT_HALF
  ⟨0x100, 0, 1, [0x0], 0x0, 0x0, 0x0, 0x0, 0x0, 0x0, 0xFFFFFFFF⟩, -- ETH_RX_OK
  ⟨0x104, 0, 1, [0x0], 0x0, 0x0, 0x0, 0x0, 0x0, 0x0, 0xFFFFFFFF⟩, -- ETH_RX_OCT_LO
  ⟨0x108, 0, 1, [0x0], 0x0, 0x0, 0x0, 0x0, 0x0, 0x0, 0xFFFFFFFF⟩, -- ETH_RX_OCT_HI
  ⟨0x10C, 0, 1, [0x0], 0x0, 0x0, 0x0, 0x0, 0x0, 0x0, 0xFFFFFFFF⟩ -- ETH_RX_MCAST
  ]

def rows_eth1 : List RegRow := [
  ⟨0x110, 0, 1, [0x0], 0x0, 0x0, 0x0, 0x0, 0x0, 0x0, 0xFFFFFFFF⟩, -- ETH_RX_BCAST
  ⟨0x114, 0, 1, [0x0], 0x0, 0x0, 0x0, 0x0, 0x0, 0x0, 0xFFFFFFFF⟩, -- ETH_RX_FCS
  ⟨0x118, 0, 1, [0x0], 0x0, 0x0, 0x0, 0x0, 0x0, 0x0, 0xFFFFFFFF⟩, -- ETH_RX_CODE
  ⟨0x11C, 0, 1, [0x0], 0x0, 0x0, 0x0, 0x0, 0x0, 0x0, 0xFFFFFFFF⟩, -- ETH_RX_RUNT
  ⟨0x120, 0, 1, [0x0], 0x0, 0x0, 0x0, 0x0, 0x0, 0x0, 0xFFFFFFFF⟩, -- ETH_RX_LONG
  ⟨0x124, 0, 1, [0x0], 0x0, 0x0, 0x0, 0x0, 0x0, 0x0, 0xFFFFFFFF⟩, -- ETH_RX_FILTERED
  ⟨0x128, 0, 1, [0x0], 0x0, 0x0, 0x0, 0x0, 0x0, 0x0, 0xFFFFFFFF⟩, -- ETH_RX_OVF
  ⟨0x12C, 0, 1, [0x0], 0x0, 0x0, 0x0, 0x0, 0x0, 0x0, 0xFFFFFFFF⟩, -- ETH_RX_PAUSE
  ⟨0x130, 0, 1, [0x0], 0x0, 0x0, 0x0, 0x0, 0x0, 0x0, 0xFFFFFFFF⟩, -- ETH_TX_OK
  ⟨0x134, 0, 1, [0x0], 0x0, 0x0, 0x0, 0x0, 0x0, 0x0, 0xFFFFFFFF⟩, -- ETH_TX_OCT_LO
  ⟨0x138, 0, 1, [0x0], 0x0, 0x0, 0x0, 0x0, 0x0, 0x0, 0xFFFFFFFF⟩, -- ETH_TX_OCT_HI
  ⟨0x13C, 0, 1, [0x0], 0x0, 0x0, 0x0, 0x0, 0x0, 0x0, 0xFFFFFFFF⟩, -- ETH_TX_MCAST
  ⟨0x140, 0, 1, [0x0], 0x0, 0x0, 0x0, 0x0, 0x0, 0x0, 0xFFFFFFFF⟩, -- ETH_TX_BCAST
  ⟨0x144, 0, 1, [0x0], 0x0, 0x0, 0x0, 0x0, 0x0, 0x0, 0xFFFFFFFF⟩, -- ETH_TX_PAUSE
  ⟨0x148, 0, 1, [0x0], 0x0, 0x0, 0x0, 0x0, 0x0, 0x0, 0xFFFFFFFF⟩, -- ETH_TX_UNDERRUN
  ⟨0x14C, 0, 1, [0x0], 0x0, 0x0, 0x0, 0x0, 0x0, 0x0, 0xFFFFFFFF⟩, -- ETH_TX_LINKDOWN
  ⟨0x150, 0, 1, [0x0], 0x0, 0x0, 0x0, 0x0, 0x0, 0x0, 0xFFFFFFFF⟩, -- ETH_TX_REFUSED
  ⟨0x154, 0, 1, [0x0], 0x0, 0x0, 0x0, 0x0, 0x0, 0x0, 0xFFFFFFFF⟩, -- ETH_CRUMB_LOST
  ⟨0x158, 0, 1, [0x0], 0x0, 0x0, 0x0, 0x0, 0x0, 0x0, 0xFFFFFFFF⟩, -- ETH_FEC_CORR
  ⟨0x15C, 0, 1, [0x0], 0x0, 0x0, 0x0, 0x0, 0x0, 0x0, 0xFFFFFFFF⟩ -- ETH_FEC_UNCORR
  ]

/-- The registers of a page of kind `eth`. -/
def rowsOf_eth : List RegRow := rows_eth0 ++ rows_eth1

def rows_sds0 : List RegRow := [
  ⟨0x80, 0, 1, [0x0], 0x0, 0x0, 0x0, 0x0, 0x3, 0x0, 0x0⟩, -- ETH_SERDES_MODE
  ⟨0x84, 4, 5, [0x200000], 0x0, 0x0, 0x0, 0x0, 0x3FFFFF, 0x0, 0x0⟩, -- ETH_LANE
  ⟨0x98, 0, 1, [0x0], 0x0, 0x0, 0x0, 0x0, 0x0, 0x0, 0x3FFFFFFF⟩ -- ETH_SERDES_STAT
  ]

/-- The registers of a page of kind `sds`. -/
def rowsOf_sds : List RegRow := rows_sds0

def rows_pc00 : List RegRow := [
  ⟨0x0, 0, 1, [0xC], 0x3F, 0x0, 0x0, 0x0, 0x0, 0x0, 0x0⟩, -- PCIE_CTL
  ⟨0x4, 0, 1, [0x0], 0x0, 0x0, 0x0, 0x0, 0x0, 0x0, 0xFF⟩, -- PCIE_LINK
  ⟨0x8, 0, 1, [0x0], 0x0, 0x0, 0x7F, 0x0, 0x0, 0x0, 0x0⟩, -- PCIE_INT
  ⟨0xC, 0, 1, [0x0], 0x7F, 0x0, 0x0, 0x0, 0x0, 0x0, 0x0⟩, -- PCIE_INT_EN
  ⟨0x10, 0, 1, [0x2710], 0xFFFF, 0x0, 0x0, 0x0, 0x0, 0x0, 0x0⟩, -- PCIE_CPL_TO
  ⟨0x14, 0, 1, [0x0], 0x0, 0x0, 0x0, 0x0, 0x0, 0x0, 0xFFFFFFFF⟩ -- PCIE_ERR_CNT
  ]

/-- The registers of a page of kind `pc0`. -/
def rowsOf_pc0 : List RegRow := rows_pc00

def rows_pc10 : List RegRow := [
  ⟨0x0, 16, 8, [0x0], 0x8001FFFF, 0x0, 0x0, 0x0, 0x0, 0x0, 0x0⟩, -- PCIE_OUTWIN word 0
  ⟨0x4, 16, 8, [0x0], 0x3F, 0x0, 0x0, 0x0, 0x0, 0x0, 0x0⟩, -- PCIE_OUTWIN word 1
  ⟨0x8, 16, 8, [0x0], 0xFFFF0000, 0x0, 0x0, 0x0, 0x0, 0x0, 0x0⟩, -- PCIE_OUTWIN word 2
  ⟨0xC, 16, 8, [0x0], 0xFFFFFFFF, 0x0, 0x0, 0x0, 0x0, 0x0, 0x0⟩ -- PCIE_OUTWIN word 3
  ]

/-- The registers of a page of kind `pc1`. -/
def rowsOf_pc1 : List RegRow := rows_pc10

def rows_pc20 : List RegRow := [
  ⟨0x0, 16, 4, [0x0], 0xFFFF0000, 0x0, 0x0, 0x0, 0x0, 0x0, 0x0⟩, -- PCIE_INWIN word 0
  ⟨0x4, 16, 4, [0x0], 0xFFFFFFFF, 0x0, 0x0, 0x0, 0x0, 0x0, 0x0⟩, -- PCIE_INWIN word 1
  ⟨0x8, 16, 4, [0x0], 0x83FFFFFF, 0x0, 0x0, 0x0, 0x0, 0x0, 0x0⟩, -- PCIE_INWIN word 2
  ⟨0x40, 0, 1, [0x0], 0xFFFFFFFF, 0x0, 0x0, 0x0, 0x0, 0x0, 0x0⟩, -- PCIE_MSI_LO
  ⟨0x44, 0, 1, [0x0], 0xFFFFFFFF, 0x0, 0x0, 0x0, 0x0, 0x0, 0x0⟩, -- PCIE_MSI_HI
  ⟨0x100, 4, 64, [0x0], 0x800003FF, 0x0, 0x0, 0x0, 0x0, 0x0, 0x0⟩ -- PCIE_MSIX_MAP
  ]

/-- The registers of a page of kind `pc2`. -/
def rowsOf_pc2 : List RegRow := rows_pc20

def rows_pc30 : List RegRow := [
  ⟨0x2000, 0, 1, [0x0], 0xFFFFFFC, 0x0, 0x0, 0x0, 0x0, 0x0, 0x0⟩, -- PCIE_CFG_ADDR
  ⟨0x2004, 0, 1, [0x0], 0xFFFFFFFF, 0x0, 0x0, 0x0, 0x0, 0x0, 0x0⟩, -- PCIE_CFG_DATA
  ⟨0x2008, 0, 1, [0x0], 0x0, 0x0, 0x0, 0x0, 0x0, 0x0, 0x7⟩ -- PCIE_CFG_STAT
  ]

/-- The registers of a page of kind `pc3`. -/
def rowsOf_pc3 : List RegRow := rows_pc30

def rows_dsp0 : List RegRow := [
  ⟨0x80, 0, 1, [0x0], 0x0, 0x0, 0x0, 0x0, 0xFFFFFF, 0x0, 0x0⟩, -- DSP_THR_BASE
  ⟨0x84, 0, 1, [0x0], 0x0, 0x0, 0x0, 0x0, 0xFFFFFF, 0x0, 0x0⟩, -- DSP_TRAIL_BASE
  ⟨0x88, 0, 1, [0x303210], 0x0, 0x0, 0x0, 0x0, 0x7FFF1F, 0x0, 0x0⟩, -- DSP_CFG
  ⟨0x8C, 0, 1, [0x0], 0x3F, 0x0, 0x0, 0x0, 0x0, 0x0, 0x13F3F00⟩, -- DSP_FLOOR
  ⟨0x90, 0, 1, [0x0], 0x0, 0xFFFFFFFF, 0x0, 0x0, 0x0, 0x0, 0x0⟩, -- DSP_POST
  ⟨0x94, 0, 1, [0x0], 0x0, 0x0, 0x0, 0x0, 0x0, 0x0, 0xFFFFFFFF⟩, -- DSP_POST_REJ
  ⟨0x98, 0, 1, [0x0], 0x0, 0x0, 0x0, 0x0, 0x0, 0x0, 0x7F1FFF⟩, -- DSP_READY
  ⟨0x9C, 0, 1, [0x0], 0x0, 0x0, 0x0, 0x0, 0x0, 0x0, 0x1FFFF⟩, -- DSP_TRAIL_CNT
  ⟨0xA0, 0, 1, [0x0], 0x0, 0x0, 0x0, 0x0, 0x0, 0x0, 0xFFFFFF⟩, -- DSP_NUDGE
  ⟨0x100, 0, 1, [0x0], 0x0, 0x0, 0x0, 0x0, 0x0, 0x0, 0xFFFFFFFF⟩, -- DSP_CNT_POST
  ⟨0x104, 0, 1, [0x0], 0x0, 0x0, 0x0, 0x0, 0x0, 0x0, 0xFFFFFFFF⟩, -- DSP_CNT_COALESCE
  ⟨0x108, 0, 1, [0x0], 0x0, 0x0, 0x0, 0x0, 0x0, 0x0, 0xFFFFFFFF⟩, -- DSP_CNT_REFUSED
  ⟨0x10C, 0, 1, [0x0], 0x0, 0x0, 0x0, 0x0, 0x0, 0x0, 0xFFFFFFFF⟩, -- DSP_CNT_DISPATCH
  ⟨0x110, 0, 1, [0x0], 0x0, 0x0, 0x0, 0x0, 0x0, 0x0, 0xFFFFFFFF⟩, -- DSP_CNT_EMPTY
  ⟨0x114, 0, 1, [0x0], 0x0, 0x0, 0x0, 0x0, 0x0, 0x0, 0xFFFFFFFF⟩, -- DSP_CNT_FLOOR_HELD
  ⟨0x118, 0, 1, [0x0], 0x0, 0x0, 0x0, 0x0, 0x0, 0x0, 0xFFFFFFFF⟩, -- DSP_CNT_SPILL
  ⟨0x11C, 0, 1, [0x0], 0x0, 0x0, 0x0, 0x0, 0x0, 0x0, 0xFFFFFFFF⟩, -- DSP_CNT_NUDGE
  ⟨0x120, 0, 1, [0x0], 0x0, 0x0, 0x0, 0x0, 0x0, 0x0, 0xFFFFFFFF⟩, -- DSP_CNT_CANCEL
  ⟨0x1000, 64, 8, [0x0], 0x0, 0x0, 0x0, 0x0, 0x0, 0x0, 0x803FFFFF⟩, -- DSP_ASK
  ⟨0x1004, 64, 8, [0x0], 0x0, 0x0, 0x0, 0x0, 0x0, 0x0, 0x803FFFFF⟩, -- DSP_YIELD
  ⟨0x1008, 64, 8, [0x0], 0x0, 0x0, 0x0, 0x0, 0x0, 0x0, 0x803FFFFF⟩, -- DSP_CUR
  ⟨0x100C, 64, 8, [0x0], 0x1, 0x0, 0x0, 0x0, 0x0, 0x0, 0x0⟩ -- DSP_CORE_CTL
  ]

/-- The registers of a page of kind `dsp`. -/
def rowsOf_dsp : List RegRow := rows_dsp0

def rows_srm0 : List RegRow := [
  ⟨0x80, 0, 1, [0x8], 0x0, 0x0, 0x0, 0x0, 0xF, 0x0, 0x0⟩, -- SRM_MAP
  ⟨0x84, 0, 1, [0x0], 0xFFFF, 0x0, 0x0, 0x0, 0x0, 0x0, 0x0⟩, -- SRM_THERMOS
  ⟨0x88, 0, 1, [0xFF00], 0xFFFFFFFF, 0x0, 0x0, 0x0, 0x0, 0x0, 0x0⟩, -- SRM_THERMOS_CFG
  ⟨0x8C, 0, 1, [0x0], 0x0, 0x0, 0x0, 0x0, 0x0, 0x0, 0xFFFFFF⟩, -- SRM_GROUP_STAT
  ⟨0x90, 0, 1, [0xE100001], 0xFFFF0001, 0x0, 0x0, 0x0, 0x0, 0x0, 0x0⟩, -- SRM_SCRUB
  ⟨0x94, 0, 1, [0x0], 0x0, 0x0, 0x0, 0x0, 0x0, 0x0, 0x3FFFFFF⟩, -- SRM_ECC_ADDR
  ⟨0x98, 0, 1, [0x0], 0x0, 0x0, 0x0, 0x0, 0x0, 0x0, 0xFFFF000F⟩, -- SRM_HAMPER
  ⟨0x9C, 0, 1, [0x0], 0x0, 0x0, 0x0, 0x1, 0x0, 0x0, 0x0⟩, -- SRM_HAMPER_WIPE
  ⟨0x100, 0, 1, [0x0], 0x0, 0x0, 0x0, 0x0, 0x0, 0x0, 0xFFFFFFFF⟩, -- SRM_CNT_CORR
  ⟨0x104, 0, 1, [0x0], 0x0, 0x0, 0x0, 0x0, 0x0, 0x0, 0xFFFFFFFF⟩, -- SRM_CNT_UNCORR
  ⟨0x108, 0, 1, [0x0], 0x0, 0x0, 0x0, 0x0, 0x0, 0x0, 0xFFFFFFFF⟩, -- SRM_CNT_WAKE
  ⟨0x10C, 0, 1, [0x0], 0x0, 0x0, 0x0, 0x0, 0x0, 0x0, 0xFFFFFFFF⟩, -- SRM_CNT_REFUSED
  ⟨0x110, 0, 1, [0x0], 0x0, 0x0, 0x0, 0x0, 0x0, 0x0, 0xFFFFFFFF⟩ -- SRM_CNT_WIPE
  ]

/-- The registers of a page of kind `srm`. -/
def rowsOf_srm : List RegRow := rows_srm0

def rows_drc0 : List RegRow := [
  ⟨0x80, 0, 1, [0x336], 0x0, 0x0, 0x0, 0x0, 0x377, 0x0, 0x0⟩, -- DRM_GEOM
  ⟨0x84, 0, 1, [0x4000], 0x0, 0x0, 0x0, 0x0, 0x0, 0x0, 0xFFFF⟩, -- DRM_SIZE
  ⟨0x88, 0, 1, [0x0], 0x0, 0x0, 0x0, 0x0, 0xFFFF, 0x0, 0x0⟩, -- DRM_TIMING_ADJ
  ⟨0x8C, 0, 1, [0x100011], 0x0, 0x0, 0x0, 0x0, 0xFF001F, 0x0, 0x0⟩, -- DRM_REFRESH
  ⟨0x90, 0, 1, [0xFFFF], 0x1FFFF, 0x0, 0x0, 0x0, 0x0, 0x0, 0x0⟩, -- DRM_PASR
  ⟨0x94, 0, 1, [0x0], 0x0, 0x0, 0xFFFF, 0x0, 0x0, 0x0, 0x0⟩, -- DRM_PASR_STAT
  ⟨0x98, 0, 1, [0x400200], 0xFFFFFFFF, 0x0, 0x0, 0x0, 0x0, 0x0, 0x0⟩, -- DRM_SR
  ⟨0x9C, 0, 1, [0x0], 0x3F3F, 0x0, 0x0, 0x80000000, 0x0, 0x0, 0x0⟩, -- DRM_TRAIN_CMD
  ⟨0xA0, 0, 1, [0x0], 0x0, 0x0, 0x0, 0x0, 0x0, 0x0, 0xFFFFF3⟩, -- DRM_TRAIN_STAT
  ⟨0xA4, 0, 1, [0x0], 0xFFFFFFC0, 0x0, 0x0, 0x0, 0x0, 0x0, 0x0⟩, -- DRM_TRAIN_BUF
  ⟨0xA8, 0, 1, [0x0], 0x0, 0x0, 0x0, 0x0, 0x0, 0x0, 0xFFFFFFFF⟩, -- DRM_ERR_LO
  ⟨0xAC, 0, 1, [0x0], 0x0, 0x0, 0x0, 0x0, 0x0, 0x0, 0x800001FF⟩, -- DRM_ERR_HI
  ⟨0xC0, 8, 8, [0x1012C, 0x101F4, 0x10190, 0x100FA, 0x1012C, 0x103E8, 0x103E8, 0x107D0], 0x1FFFF, 0x0, 0x0, 0x0, 0x0, 0x0, 0x0⟩, -- DRM_PORT word 0
  ⟨0xC4, 8, 8, [0x0], 0x0, 0x0, 0x0, 0x0, 0x0, 0x0, 0xFFFFFFFF⟩, -- DRM_PORT word 1
  ⟨0x100, 0, 1, [0x0], 0x0, 0x0, 0x0, 0x0, 0x0, 0x0, 0xFFFFFFFF⟩, -- DRM_CNT_RD
  ⟨0x104, 0, 1, [0x0], 0x0, 0x0, 0x0, 0x0, 0x0, 0x0, 0xFFFFFFFF⟩, -- DRM_CNT_WR
  ⟨0x108, 0, 1, [0x0], 0x0, 0x0, 0x0, 0x0, 0x0, 0x0, 0xFFFFFFFF⟩, -- DRM_CNT_CORR
  ⟨0x10C, 0, 1, [0x0], 0x0, 0x0, 0x0, 0x0, 0x0, 0x0, 0xFFFFFFFF⟩, -- DRM_CNT_UNCORR
  ⟨0x110, 0, 1, [0x0], 0x0, 0x0, 0x0, 0x0, 0x0, 0x0, 0xFFFFFFFF⟩, -- DRM_CNT_OVERDUE
  ⟨0x114, 0, 1, [0x0], 0x0, 0x0, 0x0, 0x0, 0x0, 0x0, 0xFFFFFFFF⟩, -- DRM_CNT_SR_EXIT
  ⟨0x118, 0, 1, [0x0], 0x0, 0x0, 0x0, 0x0, 0x0, 0x0, 0xFFFFFFFF⟩, -- DRM_CNT_REF_POSTPONE
  ⟨0x11C, 0, 1, [0x0], 0x0, 0x0, 0x0, 0x0, 0x0, 0x0, 0xFFFFFFFF⟩, -- DRM_CNT_DECODE
  ⟨0x120, 0, 1, [0x0], 0x0, 0x0, 0x0, 0x0, 0x0, 0x0, 0xFFFFFFFF⟩ -- DRM_CNT_RETRAIN
  ]

/-- The registers of a page of kind `drc`. -/
def rowsOf_drc : List RegRow := rows_drc0

def rows_phy0 : List RegRow := [
  ⟨0x80, 0, 1, [0x3446], 0x0, 0x0, 0x0, 0x0, 0x7777, 0x0, 0x0⟩, -- DRM_PHY_DRV
  ⟨0x84, 0, 1, [0x0], 0x0, 0x0, 0x0, 0x0, 0x0, 0x0, 0x1FF⟩ -- DRM_PHY_STAT
  ]

/-- The registers of a page of kind `phy`. -/
def rowsOf_phy : List RegRow := rows_phy0

def rows_sec0 : List RegRow := [
  ⟨0x80, 0, 1, [0x0], 0x0, 0x0, 0x0, 0x0, 0x0, 0x0, 0x7F0F7F⟩, -- SEC_STATUS
  ⟨0x84, 0, 1, [0x0], 0xFF, 0x0, 0x0, 0x80000000, 0x0, 0x0, 0x0⟩, -- SEC_CMD
  ⟨0x88, 0, 1, [0x0], 0x3FFFFFFF, 0x0, 0x0, 0x0, 0x0, 0x0, 0x0⟩, -- SEC_CMD_ADDR
  ⟨0x8C, 0, 1, [0x0], 0x0, 0x0, 0x0, 0x0, 0x0, 0x0, 0xFFFF01⟩, -- SEC_CMD_STAT
  ⟨0x90, 0, 1, [0x0], 0x0, 0x0, 0x0, 0x0, 0x3FFFFFFF, 0x0, 0x0⟩, -- SEC_JOB_BASE
  ⟨0x94, 0, 1, [0x8], 0x0, 0x0, 0x0, 0x0, 0xF, 0x0, 0x0⟩, -- SEC_JOB_CFG
  ⟨0x98, 0, 1, [0x0], 0xFFFF, 0x0, 0x0, 0x0, 0x0, 0x0, 0x0⟩, -- SEC_JOB_SW
  ⟨0x9C, 0, 1, [0x0], 0x0, 0x0, 0x0, 0x0, 0x0, 0x0, 0xFFFF⟩, -- SEC_JOB_HW
  ⟨0xA0, 0, 1, [0xAA0], 0x0, 0x0, 0x0, 0x0, 0x0, 0xFFFF, 0x0⟩, -- SEC_TAMPER_CFG
  ⟨0xA4, 0, 1, [0x0], 0x0, 0x0, 0x3F, 0x0, 0x0, 0x0, 0x0⟩, -- SEC_TAMPER_LATCH
  ⟨0xA8, 0, 1, [0x4], 0xFF, 0x0, 0x0, 0x0, 0x0, 0x0, 0x0⟩, -- SEC_FCHK
  ⟨0xAC, 0, 1, [0x0], 0x0, 0x0, 0x0, 0x0, 0x0, 0x7, 0x0⟩, -- SEC_ACCESS
  ⟨0xB0, 0, 1, [0x0], 0x73, 0x0, 0x0, 0x80000000, 0x0, 0x0, 0x0⟩, -- SEC_DBG
  ⟨0xB4, 0, 1, [0x0], 0x0, 0x0, 0x0, 0x0, 0x0, 0x0, 0x3FF⟩, -- SEC_DBG_STAT
  ⟨0xC0, 4, 4, [0x0], 0x0, 0x0, 0x0, 0x0, 0x0, 0x0, 0xFFFFFFFF⟩, -- SEC_DBG_NONCE
  ⟨0x1000, 4, 64, [0x0], 0x0, 0x0, 0x0, 0x0, 0x0, 0x0, 0x1FF⟩, -- SEC_KEYENT
  ⟨0x1400, 4, 256, [0x0], 0x0, 0x0, 0x0, 0x0, 0x0, 0x0, 0x7F⟩, -- SEC_CTXENT
  ⟨0x100, 0, 1, [0x0], 0x0, 0x0, 0x0, 0x0, 0x0, 0x0, 0xFFFFFFFF⟩, -- SEC_CNT_CMD
  ⟨0x104, 0, 1, [0x0], 0x0, 0x0, 0x0, 0x0, 0x0, 0x0, 0xFFFFFFFF⟩, -- SEC_CNT_JOB
  ⟨0x108, 0, 1, [0x0], 0x0, 0x0, 0x0, 0x0, 0x0, 0x0, 0xFFFFFFFF⟩, -- SEC_CNT_FCHK
  ⟨0x10C, 0, 1, [0x0], 0x0, 0x0, 0x0, 0x0, 0x0, 0x0, 0xFFFFFFFF⟩, -- SEC_CNT_AUTHFAIL
  ⟨0x110, 0, 1, [0x0], 0x0, 0x0, 0x0, 0x0, 0x0, 0x0, 0xFFFFFFFF⟩, -- SEC_CNT_TAMPER
  ⟨0x114, 0, 1, [0x0], 0x0, 0x0, 0x0, 0x0, 0x0, 0x0, 0xFFFFFFFF⟩, -- SEC_CNT_TOKEN_BAD
  ⟨0x200, 4, 56, [0x0], 0x0, 0xFFFFFFFF, 0x0, 0x0, 0x0, 0x0, 0x0⟩ -- SEC_DBG_TOKEN
  ]

/-- The registers of a page of kind `sec`. -/
def rowsOf_sec : List RegRow := rows_sec0

def rows_pwr0 : List RegRow := [
  ⟨0x80, 0, 1, [0x2], 0x7, 0x0, 0x0, 0x0, 0x0, 0x0, 0x0⟩, -- PWR_MODE
  ⟨0x84, 0, 1, [0x0], 0xF, 0x0, 0x0, 0x80000000, 0x0, 0x0, 0x0⟩, -- PWR_SLEEP
  ⟨0x88, 0, 1, [0x0], 0x0, 0x0, 0x0, 0x0, 0x0, 0x0, 0xFF071F⟩, -- PWR_STATE
  ⟨0x8C, 0, 1, [0x0], 0xFFFF, 0x0, 0x0, 0x0, 0x0, 0x0, 0x0⟩, -- PWR_WAKE_EN
  ⟨0x90, 0, 1, [0x0], 0x0, 0x0, 0x0, 0x0, 0x0, 0x0, 0xFFFFFF⟩, -- PWR_WAKE_REC0
  ⟨0x94, 0, 1, [0x0], 0x0, 0x0, 0x0, 0x0, 0x0, 0x0, 0xFFFFFFFF⟩, -- PWR_WAKE_REC1
  ⟨0x98, 0, 1, [0x0], 0x0, 0x0, 0x0, 0x0, 0x0, 0x0, 0xFFFFFFFF⟩, -- PWR_WAKE_REC2
  ⟨0xA0, 0, 1, [0x0], 0xFFF, 0x0, 0x0, 0x0, 0x0, 0x0, 0x0⟩, -- PWR_PL_REQ
  ⟨0xA8, 0, 1, [0x0], 0x1FF, 0x0, 0x0, 0x0, 0x0, 0x0, 0x0⟩, -- PWR_PL_CAP
  ⟨0xA4, 0, 1, [0x0], 0x0, 0x0, 0x0, 0x0, 0x0, 0x0, 0xFFFFF⟩, -- PWR_PL_STAT
  ⟨0xAC, 0, 1, [0x0], 0x0, 0x0, 0x0, 0x0, 0x0, 0x0, 0xFFFFFFFF⟩, -- PWR_AVS_TRIM
  ⟨0xB0, 0, 1, [0x0], 0x0, 0x0, 0x0, 0x0, 0x0, 0x0, 0x1FFFF07⟩, -- PWR_CLASS
  ⟨0xB4, 0, 1, [0x0], 0x8001FFFF, 0x0, 0x0, 0x0, 0x0, 0x0, 0x0⟩, -- PWR_LLDP
  ⟨0xB8, 0, 1, [0x0], 0x8001FFFF, 0x0, 0x0, 0x0, 0x0, 0x0, 0x0⟩, -- PWR_AUX
  ⟨0xBC, 0, 1, [0x0], 0x0, 0x0, 0x0, 0x0, 0x0, 0x0, 0x3FFFF⟩, -- PWR_BUDGET
  ⟨0xC0, 0, 1, [0x8401901E], 0x8FFFFFFF, 0x0, 0x0, 0x0, 0x0, 0x0, 0x0⟩, -- PWR_GOV_CFG
  ⟨0xC4, 0, 1, [0x3E83E80], 0xFFFFFFFF, 0x0, 0x0, 0x0, 0x0, 0x0, 0x0⟩, -- PWR_BANK_CFG0
  ⟨0xC8, 0, 1, [0xFA000C8], 0xFFFFFFFF, 0x0, 0x0, 0x0, 0x0, 0x0, 0x0⟩, -- PWR_BANK_CFG1
  ⟨0xCC, 0, 1, [0x404080], 0xFFFFFF, 0x0, 0x0, 0x0, 0x0, 0x0, 0x0⟩, -- PWR_SHARE
  ⟨0xD0, 0, 1, [0x0], 0xFFFF, 0x0, 0x0, 0x0, 0x0, 0x0, 0x0⟩, -- PWR_SAFE_FLOOR
  ⟨0xD4, 0, 1, [0x0], 0x0, 0x0, 0x0, 0x0, 0x0, 0x0, 0xFFFFFFFF⟩, -- PWR_BASE
  ⟨0xD8, 0, 1, [0x0], 0x0, 0x0, 0x0, 0x0, 0x0, 0x0, 0xFFFFFFFF⟩, -- PWR_BANK
  ⟨0xDC, 0, 1, [0x0], 0x0, 0x0, 0x0, 0x0, 0x0, 0x0, 0xFFFFFFFF⟩, -- PWR_MEAS
  ⟨0xE0, 4, 3, [0x0], 0x0, 0x0, 0x0, 0x0, 0x0, 0x0, 0xFFFFFFFF⟩ -- PWR_FLOOR
  ]

def rows_pwr1 : List RegRow := [
  ⟨0xEC, 0, 1, [0x310084], 0x0, 0x0, 0x0, 0x0, 0xFFFFFFFF, 0x0, 0x0⟩, -- PWR_SENSE
  ⟨0xF0, 0, 1, [0x6C675F], 0xFFFFFF, 0x0, 0x0, 0x0, 0x0, 0x0, 0x0⟩, -- PWR_THERM
  ⟨0xF4, 0, 1, [0x0], 0x0, 0x0, 0x0, 0x0, 0x0, 0x0, 0x1FFF⟩, -- PWR_TEMP
  ⟨0xF8, 0, 1, [0x0], 0x0, 0x0, 0x0, 0x0, 0x0, 0x0, 0xFFFF⟩, -- PWR_CHIP
  ⟨0xFC, 0, 1, [0xD4818], 0xFFFF3F, 0x0, 0x0, 0x0, 0x0, 0x0, 0xF0000000⟩, -- PWR_THROT
  ⟨0x140, 0, 1, [0x0], 0x0, 0x0, 0x0, 0x0, 0xFFFFFF80, 0x0, 0x0⟩, -- PWR_CAL_BASE
  ⟨0x144, 0, 1, [0x8], 0x1F, 0x0, 0x0, 0x0, 0x0, 0x0, 0x0⟩, -- PWR_CAL_CFG
  ⟨0x148, 0, 1, [0x0], 0x0, 0x0, 0x0, 0x0, 0x0, 0x0, 0xFFFF⟩, -- PWR_CAL_WR
  ⟨0x14C, 0, 1, [0x0], 0x0, 0x0, 0x0, 0x1, 0x0, 0x0, 0x0⟩, -- PWR_HOST_WAKE
  ⟨0x200, 8, 5, [0x0], 0x0, 0x0, 0x0, 0x0, 0x801FFF7F, 0x0, 0x0⟩, -- PWR_RAIL word 0
  ⟨0x204, 8, 5, [0x28], 0x0, 0x0, 0x0, 0x0, 0xFFFF, 0x0, 0x0⟩, -- PWR_RAIL word 1
  ⟨0x400, 4, 8, [0x0], 0xFFFFFFFF, 0x0, 0x0, 0x0, 0x0, 0x0, 0x0⟩, -- PWR_BLK_RST
  ⟨0x420, 0, 1, [0x7], 0x7, 0x0, 0x0, 0x0, 0x0, 0x0, 0x0⟩, -- PWR_DOM
  ⟨0x424, 0, 1, [0x7], 0x0, 0x0, 0x0, 0x0, 0x0, 0x0, 0x7⟩, -- PWR_DOM_STAT
  ⟨0x100, 0, 1, [0x0], 0x0, 0x0, 0x0, 0x0, 0x0, 0x0, 0xFFFFFFFF⟩, -- PWR_CNT_SLEEP
  ⟨0x104, 0, 1, [0x0], 0x0, 0x0, 0x0, 0x0, 0x0, 0x0, 0xFFFFFFFF⟩, -- PWR_CNT_WAKE_RACE
  ⟨0x108, 0, 1, [0x0], 0x0, 0x0, 0x0, 0x0, 0x0, 0x0, 0xFFFFFFFF⟩, -- PWR_CNT_EMERG
  ⟨0x10C, 0, 1, [0x0], 0x0, 0x0, 0x0, 0x0, 0x0, 0x0, 0xFFFFFFFF⟩, -- PWR_CNT_THROT
  ⟨0x110, 0, 1, [0x0], 0x0, 0x0, 0x0, 0x0, 0x0, 0x0, 0xFFFFFFFF⟩, -- PWR_CNT_PMB_ERR
  ⟨0x114, 0, 1, [0x0], 0x0, 0x0, 0x0, 0x0, 0x0, 0x0, 0xFFFFFFFF⟩ -- PWR_CNT_ALLOW_LATE
  ]

/-- The registers of a page of kind `pwr`. -/
def rowsOf_pwr : List RegRow := rows_pwr0 ++ rows_pwr1

def rows_rtc0 : List RegRow := [
  ⟨0x80, 0, 1, [0x0], 0x0, 0x0, 0x0, 0x0, 0x0, 0x0, 0xFFFFFFFF⟩, -- RTC_CNT_LO
  ⟨0x84, 0, 1, [0x0], 0x0, 0x0, 0x0, 0x0, 0x0, 0x0, 0xFFFFFFFF⟩, -- RTC_CNT_HI
  ⟨0x88, 0, 1, [0x0], 0x0, 0x0, 0x0, 0x0, 0x0, 0x0, 0xFFFFFFFF⟩, -- RTC_CNT_FRAC
  ⟨0x8C, 0, 1, [0x0], 0xFFFFFFFF, 0x0, 0x0, 0x0, 0x0, 0x0, 0x0⟩, -- RTC_SET_LO
  ⟨0x90, 0, 1, [0x0], 0xFFFFFFFF, 0x0, 0x0, 0x0, 0x0, 0x0, 0x0⟩, -- RTC_SET_HI
  ⟨0x94, 0, 1, [0x0], 0xFFFFFFFF, 0x0, 0x0, 0x0, 0x0, 0x0, 0x0⟩, -- RTC_SET_FRAC
  ⟨0x98, 0, 1, [0x0], 0x3, 0x0, 0x0, 0xC0000000, 0x0, 0x0, 0x3C⟩, -- RTC_SET_CMD
  ⟨0x9C, 0, 1, [0x0], 0xFFFFFFFF, 0x0, 0x0, 0x0, 0x0, 0x0, 0x0⟩, -- RTC_TRIM
  ⟨0xA0, 0, 1, [0x20080], 0x0, 0x0, 0x0, 0x0, 0xFFFFF, 0x0, 0x0⟩, -- RTC_TRIM_CFG
  ⟨0xA4, 0, 1, [0x0], 0x0, 0x0, 0x0, 0x0, 0x0, 0x0, 0xFFFFFFFF⟩, -- RTC_TRIM_MEAS
  ⟨0xA8, 0, 1, [0x0], 0x0, 0x0, 0x5, 0x0, 0x0, 0x0, 0x1A⟩, -- RTC_STAT
  ⟨0xAC, 0, 1, [0x0], 0x0, 0x0, 0x0, 0x0, 0x0, 0x0, 0x7⟩, -- RTC_DERIVE
  ⟨0xB0, 0, 1, [0x0], 0x0, 0x0, 0x0, 0x0, 0x0, 0x0, 0xFFFFFFFF⟩, -- RTC_DERIVE_TICKS
  ⟨0x100, 16, 4, [0x0], 0xFFFFFFFF, 0x0, 0x0, 0x0, 0x0, 0x0, 0x0⟩, -- RTC_ALARM word 0
  ⟨0x104, 16, 4, [0x0], 0xFFFFFFFF, 0x0, 0x0, 0x0, 0x0, 0x0, 0x0⟩, -- RTC_ALARM word 1
  ⟨0x108, 16, 4, [0x0], 0xFFFFFFFF, 0x0, 0x0, 0x0, 0x0, 0x0, 0x0⟩, -- RTC_ALARM word 2
  ⟨0x10C, 16, 4, [0x0], 0x3, 0x0, 0x18, 0x0, 0x0, 0x0, 0xFFFF0004⟩ -- RTC_ALARM word 3
  ]

/-- The registers of a page of kind `rtc`. -/
def rowsOf_rtc : List RegRow := rows_rtc0

def rows_age0 : List RegRow := [
  ⟨0x80, 0, 1, [0xB4E1006], 0x0, 0x0, 0x0, 0x0, 0xFFFFFFFF, 0x0, 0x0⟩, -- AGE_CFG
  ⟨0x84, 0, 1, [0x0], 0x0, 0x0, 0x0, 0x0, 0xFFFFFFFF, 0x0, 0x0⟩, -- AGE_HOURS
  ⟨0x94, 0, 1, [0x0], 0x0, 0x0, 0x0, 0x0, 0xFFF, 0x0, 0x0⟩, -- AGE_SECS
  ⟨0x88, 0, 1, [0x5F00EF88], 0x0, 0x0, 0x0, 0x0, 0x0, 0x0, 0xFFFFFFFF⟩, -- AGE_PROFILE
  ⟨0x8C, 0, 1, [0x0], 0x0, 0x0, 0x0, 0x0, 0xFFFFFF, 0x0, 0x0⟩, -- AGE_PA_CFG0
  ⟨0x90, 0, 1, [0x645018], 0x0, 0x0, 0x0, 0x0, 0xFFFFFFFF, 0x0, 0x0⟩, -- AGE_PA_CFG1
  ⟨0x100, 16, 4, [0x0], 0x0, 0x0, 0x0, 0x0, 0xFFFFFFFF, 0x0, 0x0⟩, -- AGE_DOM word 0
  ⟨0x104, 16, 4, [0x0], 0x0, 0x0, 0x0, 0x0, 0xFFFF, 0x0, 0xFFFF0000⟩, -- AGE_DOM word 1
  ⟨0x108, 16, 4, [0x0], 0x0, 0x0, 0x20000, 0x0, 0x0, 0x0, 0x1FFFF⟩, -- AGE_DOM word 2
  ⟨0x400, 16, 24, [0x0], 0x0, 0x0, 0x0, 0x0, 0xFFFFFFFF, 0x0, 0x0⟩, -- AGE_PA word 0
  ⟨0x404, 16, 24, [0x0], 0x0, 0x0, 0x0, 0x0, 0x1FFFF, 0x0, 0x0⟩, -- AGE_PA word 1
  ⟨0x408, 16, 24, [0x0], 0x0, 0x0, 0x0, 0x0, 0xFFFF0000, 0x0, 0xFFFF⟩, -- AGE_PA word 2
  ⟨0x40C, 16, 24, [0x0], 0x0, 0x0, 0x20000, 0x0, 0xFFFC0000, 0x0, 0x1FFFF⟩ -- AGE_PA word 3
  ]

/-- The registers of a page of kind `age`. -/
def rowsOf_age : List RegRow := rows_age0

def rows_twn0 : List RegRow := [
  ⟨0x80, 0, 1, [0xA0006], 0x0, 0x0, 0x0, 0x0, 0xFFFF07, 0x0, 0x0⟩, -- TWN_CFG
  ⟨0x84, 0, 1, [0x40FA010], 0x0, 0x0, 0x0, 0x0, 0xFFFFFFFF, 0x0, 0x0⟩, -- TWN_TIMING
  ⟨0x88, 0, 1, [0xE], 0x0, 0x0, 0x0, 0x0, 0x1F, 0x0, 0x0⟩, -- TWN_MARK_CFG
  ⟨0x8C, 0, 1, [0x0], 0x0, 0x0, 0x0, 0x0, 0x0, 0x0, 0x7FFFF⟩, -- TWN_ROLE
  ⟨0x90, 0, 1, [0x0], 0x0, 0x0, 0x0, 0x7, 0x0, 0x0, 0x0⟩, -- TWN_CMD
  ⟨0x94, 0, 1, [0x0], 0x0, 0x0, 0x0, 0x0, 0x0, 0x0, 0xFFFFFFFF⟩, -- TWN_PARTNER_LO
  ⟨0x98, 0, 1, [0x0], 0x0, 0x0, 0x0, 0x0, 0x0, 0x0, 0xFFFFFFFF⟩, -- TWN_PARTNER_HI
  ⟨0x9C, 4, 2, [0x200000], 0x0, 0x0, 0x0, 0x0, 0x3FFFFC, 0x0, 0x0⟩, -- TWN_LANE
  ⟨0xA4, 0, 1, [0x0], 0x0, 0x0, 0x0, 0x0, 0xFFFFFF, 0x0, 0x0⟩, -- TWN_TXQ_BASE
  ⟨0xA8, 0, 1, [0x0], 0x0, 0x0, 0x0, 0x0, 0xFFFFFF, 0x0, 0x0⟩, -- TWN_RXQ_BASE
  ⟨0xAC, 0, 1, [0x606], 0x0, 0x0, 0x0, 0x0, 0xF0F, 0x0, 0x0⟩, -- TWN_RING_CFG
  ⟨0xB0, 0, 1, [0x0], 0xFFFF, 0x0, 0x0, 0x0, 0x0, 0x0, 0x0⟩, -- TWN_TXQ_WR
  ⟨0xB4, 0, 1, [0x0], 0x0, 0x0, 0x0, 0x0, 0x0, 0x0, 0xFFFF⟩, -- TWN_TXQ_RD
  ⟨0xB8, 0, 1, [0x0], 0x0, 0x0, 0x0, 0x0, 0x0, 0x0, 0xFFFF⟩, -- TWN_RXQ_WR
  ⟨0xBC, 0, 1, [0x0], 0xFFFF, 0x0, 0x0, 0x0, 0x0, 0x0, 0x0⟩, -- TWN_RXQ_RD
  ⟨0x100, 0, 1, [0x0], 0x0, 0x0, 0x0, 0x0, 0x0, 0x0, 0xFFFFFFFF⟩, -- TWN_CNT_HB_TX
  ⟨0x104, 0, 1, [0x0], 0x0, 0x0, 0x0, 0x0, 0x0, 0x0, 0xFFFFFFFF⟩, -- TWN_CNT_HB_RX
  ⟨0x108, 0, 1, [0x0], 0x0, 0x0, 0x0, 0x0, 0x0, 0x0, 0xFFFFFFFF⟩, -- TWN_CNT_MISS
  ⟨0x10C, 0, 1, [0x0], 0x0, 0x0, 0x0, 0x0, 0x0, 0x0, 0xFFFFFFFF⟩, -- TWN_CNT_CRC
  ⟨0x110, 0, 1, [0x0], 0x0, 0x0, 0x0, 0x0, 0x0, 0x0, 0xFFFFFFFF⟩, -- TWN_CNT_BADFRM
  ⟨0x114, 0, 1, [0x0], 0x0, 0x0, 0x0, 0x0, 0x0, 0x0, 0xFFFFFFFF⟩, -- TWN_CNT_AUTH
  ⟨0x118, 0, 1, [0x0], 0x0, 0x0, 0x0, 0x0, 0x0, 0x0, 0xFFFFFFFF⟩, -- TWN_CNT_STALE
  ⟨0x11C, 0, 1, [0x0], 0x0, 0x0, 0x0, 0x0, 0x0, 0x0, 0xFFFFFFFF⟩, -- TWN_CNT_RETX
  ⟨0x120, 0, 1, [0x0], 0x0, 0x0, 0x0, 0x0, 0x0, 0x0, 0xFFFFFFFF⟩ -- TWN_CNT_MIR_APPLIED
  ]

def rows_twn1 : List RegRow := [
  ⟨0x124, 0, 1, [0x0], 0x0, 0x0, 0x0, 0x0, 0x0, 0x0, 0xFFFFFFFF⟩, -- TWN_CNT_MIR_ERR
  ⟨0x128, 0, 1, [0x0], 0x0, 0x0, 0x0, 0x0, 0x0, 0x0, 0xFFFFFFFF⟩, -- TWN_CNT_TAKEOVER
  ⟨0x12C, 0, 1, [0x0], 0x0, 0x0, 0x0, 0x0, 0x0, 0x0, 0xFFFFFFFF⟩ -- TWN_CNT_BADREQ
  ]

/-- The registers of a page of kind `twn`. -/
def rowsOf_twn : List RegRow := rows_twn0 ++ rows_twn1

def rows_pkr0 : List RegRow := [
  ⟨0x100, 0, 1, [0x0], 0x0, 0x0, 0x0, 0x0, 0x0, 0x0, 0xFFFFFFFF⟩, -- PKT_CNT_RX_FRAMES
  ⟨0x104, 0, 1, [0x0], 0x0, 0x0, 0x0, 0x0, 0x0, 0x0, 0xFFFFFFFF⟩, -- PKT_CNT_RX_EMPTY
  ⟨0x108, 0, 1, [0x0], 0x0, 0x0, 0x0, 0x0, 0x0, 0x0, 0xFFFFFFFF⟩, -- PKT_CNT_RX_EXH
  ⟨0x10C, 0, 1, [0x0], 0x0, 0x0, 0x0, 0x0, 0x0, 0x0, 0xFFFFFFFF⟩, -- PKT_CNT_TX_FRAMES
  ⟨0x110, 0, 1, [0x0], 0x0, 0x0, 0x0, 0x0, 0x0, 0x0, 0xFFFFFFFF⟩, -- PKT_CNT_TX_BADDESC
  ⟨0x114, 0, 1, [0x0], 0x0, 0x0, 0x0, 0x0, 0x0, 0x0, 0xFFFFFFFF⟩, -- PKT_CNT_CPL
  ⟨0x1000, 32, 256, [0x0], 0xFFFFFFE0, 0x0, 0x0, 0x0, 0x0, 0x0, 0x0⟩, -- PKT_RING_BASE_LO
  ⟨0x1004, 32, 256, [0x0], 0xF, 0x0, 0x0, 0x0, 0x0, 0x0, 0x0⟩, -- PKT_RING_BASE_HI
  ⟨0x1008, 32, 256, [0x0], 0xFFFB, 0x0, 0x0, 0x0, 0x0, 0x0, 0x0⟩, -- PKT_RING_CFG
  ⟨0x100C, 32, 256, [0x0], 0x1FFFF, 0x0, 0x0, 0x0, 0x0, 0x0, 0x0⟩, -- PKT_RING_SW
  ⟨0x1010, 32, 256, [0x0], 0x0, 0x0, 0x0, 0x0, 0x0, 0x0, 0x1FFFF⟩, -- PKT_RING_HW
  ⟨0x1014, 32, 256, [0x1], 0xFFFFFFFF, 0x0, 0x0, 0x0, 0x0, 0x0, 0x0⟩, -- PKT_RING_IRQ
  ⟨0x1018, 32, 256, [0x0], 0x0, 0x0, 0x1, 0x0, 0x0, 0x0, 0x2⟩, -- PKT_RING_STAT
  ⟨0x101C, 32, 256, [0x0], 0x0, 0x0, 0x0, 0x0, 0x0, 0x0, 0xFFFFFFFF⟩ -- PKT_RING_DROP
  ]

/-- The registers of a page of kind `pkr`. -/
def rowsOf_pkr : List RegRow := rows_pkr0

/-- The registers of a page kind, the common header apart. -/
def rowsOf : PageKind → List RegRow
  | .ptp => rowsOf_ptp
  | .hdr => rowsOf_hdr
  | .pin => rowsOf_pin
  | .chq => rowsOf_chq
  | .chs => rowsOf_chs
  | .chc => rowsOf_chc
  | .rxp => rowsOf_rxp
  | .txp => rowsOf_txp
  | .mac => rowsOf_mac
  | .mas => rowsOf_mas
  | .air => rowsOf_air
  | .ais => rowsOf_ais
  | .ven => rowsOf_ven
  | .tag => rowsOf_tag
  | .kcl => rowsOf_kcl
  | .kco => rowsOf_kco
  | .pkp => rowsOf_pkp
  | .pka => rowsOf_pka
  | .pkm => rowsOf_pkm
  | .eth => rowsOf_eth
  | .sds => rowsOf_sds
  | .pc0 => rowsOf_pc0
  | .pc1 => rowsOf_pc1
  | .pc2 => rowsOf_pc2
  | .pc3 => rowsOf_pc3
  | .dsp => rowsOf_dsp
  | .srm => rowsOf_srm
  | .drc => rowsOf_drc
  | .phy => rowsOf_phy
  | .sec => rowsOf_sec
  | .pwr => rowsOf_pwr
  | .rtc => rowsOf_rtc
  | .age => rowsOf_age
  | .twn => rowsOf_twn
  | .pkr => rowsOf_pkr

/-- The page table of R39, with the block code and instance of each page that carries the common header. -/
def pageKind (p : Nat) : Option PageKind :=
  if p = 0x000 then some .pin else if p = 0x001 then some .pwr else if p = 0x002 then some .rtc
  else if p = 0x003 then some .age else if p = 0x004 then some .sec else if p = 0x008 then some .ptp
  else if 0x010 ≤ p ∧ p ≤ 0x015 then some .chq else if p = 0x016 then some .chs else if p = 0x017 then some .chc
  else if 0x020 ≤ p ∧ p ≤ 0x023 then some .rxp else if 0x028 ≤ p ∧ p ≤ 0x02A then some .txp
  else if 0x030 ≤ p ∧ p ≤ 0x032 then some .mac else if p = 0x033 then some .mas
  else if 0x038 ≤ p ∧ p ≤ 0x03A then some .air else if p = 0x03B then some .ais
  else if p = 0x040 then some .ven else if p = 0x041 then some .tag else if p = 0x048 then some .kcl
  else if 0x050 ≤ p ∧ p ≤ 0x05F then some .kco else if p = 0x060 then some .pkp else if p = 0x061 then some .pka
  else if p = 0x062 then some .pkr else if p = 0x063 then some .pkm
  else if 0x068 ≤ p ∧ p ≤ 0x06C then some .eth else if p = 0x06D then some .sds
  else if p = 0x070 then some .dsp else if p = 0x078 then some .srm else if p = 0x079 then some .drc
  else if 0x07A ≤ p ∧ p ≤ 0x07D then some .phy else if p = 0x080 then some .twn
  else if p = 0x130 then some .pc0 else if p = 0x131 then some .pc1 else if p = 0x132 then some .pc2
  else if p = 0x133 then some .pc3 else none

/-- Block code of R39. -/
def blockCode : PageKind → Nat
  | .pin => 0x01 | .pwr => 0x02 | .rtc => 0x03 | .age => 0x04 | .sec => 0x05 | .ptp => 0x06
  | .chq | .chs | .chc => 0x10 | .rxp => 0x11 | .txp => 0x12 | .mac | .mas => 0x13 | .air | .ais => 0x14
  | .ven => 0x15 | .tag => 0x16 | .kcl | .kco => 0x20 | .pkp | .pka | .pkr | .pkm => 0x30
  | .eth | .sds => 0x31 | .dsp => 0x40 | .srm => 0x50 | .drc | .phy => 0x51 | .twn => 0x60
  | .hdr | .pc0 | .pc1 | .pc2 | .pc3 => 0

/-- Instance number of R39. -/
def instanceOf (p : Nat) : Nat :=
  if 0x010 ≤ p ∧ p ≤ 0x017 then p - 0x010 else if 0x020 ≤ p ∧ p ≤ 0x023 then p - 0x020
  else if 0x028 ≤ p ∧ p ≤ 0x02A then p - 0x028 else if 0x030 ≤ p ∧ p ≤ 0x033 then p - 0x030
  else if 0x038 ≤ p ∧ p ≤ 0x03B then p - 0x038 else if p = 0x048 then 16
  else if 0x050 ≤ p ∧ p ≤ 0x05F then p - 0x050 else if 0x060 ≤ p ∧ p ≤ 0x063 then p - 0x060
  else if 0x068 ≤ p ∧ p ≤ 0x06D then p - 0x068 else if 0x07A ≤ p ∧ p ≤ 0x07D then p - 0x079 else 0

/-- Pages 0x000 to 0x0FF of the page table carry the common header (R40). -/
def hasHeader (p : Nat) : Bool := (pageKind p).isSome && decide (p < 0x100)

/-- Whether a row holds the register at page offset `o`, and which instance. -/
def RegRow.covers (r : RegRow) (o : Nat) : Bool :=
  if r.stride = 0 then decide (o = r.off)
  else decide (r.off ≤ o) && decide ((o - r.off) % r.stride = 0) && decide ((o - r.off) / r.stride < r.count)

/-- The row of the register at offset `o` of page `p`, if the offset is not reserved. -/
def findRow (p o : Nat) : Option RegRow :=
  match pageKind p with
  | none => none
  | some k =>
    if hasHeader p && decide (o < 0x080) then rowsOf_hdr.find? (·.covers o)
    else (rowsOf k).find? (·.covers o)

/-- The value of the instance of a row at offset `o` after reset. -/
def RegRow.resetAt (r : RegRow) (o : Nat) : Nat :=
  let i := if r.stride = 0 then 0 else (o - r.off) / r.stride
  (r.reset[i]?).getD (r.reset.getLastD 0)

/-- The reset value of the register at offset `o` of page `p` (R58); a reserved offset reads 0 (R44). -/
def regReset (p o : Nat) : BitVec 32 :=
  if hasHeader p && decide (o = 0x000) then
    BitVec.ofNat 32 (instanceOf p + 256 * blockCode ((pageKind p).getD .hdr) + 0x4C4D0000)
  else match findRow p o with
    | some r => BitVec.ofNat 32 (r.resetAt o)
    | none => 0

end Sys2Proof.Machine
end

