-- ==== Sys2Proof/Machine/State.lean ====
section
/-! DEFINITION. The state of the AB9324 as plain data: the register file, memory, device time, what each block holds
beside its registers, the beat sequencer, the control cores, and the queue of commands that wait. -/

namespace Sys2Proof.Machine

/-- Why a step ends in a fault. The block itself never stops with one: every error of the spec is a completion code,
a status or a page in FAULT, all of which are next states. -/
inductive Fault where
deriving DecidableEq, Repr

/-- Why a step is refused. -/
inductive Refusal where
  /-- Raised by the dispatcher for a command that has no meaning in this model yet; safe, nothing is claimed of it. -/
  | notModelled (mnemonic : String)
deriving DecidableEq, Repr

/-- Completion codes of R60. -/
inductive Code where
  | okay
  | unavailable
  | decodeError
  | denied
  | dataError
deriving DecidableEq, Repr

/-- Block states of R51. -/
inductive BState where
  | stopped
  | starting
  | running
  | draining
  | fault
deriving DecidableEq, Repr

/-- What a synthesiser keeps beside its registers (R91, R94, R95, R792): the time it entered its state, whether it has
been LOCKED since it last left OFF, whether the settling counts as from OFF (60 µs), whether a relock goes back to a
calibration, the chains whose calibration the hop must measure, and those that did not converge. -/
structure Syn where
  entered : Nat
  wasLocked : Bool
  slow : Bool
  fromCal : Bool
  need : List Nat
  failed : List Nat
deriving DecidableEq, Repr

def Syn.reset : Syn := { entered := 0, wasLocked := false, slow := false, fromCal := false, need := [], failed := [] }

/-- Front-end lines of a chain: whether the device drives them, and which are active (R111 to R114). -/
structure Fem where
  live : Bool
  tx : Bool
  rx : Bool
  pa : Bool
  lnab : Bool
deriving DecidableEq, Repr

def Fem.inert : Fem := { live := false, tx := false, rx := false, pa := false, lnab := false }

/-- A calibration commanded by CHP_CAL_CMD (R109, R110): its quad and channel, MON's channel before it, and a hop of
SYN_M held until it ends. -/
structure CalRun where
  quad : Nat
  centre : Nat
  width : Nat
  monCentre : Nat
  monWidth : Nat
  heldHop : Option (Nat × Nat)
deriving DecidableEq, Repr

/-- One channel entry of the regulatory table (R126). Power in 0.25 dB; `psd` none for no limit. -/
structure RegEntry where
  lo : Nat
  hi : Nat
  eirp : Int
  psd : Option Int
  dutyMax : Nat
  disallowed : Bool
  dfs : Bool
  indoorOnly : Bool
  noTx : Bool
  dutyWindow : Nat
deriving DecidableEq, Repr

/-- The regulatory slot in force (R125). -/
structure RegTab where
  indoor : Bool
  entries : List RegEntry
  gains : List Int
deriving DecidableEq, Repr

/-- Where a transmit command stands (R98, R115). -/
inductive TxPhase where
  | held
  | armed
  | sending
deriving DecidableEq, Repr

/-- What the PPDU of a transmit command is: PPDU `i` of the plan, a response, the tag lane's own never. -/
inductive TxKind where
  | planned (index : Nat)
  | response
deriving DecidableEq, Repr

/-- A transmit command the chain pool holds (R98). Powers per radio chain in 0.25 dB, as asked and as sent after correction
and clamp (R119, R128); times in ns: `dur` of what is sent, `planned` the duration the duty check takes (R130); `ndp` and `ndpa` as
in the request. -/
structure TxCmd where
  kind : TxKind
  beat : Nat
  chains : Nat
  asked : List Int
  powers : List Int
  start : Nat
  latest : Nat
  dur : Nat
  planned : Nat
  phase : TxPhase
  wasHeld : Bool
  first : Nat
  clamped : Bool
  scale : Nat
  chainLost : Bool
  paOver : Nat
  underrun : Bool
  ru : List Nat
  ndp : Option Nat
  ndpa : Option Nat
deriving DecidableEq, Repr

/-- A completion of the transmit path (R216). -/
structure TxDone where
  radio : Nat
  kind : TxKind
  beat : Nat
  status : Nat
  clamped : Bool
  scale : Nat
  chainLost : Bool
  paOver : Nat
  first : Nat
  ru : List Nat
deriving DecidableEq, Repr

/-- The chain pool beside its registers: synthesisers A, B, C and M; front-end lines of chains 0 to 23 and MON (24);
transmit commands by radio, and those held behind them (R98); over-power events of each chain (round, count); airtime bins of each radio (ms, ns);
the CHP_CAL_CMD calibration; the regulatory slot. -/
structure Pool where
  syn : List Syn
  fem : List (Nat × Fem)
  tx : List (Nat × TxCmd)
  wait : List (Nat × TxCmd)
  overs : List (Nat × (Nat × Nat))
  bins : List (Nat × List (Nat × Nat))
  cal : Option CalRun
  /-- When a STARTING quad began to wait for its owner's lock (R82). -/
  quadFrom : List (Nat × Nat)
  /-- Completions not yet taken by the MAC and the air scheduler. -/
  done : List TxDone
  reg : Option RegTab
deriving DecidableEq, Repr

def Pool.reset : Pool :=
  { syn := List.replicate 4 Syn.reset, fem := [], tx := [], wait := [], overs := [], bins := [], cal := none,
    quadFrom := [], done := [], reg := none }
/-- Where a receive instance stands (R136): nothing found; an energy rise in its AGC steps; detected, before the L-SIG
decision; in its SIG fields; in STF or LTF; in data. -/
inductive RxPhase where
  | idle
  | agc
  | found
  | sig
  | ltf
  | data
deriving DecidableEq, Repr

/-- One user of a trigger-based PPDU as the MAC gives it (R163), and what became of it: its timing offset in 12.5 ns and
frequency offset in 20 Hz (R167). -/
structure TbUser where
  sta : Nat
  ruSize : Nat
  ruPos : Nat
  mcs : Nat
  nss : Nat
  ldpc : Bool
  psduLen : Nat
  present : Bool
  timing : Int
  cfo : Int
  ok : Nat
  bad : Nat
deriving DecidableEq, Repr

/-- The trigger parameters of R163: expected start in ns, UL length, whether EHT, GI and LTF code, number of LTFs, users. -/
structure TbParams where
  expect : Nat
  ulLen : Nat
  eht : Bool
  giLtf : Nat
  nltf : Nat
  users : List TbUser
deriving DecidableEq, Repr

/-- A PPDU's hold on the channel for CCA (R237): until when in ns by its L-SIG, its level in dBm, whether it is a HE or
EHT PPDU of another BSS, its colour, and whether it was counted as ignored. -/
structure Cca where
  untilNs : Nat
  level : Int
  obss : Bool
  colour : Nat
  counted : Bool
deriving DecidableEq, Repr

/-- A fraction. -/
structure Fr where
  num : Int
  den : Nat
deriving DecidableEq, Repr

/-- A complex number of fractions. -/
structure Cx where
  re : Fr
  im : Fr
deriving DecidableEq, Repr

/-- A data tone in reception: the estimate of its LTF, the estimate now tracked (R157), the one its filters were computed from. -/
structure RxTone where
  tone : Nat
  unit : Nat
  sub : Nat
  group : Option Nat
  ltf : List (List Cx)
  h : List (List Cx)
  f : List (List Cx)
deriving DecidableEq, Repr

/-- How the streams of a 26-tone unit are detected (R153, R155): their order, how many are cancelled before joint detection, and
the SINR of each at its detection. -/
structure RxUnit where
  unit : Nat
  order : List Nat
  depth : Nat
  sinr : List (Nat × Fr)
deriving DecidableEq, Repr

/-- An RU in reception: its users and the bits per symbol of each of its streams, its digital gain in 0.25 dB (R142), its noise
power, its tones and units, the data symbols with tracking, and the soft output of the last symbol by tone and stream (R156). -/
structure RxRu where
  users : List Nat
  cons : List Nat
  dig : Int
  noise : Fr
  tones : List RxTone
  units : List RxUnit
  lms : Nat
  soft : List (Nat × Nat × Cx)
deriving DecidableEq, Repr

/-- What the decoder counted for a user (R158, R159): codewords, those not converged, iterations in all and at most. -/
structure DecStat where
  n : Nat
  fail : Nat
  iters : Nat
  peak : Nat
deriving DecidableEq, Repr

/-- The statistics words of a receive report (R175). -/
structure RxStats where
  cwFail : Nat
  iterMean : Nat
  iterPeak : Nat
  rssi : Nat
  snr : Nat
  evm : Nat
  nf : Nat
  cfo : Nat
  timing : Nat
  rssiCh : List Nat
  sinrMin : Nat
  osicDepth : Nat
  lmsSyms : Nat
  gainMin : Nat
deriving DecidableEq, Repr

/-- A receive instance beside its registers. `acqNs` is the first sample its acquisition counts from, `levels` and `gains` the
level in dBm and the analog gain in dB of each radio chain (none listed: idle gain), `coarse` and `fine` the frequency estimates
in 20 Hz (R143), `rus` and `dec` the data in reception. `ref` is the power at the gain freeze in dBm, `hold` the end in ns of a
restart-reference hold (R152, R796), `est` whether an estimate went to venue coordination. -/
structure Rx where
  phase : RxPhase
  riseNs : Nat
  acqNs : Nat
  startNs : Nat
  startFrac : Nat
  levels : List Int
  gains : List Nat
  coarse : Int
  fine : Int
  rus : List RxRu
  dec : List (Nat × DecStat)
  ref : Int
  format : Nat
  bw : Nat
  ldpc : Bool
  punct : Nat
  mcs : Nat
  nss : Nat
  giLtf : Nat
  ruSize : Nat
  ruPos : Nat
  psduLen : Nat
  dur01 : Nat
  colour : Nat
  obss : Bool
  est : Bool
  ok : Nat
  bad : Nat
  hold : Option Nat
  tb : Option TbParams
  tbActive : Bool
  cca : Option Cca
deriving DecidableEq, Repr

def Rx.reset : Rx :=
  { phase := .idle, riseNs := 0, acqNs := 0, startNs := 0, startFrac := 0, levels := [], gains := [], coarse := 0, fine := 0,
    rus := [], dec := [], ref := 0, format := 15, bw := 0, ldpc := false,
    punct := 0, mcs := 0, nss := 0, giLtf := 7, ruSize := 31, ruPos := 0, psduLen := 0, dur01 := 0, colour := 0,
    obss := false, est := false, ok := 0, bad := 0, hold := none, tb := none, tbActive := false, cca := none }
/-- A transmit command as the transmit path hands it over (R98, R209): whether it is a response or PPDU `index` of the
plan, the radio chains, the ball power of each in 0.25 dB, the device times in ns of its first sample and latest
start, its planned duration and the duration of what is sent in ns (R130, R800), the scale of R209 in 0.25 dB, the outcome of each
RU (R216), whether padding takes the place of MPDUs that were not delivered (R182), for an NDPA how long the NDP behind it lasts,
and for an NDP when its NDPA started (R186). -/
structure TxReq where
  isResponse : Bool
  index : Nat
  chains : Nat
  powers : List Int
  start : Nat
  latest : Nat
  dur : Nat
  sent : Nat
  scale : Nat
  ru : List Nat
  short : Bool
  ndp : Option Nat
  ndpa : Option Nat
deriving DecidableEq, Repr

/-- The transmit path beside its registers: the request it is about to hand to the chain pool on each radio, and the
reciprocity calibrations running (radio, REF); the last NDP of each radio: NSD and width (R188, R189); the banks (radio, entry,
bank) whose lines were written over since their commit (R206). -/
structure TxPath where
  ready : List (Nat × TxReq)
  rcal : List (Nat × Nat)
  ndp : List (Nat × (Nat × Nat × Nat))
  spoiled : List (Nat × Nat × Nat)
deriving DecidableEq, Repr
/-- An entry of a transmit queue (R284, R298): its request words, the sequence number and attempts (word 5), what the
scheduler records (word 6), and the facts of the last attempt. -/
structure QEntry where
  id : Nat
  basket : Nat
  len : Nat
  fmt : Nat
  tid : Nat
  sta : Nat
  gq : Nat
  bssid : Nat
  radio : Nat
  noAck : Bool
  plain : Bool
  ftm : Bool
  cls : Nat
  enqBeat : Nat
  cookie : Nat
  sn : Option Nat
  tries : Nat
  enc : Bool
  lastOut : Nat
  delays : Nat
  demoted : Bool
  lastNs : Nat
  lastStatus : Nat
  lastRu : Nat
  lastRadio : Nat
deriving DecidableEq, Repr

/-- A completion of a transmit queue entry (R287), with the basket it frees. -/
structure Cpl where
  status : Nat
  tries : Nat
  outcome : Nat
  tid : Nat
  sta : Nat
  radio : Nat
  cookie : Nat
  timeNs : Nat
  sn : Nat
  ppduStatus : Nat
  ruOutcome : Nat
  basket : Nat
deriving DecidableEq, Repr

/-- An MPDU held for reordering, or a fragment (R255, R259): when it was accepted, and the facts of its PPDU that its receive
descriptor carries (R288). -/
structure Held where
  sn : Nat
  atNs : Nat
  mpdu : Mpdu
  radio : Nat
  startNs : Nat
  startFrac : Nat
  repSeq : Nat
deriving DecidableEq, Repr

/-- The record of one TID, of non-QoS data (8) or of management frames (9) of a station entry (R226, R248 to R259,
R798): the last accepted sequence and fragment number, WinStart, held MPDUs (the sequence numbers marked received from WinStart on), the fragments of an MSDU, the replay counter, the next sequence number sent, and an owed
BlockAckReq. -/
structure TidRec where
  last : Option (Nat × Nat)
  win : Option Nat
  held : List Held
  frags : List Held
  replay : Nat
  txNext : Nat
  oweBar : Bool
deriving DecidableEq, Repr

def TidRec.empty : TidRec :=
  { last := none, win := none, held := [], frags := [], replay := 0, txNext := 0, oweBar := false }

/-- MPDUs of one user put into a PPDU: the user record's place, the queue, and the entry identifiers. -/
structure SentUser where
  ru : Nat
  sta : Nat
  queue : Nat
  ids : List Nat
  degraded : Bool
deriving DecidableEq, Repr

/-- A PPDU handed to the transmit path, until its exchange ends (R240, R249): its plan index, beat, AC, kind, what it
carries, whether it solicits a response, its end in ns once sent, and whether it is a beacon. -/
structure OnAir where
  index : Nat
  beat : Nat
  ac : Nat
  kind : Nat
  users : List SentUser
  solicits : Bool
  undelivered : List Nat
  trig : Nat
  beacon : Option Nat
  muRtsTo : List Nat
  awaiting : Bool
  acked : List Nat
deriving DecidableEq, Repr

/-- A response the MAC owes for a reception (R245 to R247): its form (0 Ack, 1 Block Ack, 2 multi-STA Block Ack, 3
CTS), t_end in ns by the SIG fields, whether the cut passed, whether the last MPDU arrived, the frames it acknowledges (station, PM bit, solicits), whether
an MPDU was left out, and whether it was handed over. -/
structure Resp where
  form : Nat
  tEnd : Nat
  cut : Bool
  complete : Bool
  acks : List (Nat × Bool)
  leftOut : Bool
  handed : Bool
deriving DecidableEq, Repr

/-- What a MAC instance keeps per radio: NAV end in ns, backoff counter and CW of each AC, since when in ns each 20 MHz
subchannel and (16) the primary channel have been idle, the TXOP held (AC, start, end in ns), the end of the previous
exchange and whether it succeeded, the PPDU on the air, the response owed, EMLSR stations without CTS this beat, and
an aligned-set member that waits. -/
structure MacRadio where
  nav : Nat
  backoff : List (Option Nat)
  cw : List Nat
  idleFrom : List Nat
  txop : Option (Nat × Nat × Nat)
  prevEnd : Nat
  prevOk : Bool
  onAir : Option OnAir
  resp : Option Resp
  noCts : List Nat
  waiting : Bool
deriving DecidableEq, Repr

def MacRadio.reset : MacRadio :=
  { nav := 0, backoff := [none, none, none, none], cw := [15, 15, 7, 3], idleFrom := List.replicate 17 0, txop := none,
    prevEnd := 0, prevOk := true, onAir := none, resp := none, noCts := [], waiting := false }

/-- A station command that waits for its release (SUSPEND, R223). -/
structure StaCmd where
  sta : Nat
  op : Nat
deriving DecidableEq, Repr

/-- The WLAN MAC beside its registers and tables: per radio; the address lookup (radio times 2^48 plus address to
entry); records by 16 times entry plus TID; key bits of the slots and whether a load is under way (R263); the tables
lost mark and the bases of the last Start (R799); the station command under way; uplink demand by 8 times entry plus
TID: octets and report beat (R261); service periods and PS-Polls by 4 times entry plus radio: kind (1 PS-Poll, 2
U-APSD) and beat (R270, R271); FTM times by entry: ToD, ToA and the ToA error (R282, R283); the last link and end of service of EMLSR
stations (R233). -/
structure Mac where
  radio : List MacRadio
  lookup : List (Nat × Nat)
  recs : List (Nat × TidRec)
  keys : List (Nat × Nat)
  lost : Bool
  bases : List Nat
  cmd : Option StaCmd
  demand : List (Nat × (Nat × Nat))
  sp : List (Nat × (Nat × Nat))
  ftm : List (Nat × (Nat × Nat × Nat))
  emlsr : List (Nat × (Nat × Nat))
  twtShort : List Nat
deriving DecidableEq, Repr

def Mac.reset : Mac :=
  { radio := List.replicate 3 MacRadio.reset, lookup := [], recs := [], keys := [], lost := true, bases := [],
    cmd := none, demand := [], sp := [], ftm := [], emlsr := [], twtShort := [] }
/-- A user record of a plan (R303), with the queue it serves (an uplink user has none). -/
structure PlanUser where
  sta : Nat
  gq : Nat
  tid : Nat
  cls : Nat
  ul : Bool
  nss : Nat
  mcs : Nat
  pofs : Int
  predSnr : Nat
  mpdus : Nat
  octets : Nat
  queue : Nat
  margin : Int
  ids : List Nat
  flow : Bool
deriving DecidableEq, Repr

/-- An RU record of a plan with its users (R303). Power in 0.25 dBm. -/
structure PlanRu where
  size : Nat
  pos : Nat
  precId : Nat
  nullReq : Bool
  nnull : Nat
  precBeat : Nat
  power : Int
  ladder : Nat
  users : List PlanUser
deriving DecidableEq, Repr

/-- A PPDU record of a plan with its RUs (R303), with what its record does not hold: the type of a trigger, the padding of an
MU-RTS in µs and how long an NDPA lasts (R186, R317). Times in 0.1 µs. -/
structure PlanPpdu where
  kind : Nat
  trig : Nat
  pad : Nat
  ndpa : Nat
  align : Option Nat
  ac : Nat
  bssid : Nat
  ofs : Nat
  dur : Nat
  resp : Nat
  bw : Nat
  punct : Nat
  chains : Nat
  energy : Nat
  ulDur : Nat
  ulGiLtf : Nat
  ulNltf : Nat
  ulTarget : Nat
  rus : List PlanRu
deriving DecidableEq, Repr

/-- A beat plan (R303). -/
structure Plan where
  beat : Nat
  quads : Nat
  fallback : Bool
  skip : Bool
  ladder : Nat
  mode : Nat
  typ : Nat
  cost : Nat
  floor : Nat
  airtime : Nat
  ppdus : List PlanPpdu
deriving DecidableEq, Repr

/-- States of a plan buffer (R305). -/
inductive BufState where
  | free
  | building
  | frozen
  | executing
deriving DecidableEq, Repr

/-- One plan buffer of a radio (R310): its state, and the plan in it. -/
structure PlanBuf where
  st : BufState
  plan : Option Plan
deriving DecidableEq, Repr

/-- The queue snapshot a plan is built from (R27, R28, R309, R331): beat, mode, type, floor, airtime left in 0.1 µs,
policy words, class words, eligible queues, the queues that failed a condition with its code, and the nulls asked of
each 242-tone span (span, foreign record, required). -/
structure Snap where
  beat : Nat
  mode : Nat
  typ : Nat
  floor : Nat
  left : Nat
  pol : Nat
  pol2 : Nat
  ul : Nat
  ulClass : Nat
  classes : List Nat
  eligible : List Nat
  failed : List (Nat × Nat)
  nulls : List (Nat × Nat × Bool)
deriving DecidableEq, Repr

/-- The plan a radio executes: the plan, the next PPDU, and each RU's outcome by PPDU (R207, R213). -/
structure Exec where
  plan : Plan
  next : Nat
  outcomes : List (List Nat)
deriving DecidableEq, Repr

/-- The air schedulers beside their registers: transmit queues by number (station 8 s + t, group 16384 + g); plan
buffers by 4 times radio plus (beat mod 4); snapshots and executing plans by radio; class credits by 8 times radio
plus class and queue credits by radio times 32768 plus queue, in 2^-16 µs (R310); the mode last taken by each radio
(R332); the next entry identifier; the last frozen plan's words before a capture (R305); stations sounded and not yet polled, by
radio (R315). -/
structure Air where
  queues : List (Nat × List QEntry)
  bufs : List (Nat × PlanBuf)
  snap : List (Nat × Snap)
  exec : List (Nat × Exec)
  ccredit : List (Nat × Int)
  qcredit : List (Nat × Int)
  mode : List (Nat × Nat)
  lastFloor : List (Nat × Nat)
  nextId : Nat
  last : List (Nat × (Nat × Nat × Nat))
  polls : List (Nat × List Nat)
deriving DecidableEq, Repr

def Air.reset : Air :=
  { queues := [], bufs := [], snap := [], exec := [], ccredit := [], qcredit := [], mode := [], lastFloor := [],
    nextId := 0, last := [], polls := [] }
/-- A radio block of a received PLAN (R348). -/
structure VenBlock where
  radio : Nat
  width : Nat
  colour : Nat
  centre : Nat
  punct : Nat
  base : Nat
deriving DecidableEq, Repr

/-- An edge entry of a received PLAN (R349). -/
structure VenEdge where
  radio : Nat
  req : Bool
  aid : Nat
  prio : Nat
deriving DecidableEq, Repr

/-- A sample of the two-way exchange with a neighbour: own round of its PLAN, offset and round trip in ns (R341). -/
structure VenSample where
  round : Nat
  ofs : Int
  rtd : Int
deriving DecidableEq, Repr

/-- What the device keeps of a neighbour beside its entry's registers: the own round in which it last accepted a message,
what the last accepted PLAN said, its samples (oldest first), and TX_TS, receive time and own round of that PLAN. -/
structure VenNbr where
  accRound : Option Nat
  any : Bool
  timeOk : Bool
  map : Nat
  listen : Nat
  blocks : List VenBlock
  edges : List VenEdge
  window : List VenSample
  echo : Option (Nat × Nat × Nat)
  prevPlan : Option Nat
deriving DecidableEq, Repr

def VenNbr.empty : VenNbr :=
  { accRound := none, any := false, timeOk := false, map := 0, listen := 0, blocks := [], edges := [], window := [],
    echo := none, prevPlan := none }

/-- A neighbour's trigger that matched on a radio in this beat (R358): entry, the neighbour's radio, its colour, and the
AID and first stream of each user given to the receive path, in its order. -/
structure VenMatch where
  radio : Nat
  entry : Nat
  nradio : Nat
  colour : Nat
  users : List (Nat × Nat)
deriving DecidableEq, Repr

/-- Venue coordination beside its registers: neighbours by entry; TX_TS of the own last 4 PLAN messages, newest first;
the round of the last PLAN; messages the packet engine delivered, with their receive timestamps in ns; triggers matched
in this beat; the beat of the last measurement of a foreign slot on a radio's 20 MHz subchannel, by (64 times slot plus
radio) times 16 plus subchannel (R361); the latest beat for which a slot stood in a null list; freed slots whose record
stays VALID until that beat is over (R365). -/
structure Ven where
  nbr : List (Nat × VenNbr)
  sent : List Nat
  sentRound : Option Nat
  inbox : List (List Nat × Nat)
  matched : List VenMatch
  meas : List (Nat × Nat)
  given : List (Nat × Nat)
  clears : List (Nat × Nat)
deriving DecidableEq, Repr

def Ven.reset : Ven :=
  { nbr := [], sent := [], sentRound := none, inbox := [], matched := [], meas := [], given := [], clears := [] }
/-- Where a transmit request of the tag lane stands (R381 to R390, R400): before its AT, waiting for a clear channel, its
frame sent, waiting for an Imm-Ack, inside a wake train, its DATA frame sent. -/
inductive TagPhase where
  | waitAt
  | cca
  | sent
  | ackWait
  | train
  | data
deriving DecidableEq, Repr

/-- The transmit request the tag lane works on (R399, R400): its header words and data octets; the centre and MOD used;
moves or attempts allowed and used; its AT in ns; the earliest CCA in ns; for a train the tag's period numbers: planned
start and end in ns, k, whether any burst was sent, the start of the next burst, bursts sent; the first transmitted bit. -/
structure TagReq where
  words : List Nat
  octets : List Nat
  kind : Nat
  chan : Nat
  mod : Nat
  retry : Nat
  used : Nat
  phase : TagPhase
  atNs : Nat
  from_ : Nat
  k : Nat
  start : Nat
  fin : Nat
  next : Nat
  bursts : Nat
  first : Option Nat
deriving DecidableEq, Repr

/-- Taps of the tag lane's equaliser (R375): feedforward and feedback. -/
structure TagDfe where
  ff : List Fr
  fb : List Fr
deriving DecidableEq, Repr

/-- The tag lane beside its registers: the centre it is tuned to; a change of centre under way (target, end in ns); a
TAG_RX_CHAN value that waits; the frame it receives (MOD, first preamble bit in ns); an Imm-Ack owed (sequence number,
start in ns); the request in progress; a TX_DONE event that waits for room; a beacon slot in progress (beat); the beat of
the last slot; slots still needed after a busy first one (R382), and those of a request that a beacon slot suspends; end of
the last CCA slot in ns; the occupancy in progress (start in ns, whether it is the beacon's); start and end in ns of what
is on the air; no CCA before (ns, R383); the equaliser's taps. -/
structure Tag where
  tuned : Nat
  retune : Option (Nat × Nat)
  rxChan : Option Nat
  rx : Option (Nat × Nat)
  ack : Option (Nat × Nat)
  req : Option TagReq
  event : Option (List Nat)
  beacon : Option Nat
  lastSlot : Option Nat
  ecca : Option Nat
  eccaHeld : Option Nat
  slotEnd : Nat
  occ : Option (Nat × Bool)
  txStart : Nat
  txEnd : Nat
  quiet : Nat
  dfe : TagDfe
deriving DecidableEq, Repr

def Tag.reset : Tag :=
  { tuned := 2405, retune := none, rxChan := none, rx := none, ack := none, req := none, event := none, beacon := none,
    lastSlot := none, ecca := none, eccaHeld := none, slotEnd := 0, occ := none, txStart := 0, txEnd := 0, quiet := 0,
    dfe := ⟨[], []⟩ }
/-- One level of a hardware loop (R407, R423). -/
structure KLoop where
  count : Nat
  start : Nat
  fin : Nat
deriving DecidableEq, Repr

/-- A job (R441, R442): descriptor address; its words; the due boundary, if any; when it started in ns; for a precoder job
the radio, entry and bank its status goes to, GEN of each record it reads as it was at the start, by the record's place (users from
0, nulls from 8), and whether a record stayed busy when its GEN was tested again (R201). -/
structure KJob where
  addr : Nat
  words : List Nat
  due : Option Nat
  start : Nat
  bank : Option (Nat × Nat × Nat)
  gens : List (Nat × Nat)
  busy : Bool
deriving DecidableEq, Repr

/-- The architectural registers of a Koveton core (R407). Scalars, track, step and window registers list those of bank 0,
then the banked ones of bank 1; LR, ST, loop stacks and LD have one value per bank (LD and BANK stand in fields of their
own). Also: return bundles and whether a handler runs (R427 to R430), the mailbox (R431), the job, a loop count found
exhausted at its END (R425), and for R410 the producer class and cycle of each register last written. -/
structure KCore where
  v : List (List (BitVec 16))
  a : List (List (BitVec 40))
  s : List (BitVec 32)
  t : List (BitVec 18)
  dd : List (BitVec 18)
  w : List (BitVec 29)
  lr : List (BitVec 12)
  st : List (BitVec 32)
  loops : List (List KLoop)
  ld : List Nat
  bank : Bool
  cyc : Nat
  retN : Nat
  retF : Nat
  inN : Bool
  inF : Bool
  mbx : List (BitVec 32)
  job : Option KJob
  exhaust : Bool
  ready : List (Nat × (Nat × Nat))
deriving DecidableEq, Repr

def KCore.reset : KCore :=
  { v := List.replicate 16 (List.replicate 16 0), a := List.replicate 4 (List.replicate 16 0),
    s := List.replicate 24 0, t := List.replicate 12 0, dd := List.replicate 12 0, w := List.replicate 12 0,
    lr := [0, 0], st := [0, 0],
    loops := List.replicate 2 (List.replicate 3 { count := 0, start := 0, fin := 0 }), ld := [0, 0], bank := false,
    cyc := 0, retN := 0, retF := 0, inN := false, inF := false, mbx := [], job := none, exhaust := false, ready := [] }

/-- A DMA channel (R436, R438): descriptors outstanding, each its words and the address it was read from; whether a
descriptor ended other than OK since the last commit. -/
structure KChan where
  queue : List (List Nat × Nat)
  bad : Bool
deriving DecidableEq, Repr

/-- The Koveton cluster beside its registers and memories: cores, DMA channels 0 to 17, queued jobs in posting order. -/
structure Kov where
  cores : List KCore
  chans : List KChan
  jobs : List KJob
deriving DecidableEq, Repr

def Kov.reset : Kov :=
  { cores := List.replicate 16 KCore.reset, chans := List.replicate 18 { queue := [], bad := false }, jobs := [] }
/-- A frame held in baskets (R458): its octets and the baskets of its chain in order, under its first basket. -/
structure Frame where
  octets : List Nat
  units : List Nat
deriving DecidableEq, Repr

/-- A frame in the engine before its action (R453, R471, R475, R491): first basket; source code; whether its walk starts
at the 802.11 node; META; receive timestamp (ns, 2^-16 ns); ring cookie; ring and descriptor of a timestamp request;
direct action; the menu of its first pass; KTYPE2 and INNER of its action for the second. -/
structure PFrame where
  basket : Nat
  src : Nat
  dot11 : Bool
  info : Nat
  tsNs : Nat
  tsFrac : Nat
  cookie : Nat
  tsReq : Option (Nat × Nat)
  direct : Option Nat
  menu : Nat
  kt2 : Nat
  inner : Bool
deriving DecidableEq, Repr

/-- A TCAM entry with its action record (R472, R478). -/
structure TcEntry where
  valid : Bool
  anomaly : Bool
  value : Nat
  mask : Nat
  action : List Nat
deriving DecidableEq, Repr

def TcEntry.empty : TcEntry := { valid := false, anomaly := false, value := 0, mask := 0, action := List.replicate 8 0 }

/-- The packet engine beside its registers: frames in baskets by first basket; frames that wait for their first pass and
for their second; TCAM entries (menu B from 16384 up); menu headers (KEY_SEL and default action); direct actions;
counters (packets, octets); transmit queue entries under way, by first basket, with CPL_EN and CPL_RING; descriptors
returned on a ring since its IRQ was last cleared, and the device time in ns of the first. -/
structure Pkt where
  chains : List (Nat × Frame)
  inq : List PFrame
  recirc : List PFrame
  tcam : List (Nat × TcEntry)
  hdr : List (Nat × (Nat × List Nat))
  direct : List (Nat × List Nat)
  ctr : List (Nat × (Nat × Nat))
  sent : List (Nat × (Bool × Nat))
  since : List (Nat × (Nat × Nat))
deriving DecidableEq, Repr

def Pkt.reset : Pkt :=
  { chains := [], inq := [], recirc := [], tcam := [], hdr := [], direct := [], ctr := [], sent := [], since := [] }
/-- A frame in a transmit queue of an Ethernet MAC (R514): octets without FCS, the baskets it holds, ring and descriptor
of a timestamp request, and whether venue coordination queued it. -/
structure EthTx where
  octets : List Nat
  basket : Option Nat
  tsReq : Option (Nat × Nat)
  ven : Bool
deriving DecidableEq, Repr

/-- A frame on the line: the transmit timestamp of its timestamp point in 0.25 ns (R529, R530), whether the one-step
update was applied, and whether the whole frame was in the FIFO before it started (R516). -/
structure EthLine where
  tx : EthTx
  ts : Nat
  oneStep : Bool
  whole : Bool
deriving DecidableEq, Repr

/-- An Ethernet MAC beside its registers: transmit queues; the frame on the line; generated pause frames that wait for
the line; ends of received pauses in device time by queue (8 for all, R512), and pauses in quanta that begin at the next frame
boundary (R538); when the last generated pause frame was
sent while the pause stands (R513); crumbs (four words each) and whether one was lost since (R535); octet counts (R518);
the MDIO operation under way (E4). -/
structure EthMac where
  queues : List (Nat × List EthTx)
  line : Option EthLine
  ctl : List (List Nat)
  pause : List (Nat × Nat)
  pauseHeld : List (Nat × Nat)
  gen : Option Nat
  crumbs : List (List Nat)
  gap : Bool
  rxOct : Nat
  txOct : Nat
  mdio : Option Nat
deriving DecidableEq, Repr

def EthMac.reset : EthMac :=
  { queues := [], line := none, ctl := [], pause := [], pauseHeld := [], gen := none, crumbs := [], gap := false, rxOct := 0, txOct := 0,
    mdio := none }
/-- The time unit beside its registers: the servo's integrator and slew in 2^-8 ppb (R526), when the last sample came in units
of `now`, whether the holdover flag stays set (R525, R528, R790); ends of the timers' output pulses (R536); word 1 of each
event input's latest capture and the time of its last accepted edge (R537); whether a backward step holds the next boundary
(R24, R25); device time right after the last time command (R538). -/
structure TimeUnit where
  integ : Int
  slew : Int
  lastSample : Nat
  sticky : Bool
  pulses : List (Nat × Nat)
  eviNew : List Nat
  eviEdge : List (Option Nat)
  hold : Bool
  cmdAt : Option Nat
deriving DecidableEq, Repr

def TimeUnit.reset : TimeUnit :=
  { integ := 0, slew := 0, lastSample := 0, sticky := false, pulses := [], eviNew := [0, 0], eviEdge := [none, none],
    hold := false, cmdAt := none }
/-- A load that waits for its data (R552, R563): its width and sign as funct3, whether it goes to the float registers, its
destination, the length of the instruction, whether it waits in a dispatcher ask, the virtual address. -/
structure HartWait where
  f3 : Nat
  fp : Bool
  rd : Nat
  len : Nat
  ask : Bool
  va : Nat
deriving DecidableEq, Repr

/-- A control core (R540): program counter, x1 to x31 (x0 at place 0, always 0), f0 to f31, privilege (0 U, 1 S, 3 M), CSRs
that do not hold their reset value, load reservation (physical address and octets), whether it stands in WFI, is halted by
the debug module, waits in the ROM's parking path (R772, R773), the load whose data it waits
for, or runs at all. -/
structure Hart where
  pc : BitVec 64
  x : List (BitVec 64)
  f : List (BitVec 64)
  priv : Nat
  csr : List (Nat × BitVec 64)
  resv : Option (Nat × Nat)
  wfi : Bool
  halted : Bool
  parked : Bool
  wait : Option HartWait
  running : Bool
deriving DecidableEq, Repr

def Hart.reset : Hart :=
  { pc := 0, x := List.replicate 32 0, f := List.replicate 32 0, priv := 3, csr := [], resv := none, wfi := false,
    halted := false, parked := false, wait := none, running := true }

/-- A core parked in the ROM: only MSIP enabled, in WFI (R772). -/
def Hart.parkedAt : Hart := { Hart.reset with parked := true, wfi := true, csr := [(0x304, 8)] }

/-- A line of the coherent caches of the cluster (R543): its 64 bytes, and whether it is dirty. -/
structure CLine where
  bytes : List Nat
  dirty : Bool
deriving DecidableEq, Repr

/-- Where C0 stands in the boot ROM (R777, R781): in the flow, waiting for a recovery image, halted in WFI by a failed step, or
past the ROM. -/
inductive RomFlow where
  | flow
  | recovery
  | halted
  | left
deriving DecidableEq, Repr

/-- PLIC, ACLINT and the caches (R543, R546 to R549): edge sources pending, sources claimed, root-complex INTx levels, MSIP
bits, MTIMECMP, REFCLK time in ns from which MTIME counts at 10 MHz, the captured high half of MTIME, cached lines by
address of line; C0's place in the boot ROM; the program buffer of the Debug Module (R540). -/
structure Ctl where
  edge : List Nat
  claimed : List Nat
  intx : Nat
  msip : Nat
  cmp : List Nat
  refNs : Nat
  mtimeHi : Nat
  lines : List (Nat × CLine)
  rom : RomFlow
  buffer : List Nat
deriving DecidableEq, Repr

def Ctl.reset : Ctl :=
  { edge := [], claimed := [], intx := 0, msip := 0, cmp := List.replicate 8 (2 ^ 64 - 1), refNs := 0, mtimeHi := 0, lines := [],
    rom := .flow, buffer := List.replicate 8 0 }

/-- An outbound request that is not completed (R552): who asked, fabric address, size, device time in ns; its code and data once
it has them, while an earlier request of its initiator is still open (R13). -/
structure OutRead where
  who : Initiator
  addr : Nat
  size : Nat
  since : Nat
  answer : Option (Code × Nat)
deriving DecidableEq, Repr

/-- PCI Express beside its registers: outbound requests in order; what the last one of a control core ended with, its data or
none, until the core's load takes it (R552); whether PERST_N is asserted; MSI-X vectors pending (R555). -/
structure Pcie where
  reads : List OutRead
  got : List (Nat × Option Nat)
  perst : Bool
  pba : Nat
deriving DecidableEq, Repr

def Pcie.reset : Pcie := { reads := [], got := [], perst := false, pba := 0 }

/-- Thread states of R560. -/
inductive TState where
  | idle
  | ready
  | running
  | repost
deriving DecidableEq, Repr

/-- A thread (R560): state, level, affinity, last core, and the level and affinity a post during its run left. -/
structure Thread where
  st : TState
  level : Nat
  aff : Nat
  last : Option Nat
  heldLevel : Nat
  heldAff : Nat
deriving DecidableEq, Repr

def Thread.none : Thread := { st := .idle, level := 0, aff := 0, last := Option.none, heldLevel := 0, heldAff := 0 }

/-- A dispatcher port: current thread, since when the core waits in an ask (device time in ns), what its last wait returned
(none: unavailable), whether its nudge is asserted. -/
structure Port where
  cur : Option Nat
  wait : Option Nat
  answer : Option Nat
  nudged : Bool
deriving DecidableEq, Repr

def Port.reset : Port := { cur := Option.none, wait := Option.none, answer := Option.none, nudged := false }

/-- The dispatcher beside its registers: threads that are not IDLE or ran before, ready handles oldest first, those of them in
the trail (R568), ports. -/
structure Dsp where
  threads : List (Nat × Thread)
  ready : List Nat
  trail : List Nat
  ports : List Port
deriving DecidableEq, Repr

def Dsp.reset : Dsp := { threads := [], ready := [], trail := [], ports := List.replicate 8 Port.reset }
/-- An access that waits for its thermos group (R579). -/
structure HeldAcc where
  who : Initiator
  acc : Access
deriving DecidableEq, Repr

/-- A request at the DRAM controller (R595 to R597): who asked, the access, its channel, its arrival at the port in ns, how many
requests to open rows of its level passed it, the data it reads once it is issued, and its code and data once it is done,
while an earlier request of its initiator is still open (R13). -/
structure DramReq where
  who : Initiator
  acc : Access
  ch : Nat
  atNs : Nat
  passed : Nat
  issued : Option Nat
  answer : Option (Code × Nat)
deriving DecidableEq, Repr

/-- On-chip memory and DRAM beside their registers: how often each DRAM segment (rank times 8 plus eighth) lost its content
(R603, R605), and at 16 how often the Koveton memories did; held accesses; groups woken by an access and not back since (R582); cause of the wipe that runs or is owed at the next release of reset, 0 none (R586, R589);
the training command that runs, its OP, steps and channels (R606); what SAVE last wrote for each channel (R608); postponed
refreshes by channel, rank and bank (R599); place word of the last uncorrectable read (R611); 8-byte words of shared SRAM and
the hamper with an error that cannot be corrected, by cell over 8 (R576); requests at the DRAM controller in order of
arrival; the open row of each bank (R597). -/
structure MemSys where
  loss : List (Nat × Nat)
  held : List HeldAcc
  woken : List Nat
  wipe : Nat
  train : Option (Nat × Nat × Nat)
  saved : List (Nat × (Nat × List Nat))
  postponed : List (Nat × Nat)
  errHi : Nat
  bad : List Nat
  dq : List DramReq
  rows : List (Nat × Nat)
deriving DecidableEq, Repr

def MemSys.reset : MemSys :=
  { loss := [], held := [], woken := [], wipe := 0, train := none, saved := [], postponed := [], errHi := 0, bad := [],
    dq := [], rows := [] }
/-- A service cipher context that is READY (R633): mode, double computation, whether a message is open, its key (and for XTS its
second key, for verification the public key), whether its entry has CLEAR_SAVE (R639), and the message so far: initial
IV, associated data, source text. -/
structure SecCtx where
  mode : Nat
  dual : Bool
  inMsg : Bool
  key : List Nat
  key2 : List Nat
  clearSave : Bool
  iv : List Nat
  aad : List Nat
  text : List Nat
deriving DecidableEq, Repr

/-- The command that runs (R630): its OP, the words of its block, and the result when it is decided already. -/
structure SecRun where
  op : Nat
  words : List Nat
  early : Option Nat
deriving DecidableEq, Repr

/-- A context image this device saved (R639): its octets, the context, life-cycle state and key epoch. -/
structure SecSave where
  image : List Nat
  ctx : SecCtx
  lc : Nat
  epoch : Nat
deriving DecidableEq, Repr

/-- A token check that runs (R653, R655): unlock or life cycle, level or target asked, the token, the nonce it began with. -/
structure TokCheck where
  unlock : Bool
  arg : Nat
  token : List Nat
  nonce : Option (List Nat)
deriving DecidableEq, Repr

/-- The security island beside its registers: OTP words by byte offset over 4; HUK and LC_RET as taken at reset (R618, R622);
keys of entries 4 to 63; READY contexts; the command; whether a job is still to end in DRAINING (R658); saved images; the
nonce (R653); the token check; RTC ticks of FAULT_CHECK events (R646); whether a ZEROISE trip owes its actions (R648);
the boundary-scan instruction in force (0 BYPASS, R649). -/
structure Sec where
  otp : List (Nat × Nat)
  huk : List Nat
  lcRet : Bool
  keys : List (Nat × List Nat)
  ctx : List (Nat × SecCtx)
  cmd : Option SecRun
  lastJob : Bool
  saves : List SecSave
  nonce : Option (List Nat)
  check : Option TokCheck
  fchk : List Nat
  owed : Bool
  bscan : Nat
deriving DecidableEq, Repr

def Sec.reset : Sec :=
  { otp := [], huk := List.replicate 32 0, lcRet := false, keys := [], ctx := [], cmd := none, lastJob := false, saves := [],
    nonce := none, check := none, fchk := [], owed := false, bscan := 0 }
/-- A change of performance level that runs (R663): the level it goes to and the one it leaves, and whether the voltage command
was acknowledged. -/
structure LevelChange where
  target : Nat
  old : Nat
  acked : Bool
deriving DecidableEq, Repr

/-- The governor and the sleep controller beside their registers: floors and allowances in µJ by 4 times beat plus radio (R682),
emergency allowances by the same key (R683); level changes by domain (R663), Koveton's level that waits for the boundary
(R663), levels the governor imposes (R686, R689); the state an accepted sleep request enters and its NAP_XO_OFF (R667), wake
sources seen since (R675); undervoltage, thermal trip, the round of the last emergency and the last round throttled
(R685); the sums of R691 for each radio; domains powering up; rails enabled, oscillator enabled, whether a thermal
shutdown is to be reported (R686). -/
structure Gov where
  floors : List (Nat × Nat)
  allow : List (Nat × Nat)
  emergency : List (Nat × Nat)
  change : List (Nat × LevelChange)
  kovWait : Bool
  imposed : List Nat
  target : Nat
  xoOff : Bool
  seen : Nat
  uv : Bool
  trip : Bool
  emRound : Option Nat
  throtRound : Option Nat
  sums : List (Nat × List Nat)
  skipped : Nat
  domUp : List Nat
  rails : List Nat
  xo : Bool
  shutdown : Bool
deriving DecidableEq, Repr

def Gov.reset : Gov :=
  { floors := [], allow := [], emergency := [], change := [], kovWait := false, imposed := [0, 0, 0, 0], target := 0, xoOff := false, seen := 0,
    uv := false, trip := false, emRound := none, throtRound := none, sums := [], skipped := 0, domUp := [], rails := [0, 1, 2, 3], xo := true,
    shutdown := false }
/-- The snapshot of R711: device time in units of 2^-48 ns, MTIME in ns, the count. -/
structure RtcSnap where
  dt : Nat
  mt : Nat
  c : Nat
deriving DecidableEq, Repr

/-- The real-time clock beside its registers: the count in 2^-32 tick (R694); where the crystal stands between two edges,
nanoseconds times 32,768, below 10^9; whether edges arrive (R697); the staged command's OP
(R699); the trim window that runs (count and device time at its start) and whether it is spoilt (R709, R710); the
snapshot (R711); whether OSC_STOP was set since it (R714); the interface lockout (R707); the supply of the always-on domain. -/
structure Rtc where
  count : Nat
  phase : Nat
  edges : Bool
  staged : Option Nat
  win : Option (Nat × Nat)
  spoilt : Bool
  snap : Option RtcSnap
  stopSince : Bool
  lockout : Bool
  powered : Bool
deriving DecidableEq, Repr

def Rtc.reset : Rtc :=
  { count := 0, phase := 0, edges := true, staged := none, win := none, spoilt := false, snap := none, stopSince := false,
    lockout := false, powered := true }

/-- The ageing monitors beside their registers: fractions of CONSUMED in 2^-32 ppm and of AF_AVG in 2^-32, by place (domains 0
to 3, PA of chain n at 4 + n); sum and number of the first gain errors of a PA, and its average afterwards, in 0.01 dB
(times 1,024 for the average); CONSUMED of a PA at the last update in 2^-32 ppm; parts below EOL_WARN (R717 to R722). -/
structure Age where
  part : List (Nat × Nat)
  af : List (Nat × Int)
  first : List (Nat × (Int × Nat))
  avg : List (Nat × Int)
  mark : List (Nat × Nat)
  warned : List Nat
deriving DecidableEq, Repr

def Age.reset : Age := { part := [], af := [], first := [], avg := [], mark := [], warned := [] }
/-- A packet number or sequence number that moved and may cross its stride (R741): kind 0 a key slot, 1 a transmit queue's
sequence number; its index; the value before and after. -/
structure Mark where
  kind : Nat
  index : Nat
  old : Nat
  new : Nat
deriving DecidableEq, Repr

/-- What the last HELLO accepted said (R730, R733). -/
structure TwinHello where
  uid : Nat
  nonce : Nat
  flags : Nat
deriving DecidableEq, Repr

/-- A stream record (R743): frame type, payload, whether it belongs to a snapshot, the transmit request it came from, and
its sequence once sent. -/
structure TwinRec where
  typ : Nat
  payload : List Nat
  snap : Bool
  req : Option Nat
  seq : Nat
deriving DecidableEq, Repr

/-- A frame taken, by which a later copy on the other lane is known (R725). -/
structure TwinSeen where
  typ : Nat
  seq : Nat
  nonce : Nat
  lane : Nat
  atNs : Nat
deriving DecidableEq, Repr

/-- A station command the Shadow is to issue (R741): its OP as in an STA frame, the entry, and the 64 octets of ENTRY. -/
structure TwinOp where
  op : Nat
  sta : Nat
  entry : List Nat
deriving DecidableEq, Repr

/-- The twin controller beside its registers: whether page 0x080 was started since device reset (R737); its nonce; the last
HELLO accepted; whether a HELLO was sent since; from which beat heartbeats go out; whether the exchange is complete and
the role is taken at the next boundary (R735); when PAIRING was entered, the last KICK; a YIELD owed and one accepted;
RESYNC_REQ owed; whether the beat's heartbeat was received; beats of the last HELLO and HEARTBEAT sent; frames taken;
the last stream sequence sent and accepted; unacknowledged and queued records; when ACK last advanced; station commands
to issue and whether one of them runs; marks held by slot and queue (R745); stream frames a Shadow accepted in the cycle of a
boundary, which a takeover at it discards (R747); the next transmit request, and those sent and not acknowledged; when DRAINING
began. -/
structure Twin where
  started : Bool
  nonce : Nat
  hello : Option TwinHello
  helloSent : Bool
  hbFrom : Option Nat
  ready : Bool
  since : Nat
  kicked : Nat
  yieldOut : Bool
  yieldIn : Bool
  resync : Bool
  hbGot : Bool
  helloBeat : Option Nat
  hbBeat : Option Nat
  seen : List TwinSeen
  txSeq : Nat
  rxSeq : Nat
  win : List TwinRec
  queue : List TwinRec
  ackBeat : Nat
  todo : List TwinOp
  own : Bool
  pn : List (Nat × Nat)
  sn : List (Nat × Nat)
  late : List TwinRec
  ringNext : Nat
  reqs : List Nat
  drainAt : Nat
deriving DecidableEq, Repr

def Twin.reset : Twin :=
  { started := false, nonce := 0, hello := none, helloSent := false, hbFrom := none, ready := false, since := 0, kicked := 0,
    yieldOut := false, yieldIn := false, resync := false, hbGot := false, helloBeat := none, hbBeat := none, seen := [],
    txSeq := 0, rxSeq := 0, win := [], queue := [], ackBeat := 0, todo := [], own := false, pn := [], sn := [], late := [],
    ringNext := 0, reqs := [], drainAt := 0 }
/-- Levels at input balls and the straps held (R676, R751, R755, R757): levels driven from outside on multiplexable balls by
ball index; the class code on PWR_CLS2 to PWR_CLS0; PWR_WAKE0_N and PWR_WAKE1_N low (bits 0 and 1); TWN_FENCE_IN_N low;
SYS_RST_N low; the straps sampled last. -/
structure Balls where
  gpio : List (Nat × Bool)
  cls : Nat
  wakeLow : Nat
  fenceLow : Bool
  resetLow : Bool
  pcieEp : Bool
  xspi1s : Bool
  testmode : Bool
deriving DecidableEq, Repr

def Balls.reset : Balls :=
  { gpio := [], cls := 0, wakeLow := 0, fenceLow := false, resetLow := false, pcieEp := false, xspi1s := false, testmode := false }

/-- What leaves the block at its boundary, as plain data. -/
inductive Emit where
  /-- The completion of a transmit command, from the chain pool to the transmit path and on (R100, R216). -/
  | txDone (c : TxDone)
  /-- Leading edges of a chain's lines, in device time in ns: RXEN and LNAB inactive, TXEN active, PAEN active (R115). -/
  | leadEdges (chain rxOff txOn paOn : Nat)
  /-- Trailing edges: PAEN inactive, TXEN inactive, and RXEN active unless a hop holds it (R115). -/
  | trailEdges (chain paOff txOff : Nat) (rxOn : Option Nat)
  /-- A PPDU's first sample leaves the balls of a radio (R115, R181), at a device time in ns. -/
  | firstSample (radio first : Nat) (powers : List (Nat × Int))
  /-- A hop of synthesiser `x` ended with a LAST_HOP status (R92, R97). -/
  | hopEnded (x status : Nat)
  /-- A sounding sequence of a reciprocity calibration: the radio chain that sends and the one that receives it, the 20 MHz
  subchannel, the power in 0.25 dBm (R196, R197). -/
  | rcalSounding (radio tx rx sub : Nat) (power : Int)
  /-- A KIND 3 exchange leaves: NSD, and the coefficient of each sounding dimension on each radio chain (R186, R187). -/
  | sounding (radio nsd : Nat) (coefs : List (List Cx))
  /-- An MPDU of a PPDU the device builds: radio, queue, sequence number, packet number (0 unprotected); the receiver and
  transmitter addresses of its header and those in its nonce and additional authentication data (R225). -/
  | mpduSent (radio queue sn pn ra ta nra nta : Nat)
  /-- A beacon built from BSSID k's template: its Timestamp, its octets, and slot and packet number of the MIC
  element appended to them (R267, R281). -/
  | beacon (radio bssid timestamp : Nat) (octets : List Nat) (mic : Option (Nat × Nat))
  /-- What heads and marks the MPDUs of a user in a PPDU: the SSN of a BlockAckReq ahead of them (R251), More Data in them
  or, for a group queue, in all but the last of the queue (R270, R273), EOSP in the last (R271). -/
  | userHead (radio queue : Nat) (bar : Option Nat) (more eosp : Bool)
  /-- ToD, ToA, ToD Error and ToA Error written into an FTM frame (R282, R283), in 0.1 ns. -/
  | ftm (radio queue tod toa todErr toaErr : Nat)
  /-- A receive descriptor the packet engine accepted (R288). -/
  | rxDescriptor (words : List Nat)
  /-- A response handed to the transmit path: form and the stations it acknowledges (R245). -/
  | response (radio form : Nat) (stas : List Nat)
  /-- A frame of the tag lane: MOD, centre in MHz, ball power in 0.25 dBm, first bit in ns, octets without its check
  sequence (R369, R377, R387, R396). -/
  | tagSent (mod centre : Nat) (power : Int) (first : Nat) (octets : List Nat)
  /-- A memory write of the device to the PCI Express link: address and octets (R551). -/
  | hostWrite (addr : Nat) (octets : List Nat)
  /-- A frame leaves an Ethernet port: octets without FCS, and whether its FCS is the correct one or its complement
  (R516). -/
  | ethSent (m : Nat) (octets : List Nat) (fcsOk : Bool)
  /-- An MDIO frame (R519): operation, clause 45, port, register, data. -/
  | mdio (op : Nat) (c45 : Bool) (phyad reg data : Nat)
  /-- The output of event timer `t` goes high or low on the balls claimed for it (R536). -/
  | timerOut (t : Nat) (high : Bool)
  /-- A waiting ask of core `c` ends with a word (R563), or with BLOCK_UNAVAILABLE. -/
  | askEnds (c : Nat) (word : Option Nat)
  /-- A completion of an outbound PCI Express read returns to its initiator (R552). -/
  | outRead (who : Initiator) (code : Code) (data : Nat)
  /-- An outbound configuration request (R559): write value, type, bus, device, function, register. -/
  | cfgRequest (write : Option Nat) (type bus dev func reg : Nat)
  /-- An MSI-X message for vector `v` (R555). -/
  | msix (v addr data : Nat)
  /-- The answer to an inbound request (R554): 0 Successful, 1 Unsupported, 2 Abort, 3 Successful but poisoned; its data. -/
  | inbound (answer data : Nat)
  /-- The completion of an access that was held for a wake (R579). -/
  | memDone (who : Initiator) (addr : Nat) (code : Code) (data : Nat)
  /-- A VOUT_COMMAND of the governor for a domain's rail: its LINEAR16 word (R663, R665). -/
  | vout (dom word : Nat)
  /-- A frame of the Tuibivy link, on the lanes of a mask (R725, R726). -/
  | twinFrame (lanes : Nat) (octets : List Nat)
deriving DecidableEq, Repr


/-- Everything the device holds but the beat sequencer's own record, the control cores and the command queue. -/
structure Dev where
  /-- Register file, key `page * 0x10000 + offset`, over the reset values of the register map. -/
  regs : List (Nat × BitVec 32)
  /-- Memory by cell (SRAM by bank and row, other regions by address). -/
  mem : List Host.Cell
  /-- Device time in units of 2^-48 ns (R520: 2^-16 ns visible, 32 hidden bits below). -/
  now : Nat
  /-- How many free values have been drawn. -/
  draws : Nat
  /-- Code and data of the last completion returned (R60). -/
  lastCode : Code
  lastData : Nat
  /-- What left the block at its boundary, oldest first. -/
  out : List Emit
  /-- The index of the last boundary received on the beat strobe (R17, R791). -/
  beat : Nat
  /-- Pages that are discarding their work, and whether they go to FAULT (R63). -/
  disc : List (Nat × Bool)
  /-- The owner captured with the last refused claim, before the capture (R70). -/
  rejOwn : Nat
  pool : Pool
  rx : List Rx
  tx : TxPath
  mac : Mac
  /-- Completions of transmit queue entries on their way to the packet engine. -/
  cpls : List Cpl
  air : Air
  ven : Ven
  tag : Tag
  kov : Kov
  pkt : Pkt
  eth : List EthMac
  time : TimeUnit
  ctl : Ctl
  pcie : Pcie
  dsp : Dsp
  ms : MemSys
  sec : Sec
  gov : Gov
  rtc : Rtc
  age : Age
  marks : List Mark
  twin : Twin
  balls : Balls
deriving DecidableEq, Repr

/-- The beat sequencer's record of the boundaries it issued. -/
structure BeatSeq where
  /-- Index of the last boundary issued; none since device reset (R24). -/
  last : Option Nat
  /-- The first boundary that may be issued since BEAT_EN was set or device time was re-derived (R19). -/
  first : Nat
deriving DecidableEq, Repr

structure State where
  dev : Dev
  seq : BeatSeq
  harts : List Hart
  /-- The commands that wait, first in, first out. -/
  pending : List Instr
deriving DecidableEq, Repr

/-- What differs from the register map's reset values in the state after the release of reset: the wake record of a first
power-up (R672), the class code 0 and the budget that follows (R676, R677), OSC_STOP of the power-on (R697), the debug level of
Blank (R615), key-store entries 0 and 1 (R621), and REG_NONE, no regulatory slot being programmed (R125). -/
def resetRegs : List (Nat × BitVec 32) :=
  [(0x10090, 0xF), (0x100B0, 0xF0000), (0x100BC, 0xF00), (0x200A8, 0x1), (0x40080, 0x200), (0x41000, 0x13), (0x41004, 0x23),
    (0x170010, 0x1000)]

/-- The device after reset. -/
def Dev.reset : Dev where
  regs := resetRegs
  mem := []
  now := 0
  draws := 0
  lastCode := .okay
  lastData := 0
  out := []
  beat := 0
  disc := []
  rejOwn := 0
  pool := Pool.reset
  rx := List.replicate 4 Rx.reset
  tx := { ready := [], rcal := [], ndp := [], spoiled := [] }
  mac := Mac.reset
  cpls := []
  air := Air.reset
  ven := Ven.reset
  tag := Tag.reset
  kov := Kov.reset
  pkt := Pkt.reset
  eth := List.replicate 5 EthMac.reset
  time := TimeUnit.reset
  ctl := Ctl.reset
  pcie := Pcie.reset
  dsp := Dsp.reset
  ms := MemSys.reset
  sec := Sec.reset
  gov := Gov.reset
  rtc := Rtc.reset
  age := Age.reset
  marks := []
  twin := Twin.reset
  balls := Balls.reset

/-- The machine right after reset (R58, R772). -/
def State.reset : State where
  dev := Dev.reset
  seq := { last := none, first := 0 }
  harts := Hart.reset :: List.replicate 7 Hart.parkedAt
  pending := []

end Sys2Proof.Machine
end

