-- ==== Sys2Proof/Machine/Frac.lean ====
section
/-! DEFINITION. Exact fractions, complex numbers of fractions and matrices of them: the arithmetic of R153 to R157, R190 and
R199, for which the spec names no number format (log entry 335). -/

namespace Sys2Proof.Machine

/-! ### Fractions -/

/-- `n / d` in lowest terms; a denominator 0 stands for a value without bound. -/
def Fr.of (n : Int) (d : Nat) : Fr :=
  let g := Nat.gcd n.natAbs d
  if g = 0 then ⟨0, 1⟩ else ⟨n / (g : Int), d / g⟩

def Fr.add (a b : Fr) : Fr := Fr.of (a.num * b.den + b.num * a.den) (a.den * b.den)
def Fr.neg (a : Fr) : Fr := ⟨-a.num, a.den⟩
def Fr.sub (a b : Fr) : Fr := a.add b.neg
def Fr.mul (a b : Fr) : Fr := Fr.of (a.num * b.num) (a.den * b.den)
def Fr.div (a b : Fr) : Fr :=
  if b.num < 0 then Fr.of (-(a.num * b.den)) (a.den * b.num.natAbs) else Fr.of (a.num * b.den) (a.den * b.num.natAbs)
def Fr.leB (a b : Fr) : Bool := decide (a.num * b.den ≤ b.num * a.den)
def Fr.one : Fr := ⟨1, 1⟩
def Fr.zero : Fr := ⟨0, 1⟩
def Fr.sum (l : List Fr) : Fr := l.foldl Fr.add Fr.zero
/-- Rounded down. -/
def Fr.floor (a : Fr) : Int := if a.den = 0 then 0 else a.num / (a.den : Int)
/-- Rounded to the nearest integer, halves up. -/
def Fr.near (a : Fr) : Int := (a.mul ⟨2, 1⟩ |>.add Fr.one).mul ⟨1, 2⟩ |>.floor

/-- `a` is at least `k` dB. -/
def Fr.atLeastDb (a : Fr) (k : Int) : Bool :=
  decide (0 < a.num) &&
    (if 0 ≤ k then decide (10 ^ k.toNat * a.den ^ 10 ≤ a.num.toNat ^ 10)
     else decide (a.den ^ 10 ≤ a.num.toNat ^ 10 * 10 ^ (-k).toNat))

/-- In quarter dB, rounded to the nearest, from 0 to `top`; a value without bound reads `top`. -/
def Fr.quarterDb (a : Fr) (top : Nat) : Nat :=
  if a.num ≤ 0 then 0
  else ((List.range top).filter fun k =>
    -- at least k + 1/2 quarter dB: a^80 ≥ 10^(2k + 1)
    decide (10 ^ (2 * k + 1) * a.den ^ 80 ≤ a.num.toNat ^ 80)).length

/-! ### Complex numbers -/

def Cx.zero : Cx := ⟨Fr.zero, Fr.zero⟩
def Cx.one : Cx := ⟨Fr.one, Fr.zero⟩
def Cx.add (a b : Cx) : Cx := ⟨a.re.add b.re, a.im.add b.im⟩
def Cx.sub (a b : Cx) : Cx := ⟨a.re.sub b.re, a.im.sub b.im⟩
def Cx.mul (a b : Cx) : Cx := ⟨(a.re.mul b.re).sub (a.im.mul b.im), (a.re.mul b.im).add (a.im.mul b.re)⟩
def Cx.conj (a : Cx) : Cx := ⟨a.re, a.im.neg⟩
def Cx.scale (a : Cx) (f : Fr) : Cx := ⟨a.re.mul f, a.im.mul f⟩
def Cx.normSq (a : Cx) : Fr := (a.re.mul a.re).add (a.im.mul a.im)
def Cx.div (a b : Cx) : Cx := (a.mul b.conj).scale (Fr.one.div b.normSq)
def Cx.sum (l : List Cx) : Cx := l.foldl Cx.add Cx.zero
/-- Integer power. -/
def Cx.pow (a : Cx) : Nat → Cx
  | 0 => Cx.one
  | n + 1 => (a.pow n).mul a

/-- A sample as its I and Q count in units of 2^-`q`. -/
def Cx.ofIQ (q : Nat) (p : Int × Int) : Cx := ⟨Fr.of p.1 (2 ^ q), Fr.of p.2 (2 ^ q)⟩

/-- Row times column. -/
def Cx.dot (a b : List Cx) : Cx := Cx.sum (List.zipWith Cx.mul a b)

/-! ### Roots and angles, to 2^-40 (log entry 344) -/

/-- The square root, rounded down to a multiple of 2^-40. -/
def Fr.sqrt (a : Fr) : Fr := if a.num ≤ 0 ∨ a.den = 0 then Fr.zero else Fr.of (Nat.sqrt (a.num.toNat * 2 ^ 80 / a.den)) (2 ^ 40)

/-- cos and sin of π / 2^m, in 2^-40. -/
def halfTurn : Nat → Int × Int
  | 0 => (-(2 ^ 40), 0)
  | 1 => (0, 2 ^ 40)
  | m + 2 =>
    let c := (halfTurn (m + 1)).1
    ((Nat.sqrt ((2 ^ 80 + c * 2 ^ 40) / 2).toNat : Int), (Nat.sqrt ((2 ^ 80 - c * 2 ^ 40) / 2).toNat : Int))

/-- Product of two complex numbers in 2^-40. -/
def cisMul (a b : Int × Int) : Int × Int :=
  ((a.1 * b.1 - a.2 * b.2) / 2 ^ 40, (a.1 * b.2 + a.2 * b.1) / 2 ^ 40)

/-- exp(j π k / 2^m), in 2^-40. -/
def cis (k m : Nat) : Int × Int :=
  (List.range (m + 1)).foldl (fun a i => if k / 2 ^ i % 2 = 1 then cisMul a (halfTurn (m - i)) else a) (2 ^ 40, 0)

/-- exp(j π k / 3), in 2^-40. -/
def cisThird (k : Nat) : Int × Int :=
  let s : Int := Nat.sqrt (3 * 2 ^ 78)
  nth (2 ^ 40, 0) [(2 ^ 40, 0), (2 ^ 39, s), (-(2 ^ 39), s), (-(2 ^ 40), 0), (-(2 ^ 39), -s), (2 ^ 39, -s)] (k % 6)

/-! ### Matrices, row by row -/

abbrev Mat := List (List Cx)

def Mat.col (m : Mat) (j : Nat) : List Cx := m.map fun r => nth Cx.zero r j
/-- The columns `js` of a matrix. -/
def Mat.cols (m : Mat) (js : List Nat) : Mat := m.map fun r => js.map fun j => nth Cx.zero r j
/-- Conjugate transpose of a matrix of `n` columns. -/
def Mat.herm (m : Mat) (n : Nat) : Mat := (List.range n).map fun j => (m.col j).map Cx.conj
/-- Product with a matrix of `n` columns. -/
def Mat.mul (a b : Mat) (n : Nat) : Mat := a.map fun r => (List.range n).map fun j => Cx.dot r (b.col j)
def Mat.sub (a b : Mat) : Mat := List.zipWith (List.zipWith Cx.sub) a b
def Mat.eye (n : Nat) : Mat := (List.range n).map fun i => (List.range n).map fun j => if i = j then Cx.one else Cx.zero
/-- Add `f` on the diagonal. -/
def Mat.load (m : Mat) (f : Fr) : Mat :=
  m.zipIdx.map fun r => r.1.zipIdx.map fun c => if r.2 = c.2 then ⟨c.1.re.add f, c.1.im⟩ else c.1
/-- Mean of the real diagonal. -/
def Mat.meanDiag (m : Mat) : Fr :=
  (Fr.sum (m.zipIdx.map fun r => (nth Cx.zero r.1 r.2).re)).div ⟨m.length, 1⟩

/-- One step of the elimination: column `i` becomes that of the identity. Answers the rows and the pivot's power. -/
def Mat.pivot (m : Mat) (i : Nat) : Mat × Fr :=
  let r := nth [] m i
  let p := nth Cx.zero r i
  let r := r.map fun v => v.div p
  (m.zipIdx.map fun row => if row.2 = i then r
    else List.zipWith (fun u v => u.sub ((nth Cx.zero row.1 i).mul v)) row.1 r, p.re)

/-- The inverse of a Hermitian matrix of `n` rows, and the pivots met. -/
def Mat.inv (m : Mat) (n : Nat) : Mat × List Fr :=
  let aug := List.zipWith (· ++ ·) m (Mat.eye n)
  let r := (List.range n).foldl (fun (acc : Mat × List Fr) i =>
    let s := acc.1.pivot i
    (s.1, acc.2 ++ [s.2])) (aug, [])
  (r.1.map fun row => row.drop n, r.2)

end Sys2Proof.Machine
end

