-- ==== Sys2Proof/Config.lean ====
section
/-! DEFINITION. What an implementation fixes and the values the spec leaves open: constants with no body, so that
no statement can lean on a value of theirs. Each is applied to a counter of the state or to the operands it depends on. -/

namespace Sys2Proof.Config

/-- A value the spec leaves open or that is drawn at random, one for each draw number (log entry 3). -/
opaque freeValue : Nat → Nat

/-- What a byte of DRAM holds whose content was lost (R603, R605), by its place and the count of losses (log entry 4). -/
opaque lostByte : Nat → BitVec 8

/-- The bytes of the boot ROM and of the flash behind the xSPI window, by address; the spec prints no content (log entry 10). -/
opaque fixedByte : Nat → BitVec 8

/-- Which 20 MHz subchannel of radio `x`'s channel is its primary one; the spec names no register for it (log entry 6). -/
opaque primarySub : Nat → Nat

/-- The 20 MHz subchannels of radio `x` punctured statically; they stand in the EHT Operation element of firmware's
templates and in no register (log entry 7). -/
opaque staticPunct : Nat → Nat

/-- SHA-384 of the vendor's public keys 0 and 1, fixed in the boot ROM; the spec prints no value (R619, R642, log entry 9). -/
opaque vendorHash : Nat → List Nat

/-- Level in dBFS at the ADC of a ball level of 0 dBm at an analog gain of 0 dB (R139, log entry 336). -/
opaque adcRef : Int

/-- The maximum analog gain of a chain in dB (R141, log entry 336). -/
opaque gainMax : Nat

/-- The level in 0.25 dBFS to which the digital gain of the data portion brings the power of the STF (R142, log entry 336). -/
opaque digitalRef : Int

/-- The normalisation of the min-sum decoder, in 1/256 (R158, log entry 336). -/
opaque minSumNorm : Nat

/-- The share of a chain in a stream of a precoder whose lines were written over (R206), by radio, entry, chain and stream. -/
opaque spoiledShare : Nat → Nat → Nat → Nat → Nat

/-- The precoder kernel of the signed image stands at ENTRY_PREC (R450, log entry 351). -/
opaque precKernel : Nat → Bool

end Sys2Proof.Config
end

