-- ==== Sys2Proof/Machine/Ops.lean ====
section
/-! DEFINITION. The named operations every meaning is built from: register fields, events, counters, block states,
device time, memory by cell, free values, and what leaves the block. -/

namespace Sys2Proof.Machine

/-! ### Outcomes -/

/-- The next state in which the device is `f` of the device. -/
def State.onDev (s : State) (f : Dev → Dev) : Host.Outcome State Fault Refusal :=
  .next { s with dev := f s.dev }

/-! ### Register words and fields -/

/-- The key of a register in the register file. -/
def regKey (p o : Nat) : Nat := p * 0x10000 + o

/-- The reset value under a register key. -/
def regDefault (k : Nat) : BitVec 32 := regReset (k / 0x10000) (k % 0x10000)

/-- The register word at offset `o` of page `p`. -/
def Dev.rdW (d : Dev) (p o : Nat) : BitVec 32 := lookD regDefault d.regs (regKey p o)

/-- Set a register word. -/
def Dev.wrW (d : Dev) (p o : Nat) (v : BitVec 32) : Dev :=
  { d with regs := putD regDefault d.regs (regKey p o) v }

/-- Offsets from `lo` up to but not `hi` of page `p` that do not hold their reset value, ascending. -/
def Dev.listed (d : Dev) (p lo hi : Nat) : List Nat :=
  (d.regs.filter fun e => decide (p * 0x10000 + lo ≤ e.1) && decide (e.1 < p * 0x10000 + hi)).map
    fun e => e.1 - p * 0x10000

/-- Ones in the `w` bits from `lo`. -/
def fieldMask (lo w : Nat) : BitVec 32 := BitVec.setWidth 32 (BitVec.allOnes w) <<< lo

/-- `v` with the `w` bits from `lo` replaced by those of `n`. -/
def setBits (v : BitVec 32) (lo w n : Nat) : BitVec 32 :=
  (v &&& ~~~(fieldMask lo w)) ||| (BitVec.setWidth 32 (BitVec.ofNat w n) <<< lo)

/-- A field of page `p`. -/
def Dev.rd (d : Dev) (p : Nat) (f : Fld) : Nat := ((d.rdW p f.off).extractLsb' f.lo f.w).toNat

/-- A one-bit field of page `p`. -/
def Dev.rdB (d : Dev) (p : Nat) (f : Fld) : Bool := d.rd p f != 0

/-- A signed field of page `p`. -/
def Dev.rdS (d : Dev) (p : Nat) (f : Fld) : Int := toSigned f.w (d.rd p f)

/-- Set a field of page `p` to the low bits of `n`. -/
def Dev.wr (d : Dev) (p : Nat) (f : Fld) (n : Nat) : Dev :=
  d.wrW p f.off (setBits (d.rdW p f.off) f.lo f.w n)

/-- Set a signed field. -/
def Dev.wrS (d : Dev) (p : Nat) (f : Fld) (i : Int) : Dev := d.wr p f (ofSigned f.w i)

/-- Add `n` to a counting field, which saturates at its largest value. -/
def Dev.cnt (d : Dev) (p : Nat) (f : Fld) (n : Nat := 1) : Dev :=
  d.wr p f (min (d.rd p f + n) (2 ^ f.w - 1))

/-- Add `n` to a field modulo its width (ring indices). -/
def Dev.bump (d : Dev) (p : Nat) (f : Fld) (n : Nat := 1) : Dev := d.wr p f (d.rd p f + n)

/-- Bit `b` of a register as a field. -/
def Fld.bitOf (f : Fld) (b : Nat) : Fld := { f with lo := f.lo + b, w := 1 }

/-- Set bit `b` of INT_RAW of page `p` (an event of the page). -/
def Dev.ev (d : Dev) (p b : Nat) : Dev := d.wr p (INT_RAW.word.bitOf b) 1

/-- Do `f` when `c` holds. -/
def Dev.when (d : Dev) (c : Bool) (f : Dev → Dev) : Dev := if c then f d else d

/-- Do `f` for each index below `n`, in ascending order. -/
def Dev.each (d : Dev) (n : Nat) (f : Nat → Dev → Dev) : Dev := (List.range n).foldl (fun e i => f i e) d

/-- Do `f` for each element, in order. -/
def Dev.forAll {α : Type} (d : Dev) (l : List α) (f : α → Dev → Dev) : Dev := l.foldl (fun e a => f a e) d

/-! ### Block states (R51, R59, R62, R63) -/

def BState.code : BState → Nat
  | .stopped => 0 | .starting => 1 | .running => 2 | .draining => 3 | .fault => 4

def BState.ofCode : Nat → BState
  | 1 => .starting | 2 => .running | 3 => .draining | 4 => .fault | _ => .stopped

/-- STATE of page `p`. -/
def Dev.bstate (d : Dev) (p : Nat) : BState := BState.ofCode (d.rd p STATE.STATE)

def Dev.setState (d : Dev) (p : Nat) (b : BState) : Dev := d.wr p STATE.STATE b.code

def Dev.inReset (d : Dev) (p : Nat) : Bool := d.rdB p STATE.IN_RESET
def Dev.unpowered (d : Dev) (p : Nat) : Bool := d.rdB p STATE.UNPOWERED
def Dev.discarding (d : Dev) (p : Nat) : Bool := (look d.disc p).isSome

/-- A page is in service: RUNNING, powered, not in reset, and not discarding its work ("Requests to a block out of
service"). -/
def Dev.inService (d : Dev) (p : Nat) : Bool :=
  decide (d.bstate p = .running) && !d.inReset p && !d.unpowered p && !d.discarding p

/-- A page still carries out work it accepted: in service, or DRAINING. -/
def Dev.active (d : Dev) (p : Nat) : Bool :=
  (decide (d.bstate p = .running) || decide (d.bstate p = .draining)) && !d.inReset p && !d.unpowered p
    && !d.discarding p

/-- Power state: 0 Run to 5 Off (R666). -/
def Dev.pstate (d : Dev) : Nat := d.rd 0x001 PWR_STATE.STATE

/-- The power state is Run: outside it no radio, MON or TAG executes beats (R6). -/
def Dev.inRun (d : Dev) : Bool := decide (d.pstate = 0)

/-- The control cluster and the fabric do not answer: the device is in reset, in Nap or a deeper state, or on its way back from
one (R666, R668). -/
def Dev.dark (d : Dev) : Bool :=
  d.balls.resetLow || decide (3 ≤ d.pstate) || (decide (d.rd 0x001 PWR_STATE.PHASE = 2) && decide (3 ≤ d.rd 0x001 PWR_WAKE_REC0.FROM))

/-- A page answers nothing but PAGE_ID, PAGE_VER and STATE: held in reset or unpowered (R59), the real-time clock in its
lockout (R707), PCI Express with its domain off. -/
def Dev.shut (d : Dev) (p : Nat) : Bool :=
  (hasHeader p && (d.inReset p || d.unpowered p)) || (decide (p = 0x002) && d.rtc.lockout)
    || (decide (0x130 ≤ p) && decide (p ≤ 0x133) && !d.rdB 0x001 PWR_DOM_STAT.PCIE)

/-- A page detects a fault (R51, R63): in FAULT it only counts in MORE; otherwise the record is kept and the page goes
to FAULT, at once when it holds no work (STOPPED, STARTING) and after the discard of its work otherwise. -/
def Dev.enterFault (d : Dev) (p : Nat) (f : FaultRec) : Dev :=
  if d.bstate p = .fault then d.cnt p FAULT_CODE.MORE
  -- the page is on its way to FAULT: the first fault caused the entry (R50)
  else if look d.disc p = some true then d
  else
    let d := d.wrW p FAULT_CODE.CODE.off (BitVec.ofNat 32 (f.code % 256 + 256 * (f.detail % 256)))
    let d := d.wrW p FAULT_ADDR.ADDR.off
      (BitVec.ofNat 32 (if f.code = 0x01 ∨ f.code = 0x04 ∨ (f.code = 0x41 ∧ 0x050 ≤ p ∧ p < 0x060) then f.addr else 0))
    if d.bstate p = .running ∨ d.bstate p = .draining then { d with disc := put d.disc p true }
    else (d.setState p .fault).ev p 0

/-- A fault of code `c`. -/
def Dev.fault (d : Dev) (p c : Nat) (detail : Nat := 0) : Dev := d.enterFault p ⟨c, detail, 0⟩

/-! ### Device time -/

/-- 1 ns in units of `now`. -/
def nsU : Nat := 2 ^ 48

/-- 1 µs in units of `now`. -/
def usU : Nat := 1000 * nsU

/-- One beat, 250 µs, in units of `now` (R16). -/
def beatU : Nat := 250 * usU

/-- Device time in whole nanoseconds. -/
def Dev.ns (d : Dev) : Nat := d.now / nsU

/-- Device time reaches `t`, when it lies ahead. -/
def Dev.reach (d : Dev) (t : Nat) : Dev := { d with now := max d.now t }

/-- Position of the last boundary in its round, and the round (R16, R791). -/
def Dev.pos (d : Dev) : Nat := d.beat % 16
def Dev.round (d : Dev) : Nat := d.beat / 16

/-! ### Free values and outputs -/

/-- The completion of the request being served. -/
def Dev.complete (d : Dev) (c : Code) (data : Nat := 0) : Dev := { d with lastCode := c, lastData := data }

/-- The registers of page `p` answer: the fabric runs, and the page is neither held in reset nor unpowered (R59, R666). -/
def Dev.answers (d : Dev) (p : Nat) : Bool := !d.dark && !d.shut p

/-- A register access of page `p` that does `f`, where the page answers. -/
def Dev.regDo (d : Dev) (p : Nat) (f : Dev → Dev) : Dev := if d.answers p then f d else d.complete .unavailable

/-- Draw a free value of `w` bits. -/
def Dev.draw (d : Dev) (w : Nat) : Dev × Nat :=
  ({ d with draws := d.draws + 1 }, Config.freeValue d.draws % 2 ^ w)

/-- Set a field to a free value. -/
def Dev.wrFree (d : Dev) (p : Nat) (f : Fld) : Dev :=
  let (d, v) := d.draw f.w
  d.wr p f v

def Dev.emit (d : Dev) (e : Emit) : Dev := { d with out := d.out ++ [e] }

/-- Draw `n` free octets (R65). -/
def Dev.drawOctets (d : Dev) (n : Nat) : Dev × List Nat :=
  ({ d with draws := d.draws + n }, (List.range n).map fun i => Config.freeValue (d.draws + i) % 256)

/-! ### Memory by cell -/

def sramBase : Nat := 0x10000000
def hamperBase : Nat := 0x11000000
def kovBase : Nat := 0x12000000
def dramBase : Nat := 0x800000000

/-- log2 of ILV_GROUPS, for the values 1, 2, 4 and 8. -/
def ilvLog (k : Nat) : Nat := if k ≤ 1 then 0 else if k ≤ 2 then 1 else if k ≤ 4 then 2 else 3

/-- Bank and row of the shared SRAM word at offset `o` (R573). -/
def sramPlace (k o : Nat) : Nat × Nat :=
  if o < k * 0x200000 then
    (bits o 3 (3 + ilvLog k), bits o (6 + ilvLog k) 15)
  else (8 * bits o 21 3 + bits o 3 3, bits o 6 15)

def Dev.ilv (d : Dev) : Nat := d.rd 0x078 SRM_MAP.ILV_GROUPS

/-- DRAM geometry: row bits `r`, ranks, capacity (R593). -/
def Dev.dramR (d : Dev) : Nat := 14 + min 2 (d.rd 0x079 DRM_GEOM.DENSITY)
def Dev.dramRanks (d : Dev) : Nat := if d.rdB 0x079 DRM_GEOM.RANKS then 2 else 1
def Dev.dramSize (d : Dev) : Nat := d.dramRanks * 2 ^ (17 + d.dramR)

/-- Segment of a DRAM offset: rank and eighth of the rank (R603). -/
def Dev.dramSeg (d : Dev) (o : Nat) : Nat := o / 2 ^ (14 + d.dramR)

/-- The cell that holds the byte at address `a`: the bank and row of shared SRAM under the mapping in force (R574),
the address itself elsewhere; a DRAM segment whose content was lost has new cells (R603, R605), and so have the Koveton
memories after a loss of supply (R59). -/
def Dev.cell (d : Dev) (a : Nat) : Nat :=
  if sramBase ≤ a ∧ a < hamperBase then
    let br := sramPlace d.ilv (a - sramBase)
    sramBase + br.1 * 0x40000 + br.2 * 8 + a % 8
  else if dramBase ≤ a ∧ a < 0xC00000000 then a + 2 ^ 40 * lookOr 0 d.ms.loss (d.dramSeg (a - dramBase))
  else if kovBase ≤ a ∧ a < 0x13000000 then a + 2 ^ 40 * lookOr 0 d.ms.loss 16
  else a

/-- What a cell that nothing has written reads as: 0 (R581 for shared SRAM, R586 for the hamper, log entry 5 for the
rest), or a value the spec leaves open in the boot ROM and the flash and where DRAM content was lost. -/
def memFill (k : Nat) : BitVec 8 :=
  if k < 0x08000000 then Config.fixedByte k else if k < 2 ^ 40 then 0 else Config.lostByte k

/-- The canonical form of memory: addresses strictly rising, nothing listed that reads so anyway. -/
def Memory.wf (m : List Host.Cell) : Bool := canonical memFill m

/-- Where the coefficient lines of a radio's precoder store stand among the cells; no address of R37 leads there. -/
def precBase (x : Nat) : Nat := 2 ^ 39 + x * 2 ^ 21

/-- The byte at address `a`. -/
def Dev.ldB (d : Dev) (a : Nat) : BitVec 8 := lookD memFill d.mem (d.cell a)

/-- Store a byte. -/
def Dev.stB (d : Dev) (a : Nat) (v : BitVec 8) : Dev := { d with mem := putD memFill d.mem (d.cell a) v }

/-- `n` bytes from address `a`. -/
def Dev.ldBytes (d : Dev) (a n : Nat) : List Nat := (List.range n).map fun i => (d.ldB (a + i)).toNat

/-- The little-endian number in the `n` bytes at address `a`. -/
def Dev.ld (d : Dev) (a n : Nat) : Nat := ofLeBytes (d.ldBytes a n)

/-- The 8-byte word at address `a` has an error that cannot be corrected (R576). -/
def Dev.wordBad (d : Dev) (a : Nat) : Bool := d.ms.bad.contains (d.cell a / 8)

/-- A word among `n` bytes at `a` has an error that cannot be corrected. -/
def Dev.badIn (d : Dev) (a n : Nat) : Bool := !d.ms.bad.isEmpty && (List.range n).any fun i => d.wordBad (a + i)

/-- A write of `n` bytes at `a` gives every word it covers whole a correct code again. -/
def Dev.heal (d : Dev) (a n : Nat) : Dev :=
  let whole := (List.range n).filter fun i => decide ((a + i) % 8 = 0) && decide (i + 8 ≤ n)
  { d with ms := { d.ms with bad := d.ms.bad.filter fun w => !(whole.any fun i => decide (d.cell (a + i) / 8 = w)) } }

/-- Cells from `lo` up to but not `hi` are written anew, with a correct code. -/
def Dev.freshCells (d : Dev) (lo hi : Nat) : Dev :=
  { d with mem := delRange d.mem lo hi, ms := { d.ms with bad := d.ms.bad.filter fun w => decide (w * 8 < lo) || decide (hi ≤ w * 8) } }

/-- Store bytes from address `a` up. -/
def Dev.stBytes (d : Dev) (a : Nat) : List Nat → Dev
  | [] => d
  | b :: r => (d.stB a (BitVec.ofNat 8 b)).stBytes (a + 1) r

/-- Store `v` little-endian in `n` bytes at address `a`. -/
def Dev.st (d : Dev) (a n v : Nat) : Dev := d.stBytes a (leBytes n v)

/-- Store 32-bit words from address `a` up. -/
def Dev.stWords (d : Dev) (a : Nat) (l : List Nat) : Dev := (d.stBytes a (l.flatMap (leBytes 4))).heal a (4 * l.length)

/-- The thermos group of a shared SRAM address. -/
def Dev.groupOf (d : Dev) (a : Nat) : Nat := (sramPlace d.ilv (a - sramBase)).1 / 8

/-- The regions of the address map (R37). -/
inductive Region where
  | rom | xspi | sram | hamper | kov | regs | pcie | dram | none
deriving DecidableEq, Repr

def regionOf (a : Nat) : Region :=
  if a < 0x40000 then .rom
  else if 0x04000000 ≤ a ∧ a < 0x08000000 then .xspi
  else if 0x10000000 ≤ a ∧ a < 0x11000000 then .sram
  else if 0x11000000 ≤ a ∧ a < 0x11100000 then .hamper
  else if 0x12000000 ≤ a ∧ a < 0x13000000 then .kov
  else if 0x20000000 ≤ a ∧ a < 0x30000000 then .regs
  else if 0x40000000 ≤ a ∧ a < 0x140000000 then .pcie
  else if 0x800000000 ≤ a ∧ a < 0xC00000000 then .dram
  else .none

/-- State of thermos group `g`: 0 ON, 1 WAKING, 2 RET, 3 OFF, 4 ZEROING (R579). -/
def Dev.group (d : Dev) (g : Nat) : Nat := d.rd 0x078 (SRM_GROUP_STAT.STATE g)

/-- The completion a block's own access to address `a` gets: the thermos states for shared SRAM (an access to a
retained group with AUTOWAKE waits for its wake and is served), the wipe for the hamper, page 0x079 and the capacity
for DRAM. -/
def Dev.memCode (d : Dev) (a : Nat) : Code :=
  match regionOf a with
  | .sram =>
    let g := d.groupOf a
    if d.inReset 0x078 then .unavailable else
    if d.group g = 0 ∨ d.group g = 1 then .okay
    else if d.group g = 2 ∧ bit (d.rd 0x078 SRM_THERMOS_CFG.AUTOWAKE) g then .okay
    else .unavailable
  | .hamper => if d.rdB 0x078 SRM_HAMPER.WIPING || d.inReset 0x078 then .unavailable else .okay
  | .dram =>
    if d.dramSize ≤ a - dramBase then .decodeError
    else if d.inService 0x079 then .okay else .unavailable
  | .kov =>
    let k := (a - kovBase) / 0x100000
    if 0x48000 ≤ (a - kovBase) % 0x100000 then .decodeError
    else if d.inReset (0x050 + k) || d.unpowered (0x050 + k) then .unavailable
    else .okay
  | .rom | .xspi => .okay
  | .regs | .pcie | .none => .decodeError

def Dev.memOk (d : Dev) (a : Nat) : Bool := decide (d.memCode a = .okay)

/-- Every 64-byte piece of `n` bytes at `a` is accessible. -/
def Dev.memOkN (d : Dev) (a n : Nat) : Bool :=
  d.memOk a && (List.range (n / 64)).all fun i => d.memOk (a + 64 * i) && d.memOk (a + n - 1)

/-- A block's own read of `n` bytes at `a` completes OKAY (R60): the memory answers, and no word is beyond correction. -/
def Dev.rdOk (d : Dev) (a n : Nat) : Bool := d.memOkN a n && !d.badIn a n

/-- A block's own write of `n` bytes at `a` completes OKAY: the boot ROM and the flash take none (R37). -/
def Dev.wrOk (d : Dev) (a n : Nat) : Bool :=
  d.memOkN a n && decide (regionOf a ≠ .rom) && decide (regionOf a ≠ .xspi)

/-! ### Checksums -/

/-- One bit of the CRC-16 of R103 (polynomial 0x1021, most significant bit first). -/
def crc16Bit (c : Nat) : Nat := if c < 0x8000 then c * 2 else (c * 2 % 0x10000) ^^^ 0x1021

def crc16Byte (c b : Nat) : Nat :=
  crc16Bit (crc16Bit (crc16Bit (crc16Bit (crc16Bit (crc16Bit (crc16Bit (crc16Bit (c ^^^ (b * 256)))))))))

/-- CRC-16 over bytes, initial value 0xFFFF. -/
def crc16 (l : List Nat) : Nat := l.foldl crc16Byte 0xFFFF

/-- One bit of the IEEE 802.3 CRC-32, least significant bit first. -/
def crc32Bit (c : Nat) : Nat := if c % 2 = 0 then c / 2 else (c / 2) ^^^ 0xEDB88320

def crc32Byte (c b : Nat) : Nat :=
  crc32Bit (crc32Bit (crc32Bit (crc32Bit (crc32Bit (crc32Bit (crc32Bit (crc32Bit (c ^^^ b))))))))

/-- CRC-32 of IEEE 802.3 over bytes. -/
def crc32 (l : List Nat) : Nat := (l.foldl crc32Byte 0xFFFFFFFF) ^^^ 0xFFFFFFFF

end Sys2Proof.Machine
end

