-- ==== Sys2Proof/Machine/Detector.lean ====
section
/-! DEFINITION. MIMO detection (R153 to R157, R168), pilot correction (R144) and the LDPC decoder (R158, R159). -/

namespace Sys2Proof.Machine

/-! ### Constellations -/

/-- Bits per symbol of a stream by format and MCS, or by rate index of a non-HT PPDU. PRESUMED (log entry 337): the rate tables of
IEEE 802.11. -/
def consBits (format mcs : Nat) : Nat :=
  if format ≤ 1 then nth 1 [1, 1, 2, 2, 4, 4, 6, 6] mcs
  else nth 1 [1, 2, 2, 4, 4, 6, 6, 6, 8, 8, 10, 10, 12, 12] (if format = 2 then mcs % 8 else mcs)

/-- Required SINR in dB by bits per symbol (R155). -/
def reqSinr (b : Nat) : Nat := if b ≤ 1 then 4 else if b = 2 then 7 else 7 + 3 * (b - 2)

/-- The nearest point of a constellation axis of `m` levels at the odd multiples of `s`. -/
def sliceAxis (m : Nat) (s v : Fr) : Fr :=
  let i := 2 * ((v.div s).mul ⟨1, 2⟩).floor + 1
  s.mul ⟨min (max i (1 - (m : Int))) ((m : Int) - 1), 1⟩

/-- The hard decision on a symbol of `b` bits, of unit mean power. DESIGN CHOICE (log entry 335): the scale, an irrational number, is
taken to 2^-30. -/
def slice (b : Nat) (z : Cx) : Cx :=
  if b ≤ 1 then ⟨if z.re.num < 0 then ⟨-1, 1⟩ else Fr.one, Fr.zero⟩
  else
    let m := 2 ^ (b / 2)
    let s : Fr := ⟨Nat.sqrt (2 ^ 60 * 3 / (2 * (m * m - 1))), 2 ^ 30⟩
    ⟨sliceAxis m s z.re, sliceAxis m s z.im⟩

/-! ### Filters and ordering (R153 to R155) -/

/-- The MMSE filter and post-detection SINR of each of the streams `cols`, detected together: stream, filter row, SINR. -/
def mmse (h : Mat) (noise : Fr) (cols : List Nat) : List (Nat × List Cx × Fr) :=
  let hc := h.cols cols
  let n := cols.length
  let hh := hc.herm n
  let inv := ((hh.mul hc n).load noise).inv n
  let w := inv.1.mul hh h.length
  cols.zipIdx.map fun c =>
    let err := noise.mul (nth Cx.zero (nth [] inv.1 c.2) c.2).re
    (c.1, nth [] w c.2, (Fr.one.div err).sub Fr.one)

/-- Mean SINR over the tones of a unit of stream `s`, detected together with `cols`. -/
def meanSinr (tones : List RxTone) (noise : Fr) (cols : List Nat) (s : Nat) : Fr :=
  (Fr.sum (tones.map fun t => match (mmse t.f noise cols).find? fun e => decide (e.1 = s) with
    | some e => e.2.2
    | none => Fr.zero)).div ⟨tones.length, 1⟩

/-- Insert a stream among those of decreasing SINR, behind its equals. -/
def insertSinr (e : Nat × Fr) : List (Nat × Fr) → List (Nat × Fr)
  | [] => [e]
  | f :: l => if e.2.leB f.2 then f :: insertSinr e l else e :: f :: l

/-- The streams of a unit by decreasing mean post-MMSE SINR (R153). -/
def streamOrder (tones : List RxTone) (noise : Fr) (n : Nat) : List Nat :=
  ((List.range n).foldl (fun l s => insertSinr (s, meanSinr tones noise (List.range n) s) l) []).map (·.1)

/-- How many streams are cancelled before the rest are detected jointly (R155), in order, with the SINR of each. -/
def cancelled (tones : List RxTone) (noise : Fr) (cons : List Nat) (margin : Nat) : List Nat → List (Nat × Fr)
  | [] => []
  | s :: l =>
    let q := meanSinr tones noise (s :: l) s
    if q.atLeastDb (reqSinr (nth 1 cons s) + margin) then (s, q) :: cancelled tones noise cons margin l else []

/-- Order and cancellation of a unit (R153 to R155). Without OSIC_EN every stream is detected by linear MMSE. -/
def unitPlan (tones : List RxTone) (noise : Fr) (cons : List Nat) (osic : Bool) (margin u : Nat) : RxUnit :=
  let ts := tones.filter fun t => decide (t.unit = u)
  let order := streamOrder ts noise cons.length
  let c := if osic then cancelled ts noise cons margin order else []
  let rest := order.drop c.length
  { unit := u, order := order, depth := c.length, sinr := c ++ rest.map fun s => (s, meanSinr ts noise rest s) }

/-- What a detector gives of a stream on a tone: its soft output, the MMSE output scaled by the SINR (R156), and its hard decision.
DESIGN CHOICE (log entry 335): the decision is made on the MMSE output freed of its bias. -/
def decide1 (cons : List Nat) (y : List Cx) (e : Nat × List Cx × Fr) : Nat × Cx × Cx :=
  let z := Cx.dot e.2.1 y
  (e.1, z.scale e.2.2, slice (nth 1 cons e.1) (z.scale ((e.2.2.add Fr.one).div e.2.2)))

/-- Detection on one tone: `n` streams in turn, each subtracted from what was received, then the rest jointly (R154 to R156). -/
def detectTone (t : RxTone) (noise : Fr) (cons : List Nat) : Nat → List Nat → List Cx → List (Nat × Cx × Cx)
  | _, [], _ => []
  | 0, rest, y => (mmse t.f noise rest).map (decide1 cons y)
  | n + 1, s :: rest, y =>
    match (mmse t.f noise (s :: rest)).head? with
    | none => []
    | some e =>
      let o := decide1 cons y e
      o :: detectTone t noise cons n rest (List.zipWith Cx.sub y ((Mat.col t.h s).map fun v => v.mul o.2.2))

/-- The tracked estimate of a tone after a symbol (R157). -/
def trackTone (t : RxTone) (mu : Nat) (y : List Cx) (x : List Cx) : List (List Cx) :=
  let e := List.zipWith Cx.sub y (t.h.map fun r => Cx.dot r x)
  List.zipWith (fun r ei => List.zipWith (fun v xi => v.add ((ei.mul xi.conj).scale (Fr.of 1 (2 ^ mu)))) r x) t.h e

/-- The correction of a tone's samples by what the symbol's pilots measured (R144). -/
def pilotFix (s : SymFact) (tone : Nat) (y : List (Int × Int)) : List Cx :=
  let r := (Cx.ofIQ 15 s.phase).mul ((Cx.ofIQ 15 s.slope).pow tone)
  y.map fun v => (Cx.ofIQ 15 v).mul r

/-- One data symbol of an RU: every tone corrected and detected, and from TRACK_START on tracked; the filters and the ordering are
computed again every 8 symbols (R153 to R157). -/
def RxRu.symbol (r : RxRu) (osic : Bool) (margin start mu : Nat) (s : SymFact) : RxRu :=
  let n := r.cons.length
  let track := decide (start ≠ 0) && decide (start ≤ s.t)
  let out : List (RxTone × List (Nat × Cx × Cx)) := r.tones.map fun t =>
    match s.y.find? fun e => decide (e.1 = t.tone) with
    | none => (t, [])
    | some e =>
      let y := pilotFix s t.tone e.2
      let (order, depth) := match r.units.find? fun (u : RxUnit) => decide (u.unit = t.unit) with
        | some u => (u.order, u.depth)
        | none => (List.range n, 0)
      let o := detectTone t r.noise r.cons depth order y
      let x := (List.range n).map fun i => match o.find? fun v => decide (v.1 = i) with
        | some v => v.2.2
        | none => Cx.zero
      ({ t with h := if track then trackTone t mu y x else t.h }, o)
  let anew := track && decide ((s.t - start) % 8 = 7)
  let tones := out.map fun o => if anew then { o.1 with f := o.1.h } else o.1
  { r with tones := tones,
           units := if anew then r.units.map fun (u : RxUnit) => unitPlan tones r.noise r.cons osic margin u.unit else r.units,
           lms := r.lms + b2n track,
           soft := out.flatMap fun o => o.2.map fun v => (o.1.tone, v.1, v.2.1) }

/-! ### LDPC (R158, R159) -/

/-- The most iterations a codeword gets: ITER_MAX up to 8; further ones only while fewer than four codewords wait (R159). -/
def iterLimit (itMax : Nat) (waiting : List Nat) : Nat :=
  if itMax ≤ 8 then itMax else 8 + ((waiting.take (itMax - 8)).takeWhile (· < 4)).length

/-- Every parity check of the hard decisions holds. -/
def syndromeZero (rows : List (List Nat)) (l : List Int) : Bool :=
  rows.all fun r => decide ((r.filter fun v => decide (nth 0 l v < 0)).length % 2 = 0)

/-- One layer of the normalised min-sum: the row's messages taken out, new ones computed and put in. -/
def minSumRow (acc : List Int × List (List Int)) (row : List Nat) (old : List Int) : List Int × List (List Int) :=
  let q := row.zipIdx.map fun v => nth 0 acc.1 v.1 - nth 0 old v.2
  let msg := q.zipIdx.map fun v =>
    let others := (q.eraseIdx v.2)
    let mag := others.foldl (fun (m : Option Nat) (o : Int) => match m with
      | none => some o.natAbs
      | some b => some (min b o.natAbs)) none
    let neg := decide ((others.filter (· < 0)).length % 2 = 1)
    let s : Int := ((mag.getD 0) * Config.minSumNorm / 256 : Nat)
    if neg then -s else s
  let l := row.zipIdx.foldl (fun (l : List Int) v => setAt l v.1 (nth 0 q v.2 + nth 0 msg v.2)) acc.1
  (l, acc.2 ++ [msg])

/-- Layered normalised min-sum over at most `n` further iterations from iteration `k`: the iterations used, and whether the syndrome
is zero, which ends the decoding. -/
def minSum (rows : List (List Nat)) : Nat → Nat → List Int → List (List Int) → Nat × Bool
  | 0, k, _, _ => (k, false)
  | n + 1, k, l, r =>
    let s := (rows.zip r).foldl (fun acc e => minSumRow acc e.1 e.2) (l, [])
    if syndromeZero rows s.1 then (k + 1, true) else minSum rows n (k + 1) s.1 s.2

/-- A codeword is decoded: iterations used and whether it converged. -/
def decodeCw (itMax : Nat) (c : CwFact) : Nat × Bool :=
  minSum c.rows (iterLimit itMax c.waiting) 0 c.llr (c.rows.map fun r => r.map fun _ => 0)

def DecStat.none : DecStat := { n := 0, fail := 0, iters := 0, peak := 0 }

/-- A decoded codeword counts. -/
def DecStat.add (s : DecStat) (r : Nat × Bool) : DecStat :=
  { n := s.n + 1, fail := s.fail + b2n !r.2, iters := s.iters + r.1, peak := max s.peak r.1 }

/-! ### A-MPDU subframes and FCS (R160) -/

/-- CRC-8 of an A-MPDU delimiter's first 16 bits. PRESUMED (log entry 337): IEEE 802.11. -/
def delimCrc (v : Nat) : Nat :=
  ((List.range 16).foldl (fun c i =>
    let fb := (c / 128 + v / 2 ^ i) % 2
    (c * 2 % 256) ^^^ (if fb = 1 then 0x07 else 0)) 0xFF) ^^^ 0xFF

/-- The delimiter's CRC as its octet spells it, the last bit of the register first. -/
def bitsTurned (v : Nat) : Nat := ((List.range 8).map fun i => v / 2 ^ i % 2 * 2 ^ (7 - i)).foldl (· + ·) 0

/-- The MPDU of an A-MPDU subframe: none when its delimiter is not valid. PRESUMED (log entry 337): the delimiter of IEEE 802.11. -/
def delimited (o : List Nat) : Option (List Nat) :=
  let w := ofLeBytes (o.take 2)
  let len := bits w 4 12 + bits w 2 2 * 4096
  if nth 0 o 3 = 0x4E ∧ nth 0 o 2 = bitsTurned (delimCrc w) ∧ len ≠ 0 ∧ 4 + len ≤ o.length then some ((o.drop 4).take len)
  else none

/-- The frame check sequence of an MPDU is right. -/
def fcsRight (m : List Nat) : Bool :=
  decide (4 ≤ m.length) && decide (ofLeBytes (m.drop (m.length - 4)) = crc32 (m.take (m.length - 4)))

/-- What the data of an MPDU gives: none without a valid delimiter, else whether its FCS is right and it is no longer than the
11,454 octets received (R218; DESIGN CHOICE, log entry 357: a longer one counts as bad). -/
def dataCheck (f : DataFact) : Option Bool :=
  (if f.aggregate then delimited f.octets else some f.octets).map fun m => fcsRight m && decide (m.length ≤ 11454)

end Sys2Proof.Machine
end

