-- ==== Sys2Proof/Machine/RxOps.lean ====
section
/-! DEFINITION. Receive reports (R173 to R175) and the end of a reception other than by its own PPDU (R93, R150). -/

namespace Sys2Proof.Machine

/-- Page of receive instance `x`: radios A, B, C and MON. -/
def rxPage (x : Nat) : Nat := 0x020 + x

def Dev.rxAt (d : Dev) (x : Nat) : Rx := nth Rx.reset d.rx x
def Dev.setRx (d : Dev) (x : Nat) (r : Rx) : Dev := { d with rx := setAt d.rx x r }

/-- The frequency offset applied at device time `ns` (R143): none before 7.2 µs, the coarse estimate, and from 16.0 µs the frozen
sum. -/
def Rx.offset (r : Rx) (ns : Nat) : Int :=
  if ns < r.startNs + 7200 then 0 else if ns < r.startNs + 16000 then r.coarse else r.coarse + r.fine

/-- The lowest frozen analog gain over the chains (R140). -/
def Rx.gainMin (r : Rx) : Nat :=
  match r.gains with
  | [] => Config.gainMax
  | g :: l => l.foldl min g

/-- Streams of user `u` among those of an RU, by the streams each user has. -/
def RxRu.streamsOf (r : RxRu) (nss : Nat → Nat) (u : Nat) : List Nat :=
  let before := r.users.takeWhile (· ≠ u)
  if r.users.contains u then (List.range (nss u)).map (· + (before.map nss).foldl (· + ·) 0) else []

/-- Streams of user `u` of the reception. -/
def Rx.nssOf (r : Rx) (u : Nat) : Nat :=
  match r.tbActive, r.tb with
  | true, some t => (t.users[u]?.map (·.nss)).getD 0
  | _, _ => r.nss

/-- The statistics words of user `u` (R175): what the detector and the decoder counted, beside what was measured. Several units or
RUs give their weakest SINR and their least cancellation (DESIGN CHOICE, log entry 338). -/
def Rx.statsOf (r : Rx) (u : Nat) (ldpc : Bool) (bad : Nat) (cfo timing : Int) (m : RxMeas) : RxStats :=
  let rus := r.rus.filter fun q => q.users.contains u
  let units := rus.flatMap fun q => q.units.map fun v => (v, q.streamsOf r.nssOf u)
  let sinr := units.flatMap fun v => v.1.sinr.filterMap fun e => if v.2.contains e.1 then some (e.2.quarterDb 255) else none
  let dec := lookOr DecStat.none r.dec u
  { cwFail := if ldpc then dec.fail else bad, iterMean := if dec.n = 0 then 0 else 8 * dec.iters / dec.n, iterPeak := dec.peak,
    rssi := ofSigned 8 m.rssi, snr := m.snr, evm := m.evm, nf := m.nf, cfo := ofSigned 16 cfo, timing := ofSigned 8 timing,
    rssiCh := m.rssiCh.map (ofSigned 8),
    sinrMin := match sinr with | [] => m.snr | a :: l => l.foldl min a,
    osicDepth := match units with | [] => 0 | a :: l => l.foldl (fun n v => min n v.1.depth) a.1.depth,
    lmsSyms := (rus.map (·.lms)).foldl max 0, gainMin := r.gainMin }

/-- Statistics of the reception as a whole: of its one user, or the common report of a trigger-based PPDU. -/
def Rx.statsAll (r : Rx) (ns : Nat) (m : RxMeas) : RxStats := r.statsOf 0 r.ldpc r.bad (r.offset ns) 0 m

/-- Statistics of trigger-based user `u`. -/
def Rx.statsTb (r : Rx) (u : Nat) (t : TbUser) (m : RxMeas) : RxStats := r.statsOf u t.ldpc t.bad t.cfo t.timing m

/-- What a reception that ends before its end has measured: the levels of its chains and their sum; its other measurements are not
stated, and free. -/
def Dev.rxMeasNow (d : Dev) (x : Nat) : Dev × RxMeas :=
  let r := d.rxAt x
  let (d, snr) := d.draw 8
  let (d, evm) := d.draw 8
  let (d, nf) := d.draw 8
  (d, { rssi := dbmNear ((r.levels.map fun l => mwQ (4 * l)).foldl (· + ·) 0) / 4, rssiCh := r.levels, snr := snr, evm := evm,
        nf := nf })

/-- The sixteen words of a report (R175). -/
def rxWords (r : Rx) (seq status user sta ruSize ruPos mcs nss ok bad reason rise : Nat) (ldpc : Bool)
    (m : RxStats) : List Nat :=
  let ch := (List.range 16).map fun i => nth 0x80 m.rssiCh i % 256
  let w4 (i : Nat) := ofLeBytes [nth 0 ch (4 * i), nth 0 ch (4 * i + 1), nth 0 ch (4 * i + 2), nth 0 ch (4 * i + 3)]
  [ seq % 2 ^ 16 + status % 16 * 2 ^ 16 + r.format % 16 * 2 ^ 20 + user % 256 * 2 ^ 24,
    r.startNs % 2 ^ 32,
    r.startFrac % 2 ^ 16 + r.dur01 % 2 ^ 16 * 2 ^ 16,
    r.bw % 8 + b2n ldpc * 8 + r.punct % 2 ^ 16 * 16 + mcs % 32 * 2 ^ 20 + nss % 16 * 2 ^ 25 + r.giLtf % 8 * 2 ^ 29,
    ruSize % 32 + ruPos % 512 * 32 + sta % 2048 * 2 ^ 16,
    r.psduLen % 2 ^ 24 + reason % 256 * 2 ^ 24,
    min ok 0xFFFF + min bad 0xFFFF * 2 ^ 16,
    m.cwFail % 2 ^ 16 + m.iterMean % 256 * 2 ^ 16 + m.iterPeak % 256 * 2 ^ 24,
    m.rssi % 256 + m.snr % 256 * 2 ^ 8 + m.evm % 256 * 2 ^ 16 + m.nf % 256 * 2 ^ 24,
    m.cfo % 2 ^ 16 + m.timing % 256 * 2 ^ 16 + rise % 256 * 2 ^ 24,
    w4 0, w4 1, w4 2, w4 3,
    m.sinrMin % 256 + m.osicDepth % 16 * 2 ^ 8 + min m.lmsSyms 0xFFFF * 2 ^ 16,
    r.colour % 64 + b2n r.obss * 64 + b2n r.est * 128 + m.gainMin % 256 * 2 ^ 8 ]

/-- Publish one report: only when its STATUS passes the filter, only with room in the ring, the index advancing after
all 64 bytes (R173, R174); a write that is refused, or goes past shared SRAM, is a fault of the page. -/
def Dev.rxPublish (d : Dev) (x status : Nat) (words : Nat → List Nat) : Dev :=
  let p := rxPage x
  if bit (d.rd p RXP_REP_CFG.FILTER) status = false then d
  else
    let wr := d.rd p RXP_REP_WR.WR
    let rdI := d.rd p RXP_REP_RD.RD
    let n := 2 ^ d.rd p RXP_REP_CFG.LOG2_N
    if (wr + 0x10000 - rdI) % 0x10000 = n then (d.cnt p RXP_CNT_REPDROP.COUNT).ev p 9
    else
      let a := d.rd p RXP_REP_BASE.BASE * 64 + (wr % n) * 64
      if regionOf a = .sram ∧ d.memOk a then ((d.stWords a (words wr)).bump p RXP_REP_WR.WR).ev p 8
      else d.enterFault p ⟨0x04, 0, a⟩

/-- Count a reception by the status it ended with (the counters of the receive page). -/
def Dev.rxCount (d : Dev) (x status : Nat) : Dev :=
  let p := rxPage x
  if status = 0 then d.cnt p RXP_CNT_OK.COUNT
  else if status = 1 then d.cnt p RXP_CNT_CWERR.COUNT
  else if status = 2 then d.cnt p RXP_CNT_SIGFAIL.COUNT
  else if status = 3 then d.cnt p RXP_CNT_RESTART.COUNT
  else if status = 4 then d.cnt p RXP_CNT_UNSUP.COUNT
  else if status = 5 ∨ status = 6 ∨ status = 7 ∨ status = 10 then d.cnt p RXP_CNT_ABANDON.COUNT
  else if status = 8 then d.cnt p RXP_CNT_NOSIG.COUNT
  else d

/-- The words of a user's report of a trigger-based PPDU: GI, LTF and length are the trigger's (R175). -/
def Rx.tbWords (r : Rx) (t : TbParams) (u : Nat) (w : TbUser) (seq status reason rise : Nat) (m : RxMeas) : List Nat :=
  rxWords { r with giLtf := t.giLtf, psduLen := w.psduLen } seq status u w.sta w.ruSize w.ruPos w.mcs w.nss w.ok w.bad reason
    rise w.ldpc (r.statsTb u w m)

/-- The words of the common report of a trigger-based PPDU (R169). -/
def Rx.commonWords (r : Rx) (t : TbParams) (ns seq status reason rise : Nat) (m : RxMeas) : List Nat :=
  rxWords { r with giLtf := t.giLtf, psduLen := 0 } seq status 0xFF 0x7FF 31 0 0 0 ((t.users.map (·.ok)).foldl (· + ·) 0)
    ((t.users.map (·.bad)).foldl (· + ·) 0) reason rise false (r.statsAll ns m)

/-- The words of a single-user report. -/
def Rx.ownWords (r : Rx) (ns seq status reason rise : Nat) (m : RxMeas) : List Nat :=
  rxWords r seq status 0xFE 0x7FF r.ruSize r.ruPos r.mcs r.nss r.ok r.bad reason rise r.ldpc (r.statsAll ns m)

/-- The report(s) of a reception that ends with one status for all: a single-user report, or the common report and
one per user for a TB PPDU (R169). -/
def Dev.rxReportAll (d : Dev) (x status reason rise : Nat) : Dev :=
  let r := d.rxAt x
  let (d, m) := d.rxMeasNow x
  let ns := d.ns
  match r.tbActive, r.tb with
  | true, some t =>
    let d := d.rxPublish x status fun i => r.commonWords t ns i status reason rise m
    d.forAll t.users.zipIdx fun ui e => e.rxPublish x status fun i => r.tbWords t ui.2 ui.1 i status reason rise m
  | _, _ => d.rxPublish x status fun i => r.ownWords ns i status reason rise m

/-- The field in which a reception is abandoned (REASON of R175). -/
def RxPhase.reason : RxPhase → Nat
  | .idle | .agc => 0
  | .found => 1
  | .sig => 2
  | .ltf => 3
  | .data => 4

/-- A reception that was detected is in progress. -/
def Rx.receiving (r : Rx) : Bool := decide (r.phase ≠ .idle) && decide (r.phase ≠ .agc)

/-- The instance forgets its reception; the trigger parameters end with a TB reception. -/
def Rx.ended (r : Rx) : Rx :=
  { Rx.reset with hold := r.hold, ref := r.ref, cca := r.cca, tb := if r.tbActive then none else r.tb }

/-- The chains of an instance return to idle gain: LNA bypass inactive (R141). -/
def Dev.rxIdle (d : Dev) (x : Nat) : Dev := d.setRx x (d.rxAt x).ended

/-- Abandon the reception in progress on instance `x` with a status (R93, R150); an energy rise that was not detected
makes no report. -/
def Dev.rxAbandon (d : Dev) (x status : Nat) : Dev :=
  let r := d.rxAt x
  if r.receiving then
    ((d.rxReportAll x status r.phase.reason 0).rxCount x status).rxIdle x
  else d.rxIdle x

end Sys2Proof.Machine
end

