-- ==== Sys2Proof/Machine/PoolOps.lean ====
section
/-! DEFINITION. Shared operations of the chain pool: quads and chains of a radio (R76 to R80), channels and pairs (R85
to R89), the regulatory table and the clamps (R125 to R132), the calibration store (R102 to R107), the end of a
transmit command (R100, R216). -/

namespace Sys2Proof.Machine

def synPage : Nat := 0x016
def calPage : Nat := 0x017
def quadPage (q : Nat) : Nat := 0x010 + q

/-! ### Quads and chains -/

/-- The quads that name radio `x` in CHP_QUAD_OWNER, ascending (R76, R80). -/
def Dev.ownedQuads (d : Dev) (x : Nat) : List Nat :=
  (List.range 6).filter fun q => decide (d.rd (quadPage q) CHP_QUAD_OWNER.OWNER = x + 1)

/-- The owned quads whose pages are RUNNING. -/
def Dev.runningQuads (d : Dev) (x : Nat) : List Nat :=
  (d.ownedQuads x).filter fun q => d.inService (quadPage q)

/-- The quads a radio owns as a set, bit q for Qq (R84). -/
def Dev.ownedSet (d : Dev) (x : Nat) : Nat := ((d.ownedQuads x).map (2 ^ ·)).foldl (· + ·) 0

/-- The owned quads that are RUNNING as a set (R83). -/
def Dev.quadSet (d : Dev) (x : Nat) : Nat := ((d.runningQuads x).map (2 ^ ·)).foldl (· + ·) 0

/-- Chains of a radio (R80). -/
def Dev.radioChains (d : Dev) (x : Nat) : Nat := 4 * (d.ownedQuads x).length

/-- The chain CHn of radio chain `r` of radio `x`, if owned (R80). -/
def Dev.chainOf (d : Dev) (x r : Nat) : Option Nat :=
  match (d.ownedQuads x)[r / 4]? with
  | some q => some (4 * q + r % 4)
  | none => none

/-- A chain is masked: its bit of CHP_CHAIN_MASK, and of the copy in CHP_QUAD_STAT. -/
def Dev.maskChain (d : Dev) (c : Nat) : Dev :=
  let p := quadPage (c / 4)
  (d.wr p (CHP_CHAIN_MASK.MASK.bitOf (c % 4)) 1).wr p (CHP_QUAD_STAT.MASKED.bitOf (c % 4)) 1

/-- A chain may transmit: its quad page is RUNNING and its mask bit is 0 (R121, R794). -/
def Dev.chainUsable (d : Dev) (c : Nat) : Bool :=
  d.inService (quadPage (c / 4)) && !bit (d.rd (quadPage (c / 4)) CHP_CHAIN_MASK.MASK) (c % 4)

/-- A radio is in service (R77). -/
def Dev.radioInService (d : Dev) (x : Nat) : Bool :=
  !(d.runningQuads x).isEmpty && d.inService (0x020 + x) && d.inService (0x028 + x) && d.inService (0x030 + x)

/-- The radio still carries out what it accepted: its pages are RUNNING or DRAINING (R217). -/
def Dev.radioServes (d : Dev) (x : Nat) : Bool :=
  !(d.runningQuads x).isEmpty && d.active (0x020 + x) && d.active (0x028 + x) && d.active (0x030 + x)

/-- The fence line is asserted (R36, R737). -/
def Dev.fenced (d : Dev) : Bool := d.rdB 0x080 TWN_ROLE.FENCE_IN || d.rdB 0x080 TWN_ROLE.SELF_FENCE

/-- The radio's lead time in ns: the largest over its RUNNING quads (R99, R115). -/
def Dev.leadNs (d : Dev) (x : Nat) : Nat :=
  ((d.runningQuads x).map fun q =>
    10 * (d.rd (quadPage q) CHP_FEM_TIME0.T_RXOFF_TXON + d.rd (quadPage q) CHP_FEM_TIME0.T_TXON_PAON
      + d.rd (quadPage q) CHP_FEM_TIME0.T_PAON_RF)).foldl max 0

/-! ### Channels -/

/-- Width in MHz of a WIDTH code. -/
def widthMhz (w : Nat) : Nat := 20 * 2 ^ w

/-- Edges of a channel in MHz: centre minus and plus half its width (R86). -/
def chanLo (c w : Nat) : Nat := c - widthMhz w / 2
def chanHi (c w : Nat) : Nat := c + widthMhz w / 2

/-- Band of a centre: 0 2.4 GHz, 1 5 GHz, 2 6 GHz (R4). -/
def bandOf (c : Nat) : Nat := if c < 2500 then 0 else if c < 5925 then 1 else 2

/-- `c` is the centre of an IEEE 802.11 channel of that width, the channel wholly inside one tuning range; 320 MHz only
at 6 GHz (R92; the channel plan is IEEE 802.11's, log entry 12). -/
def ieeeChannel (c w : Nat) : Bool :=
  let step (lo hi s : Nat) := decide (lo ≤ c) && decide (c ≤ hi) && decide ((c - lo) % s = 0)
  if w = 0 then step 2412 2472 5 || decide (c = 2484) || step 5180 5320 20 || step 5500 5720 20
      || step 5745 5885 20 || decide (c = 5935) || step 5955 7115 20
  else if w = 1 then step 2422 2462 5 || step 5190 5310 40 || step 5510 5710 40 || step 5755 5875 40
      || step 5965 7085 40
  else if w = 2 then step 5210 5290 80 || step 5530 5690 80 || step 5775 5855 80 || step 5985 7025 80
  else if w = 3 then decide (c = 5250) || decide (c = 5570) || decide (c = 5815) || step 6025 6985 160
  else if w = 4 then step 6105 6905 160
  else false

/-- The first check of R92: a legal channel no wider than the synthesiser's radio takes. -/
def channelOk (x c w : Nat) : Bool := ieeeChannel c w && (decide (w ≤ 3) || decide (x < 2))

def Dev.synState (d : Dev) (x : Nat) : Nat := d.rd synPage (CHP_SYN_STAT.SSTATE.at x)
def Dev.centre (d : Dev) (x : Nat) : Nat := d.rd synPage (CHP_SYN_STAT.CURRENT.at x)
def Dev.width (d : Dev) (x : Nat) : Nat := d.rd synPage (CHP_SYN_STAT.CUR_WIDTH.at x)
def Dev.locked (d : Dev) (x : Nat) : Bool := decide (d.synState x = 3)

/-- Two channels overlap (R87). -/
def overlap (c w c' w' : Nat) : Bool := decide (chanLo c w < chanHi c' w') && decide (chanLo c' w' < chanHi c w)

/-- Two channels form a non-STR pair: one band of R85, nearest edges less than 400 MHz apart (R86). -/
def nonStr (c w c' w' : Nat) : Bool :=
  decide ((bandOf c = 0) = (bandOf c' = 0))
    && decide (max (chanLo c w) (chanLo c' w') < min (chanHi c w) (chanHi c' w') + 400)

/-- The pair type of radios `x` and `y` at their present channels (R86). -/
def Dev.pairNonStr (d : Dev) (x y : Nat) : Bool :=
  decide (d.synState x ≠ 0) && decide (d.synState y ≠ 0) && nonStr (d.centre x) (d.width x) (d.centre y) (d.width y)

/-- Publish CHP_PAIR_STAT (R89). -/
def Dev.pairs (d : Dev) : Dev :=
  let d := d.wr synPage CHP_PAIR_STAT.AB_NONSTR (b2n (d.pairNonStr 0 1))
  let d := d.wr synPage CHP_PAIR_STAT.AC_NONSTR (b2n (d.pairNonStr 0 2))
  d.wr synPage CHP_PAIR_STAT.BC_NONSTR (b2n (d.pairNonStr 1 2))

/-! ### Regulatory table -/

/-- Parse a channel entry (R126). -/
def parseRegEntry (b : List Nat) : RegEntry :=
  let at' (i n : Nat) := ofLeBytes ((b.drop i).take n)
  { lo := at' 0 2, hi := at' 2 2, eirp := at' 4 1,
    psd := if at' 5 1 = 0x80 then none else some (toSigned 8 (at' 5 1)),
    dutyMax := at' 6 1 % 128, disallowed := bit (at' 7 1) 0, dfs := bit (at' 7 1) 1,
    indoorOnly := bit (at' 7 1) 2, noTx := bit (at' 7 1) 3, dutyWindow := at' 8 2 }

/-- A slot of 1,024 bytes qualifies (R125). -/
def regSlotOk (b : List Nat) : Bool :=
  decide (ofLeBytes (b.take 2) = 0xA7C3) && decide (1 ≤ nth 0 b 3) && decide (nth 0 b 3 ≤ 64)
    && decide (ofLeBytes ((b.drop 12).take 4) = crc32 (b.take 12 ++ b.drop 16))

def parseRegTab (b : List Nat) : RegTab :=
  { indoor := bit (nth 0 b 6) 0,
    entries := (List.range (nth 0 b 3)).map fun e => parseRegEntry ((b.drop (16 + 12 * e)).take 12),
    gains := (List.range 72).map fun i => toSigned 8 (nth 0 b (784 + i)) }

/-- The clamp selects the first qualifying slot, from slot 3 down, or sets REG_NONE (R125). `slots` holds the four. -/
def Dev.selectRegTable (d : Dev) (slots : List (List Nat)) : Dev :=
  match [3, 2, 1, 0].find? fun k => regSlotOk (nth [] slots k) with
  | some k =>
    let b := nth [] slots k
    let t := parseRegTab b
    let d := { d with pool := { d.pool with reg := some t } }
    let d := d.wr calPage CHP_REG_STAT.SLOT k
    let d := d.wr calPage CHP_REG_STAT.VALID 1
    let d := d.wr calPage CHP_REG_STAT.INDOOR (b2n t.indoor)
    let d := d.wr calPage CHP_REG_STAT.ENTRIES t.entries.length
    d.wr calPage CHP_REG_STAT.DOMAIN (ofLeBytes ((b.drop 4).take 2))
  | none => ({ d with pool := { d.pool with reg := none } }.wr calPage CHP_REG_STAT.VALID 0).ev calPage 12

/-- The frequencies, in half MHz and exclusive of the edges, at which coverage is tested: every half MHz strictly
between the edges. -/
def innerHalfMhz (lo hi : Nat) : List Nat := (List.range (2 * (hi - lo) - 1)).map fun i => 2 * lo + 1 + i

def RegEntry.covers2 (e : RegEntry) (f2 : Nat) : Bool := decide (2 * e.lo ≤ f2) && decide (f2 ≤ 2 * e.hi)

/-- A frequency (in half MHz) may be transmitted (R127). -/
def RegTab.mayTx (t : RegTab) (f2 : Nat) : Bool :=
  let cov := t.entries.filter (·.covers2 f2)
  !cov.isEmpty && cov.all fun e => !e.disallowed && !e.dfs && !e.noTx && (!e.indoorOnly || t.indoor)

/-- Every frequency strictly between two edges may be transmitted (R127). -/
def Dev.spanMayTx (d : Dev) (lo hi : Nat) : Bool :=
  match d.pool.reg with
  | none => false
  | some t => (innerHalfMhz lo hi).all t.mayTx

/-- The entries that give a channel its limits (R127). -/
def Dev.limitEntries (d : Dev) (lo hi : Nat) : List RegEntry :=
  match d.pool.reg with
  | none => []
  | some t => t.entries.filter fun e => decide (e.lo ≤ e.hi) && decide (e.lo < hi) && decide (lo < e.hi)

/-- The largest k with 10^(k/40) at most a/b: 40 log10(a/b) rounded down. -/
def log40Floor (a b : Nat) : Int :=
  (((List.range 300).map fun (i : Nat) => (i : Int) - 120).filter fun (k : Int) =>
    if 0 ≤ k then decide (10 ^ k.toNat * b ^ 40 ≤ a ^ 40) else decide (b ^ 40 ≤ a ^ 40 * 10 ^ (-k).toNat)).foldl max (-120)

/-- The clamp limit of R128 in 0.25 dB, rounded down, before the 6.0 dBm cap. -/
def clampRaw (t : RegTab) (es : List RegEntry) (chains : List Nat) (band w : Nat) : Int :=
  let g := (chains.map fun c => nth 0 t.gains (24 * band + c)).foldl max (-128)
  let n := chains.length
  let eirp := (es.map (·.eirp)).foldl min 255
  let viaEirp := eirp - g + log40Floor 1 n
  es.foldl (fun acc e => match e.psd with
    | none => acc
    | some p => min acc (p - g + log40Floor (widthMhz w) n)) viaEirp

/-- The clamp limit of a PPDU on the given chains at the radio's channel, capped at +6.0 dBm (R128). -/
def Dev.clampLimit (d : Dev) (x : Nat) (chains : List Nat) : Int :=
  match d.pool.reg with
  | none => -1000
  | some t =>
    let c := d.centre x
    let w := d.width x
    min (clampRaw t (d.limitEntries (chanLo c w) (chanHi c w)) chains (bandOf c) w) 24

/-- Airtime in ns of radio `x` in the `w` bins ending with bin `ms` (R130). -/
def Dev.airtime (d : Dev) (x ms w : Nat) : Nat :=
  ((lookOr [] d.pool.bins x).filter fun e => decide (e.1 ≤ ms) && decide (ms < e.1 + w)).foldl (fun a e => a + e.2) 0

/-- The duty windows in ms and limits in ns of a channel's entries (R130). -/
def dutyOf (es : List RegEntry) : List (Nat × Nat) :=
  (es.filter (·.dutyMax ≠ 0)).map fun e => (max 1 e.dutyWindow, e.dutyMax * max 1 e.dutyWindow * 10000)

/-- The duty check of R130 for a PPDU of `dur` ns planned to start at `start` ns. -/
def Dev.dutyOk (d : Dev) (x start dur : Nat) : Bool :=
  let c := d.centre x
  let w := d.width x
  (dutyOf (d.limitEntries (chanLo c w) (chanHi c w))).all fun e =>
    decide (d.airtime x (start / 1000000) e.1 + dur ≤ e.2)

/-- Count airtime in the bin of its start (R130); bins older than the longest window go. -/
def Dev.addAirtime (d : Dev) (x start dur : Nat) : Dev :=
  let ms := start / 1000000
  let bins := (lookOr [] d.pool.bins x).filter fun e => decide (ms < e.1 + 65536)
  { d with pool := { d.pool with bins := put d.pool.bins x (put bins ms (lookOr 0 bins ms + dur)) } }

/-- Publish a radio's remaining airtime (R131). -/
def Dev.publishDuty (d : Dev) (x : Nat) : Dev :=
  let c := d.centre x
  let w := d.width x
  let es := dutyOf (if d.synState x = 0 then [] else d.limitEntries (chanLo c w) (chanHi c w))
  let left := es.map fun e => (e.2 - d.airtime x (d.ns / 1000000) e.1) / 1000
  let d := d.wr calPage (CHP_DUTY_LEFT.LEFT.at x) (left.foldl min 0xFFFFFF)
  d.wr calPage (CHP_DUTY_LEFT.LIMITED.at x) (b2n !es.isEmpty)

/-! ### Calibration store -/

def Dev.calSlots (d : Dev) : Nat := d.rd calPage CHP_CAL_CFG.SLOTS

/-- Address of the entry for chain `c`, slot `s` (R102). -/
def Dev.calEntry (d : Dev) (c s : Nat) : Nat :=
  d.rd calPage CHP_CAL_BASE.BASE * 64 + (c * d.calSlots + s) * 64

/-- Word 0 of an entry with VALID 1 (R103). -/
def calWord0 (c centre width : Nat) : Nat :=
  1 + c * 2 + bandOf centre * 2 ^ 6 + width * 2 ^ 8 + centre * 2 ^ 16

/-- VALID, CHAIN, CENTRE and WIDTH of an entry name the chain and channel. -/
def calMatches (w0 c centre width : Nat) : Bool :=
  bit w0 0 && decide (bits w0 1 5 = c) && decide (bits w0 16 13 = centre) && decide (bits w0 8 3 = width)

/-- The chain's present temperature: its quad's, and the chip's for MON. -/
def Dev.chainTemp (d : Dev) (c : Nat) : Int :=
  if c < 24 then d.rdS (quadPage (c / 4)) CHP_QUAD_STAT.TEMP else d.rdS 0x001 PWR_TEMP.TEMP

/-- What slot `s` says of a chain on a channel: some true, it holds a usable entry; some false, the chain counts as having no
entry, for the slot cannot be read or holds a matching entry that fails its CRC, which loses its VALID bit and is counted
(R104 to R106). -/
def Dev.calSlot (d : Dev) (c centre width s : Nat) : Dev × Option Bool :=
  let a := d.calEntry c s
  if d.rdOk a 64 = false then (d, some false)
  else if calMatches (d.ld a 4) c centre width = false then (d, none)
  else if crc16 (d.ldBytes (a + 8) 56) ≠ d.ld (a + 6) 2 then
    (((d.st a 4 (d.ld a 4 - 1)).cnt calPage CHP_CAL_CRC_CNT.COUNT), some false)
  else
    let diff := toSigned 8 (d.ld (a + 4) 1) - d.chainTemp c
    (d, if diff.natAbs ≤ d.rd calPage CHP_CAL_CFG.TEMP_WIN then some true else none)

/-- Whether a chain has a usable entry: some slot holds one, and no slot makes it count as having none. -/
def Dev.calUsable (d : Dev) (c centre width : Nat) : Dev × Bool :=
  let r := (List.range d.calSlots).foldl (fun (acc : Dev × List Bool) s =>
    let r := acc.1.calSlot c centre width s
    (r.1, acc.2 ++ r.2.toList)) (d, [])
  (r.1, !r.2.isEmpty && r.2.all id)

/-- The chains among `l` without a usable entry. -/
def Dev.calMissing (d : Dev) (l : List Nat) (centre width : Nat) : Dev × List Nat :=
  l.foldl (fun acc c =>
    let r := acc.1.calUsable c centre width
    (r.1, if r.2 then acc.2 else acc.2 ++ [c])) (d, [])

/-- The slot a new entry goes to (R107). -/
def Dev.calChoose (d : Dev) (c centre width : Nat) : Nat :=
  let slots := List.range d.calSlots
  match slots.find? fun s => calMatches (d.ld (d.calEntry c s) 4) c centre width with
  | some s => s
  | none =>
    match slots.find? fun s => !bit (d.ld (d.calEntry c s) 4) 0 with
    | some s => s
    | none => slots.foldl (fun b s =>
        if d.ld (d.calEntry c s + 8) 8 < d.ld (d.calEntry c b + 8) 8 then s else b) 0

/-- Write the entry a calibration measured; false when a write was refused (R107). -/
def Dev.calStore (d : Dev) (f : CalFact) (centre width : Nat) : Dev × Bool :=
  let a := d.calEntry f.chain (d.calChoose f.chain centre width)
  if (d.rdOk a 64 && d.wrOk a 64) = false then (d, false)
  else
    let body := leBytes 8 d.beat ++ (List.range 12).flatMap fun i => leBytes 4 (nth 0 f.words i)
    let w1 := ofSigned 8 (d.chainTemp f.chain) + 0x100 + crc16 body * 2 ^ 16
    let d := d.when (bit (d.ld a 4) 0) (·.st a 4 (d.ld a 4 - 1))
    let d := (d.st (a + 4) 4 w1).stBytes (a + 8) body
    (d.st a 4 (calWord0 f.chain centre width), true)

/-- Write the entries of a hop's or quad Start's full calibration; a refused write counts and sets CAL_FAIL (R107). -/
def Dev.calStoreAll (d : Dev) (l : List CalFact) (centre width : Nat) : Dev :=
  d.forAll l fun f e =>
    let r := e.calStore f centre width
    if r.2 then r.1 else (r.1.cnt calPage CHP_CAL_WR_ERR_CNT.COUNT).ev calPage 9

/-! ### Synthesiser records and lines -/

def Dev.synRec (d : Dev) (x : Nat) : Syn := nth Syn.reset d.pool.syn x
def Dev.setSyn (d : Dev) (x : Nat) (y : Syn) : Dev := { d with pool := { d.pool with syn := setAt d.pool.syn x y } }

/-- The chains a synthesiser serves: those of the radio's owned quads whose pages are RUNNING, or MON (24). -/
def Dev.synChains (d : Dev) (x : Nat) : List Nat :=
  if x = 3 then [24] else (d.runningQuads x).flatMap fun q => (List.range 4).map (4 * q + ·)

def Dev.setFem (d : Dev) (c : Nat) (f : Fem → Fem) : Dev :=
  { d with pool := { d.pool with fem := put d.pool.fem c (f (lookOr Fem.inert d.pool.fem c)) } }

/-- Change the lines of every chain a synthesiser serves. -/
def Dev.femAll (d : Dev) (x : Nat) (f : Fem → Fem) : Dev := d.forAll (d.synChains x) fun c e => e.setFem c f

/-- TXEN and PAEN inactive. -/
def Fem.txOff (f : Fem) : Fem := { f with tx := false, pa := false }
/-- RXEN active, TXEN and PAEN inactive. -/
def Fem.rxOn (f : Fem) : Fem := { f with tx := false, pa := false, rx := true }
/-- Every enable inactive. -/
def Fem.allOff (f : Fem) : Fem := { f with tx := false, pa := false, rx := false, lnab := false }

/-! ### The end of a transmit command -/

def Dev.txOf (d : Dev) (x : Nat) : Option TxCmd := look d.pool.tx x
def Dev.setTx (d : Dev) (x : Nat) (c : TxCmd) : Dev := { d with pool := { d.pool with tx := put d.pool.tx x c } }
def Dev.clearTx (d : Dev) (x : Nat) : Dev := { d with pool := { d.pool with tx := del d.pool.tx x } }

def TxCmd.done (c : TxCmd) (x status : Nat) : TxDone :=
  { radio := x, kind := c.kind, beat := c.beat, status := status, clamped := c.clamped, scale := c.scale,
    chainLost := c.chainLost, paOver := c.paOver, first := c.ndpa.getD c.first, ru := c.ru }

/-- Return a completion to the transmit path, the MAC and the air scheduler (R216). -/
def Dev.giveDone (d : Dev) (c : TxDone) : Dev :=
  { d with out := d.out ++ [.txDone c], pool := { d.pool with done := d.pool.done ++ [c] } }

/-- The completion of a command with a status of R100 or R216: dropped and aborted commands count and set TX_DROP. -/
def Dev.completeTx (d : Dev) (x : Nat) (c : TxCmd) (status : Nat) : Dev :=
  let d := d.giveDone (c.done x status)
  if 2 ≤ status ∧ status ≤ 9 then (d.cnt synPage CHP_TX_DROP_CNT.COUNT).ev synPage 11 else d

/-- The commands of radio `x` held behind its first one, oldest first. -/
def Dev.txWaitOf (d : Dev) (x : Nat) : List TxCmd := (d.pool.wait.filter fun e => decide (e.1 = x)).map (·.2)

def Dev.setTxWait (d : Dev) (x : Nat) (l : List TxCmd) : Dev :=
  { d with pool := { d.pool with wait := (d.pool.wait.filter fun e => decide (e.1 ≠ x)) ++ l.map fun c => (x, c) } }

/-- The oldest command held behind takes its turn. -/
def Dev.nextTx (d : Dev) (x : Nat) : Dev :=
  match d.txWaitOf x with
  | [] => d
  | c :: l => (d.setTxWait x l).setTx x (if c.phase = .armed then { c with start := max c.start (d.ns + d.leadNs x) } else c)

/-- End radio `x`'s first command `c` with a status; the next one takes its turn. -/
def Dev.endTx (d : Dev) (x : Nat) (c : TxCmd) (status : Nat) : Dev := ((d.clearTx x).completeTx x c status).nextTx x

/-- The chains CHn with a RUNNING quad page among the radio chains of a mask, with their radio chain numbers. -/
def Dev.chainsIn (d : Dev) (x mask : Nat) : List (Nat × Nat) :=
  ((List.range 16).filter (bit mask)).filterMap fun r =>
    match d.chainOf x r with
    | some c => if d.inService (quadPage (c / 4)) then some (r, c) else none
    | none => none

/-- A trailing or leading interval of a chain's quad in ns (R115). -/
def Dev.femNs (d : Dev) (c : Nat) (f : Fld) : Nat := 10 * d.rd (quadPage (c / 4)) f

/-- The transmission of chain `c` is cut now: PAEN and TXEN inactive, and RXEN active T_TXOFF_RXON later unless a hop holds
the receive enables inactive (R115, R120). -/
def Dev.cutChain (d : Dev) (c : Nat) (rx : Bool) : Dev :=
  (d.setFem c fun f => { f.txOff with rx := rx }).emit
    (.trailEdges c d.ns d.ns (if rx then some (d.ns + d.femNs c CHP_FEM_TIME1.T_TXOFF_RXON) else none))

/-- Detector mean to power in 0.01 dBm at the ball (R117). -/
def Dev.pdetPower (d : Dev) (c band code : Nat) : Int :=
  let f (g : Fld) := { g with off := g.off + 12 * (c % 4) + 4 * band }
  d.rdS (quadPage (c / 4)) (f CHP_PDET_MAP.INTERCEPT)
    + (d.rd (quadPage (c / 4)) (f CHP_PDET_MAP.SLOPE) * code / 100 : Nat)

/-- Store a measurement and apply the closed loop (R118, R119): a step of at most 0.5 dB in 0.25 dB units, the sum
within 3.0 dB. DESIGN CHOICE (log entry 329): the difference of target and measurement is rounded to the 0.25 dB step toward
zero, after SLOPE times the code is rounded down to 0.01 dB; the spec states no rounding. -/
def Dev.pdetMeasure (d : Dev) (c band : Nat) (target : Int) (f : PdetFact) : Dev :=
  let p := quadPage (c / 4)
  let j := c % 4
  let d := (d.wr p (CHP_PDET.MEAN.at j) f.mean).wr p (CHP_PDET.PEAK.at j) f.peak
  let d := d.wr p (CHP_PDET.VALID.at j) 1
  if d.rdB p CHP_PDET_LIMIT.LOOP_EN then
    let diff := 25 * target - d.pdetPower c band f.mean
    let step := clampInt (-2) 2 (Int.tdiv diff 25)
    d.wrS p (CHP_PDET_CORR.CORR j) (clampInt (-12) 12 (d.rdS p (CHP_PDET_CORR.CORR j) + step))
  else d

/-- The detectors of a PPDU that ends before its time: what they sampled is not given, so the codes are free values. -/
def Dev.pdetCut (d : Dev) (x : Nat) (c : TxCmd) : Dev :=
  if d.ns < c.first + 16000 then d
  else d.forAll (d.chainsIn x (c.chains ||| c.paOver)) fun u e =>
    let (e, mean) := e.draw 10
    let (e, peak) := e.draw 10
    e.pdetMeasure u.2 (bandOf (e.centre x)) (nth 0 c.asked u.1) { chain := u.1, mean := mean, peak := peak }

/-- Cut a transmission in progress with a status: its enables go inactive, what its detectors saw is kept, and its airtime
counts up to the cut (R36, R96, R118, R130). -/
def Dev.cutTx (d : Dev) (x status : Nat) : Dev :=
  match d.txOf x with
  | some c =>
    if c.phase = .sending then
      let d := (d.addAirtime x c.first (d.ns - c.first)).forAll (d.chainsIn x c.chains) fun u e => e.cutChain u.2 (decide (status ≠ 9))
      (d.pdetCut x c).endTx x c status
    else d
  | none => d

/-- Drop every command that has not started, with a status. -/
def Dev.dropTx (d : Dev) (x status : Nat) : Dev :=
  let l := d.txWaitOf x
  let d := d.setTxWait x []
  let d := match d.txOf x with
    | some c => if c.phase = TxPhase.sending then d else d.endTx x c status
    | none => d
  d.forAll l fun c e => e.completeTx x c status

/-- An armed command waits for lock again. -/
def TxCmd.hold (c : TxCmd) : TxCmd := if c.phase = .armed then { c with phase := .held } else c

/-- Commands that have not started wait for lock again. -/
def Dev.holdTx (d : Dev) (x : Nat) : Dev :=
  let d := match d.txOf x with
    | some c => d.setTx x c.hold
    | none => d
  d.setTxWait x ((d.txWaitOf x).map (·.hold))

/-- The receive enable of chain `c` is active ahead of LOCKED: a hop with a stored entry for every chain of its radio applies them
16 µs after lock, 2 µs before it completes (R94). -/
def Dev.rxEarly (d : Dev) (c : Nat) : Bool :=
  (List.range 4).any fun x => (d.synChains x).contains c && decide (d.synState x = 2) && (d.synRec x).need.isEmpty
    && decide ((d.synRec x).entered + 16 * usU ≤ d.now)

/-- The level at a ball of a chain's line (0 TXEN, 1 RXEN, 2 PAEN, 3 LNAB), none at high impedance (R111, R114): the active
level of its polarity bit, 1 for active low. Chain 24 is MON, with RXEN and LNAB alone (R124). -/
def Dev.femLevel (d : Dev) (c line : Nat) : Option Bool :=
  let f := lookOr Fem.inert d.pool.fem c
  let on := match line with | 0 => f.tx | 1 => f.rx || d.rxEarly c | 2 => f.pa | _ => f.lnab
  let low := if c < 24 then bit (d.rd (quadPage (c / 4)) ⟨CHP_FEM_POL.word.off, 4 * (c % 4), 0, 4⟩) line
    else if line = 1 then d.rdB synPage CHP_MON_FEM.RXEN_POL else d.rdB synPage CHP_MON_FEM.LNAB_POL
  if f.live then some (on != low) else none

end Sys2Proof.Machine
end

