-- ==== Sys2Proof/Machine/Pool.lean ====
section
/-! DEFINITION. The chain pool: hops and the states of a synthesiser (R90 to R97, R792, R793), transmit commands (R98 to
R100), the front-end sequence (R111 to R116), power detectors (R117 to R121), calibration (R101 to R110). -/

namespace Sys2Proof.Machine

/-- LAST_HOP of a synthesiser. -/
def Dev.lastHop (d : Dev) (x v : Nat) : Dev := d.wr synPage (CHP_SYN_STAT.LAST_HOP.at x) v

/-- A synthesiser enters state `v` now. -/
def Dev.synEnter (d : Dev) (x v : Nat) : Dev :=
  (d.wr synPage (CHP_SYN_STAT.SSTATE.at x) v).setSyn x { d.synRec x with entered := d.now }

/-- The quads of a synthesiser lose its LO: LO_OK falls, LO_LOST is set in each RUNNING quad page when the synthesiser leaves
LOCKED or `off`, its page leaves RUNNING (R793); a STARTING quad starts its calibration anew after the relock (R792), and a
lock that held 100 µs after its Start met the limit of R82. -/
def Dev.loseLo (d : Dev) (x : Nat) (off : Bool := false) : Dev :=
  let was := d.locked x
  if x = 3 then d else
  d.forAll (d.ownedQuads x) fun q e =>
    let p := quadPage q
    match e.bstate p with
    | .starting =>
      let e := ((e.wr p CHP_QUAD_STAT.LO_OK 0).wr p CHP_QUAD_STAT.CAL_VALID 0).wr p CHP_QUAD_STAT.CAL_BUSY 0
      if was ∧ lookOr e.now e.pool.quadFrom q + 100 * usU < e.now then
        { e with pool := { e.pool with quadFrom := del e.pool.quadFrom q } }
      else e
    | .running | .draining =>
      (e.wr p CHP_QUAD_STAT.LO_OK 0).when ((was || off) && e.inService p) (·.ev p 10)
    | _ => e

/-- A refused hop (R92). -/
def Dev.hopRefused (d : Dev) (x status : Nat) : Dev :=
  ((d.lastHop x status).ev synPage 9).emit (.hopEnded x status)

/-- The first failed check of R92, as a LAST_HOP status. -/
def Dev.hopCheck (d : Dev) (x c w : Nat) : Option Nat :=
  if d.inService synPage = false ∨ channelOk x c w = false then some 3
  else if x = 3 then none
  else if d.spanMayTx (chanLo c w) (chanHi c w) = false then some 4
  else
    let others := [0, 1, 2].filter fun y => decide (y ≠ x) && decide (d.synState y ≠ 0)
    if others.any fun y => overlap c w (d.centre y) (d.width y) then some 5
    else if [0, 1, 2].any fun y => decide (y ≠ x) && d.radioInService x && d.radioInService y
        && decide (d.pairNonStr x y ≠ (decide (d.synState y ≠ 0) && nonStr c w (d.centre y) (d.width y))) then some 6
    else none

/-- What an accepted hop does to the radio (R93, R94, R97, R119): a PPDU ends ABORT_HOP, receptions are abandoned, the
enables go inactive, corrections and measurements of the chains are reset, STARTING quads wait anew. -/
def Dev.hopDisturb (d : Dev) (x : Nat) : Dev :=
  let d := ((d.cutTx x 9).holdTx x).rxAbandon x 6
  let d := (d.femAll x Fem.allOff).loseLo x
  if x = 3 then d else
  d.forAll (d.ownedQuads x) fun q e =>
    let p := quadPage q
    let e := (e.wr p CHP_PDET_CORR.word 0).each 4 fun j f => f.wr p (CHP_PDET.VALID.at j) 0
    let e := (e.wr p CHP_QUAD_STAT.CAL_VALID 0).wr p CHP_QUAD_STAT.CAL_BUSY 0
    e.when (decide (e.bstate p = .starting)) fun f =>
      { f with pool := { f.pool with quadFrom := put f.pool.quadFrom q f.now } }

/-- Accepting a hop: a hop in progress is superseded (R97), the command is the last accepted one, and CHP_HOP_CNT counts. -/
def Dev.hopAccept (d : Dev) (x c w : Nat) : Dev :=
  let d := d.when (decide (d.rd synPage (CHP_SYN_STAT.LAST_HOP.at x) = 2)) (·.emit (.hopEnded x 7))
  let d := (d.wr synPage (CHP_SYN_CHAN.CENTRE.at x) c).wr synPage (CHP_SYN_CHAN.WIDTH.at x) w
  d.cnt synPage CHP_HOP_CNT.COUNT

/-- Retune a synthesiser: SETTLING from now; it locks late from OFF and from a SETTLING that has not been LOCKED since OFF
(R91, R94). -/
def Dev.hopTune (d : Dev) (x c w : Nat) : Dev :=
  let d := d.hopDisturb x
  let d := (d.wr synPage (CHP_SYN_STAT.CURRENT.at x) c).wr synPage (CHP_SYN_STAT.CUR_WIDTH.at x) w
  let st := d.synState x
  let d := (d.synEnter x 1).lastHop x 2
  let r := d.synRec x
  let was := r.wasLocked && decide (st ≠ 0)
  (d.setSyn x { r with wasLocked := was, slow := decide (st = 0) || (decide (st = 1) && !was), need := [], failed := [] }).pairs

/-- Turn a synthesiser off with a LAST_HOP status (R91, R92, R793). -/
def Dev.synOff (d : Dev) (x status : Nat) (off : Bool := false) : Dev :=
  let d := d.loseLo x off
  let d := ((d.synEnter x 0).lastHop x status).wr synPage (CHP_SYN_STAT.CURRENT.at x) 0
  let d := d.wr synPage (CHP_SYN_STAT.CUR_WIDTH.at x) 0
  ((d.setSyn x { Syn.reset with entered := d.now }).emit (.hopEnded x status)).pairs

/-- A write of CHP_SYN_CHAN (R92). While SYN_M serves a CHP_CAL_CMD calibration its hop is accepted and held (R110). -/
def Dev.hopCommand (d : Dev) (x c w : Nat) : Dev :=
  if c = 0 ∧ d.inService synPage = false then d.hopRefused x 3
  else match (if c = 0 then none else d.hopCheck x c w), (if x = 3 then d.pool.cal else none) with
  | some st, _ => d.hopRefused x st
  | none, some r =>
    let d := (d.hopAccept x c w).lastHop x 2
    { d with pool := { d.pool with cal := some { r with heldHop := some (c, w) } } }
  | none, none =>
    let d := d.hopAccept x c w
    if c = 0 then ((d.hopDisturb x).synOff x 0xA).ev synPage 8 else d.hopTune x c w

/-- A held command starts its sequence once LOCKED: at once, or when it was scheduled to (R98). -/
def TxCmd.release (c : TxCmd) (soon : Nat) : TxCmd :=
  if c.phase = .held then { c with phase := .armed, wasHeld := true, start := max c.start soon } else c

/-- The held commands of a radio start their sequences, each after the one before it. -/
def Dev.releaseHeld (d : Dev) (x : Nat) : Dev :=
  let soon := d.ns + d.leadNs x
  let d := match d.txOf x with
    | some c => d.setTx x (c.release soon)
    | none => d
  d.setTxWait x ((d.txWaitOf x).map (·.release soon))

/-- The radio's quads that are started or starting take the LO; receive enables become active (R90, R94). -/
def Dev.takeLo (d : Dev) (x : Nat) : Dev :=
  let d := d.femAll x fun f => { f with rx := true }
  if x = 3 then d else
  d.forAll (d.ownedQuads x) fun q e =>
    e.when (decide (e.bstate (quadPage q) ≠ .stopped) && decide (e.bstate (quadPage q) ≠ .fault))
      (·.wr (quadPage q) CHP_QUAD_STAT.LO_OK 1)

/-- CALIBRATING with the chains `need` to calibrate in full; the others take their stored entries (R94, R95). -/
def Dev.calEnter (d : Dev) (x : Nat) (need : List Nat) : Dev :=
  let d := (d.synEnter x 2).setSyn x { d.synRec x with need := need, failed := [], fromCal := false, entered := d.now }
  if x = 3 then d else
  d.forAll (d.runningQuads x) fun q e =>
    let p := quadPage q
    let valid := ((List.range 4).filter fun j => !need.contains (4 * q + j)).foldl (fun a j => a + 2 ^ j) 0
    (e.wr p CHP_QUAD_STAT.CAL_VALID valid).wr p CHP_QUAD_STAT.CAL_BUSY (b2n (decide (valid ≠ 15)))

/-- Begin the calibration a lock leads to: the stored entries are read, and every chain without a usable one needs a
full calibration (R94, R95, R104 to R106). Without a RUNNING engine the hop ends LOCK_FAILED. -/
def Dev.calBegin (d : Dev) (x : Nat) : Dev :=
  if d.inService calPage = false then ((d.synOff x 8).ev synPage 12)
  else
    let r := d.calMissing (d.synChains x) (d.centre x) (d.width x)
    r.1.calEnter x r.2

/-- Lock detected (R91): 30 µs after the retune, or 60 µs from OFF (R94). After a loss of lock while LOCKED the calibration is
kept; one cut short runs again from its beginning, stored or full as the hop required (R792). -/
def Dev.lockDetected (d : Dev) (x : Nat) : Dev :=
  let r := d.synRec x
  if d.synState x = 1 then
    (d.reach (r.entered + (if r.slow then 60 else 30) * usU)).calBegin x
  else if d.synState x = 4 then
    if r.fromCal then
      if x = 3 ∧ d.pool.cal.isSome then d.synEnter x 2
      else if d.inService calPage = false then ((d.synOff x 8).ev synPage 12)
      else d.calEnter x r.need
    else ((d.synEnter x 3).takeLo x).releaseHeld x
  else d

/-- The hop's stored or full calibration completes (R91, R94, R95): LOCKED, HOP_DONE, held commands released. Chains that
did not converge are masked (DONE_PARTIAL). -/
def Dev.synCalibrationDone (d : Dev) (x : Nat) (failed : List Nat) : Dev :=
  if d.synState x ≠ 2 ∨ (x = 3 ∧ d.pool.cal.isSome) then d
  else
    let r := d.synRec x
    let full := !r.need.isEmpty
    let bad := (failed ++ r.failed).filter fun c => r.need.contains c
    -- stored calibration is applied 18 µs after lock, a full one 902 µs after (R94, R95)
    let d := d.reach (r.entered + (if full then 902 else 18) * usU)
    let d := d.forAll bad fun c e => e.when (decide (c < 24)) (·.maskChain c)
    let d := if x = 3 then d else d.forAll (d.runningQuads x) fun q e =>
      (e.wr (quadPage q) CHP_QUAD_STAT.CAL_VALID 15).wr (quadPage q) CHP_QUAD_STAT.CAL_BUSY 0
    let st := if !bad.isEmpty then 9 else if full then 1 else 0
    let d := ((d.synEnter x 3).lastHop x st).takeLo x
    let d := d.setSyn x { d.synRec x with wasLocked := true, need := [], failed := [] }
    ((d.ev synPage 8).emit (.hopEnded x st)).releaseHeld x

/-- Lock lost (R91, R96, R792): RELOCKING, the PPDU ends ABORT_UNLOCK, receptions are abandoned. -/
def Dev.lockLost (d : Dev) (x : Nat) : Dev :=
  if d.synState x = 2 ∨ d.synState x = 3 then
    let was := decide (d.synState x = 2)
    let d := ((d.cutTx x 7).holdTx x).rxAbandon x 10
    let d := (d.loseLo x).synEnter x 4
    let d := d.setSyn x { d.synRec x with fromCal := was }
    (d.cnt synPage CHP_UNLOCK_CNT.COUNT).ev synPage 10
  else d

/-- A synthesiser without lock at its timeout goes OFF with LOCK_FAILED (R91). A held command waits on, to its drop point
(R97, R99). -/
def Dev.lockTimeout (d : Dev) (x st us : Nat) : Dev :=
  if d.synState x = st then
    ((d.reach ((d.synRec x).entered + us * usU)).synOff x 8).ev synPage 12
  else d

/-- Every synthesiser goes OFF when page 0x016 leaves RUNNING (R793); a hop held behind a CHP_CAL_CMD calibration ends with
the others. DESIGN CHOICE (log entry 333): MON's two lines are at high impedance while page 0x016 is not RUNNING, as R114
says of the chains of a quad page. -/
def Dev.synPageOff (d : Dev) : Dev :=
  let d := d.each 4 fun x e =>
    let sending := match e.txOf x with | some c => decide (c.phase = .sending) | none => false
    let e := (e.cutTx x 7).when sending fun f => (f.cnt synPage CHP_UNLOCK_CNT.COUNT).ev synPage 10
    let e := (e.dropTx x 2).rxAbandon x 10
    if e.synState x = 0 then e else e.synOff x 0xA true
  let d := match d.pool.cal with
    | some r =>
      let d := d.when (r.heldHop.isSome && decide (d.rd synPage (CHP_SYN_STAT.LAST_HOP.at 3) = 2)) fun e =>
        (e.lastHop 3 0xA).emit (.hopEnded 3 0xA)
      { d with pool := { d.pool with cal := some { r with heldHop := none } } }
    | none => d
  d.setFem 24 fun _ => Fem.inert

/-- Page 0x016 becomes RUNNING: MON's lines are driven, inactive until SYN_M locks (R124). -/
def Dev.synOnRun (d : Dev) : Dev := d.setFem 24 fun _ => { Fem.inert with live := true }

/-! ### Transmit commands -/

/-- No transmitter is enabled: the service mode is Listen (R8, R690), or the life cycle allows no radio transmission
(R6). -/
def Dev.radioSilent (d : Dev) : Bool :=
  decide (d.rd 0x001 PWR_MODE.MODE = 5)
    || (decide (d.rd 0x004 SEC_STATUS.LC ≠ 2) && decide (d.rd 0x004 SEC_STATUS.LC ≠ 3)
        && (decide (d.rd 0x004 SEC_STATUS.DBG_LEVEL < 2) || decide (d.rd 0x004 SEC_STATUS.LC = 5)))

/-- The chains CHn a command's mask names that may transmit, with their radio chain numbers. -/
def Dev.usableOf (d : Dev) (x mask : Nat) : List (Nat × Nat) :=
  ((List.range 16).filter (bit mask)).filterMap fun r =>
    match d.chainOf x r with
    | some c => if d.chainUsable c then some (r, c) else none
    | none => none

/-- The powers of a command's chains: the closed loop's correction added (R119), then the clamp (R128). -/
def Dev.ballPowers (d : Dev) (use : List (Nat × Nat)) (lim : Int) (asked : List Int) : List Int :=
  (List.range 16).map fun r =>
    match use.find? fun u => decide (u.1 = r) with
    | some u =>
      let p := quadPage (u.2 / 4)
      let corr := if d.rdB p CHP_PDET_LIMIT.LOOP_EN then d.rdS p (CHP_PDET_CORR.CORR (u.2 % 4)) else 0
      min lim (nth 0 asked r + corr)
    | none => min lim (nth 0 asked r)

/-- The clamp lowers a power among the chains in use. -/
def Dev.clamps (d : Dev) (use : List (Nat × Nat)) (lim : Int) (asked : List Int) : Bool :=
  use.any fun u =>
    let p := quadPage (u.2 / 4)
    let corr := if d.rdB p CHP_PDET_LIMIT.LOOP_EN then d.rdS p (CHP_PDET_CORR.CORR (u.2 % 4)) else 0
    decide (lim < nth 0 asked u.1 + corr)

/-- The first reason not to transmit on the radio's present channel, as a status of R100: fenced, no chain, no power left
under the clamp, over the duty limit. -/
def Dev.txRefusal (d : Dev) (x : Nat) (use : List (Nat × Nat)) (lim : Int) (start dur : Nat) : Option Nat :=
  if d.fenced then some 5
  else if use.isEmpty ∨ d.radioSilent then some 6
  else if lim < -104 then some 3
  else if d.dutyOk x start dur = false then some 4
  else none

/-- A PPDU over the duty limit sets DUTY_HOLD (R130). -/
def Dev.dutyHold (d : Dev) (st : Nat) : Dev := d.when (decide (st = 4)) (·.ev calPage 11)

/-- The clamp lowered a command's power (R129). -/
def Dev.noteClamp (d : Dev) (c : Bool) : Dev := d.when c fun e => (e.cnt calPage CHP_CLAMP_CNT.COUNT).ev calPage 10

/-- A command takes its place: the radio's command, or behind one that is held (R98). -/
def Dev.placeTx (d : Dev) (x : Nat) (c : TxCmd) : Dev :=
  match d.txOf x with
  | none => d.setTx x c
  | some _ => d.setTxWait x (d.txWaitOf x ++ [c])

/-- The chain pool can take a further command of radio `x`: none stands, or those that stand are held (R98, R180). -/
def Dev.takesTx (d : Dev) (x : Nat) : Bool :=
  match d.txOf x with
  | none => true
  | some c => decide (c.phase = .held)

/-- A transmit command arrives (R98, R100, R128 to R130). -/
def Dev.txCommand (d : Dev) (x : Nat) (q : TxReq) : Dev :=
  let use := d.usableOf x q.chains
  let mask := (use.map fun u => 2 ^ u.1).foldl (· + ·) 0
  let lim := d.clampLimit x (use.map (·.2))
  let c : TxCmd :=
    { kind := if q.isResponse then .response else .planned q.index, beat := d.beat, chains := mask, asked := q.powers,
      powers := d.ballPowers use lim q.powers,
      start := q.start, latest := q.latest, dur := q.sent, planned := q.dur, phase := .held, wasHeld := false, first := 0,
      clamped := false, scale := q.scale, chainLost := decide (mask ≠ q.chains), paOver := 0, underrun := q.short,
      ru := q.ru, ndp := q.ndp, ndpa := q.ndpa }
  let st := d.synState x
  if d.takesTx x = false then d
  else if st = 0 ∨ x ≥ 3 then d.completeTx x c 2
  else match d.txRefusal x use lim q.start q.dur with
  | some s => (d.completeTx x c s).dutyHold s
  | none =>
    let clamped := d.clamps use lim q.powers
    (d.noteClamp clamped).placeTx x { c with clamped := clamped, phase := if st = 3 then .armed else .held }

/-- The synthesiser completes its calibration by device time `t`: the completion wins over a drop point of that cycle (R97). -/
def Dev.locksBy (d : Dev) (x t : Nat) : Bool :=
  decide (d.synState x = 2)
    && decide ((d.synRec x).entered + (if (d.synRec x).need.isEmpty then 18 else 902) * usU ≤ t)

/-- The next drop point among the held commands of a radio passes without lock (R99). -/
def Dev.txDropPoint (d : Dev) (x : Nat) : Dev :=
  let held := ((d.txOf x).toList ++ d.txWaitOf x).filter fun c => decide (c.phase = .held)
  match held with
  | [] => d
  | c :: l =>
    let f := l.foldl (fun a b => if b.latest < a.latest then b else a) c
    let at' := (f.latest - d.leadNs x) * nsU
    if d.locksBy x at' then d
    else
      let d := d.reach at'
      if d.txOf x = some f then d.endTx x f 2
      else (d.setTxWait x ((d.txWaitOf x).erase f)).completeTx x f 2

/-- Leading edges of a chain around first sample `t` (R115). -/
def Dev.leadEdges (d : Dev) (c t : Nat) : Dev :=
  let b := d.femNs c CHP_FEM_TIME0.T_TXON_PAON
  let e := d.femNs c CHP_FEM_TIME0.T_PAON_RF
  (d.setFem c fun f => { f with tx := true, pa := true, rx := false, lnab := false }).emit
    (.leadEdges c (t - (d.femNs c CHP_FEM_TIME0.T_RXOFF_TXON + b + e)) (t - (b + e)) (t - e))

/-- Trailing edges of a chain around last sample `t` (R115). -/
def Dev.trailEdges (d : Dev) (c t : Nat) : Dev :=
  let pa := t + d.femNs c CHP_FEM_TIME1.T_RFEND_PAOFF
  let tx := pa + d.femNs c CHP_FEM_TIME1.T_PAOFF_TXOFF
  (d.setFem c Fem.rxOn).emit (.trailEdges c pa tx (some (tx + d.femNs c CHP_FEM_TIME1.T_TXOFF_RXON)))

/-- The first sample leaves: the radio's own reception ends, its chains turn to transmit, a non-STR partner's reception is
abandoned (R112, R113, R115, R150). -/
def Dev.firstSample (d : Dev) (x : Nat) (c : TxCmd) (use : List (Nat × Nat)) : Dev :=
  let d := d.rxAbandon x 5
  let d := d.forAll use fun u e => e.leadEdges u.2 c.start
  let d := (d.setTx x c).when c.wasHeld (·.cnt synPage CHP_TX_HELD_CNT.COUNT)
  let d := d.emit (.firstSample x c.start (use.map fun u => (u.2, nth 0 c.powers u.1)))
  d.forAll ([0, 1, 2].filter fun y => decide (y ≠ x)) fun y e => e.when (e.pairNonStr x y) (·.rxAbandon y 7)

/-- The front-end sequence and the first sample (R112, R113, R115, R181, R211, R794); the fence, the clamp and the duty limit
hold of the channel the PPDU starts on. -/
def Dev.txSequenceStart (d : Dev) (x : Nat) : Dev :=
  match d.txOf x with
  | some c =>
    if c.phase = .armed ∧ d.locked x then
      let d := d.reach (c.start * nsU)
      let use := d.usableOf x c.chains
      let mask := (use.map fun u => 2 ^ u.1).foldl (· + ·) 0
      let lim := d.clampLimit x (use.map (·.2))
      match d.txRefusal x use lim c.start c.planned with
      | some s => (d.endTx x c s).dutyHold s
      | none =>
        let clamped := d.clamps use lim c.asked
        (d.noteClamp (clamped && !c.clamped)).firstSample x
          { c with phase := .sending, first := c.start, chains := mask, clamped := clamped || c.clamped,
                   asked := c.asked.map (min lim), powers := d.ballPowers use lim c.asked,
                   chainLost := c.chainLost || decide (mask ≠ c.chains) } use
    else d
  | none => d

/-- The detectors' measurements of a PPDU of at least 16 µs (R118), of the chains that sent, those cut off in it too. -/
def Dev.pdetAll (d : Dev) (x : Nat) (c : TxCmd) (m : List PdetFact) : Dev :=
  if c.dur < 16000 then d
  else d.forAll (d.chainsIn x (c.chains ||| c.paOver)) fun u e =>
    match m.find? fun f => decide (f.chain = u.1) with
    | some f => e.pdetMeasure u.2 (bandOf (e.centre x)) (nth 0 c.asked u.1) f
    | none => e

/-- An NDPA was sent: the transmit path readies the NDP, SIFS after its end, on the chains that sent the NDPA (R186). -/
def Dev.ndpReady (d : Dev) (x : Nat) (c : TxCmd) (dur : Nat) : Dev :=
  let t := c.first + c.dur + (if bandOf (d.centre x) = 0 then 10000 else 16000)
  let i := match c.kind with | .planned i => i | .response => 0
  let q : TxReq :=
    { isResponse := false, index := i, chains := c.chains, powers := c.asked, start := t, latest := t, dur := dur, sent := dur,
      scale := c.scale, ru := c.ru, short := false, ndp := none, ndpa := some c.first }
  { d with tx := { d.tx with ready := put d.tx.ready x q } }

/-- The last sample leaves (R115, R118, R130): trailing edges, detector measurements, airtime, completion; behind an NDPA the
NDP follows, and the exchange completes with that. -/
def Dev.txPpduEnd (d : Dev) (x : Nat) (m : List PdetFact) : Dev :=
  match d.txOf x with
  | some c =>
    if c.phase = .sending then
      let d := d.reach ((c.first + c.dur) * nsU)
      let d := (d.addAirtime x c.first c.dur).forAll (d.chainsIn x c.chains) fun u e => e.trailEdges u.2 (c.first + c.dur)
      match c.ndp with
      | some n => (((d.pdetAll x c m).clearTx x).nextTx x).ndpReady x c n
      | none => (d.pdetAll x c m).endTx x c (if c.underrun then 0xC else if c.wasHeld then 1 else 0)
    else d
  | none => d

/-- The radio and radio chain of chain CHn. -/
def Dev.radioOf (d : Dev) (c : Nat) : Option (Nat × Nat) :=
  match [0, 1, 2].find? fun x => (d.ownedQuads x).contains (c / 4) with
  | some x => some (x, 4 * ((d.ownedQuads x).idxOf (c / 4)) + c % 4)
  | none => none

/-- A chain masked while its radio sends is cut off for that PPDU (R212), as over-power does (R120). -/
def Dev.maskCut (d : Dev) (c : Nat) : Dev :=
  match d.radioOf c with
  | none => d
  | some (x, r) =>
    match d.txOf x with
    | none => d
    | some t =>
      if t.phase = .sending ∧ bit t.chains r then
        (d.cutChain c true).setTx x { t with chains := t.chains - 2 ^ r, paOver := t.paOver ||| 2 ^ r }
      else d

/-- A detector code above LIMIT for 40 samples (R120, R121, R212). DESIGN CHOICE (log entry 330): the third event of a round
masks the chain; a further one, after firmware cleared the bit, does not mask it again in that round. -/
def Dev.paOverPower (d : Dev) (c : Nat) : Dev :=
  match d.radioOf c with
  | none => d
  | some (x, r) =>
    match d.txOf x with
    | none => d
    | some t =>
      if t.phase = .sending ∧ bit t.chains r then
        let p := quadPage (c / 4)
        let d := d.maskCut c
        let d := (d.cnt p (CHP_PA_OVER_CNT.CNT (c % 4))).ev p 8
        let o := lookOr (0, 0) d.pool.overs c
        let n := if o.1 = d.round then o.2 + 1 else 1
        let d := { d with pool := { d.pool with overs := put d.pool.overs c (d.round, n) } }
        if n = 3 then
          (d.maskChain c).ev p 9
        else d
      else d

/-! ### Quads and calibration -/

/-- A write of CHP_CHAIN_MASK (R121, R212). -/
def Dev.maskWrite (d : Dev) (p v : Nat) : Dev :=
  (d.wr p CHP_QUAD_STAT.MASKED v).each 4 fun j e => if bit v j then e.maskCut (4 * (p - 0x010) + j) else e

/-- A quad page that leaves RUNNING: its lines are inert, and its chains leave a PPDU in progress (R114, R794). -/
def Dev.quadOnLeave (d : Dev) (q : Nat) : Dev :=
  let d := d.each 4 fun j e => e.setFem (4 * q + j) fun _ => Fem.inert
  let o := d.rd (quadPage q) CHP_QUAD_OWNER.OWNER
  let d := (d.wr (quadPage q) CHP_QUAD_STAT.LO_OK 0).wr (quadPage q) CHP_QUAD_STAT.CAL_BUSY 0
  if o = 0 then d else
  match d.txOf (o - 1) with
  | some c =>
    if c.phase = .sending then
      let i := (d.ownedQuads (o - 1)).idxOf q
      let gone := (List.range 4).foldl (fun a j => if bit c.chains (4 * i + j) then a + 2 ^ (4 * i + j) else a) 0
      d.setTx (o - 1) { c with chains := c.chains - gone, chainLost := c.chainLost || decide (gone ≠ 0) }
    else d
  | none => d

/-- A STARTING quad page faults; its calibration ends. -/
def Dev.quadFault (d : Dev) (q code : Nat) : Dev := (d.fault (quadPage q) code).quadOnLeave q

/-- A STARTING quad page without its owner's lock 100 µs after its Start, or after its owner's last hop (R82). -/
def Dev.quadLockTimeout (d : Dev) (q : Nat) : Dev :=
  let p := quadPage q
  let o := d.rd p CHP_QUAD_OWNER.OWNER
  match look d.pool.quadFrom q with
  | some t =>
    if d.bstate p = .starting ∧ o ≠ 0 ∧ d.locked (o - 1) = false then (d.reach (t + 100 * usU)).quadFault q 0x40
    else d
  | none => d

/-- A full calibration of a hop (`x` a synthesiser) or of a quad Start completes and its entries are written (R95, R107).
Chains that did not converge have no fact. -/
def Dev.fullCalDone (d : Dev) (isQuad : Bool) (x : Nat) (facts : List CalFact) : Dev :=
  if isQuad then
    let p := quadPage x
    let o := d.rd p CHP_QUAD_OWNER.OWNER
    if d.bstate p = .starting ∧ d.rdB p CHP_QUAD_STAT.CAL_BUSY ∧ o ≠ 0 then
      let mine := facts.filter fun f => decide (f.chain / 4 = x)
      let d := d.calStoreAll mine (d.centre (o - 1)) (d.width (o - 1))
      let d := (List.range 4).foldl (fun e j =>
        if mine.any fun f => decide (f.chain = 4 * x + j) then e
        else if bit (e.rd p CHP_QUAD_STAT.CAL_VALID) j then e
        else e.maskChain (4 * x + j)) d
      (d.wr p CHP_QUAD_STAT.CAL_VALID 15).wr p CHP_QUAD_STAT.CAL_BUSY 0
    else d
  else
    let r := d.synRec x
    if d.synState x = 2 ∧ !r.need.isEmpty then
      let mine := facts.filter fun f => r.need.contains f.chain
      let d := d.calStoreAll mine (d.centre x) (d.width x)
      d.setSyn x { r with failed := r.need.filter fun c => !(mine.any fun f => decide (f.chain = c)) }
    else d

/-- The quad is parked (R76, R79). -/
def Dev.parked (d : Dev) (q : Nat) : Bool := decide (q < 6) && decide (d.rd (quadPage q) CHP_QUAD_OWNER.OWNER = 0)

/-- A refused GO posts its RESULT. DESIGN CHOICE (log entry 332): it sets CAL_FAIL, as a failed calibration does. -/
def Dev.calRefuse (d : Dev) (result : Nat) : Dev :=
  ((d.wr calPage CHP_CAL_STAT.RESULT result).wr calPage CHP_CAL_CMD.GO 0).ev calPage 9

/-- The calibration of a parked quad begins; SYN_M serves it and MON is not armed (R110). -/
def Dev.calRunBegin (d : Dev) (c w q : Nat) : Dev :=
  let d := (d.wr calPage CHP_CAL_CMD.GO 1).wr calPage CHP_CAL_STAT.BUSY 1
  let held := if d.synState 3 ≠ 0 ∧ d.rd synPage (CHP_SYN_STAT.LAST_HOP.at 3) = 2
    then some (d.centre 3, d.width 3) else none
  let r : CalRun := { quad := q, centre := c, width := w, monCentre := d.centre 3, monWidth := d.width 3,
                      heldHop := held }
  let d := ({ d with pool := { d.pool with cal := some r } } : Dev).rxAbandon 3 6
  if d.inService synPage then (d.femAll 3 Fem.allOff).synEnter 3 2 else d

/-- A GO in CHP_CAL_CMD (R109, R110), taken only while the page is RUNNING. -/
def Dev.calCmd (d : Dev) (c w q : Nat) : Dev :=
  if d.inService calPage = false then (d.wr calPage CHP_CAL_CMD.GO 0).complete .unavailable
  else if d.rdB calPage CHP_CAL_STAT.BUSY then d.complete .okay
  else
    let d := (d.wr calPage CHP_CAL_CMD.CENTRE c).wr calPage CHP_CAL_CMD.WIDTH w
    let d := (d.wr calPage CHP_CAL_CMD.QUAD q).wr calPage CHP_CAL_STAT.QUAD q
    (if d.parked q = false then d.calRefuse 4
      else if ieeeChannel c w = false then d.calRefuse 5
      else d.calRunBegin c w q).complete .okay

/-- SYN_M leaves the calibration: for the hop held meanwhile, or back to MON's channel (R110). It hops nowhere when page 0x016
left RUNNING meanwhile (R793). -/
def Dev.calHopBack (d : Dev) (r : CalRun) : Dev :=
  if d.inService synPage = false ∨ (d.synState 3 = 0 ∧ r.heldHop = none) then d
  else match r.heldHop with
  | some (c, w) => if c = 0 then (d.synOff 3 0xA).ev synPage 8 else d.hopTune 3 c w
  | none => if r.monCentre = 0 then d.synOff 3 (d.rd synPage (CHP_SYN_STAT.LAST_HOP.at 3)) else d.hopTune 3 r.monCentre r.monWidth

/-- The calibration ends with a result, and SYN_M hops back (R109, R110). -/
def Dev.calEnd (d : Dev) (result failed : Nat) : Dev :=
  match d.pool.cal with
  | none => d
  | some r =>
    let d := { d with pool := { d.pool with cal := none } }
    let d := (d.wr calPage CHP_CAL_STAT.BUSY 0).wr calPage CHP_CAL_STAT.RESULT result
    let d := (d.wr calPage CHP_CAL_STAT.FAILED failed).wr calPage CHP_CAL_CMD.GO 0
    (d.ev calPage (if result = 0 then 8 else 9)).calHopBack r

/-- A CHP_CAL_CMD calibration ends: entries are written for the chains that converged (R107, R109). DESIGN CHOICE (log entry
331): when a store write failed the RESULT is STORE_ERROR, though a chain did not converge either. -/
def Dev.calCmdDone (d : Dev) (facts : List CalFact) : Dev :=
  match d.pool.cal with
  | none => d
  | some r =>
    let mine := facts.filter fun f => decide (f.chain / 4 = r.quad)
    let w := mine.foldl (fun acc f =>
      let s := acc.1.calStore f r.centre r.width
      (s.1, acc.2 && s.2)) (d, true)
    let failed := ((List.range 4).filter fun j => !(mine.any fun f => decide (f.chain = 4 * r.quad + j))).foldl
      (fun a j => a + 2 ^ j) 0
    w.1.calEnd (if w.2 = false then 3 else if failed ≠ 0 then 2 else 0) failed

/-- The first failed check of a quad page's Start (R78, R82, R116), as a fault code. -/
def Dev.quadStartCheck (d : Dev) (q : Nat) : Option Nat :=
  let p := quadPage q
  let o := d.rd p CHP_QUAD_OWNER.OWNER
  let busy := (List.range 6).filter fun k => decide (k ≠ q) && decide (d.rd (quadPage k) CHP_QUAD_OWNER.OWNER = o)
    && (decide (d.bstate (quadPage k) = .starting) || decide (d.bstate (quadPage k) = .running))
  let a := d.rd p CHP_FEM_TIME0.T_RXOFF_TXON
  let b := d.rd p CHP_FEM_TIME0.T_TXON_PAON
  let c := d.rd p CHP_FEM_TIME0.T_PAON_RF
  if o ≠ 0 ∧ 4 ≤ busy.length then some 0x03
  else if d.inService calPage = false then some 0x03
  else if a < 5 ∨ b < 5 ∨ c < 10 ∨ d.rd p CHP_FEM_TIME1.T_PAOFF_TXOFF < 5 ∨ d.rd p CHP_FEM_TIME1.T_TXOFF_RXON < 5
    ∨ 400 < a + b + c then some 0x03
  else none

/-- A quad Start begins: the owner in force and the crossbar, and an end to a calibration of the quad while parked (R82, R90,
R109). -/
def Dev.quadOnStart (d : Dev) (q : Nat) : Dev :=
  let p := quadPage q
  let d := match d.pool.cal with
    | some r => if r.quad = q then d.calEnd 1 0 else d
    | none => d
  let o := d.rd p CHP_QUAD_OWNER.OWNER
  let d := (d.wr p CHP_QUAD_STAT.OWNER_ACT o).wr p CHP_QUAD_STAT.CAL_VALID 0
  let d := d.wr p CHP_QUAD_STAT.LO_OK (b2n (decide (o ≠ 0) && d.locked (o - 1)))
  { d with pool := { d.pool with quadFrom := put d.pool.quadFrom q d.now } }

/-- Whether a STARTING quad page can become RUNNING: with an owner it waits for LOCKED, reads the stored entries, and
waits for a full calibration of the chains that lack one (R82, R95). Answers the device and whether it is ready. -/
def Dev.quadReady (d : Dev) (q : Nat) : Dev × Bool :=
  let p := quadPage q
  let o := d.rd p CHP_QUAD_OWNER.OWNER
  if o = 0 then (d, true)
  else if d.locked (o - 1) = false then (d, false)
  else
    let d := d.wr p CHP_QUAD_STAT.LO_OK 1
    if d.rd p CHP_QUAD_STAT.CAL_VALID = 15 then (d, true)
    else
      let chains := (List.range 4).map (4 * q + ·)
      let r := d.calMissing chains (d.centre (o - 1)) (d.width (o - 1))
      let valid := ((List.range 4).filter fun j => !r.2.contains (4 * q + j)).foldl (fun a j => a + 2 ^ j) 0
      let d := r.1.wr p CHP_QUAD_STAT.CAL_VALID valid
      if valid = 15 then (d, true) else (d.wr p CHP_QUAD_STAT.CAL_BUSY 1, false)

/-- A RUNNING quad drives its lines, its receive enables active while its LO is there (R114); a parked one's stay inert
(R79). -/
def Dev.quadOnRun (d : Dev) (q : Nat) : Dev :=
  if d.rd (quadPage q) CHP_QUAD_STAT.OWNER_ACT = 0 then d
  else
    let lo := d.rdB (quadPage q) CHP_QUAD_STAT.LO_OK
    d.each 4 fun j e => e.setFem (4 * q + j) fun _ => { Fem.inert with live := true, rx := lo }

/-- Checks of a Start of page 0x017 (R102). -/
def Dev.calStartCheck (d : Dev) : Option Nat :=
  let base := d.rd calPage CHP_CAL_BASE.BASE * 64
  let n := d.calSlots
  if n = 0 ∨ 64 < n ∨ base < 0x10000000 ∨ 0x11000000 < base + 25 * n * 64 then some 0x03 else none

/-- Page 0x017 is no longer RUNNING: STARTING quads fault with code 0x04 (R82). -/
def Dev.calUnready (d : Dev) : Dev :=
  d.each 6 fun q e => e.when (decide (e.bstate (quadPage q) = .starting)) (·.quadFault q 0x04)

/-- Page 0x017 leaves service: a calibration of a parked quad ends without an entry. -/
def Dev.calOnLeave (d : Dev) : Dev := (d.calEnd 1 0).calUnready

/-! ### Meanings that end no PPDU -/

def execSynCalibrationDone (x : Nat) (failed : List Nat) (s : State) : Host.Outcome State Fault Refusal :=
  s.onDev (·.synCalibrationDone x failed)

def execLockDetected (x : Nat) (s : State) : Host.Outcome State Fault Refusal := s.onDev (·.lockDetected x)

def execPaOverPower (chain : Nat) (s : State) : Host.Outcome State Fault Refusal := s.onDev (·.paOverPower chain)

def execQuadLockTimeout (quad : Nat) (s : State) : Host.Outcome State Fault Refusal :=
  s.onDev (·.quadLockTimeout quad)

def execFullCalDone (isQuad : Bool) (x : Nat) (facts : List CalFact) (s : State) :
    Host.Outcome State Fault Refusal := s.onDev (·.fullCalDone isQuad x facts)

def execCalCmd (centre width quad : Nat) (s : State) : Host.Outcome State Fault Refusal :=
  s.onDev (·.regDo 0x017 (·.calCmd centre width quad))

def execCalCmdDone (facts : List CalFact) (s : State) : Host.Outcome State Fault Refusal :=
  s.onDev (·.calCmdDone facts)

end Sys2Proof.Machine
end

