-- ==== Sys2Proof/Machine/Receive.lean ====
section
/-! DEFINITION. The receive path: acquisition (R133 to R141), SIG decisions (R134, R135, R145, R165, R796), restart (R146
to R150), other BSSs (R151, R152), trigger-based windows (R163 to R166), the end of a PPDU (R160 to R162, R169). -/

namespace Sys2Proof.Machine

/-- The radio transmits. -/
def Dev.transmitting (d : Dev) (x : Nat) : Bool :=
  match d.txOf x with
  | some c => decide (c.phase = TxPhase.sending)
  | none => false

/-- An instance is armed (R133): in service and not draining, its chains' receive enables active, nothing being
received, and its radio not transmitting. -/
def Dev.rxArmed (d : Dev) (x : Nat) : Bool :=
  d.inService (rxPage x) && !(d.synChains x).isEmpty
    && (d.synChains x).all (fun c => (lookOr Fem.inert d.pool.fem c).rx)
    && decide ((d.rxAt x).phase = .idle) && !d.transmitting x

/-- The chain CHn behind radio chain `r` of instance `x`; MON's one chain is 24. -/
def Dev.rxChain (d : Dev) (x r : Nat) : Option Nat := if x = 3 then (if r = 0 then some 24 else none) else d.chainOf x r

/-- The LNA bypass of each chain as its level asks (R139), 0 where no chain stands. -/
def Dev.setLnab (d : Dev) (x : Nat) (levels : List Int) : Dev :=
  d.forAll levels.zipIdx fun l e =>
    match e.rxChain x l.2 with
    | some c => e.setFem c fun f => { f with lnab := decide (e.rdS (rxPage x) RXP_DET.LNAB_ON < l.1) }
    | none => e

/-- One AGC step of a chain (R139): its gain moves so that the ADC input, `level` dBm at the ball now at gain `g`, comes to TARGET;
a clipping ADC counts as TARGET + 18 dB. -/
def agcStep (target level : Int) (g : Nat) : Nat :=
  let adc := level + g + Config.adcRef
  (clampInt 0 Config.gainMax (g + target - (if 0 < adc then target + 18 else adc))).toNat

/-- The gains of an instance after one AGC step, from idle gain where none is set. -/
def Dev.agcGains (d : Dev) (x : Nat) (r : Rx) : List Nat :=
  r.levels.zipIdx.map fun l => agcStep (d.rdS (rxPage x) RXP_AGC.TARGET) l.1 (nth Config.gainMax r.gains l.2)

/-- An AGC step: every chain sets its gain and its LNA bypass. -/
def Dev.agcRun (d : Dev) (x : Nat) : Dev :=
  let r := d.rxAt x
  (d.setRx x { r with gains := d.agcGains x r }).setLnab x r.levels

/-- Idle gain: LNA bypass inactive on every chain (R141). -/
def Dev.lnabIdle (d : Dev) (x : Nat) : Dev := d.femAll x fun f => { f with lnab := false }

/-- The power a new acquisition must reach: any, or RESTART_DB above the reference while a hold lasts (R152, R796). -/
def Dev.riseEnough (d : Dev) (x : Nat) (power : Int) : Bool :=
  match (d.rxAt x).hold with
  | some t => decide (t ≤ d.ns) || decide ((d.rxAt x).ref + d.rd (rxPage x) RXP_DET.RESTART_DB ≤ power)
  | none => true

/-- An acquisition counted from `acq` ns begins: the rise is seen 0.4 µs later, and the first AGC step is made 0.8 µs after
`acq` (R136, R139). -/
def Dev.acquire (d : Dev) (x acq : Nat) (r : Rise) : Dev :=
  let d := d.reach ((acq + 800) * nsU)
  let q := d.rxAt x
  (d.setRx x { Rx.reset with phase := .agc, riseNs := acq + 400, acqNs := acq, startNs := r.startNs, startFrac := r.startFrac,
                             levels := r.levels, hold := q.hold, ref := q.ref, cca := q.cca, tb := q.tb }).agcRun x

/-- ENERGY_RISE (R136, R139, R152). -/
def execEnergyRise (x : Nat) (rise : Rise) (s : State) : Host.Outcome State Fault Refusal :=
  s.onDev fun d =>
    if decide (x < 4) && d.rxArmed x && d.riseEnough x rise.power then d.acquire x rise.startNs rise else d

/-- AGC steps made: those needed, 1 to STEPS. -/
def Dev.agcSteps (d : Dev) (x : Nat) (c : Detect) : Nat := max 1 (min (d.rd (rxPage x) RXP_AGC.STEPS) c.steps)

/-- Detection time in ns after the sample the acquisition counts from: 1.6 µs after the last AGC step (R136). DESIGN CHOICE (log entry
339): a DSSS preamble, which R137 says is detected within 4.0 µs, is detected at 4.0 µs. -/
def detectDelayNs (dsss : Bool) (steps : Nat) : Nat := if dsss then 4000 else 2000 + 400 * steps

/-- A reception detected now falls in the window of the trigger parameters (R163), times in ns. -/
def Dev.inTbWindow (d : Dev) (x : Nat) (t : TbParams) : Bool :=
  let w := d.rd (rxPage x) RXP_TB.TB_WIN
  decide (2 * t.expect ≤ 2 * d.ns + 25 * w) && decide (2 * d.ns ≤ 2 * t.expect + 25 * w + 6400)

/-- PACKET_DETECTION (R136 to R138, R140, R143, R163): the further AGC steps are made, the gains are frozen, and the frequency
estimates are limited to their ranges, ±625 kHz and ±156.25 kHz. DESIGN CHOICE (log entry 340): a restart reference held
after an OBSS or UNSUPPORTED PPDU (R152, R796) ends with a detection made inside it. -/
def Dev.packetDetection (d : Dev) (x : Nat) (c : Detect) : Dev :=
  let r0 := d.rxAt x
  let dsssOk := c.dsss && d.rdB (rxPage x) RXP_CFG.DSSS_EN && decide (bandOf (d.centre x) = 0)
    && (d.rxArmed x || decide (r0.phase = .agc)) && d.riseEnough x c.level
  let ofdmOk := !c.dsss && decide (r0.phase = .agc)
  if (dsssOk || ofdmOk) && decide (d.rdS (rxPage x) RXP_DET.MIN_DET ≤ c.level) then
    let d := if c.dsss ∧ r0.phase = .idle then d.acquire x c.rise.startNs c.rise else d
    let n := d.agcSteps x c
    let d := (d.each (n - 1) fun _ e => e.agcRun x).reach (((d.rxAt x).acqNs + detectDelayNs c.dsss n) * nsU)
    let r := d.rxAt x
    let active := match r.tb with | some t => !c.dsss && d.inTbWindow x t | none => false
    (d.setRx x { r with phase := .found, ref := c.level, hold := none, tbActive := active,
                        coarse := clampInt (-31250) 31250 c.coarse, fine := clampInt (-7812) 7812 c.fine,
                        format := if c.dsss then 0 else 15 }).cnt (rxPage x) RXP_CNT_DETECT.COUNT
  else d

def execPacketDetection (x : Nat) (det : Detect) (s : State) : Host.Outcome State Fault Refusal :=
  s.onDev fun d => if x < 4 then d.packetDetection x det else d

/-- AGC_IDLE_RETURN (R141): no detection 8.0 µs after an energy rise. -/
def execAgcIdleReturn (x : Nat) (s : State) : Host.Outcome State Fault Refusal :=
  s.onDev fun d =>
    if x < 4 ∧ (d.rxAt x).phase = .agc then
      (((d.reach (((d.rxAt x).riseNs + 8000) * nsU)).rxIdle x).lnabIdle x)
    else d

/-- The colour belongs to none of the radio's BSSIDs; MON has none. -/
def Dev.foreignColour (d : Dev) (x c : Nat) : Bool :=
  decide (x = 3) || decide (d.rd (0x030 + x) MAC_CFG.BSS_COLOR ≠ c)

/-- HE and EHT formats carry a BSS colour. -/
def hasColour (f : Nat) : Bool := decide (4 ≤ f) && decide (f ≤ 10)

/-- Streams an instance takes: the chains of its radio, at most 8; one for MON (R135). -/
def Dev.maxStreams (d : Dev) (x : Nat) : Nat := if x = 3 then 1 else min 8 (d.radioChains x)

/-- Format, width, rate and band of R134 allow the PPDU: FORMAT must stand in the table for the band. -/
def Dev.formatOk (d : Dev) (x : Nat) (f : SigFact) (tb : Option TbParams) : Bool :=
  let b := bandOf (d.centre x)
  match f.format with
  | 0 => decide (b = 0) && d.rdB (rxPage x) RXP_CFG.DSSS_EN && decide (f.bw = 0) && decide (f.mcs ≤ 3)
  | 1 => decide (f.bw ≤ d.width x) && decide (f.mcs ≤ 7)
  | 2 => decide (f.bw ≤ 1) && decide (f.mcs ≤ 31)
  | 3 => decide (b = 1) && decide (f.bw ≤ 3) && decide (f.mcs ≤ 9)
  | 4 => decide (f.bw ≤ 3) && decide (f.mcs ≤ 11)
  | 5 => decide (f.bw = 0) && decide (f.mcs ≤ 2)
  | 6 => decide (f.bw ≤ 3) && d.foreignColour x f.colour
  | 7 => decide (f.bw ≤ 3) && tb.isSome
  | 8 => decide (f.bw ≤ 4) && decide (f.mcs ≤ 13)
  | 9 => decide (f.bw ≤ 4) && (match tb with | some t => decide (t.users.length ≤ 144) | none => false)
  | 10 => decide (f.bw ≤ 4) && d.foreignColour x f.colour
  | _ => false

/-- The excess a SIG decision shows, as the REASON of UNSUPPORTED, and `none` in the inner option where the spec names
no REASON for it (a duration above 5.484 ms) (R134, R135, R796). The L-SIG shows the duration, and of a non-HT PPDU all else. DESIGN
CHOICE (log entry 341): of several excesses at one decision the first in this order is named, and a rate or MCS above the
table's limit is REASON 5. -/
def Dev.unsupported (d : Dev) (x : Nat) (f : SigFact) (tb : Option TbParams) : Option (Option Nat) :=
  if (f.field = .lSig ∨ f.field = .dsssHeader) ∧ 54840 < f.dur01 then some none
  else if f.field = .lSig ∧ f.last = false then none
  else if f.versionBad then some (some 4)
  else if d.formatOk x f tb = false then some (some 5)
  else if f.bw = 4 ∧ bandOf (d.centre x) ≠ 2 then some (some 3)
  else if (if x < 2 then 4 else 3) < f.bw then some (some 2)
  else if d.maxStreams x < f.nss ∧ tb.isNone then some (some 1)
  else none

/-- End a reception with a status for all its reports, keeping the power reference as a hold to `untilNs` when given
(R145, R152, R796). -/
def Dev.rxEnd (d : Dev) (x status reason rise : Nat) (untilNs : Option Nat) : Dev :=
  let d := ((d.rxReportAll x status reason rise).rxCount x status).lnabIdle x
  let r := d.rxAt x
  d.setRx x { r.ended with hold := untilNs }

/-- The aggregate disagrees with the trigger (R165). -/
def TbParams.disagrees (t : TbParams) (f : SigFact) : Bool :=
  match f.field with
  | .lSig => decide (f.lLen ≠ t.ulLen)
  | .heSigA => t.eht || decide (f.format ≠ 7)
  | .uSig => !t.eht || decide (f.format ≠ 9)
  | _ => false

/-- When a SIG field is decided, in ns after the first sample (R136, R137): the L-SIG at 20.8 µs, the HE-SIG-A and U-SIG at 32.8 µs, any
other field 0.8 µs after its last symbol. -/
def sigAtNs (f : SigFact) : Nat :=
  match f.field with
  | .lSig => 20800
  | .heSigA | .uSig => 32800
  | _ => f.endNs + 800

/-- A rise that restarts a reception: of at least RESTART_DB above the gain freeze, or an ADC that clips (R146). -/
def Dev.restarts (d : Dev) (x : Nat) (rise : Rise) (clip : Bool) : Bool :=
  clip || decide ((d.rd (rxPage x) RXP_DET.RESTART_DB : Int) ≤ rise.power - (d.rxAt x).ref)

/-- The acquisition of a newer signal: its rise counts as the start of a new L-STF 0.4 µs before the window that shows it ends
(R146). -/
def Dev.acquireRise (d : Dev) (x : Nat) (rise : Rise) : Dev := if d.rxArmed x then d.acquire x (rise.startNs + 400) rise else d

/-- A reception is abandoned for a newer signal (R146, R148): the 0.8 µs window that shows the rise ends. DESIGN CHOICE (log entry
342): a restart by clipping at a power below that of the gain freeze carries RISE 0. -/
def Dev.restart (d : Dev) (x : Nat) (rise : Rise) : Dev :=
  let r := d.rxAt x
  let d := d.reach ((rise.startNs + 800) * nsU)
  (d.rxEnd x 3 r.phase.reason (rise.power - r.ref).toNat none).acquireRise x rise

/-- What a SIG field that passed its check tells of the reception. -/
def Dev.noteSig (d : Dev) (x : Nat) (r : Rx) (f : SigFact) : Rx :=
  let obss := hasColour f.format && d.foreignColour x f.colour
  { r with phase := .sig, format := f.format, bw := f.bw, ldpc := f.ldpc, punct := f.punct, mcs := f.mcs,
           nss := f.nss, giLtf := f.giLtf, ruSize := f.ruSize, ruPos := f.ruPos, psduLen := f.psduLen,
           dur01 := f.dur01, colour := f.colour, obss := obss,
           cca := some { untilNs := r.startNs + 100 * f.dur01, level := r.ref, colour := f.colour, obss := obss,
                         counted := false } }

/-- The reception goes on after the decision, unless it disagrees with its trigger or is not supported (R165, R796). -/
def Dev.sigGoesOn (d : Dev) (x : Nat) (f : SigFact) : Dev :=
  let r := d.rxAt x
  let tb := if r.tbActive then r.tb else none
  if (match tb with | some t => t.disagrees f | none => false) then d.rxEnd x 2 10 0 none
  else match d.unsupported x f tb with
    | some why =>
      let fin := some (r.startNs + 100 * f.dur01)
      (match why with
        | some n => d.rxEnd x 4 n 0 fin
        | none => let p := d.draw 8; p.1.rxEnd x 4 p.2 0 fin)
    | none => if f.last then d.setRx x { r with phase := if r.format ≤ 1 then .data else .ltf } else d

/-- A failed SIG check; a rise in its cycle makes it a restart, and the failure is not counted (R145, R150). -/
def Dev.sigFails (d : Dev) (x : Nat) (f : SigFact) : Dev :=
  match f.rise with
  | some (rise, clip) => if d.restarts x rise clip then d.restart x rise else d.rxEnd x 2 f.fail 0 none
  | none => d.rxEnd x 2 f.fail 0 none

/-- SIG_FIELD_DECIDED (R136, R137, R145, R165, R796). -/
def Dev.sigFieldDecided (d : Dev) (x : Nat) (f : SigFact) : Dev :=
  let r := d.rxAt x
  if r.phase = .found ∨ r.phase = .sig then
    let d := d.reach ((r.startNs + sigAtNs f) * nsU)
    if f.fail ≠ 0 then d.sigFails x f else (d.setRx x (d.noteSig x r f)).sigGoesOn x f
  else d

def execSigFieldDecided (x : Nat) (sig : SigFact) (s : State) : Host.Outcome State Fault Refusal :=
  s.onDev fun d => if x < 4 then d.sigFieldDecided x sig else d

/-- The window that shows a rise holds the last sample of the PPDU, by the duration its SIG fields give: the PPDU completes, and the
rise is acquired at its end (R150). -/
def Rx.endsIn (r : Rx) (rise : Rise) : Bool :=
  let fin := r.startNs + 100 * r.dur01
  decide (r.dur01 ≠ 0) && decide (rise.startNs ≤ fin) && decide (fin ≤ rise.startNs + 800)

/-- RESTART_RISE (R146 to R150): RESTART from detection to the end of a reception; after an OBSS stop it only starts a
new acquisition. -/
def Dev.restartRise (d : Dev) (x : Nat) (rise : Rise) (clip : Bool) : Dev :=
  let r := d.rxAt x
  if d.restarts x rise clip = false ∨ (r.receiving ∧ r.endsIn rise) then d
  else if r.receiving then d.restart x rise
  else if r.hold.isSome then d.acquireRise x rise
  else d

def execRestartRise (x : Nat) (rise : Rise) (clip : Bool) (s : State) : Host.Outcome State Fault Refusal :=
  s.onDev fun d => if x < 4 then d.restartRise x rise clip else d

/-- OBSS_HOLD_END (R152). -/
def execObssHoldEnd (x : Nat) (s : State) : Host.Outcome State Fault Refusal :=
  s.onDev fun d =>
    match (d.rxAt x).hold with
    | some t => (d.reach (t * nsU)).setRx x { d.rxAt x with hold := none }
    | none => d

/-- TB_WINDOW_EXPIRY (R164): common and user reports carry NO_SIGNAL; users and aggregate are counted each. -/
def Dev.tbWindowExpiry (d : Dev) (x : Nat) : Dev :=
  let r := d.rxAt x
  match r.tb with
  | some t =>
    if r.tbActive then d
    else
      let fin := 2 * t.expect + 25 * d.rd (rxPage x) RXP_TB.TB_WIN + 6400
      let d := d.reach (fin * nsU / 2)
      let d := d.setRx x { Rx.reset with tb := some t, tbActive := true, cca := r.cca }
      let d := d.rxReportAll x 8 0 0
      let d := d.cnt (rxPage x) RXP_CNT_NOSIG.COUNT (t.users.length + 1)
      d.setRx x { r with tb := none }
  | none => d

/-- The MAC gives the parameters of a trigger its radio transmitted (R163). -/
def Dev.giveTrigger (d : Dev) (x : Nat) (t : TbParams) : Dev := d.setRx x { d.rxAt x with tb := some t }

/-- The streams of an RU are those of all its users, in their order: one MIMO reception (R168). -/
def Rx.consOf (r : Rx) (users : List Nat) : List Nat :=
  match r.tbActive, r.tb with
  | true, some t => users.flatMap fun u => match t.users[u]? with
    | some w => List.replicate w.nss (consBits r.format w.mcs)
    | none => []
  | _, _ => List.replicate r.nss (consBits r.format r.mcs)

/-- An RU as its LTF shows it: the digital gain from the power of its STF (R142), the estimate and the detector of each unit
(R153 to R155). -/
def Dev.ruBegin (d : Dev) (x : Nat) (r : Rx) (f : LtfRu) : RxRu :=
  let p := rxPage x
  let cons := r.consOf f.users
  let noise := Fr.of f.noise (2 ^ 30)
  let tones := f.tones.map fun t =>
    let h := t.h.map fun row => row.map (Cx.ofIQ 15)
    { tone := t.tone, unit := t.unit, sub := t.sub, group := t.group, ltf := h, h := h, f := h : RxTone }
  { users := f.users, cons := cons, dig := Config.digitalRef - f.stf, noise := noise, tones := tones,
    units := (f.tones.map (·.unit)).eraseDups.map fun u =>
      unitPlan tones noise cons (d.rdB p RXP_DETECT_CFG.OSIC_EN) (d.rd p RXP_DETECT_CFG.OSIC_MARGIN) u,
    lms := 0, soft := [] }

/-- A user of a trigger-based PPDU at the end of the LTF: absent below PRESENCE_DB, its timing within ±TB_WIN and its frequency offset
within ±2 kHz corrected (R166, R167). -/
def Dev.tbUserAt (d : Dev) (x : Nat) (u : TbUser) (f : LtfUser) : TbUser :=
  let w : Int := d.rd (rxPage x) RXP_TB.TB_WIN
  { u with present := decide (d.rd (rxPage x) RXP_TB.PRESENCE_DB ≤ f.snr), timing := clampInt (-w) w f.timing,
           cfo := clampInt (-100) 100 f.cfo }

/-- The data of a reception begins. -/
def Dev.dataBegin (d : Dev) (x : Nat) (f : LtfFact) : Dev :=
  let r := d.rxAt x
  match r.tbActive, r.tb with
  | true, some t =>
    let users := t.users.zipIdx.map fun u => d.tbUserAt x u.1 (nth ⟨0, 0, 0⟩ f.users u.2)
    let r := { r with phase := .data, tb := some { t with users := users } }
    (d.setRx x { r with rus := f.rus.map (d.ruBegin x r) }).cnt (rxPage x)
      RXP_CNT_NOSIG.COUNT (users.filter fun u => !u.present).length
  | _, _ => d.setRx x { r with phase := .data, rus := f.rus.map (d.ruBegin x r) }

/-- The last LTF ends (R151, R166): an OBSS PPDU stops there, its estimate passed on when `asked`; TB users below PRESENCE_DB end
NO_SIGNAL, unless a rise in that cycle restarts the instance (R150). -/
def Dev.rxLtfEnd (d : Dev) (x : Nat) (f : LtfFact) (asked : Bool) : Dev :=
  let r := d.rxAt x
  if r.phase = .ltf then
    if (match f.rise with | some (rise, clip) => r.tbActive && d.restarts x rise clip | none => false) then
      d.restart x (match f.rise with | some (rise, _) => rise | none => ⟨0, 0, 0, []⟩)
    else if r.obss && !d.rdB (rxPage x) RXP_CFG.OBSS_DECODE then
      (d.setRx x { r with est := asked }).rxEnd x 9 0 0 (some (r.startNs + 100 * r.dur01))
    else d.dataBegin x f
  else d

/-- The symbols of the data pass the detector (R144, R153 to R157). -/
def Dev.rxSymbols (d : Dev) (x : Nat) (l : List SymFact) : Dev :=
  let p := rxPage x
  let r := d.rxAt x
  let next (rus : List RxRu) (s : SymFact) : List RxRu :=
    match rus[s.ru]? with
    | some q => setAt rus s.ru (q.symbol (d.rdB p RXP_DETECT_CFG.OSIC_EN) (d.rd p RXP_DETECT_CFG.OSIC_MARGIN)
        (d.rd p RXP_DETECT_CFG.TRACK_START) (d.rd p RXP_DETECT_CFG.MU_SHIFT) s)
    | none => rus
  d.setRx x { r with rus := l.foldl next r.rus }

/-- The codewords of user `u` pass the decoder (R158, R159). -/
def Dev.rxCodewords (d : Dev) (x u : Nat) (l : List CwFact) : Dev :=
  let r := d.rxAt x
  let it := d.rd (rxPage x) RXP_DETECT_CFG.ITER_MAX
  d.setRx x { r with dec := put r.dec u (l.foldl (fun s c => s.add (decodeCw it c)) (lookOr DecStat.none r.dec u)) }

/-- The end in ns of the PPDU in reception at the ball, with the 6 µs signal extension of an OFDM PPDU in 2.4 GHz (R183). -/
def Dev.tEndNs (d : Dev) (x : Nat) : Nat :=
  let r := d.rxAt x
  r.startNs + 100 * r.dur01 + (if bandOf (d.centre x) = 0 ∧ 1 ≤ r.format then 6000 else 0)

/-- One MPDU decoded, of TB user `u` or of the one user (R160): counted in the report by its FCS. -/
def Dev.rxMpdu (d : Dev) (x u : Nat) (fcsOk : Bool) : Dev :=
  let r := d.rxAt x
  match r.tbActive, r.tb with
  | true, some t =>
    let users := t.users.zipIdx.map fun w =>
      if w.2 = u then { w.1 with ok := w.1.ok + b2n fcsOk, bad := w.1.bad + b2n !fcsOk } else w.1
    d.setRx x { r with tb := some { t with users := users } }
  | _, _ => d.setRx x { r with ok := r.ok + b2n fcsOk, bad := r.bad + b2n !fcsOk }

/-- An MPDU may be decoded now: the reception is in its data, and a TB user is present (R166). -/
def Dev.rxDecoding (d : Dev) (x u : Nat) : Bool :=
  let r := d.rxAt x
  decide (r.phase = .data) &&
    (match r.tbActive, r.tb with
      | true, some t => (t.users[u]?.map (·.present)).getD false
      | _, _ => true)

/-- Status of a user with its MPDU counts and failed codewords (R160 to R162). -/
def userStatus (present : Bool) (bad : Nat) (m : RxStats) : Nat :=
  if present = false then 8 else if bad ≠ 0 ∨ m.cwFail ≠ 0 then 1 else 0

/-- The reports of a PPDU received to its end, and its counts (R161, R169, R173): `meas` is of the common report or the one user
first, then of the users. -/
def Dev.rxReports (d : Dev) (x : Nat) (meas : List RxMeas) : Dev :=
  let r := d.rxAt x
  let m0 : RxMeas := ⟨0, [], 0, 0, 0⟩
  match r.tbActive, r.tb with
  | true, some (t : TbParams) =>
    let d := d.rxPublish x 0 fun i => r.commonWords t d.ns i 0 0 0 (nth m0 meas 0)
    d.forAll t.users.zipIdx fun (u : TbUser × Nat) e =>
      let m := nth m0 meas (u.2 + 1)
      let st := userStatus u.1.present u.1.bad (r.statsTb u.2 u.1 m)
      let e := e.rxPublish x st fun i => r.tbWords t u.2 u.1 i st 0 0 m
      if st = 8 then e else e.rxCount x st
  | _, _ =>
    let m := nth m0 meas 0
    let st := userStatus true r.bad (r.statsAll d.ns m)
    (d.rxPublish x st fun i => r.ownWords d.ns i st 0 0 m).rxCount x st

/-- The received PPDU ends (R161, R162, R169): its reports, its counts, and a late decoder, `lastNs` telling how long after the last
sample the last MPDU reached the MAC; a rise in the window of the last sample is acquired (R150). -/
def Dev.rxPpduEnd (d : Dev) (x : Nat) (endNs lastNs : Nat) (meas : List RxMeas) (rise : Option (Rise × Bool)) : Dev :=
  let r := d.rxAt x
  if r.phase = .data then
    let up := match rise with | some (q, clip) => d.restarts x q clip | none => false
    let d := d.reach ((endNs + lastNs) * nsU)
    let d := d.when (decide (6000 < lastNs)) fun e => (e.cnt (rxPage x) RXP_CNT_DECLATE.COUNT).ev (rxPage x) 11
    let d := ((d.rxReports x meas).rxIdle x).lnabIdle x
    match up, rise with
    | true, some (q, _) => d.acquireRise x q
    | _, _ => d
  else d

/-- The first failed check of a receive page's Start (R83, the register tables of the page), as a fault code. -/
def Dev.rxStartCheck (d : Dev) (x : Nat) : Option Nat :=
  let p := rxPage x
  let qs := d.rd p RXP_CFG.QUAD_SET
  let n := ((List.range 6).filter (bit qs)).length
  let rdb := d.rd p RXP_DET.RESTART_DB
  let mu := d.rd p RXP_DETECT_CFG.MU_SHIFT
  let it := d.rd p RXP_DETECT_CFG.ITER_MAX
  let lg := d.rd p RXP_REP_CFG.LOG2_N
  if d.rd p RXP_CFG.CHAINS ≠ (if x = 3 then 1 else 4 * n) then some 0x03
  else if qs ≠ (if x = 3 then 0 else d.quadSet x) then some 0x03
  else if rdb < 3 ∨ 30 < rdb ∨ d.rd p RXP_AGC.STEPS = 0 ∨ mu < 2 ∨ 12 < mu ∨ it = 0 ∨ 16 < it ∨ lg < 4 ∨ 12 < lg
    then some 0x03
  else none

/-- Start sets the ring indices to 0. -/
def Dev.rxOnStart (d : Dev) (x : Nat) : Dev :=
  (d.wr (rxPage x) RXP_REP_WR.WR 0).wr (rxPage x) RXP_REP_RD.RD 0

/-- A receive page discards its work: the reception in progress makes no report (R63, R150). -/
def Dev.rxOnLeave (d : Dev) (x : Nat) : Dev := (d.setRx x Rx.reset).lnabIdle x

end Sys2Proof.Machine
end

