-- ==== Sys2Proof/Machine/Sounding.lean ====
section
/-! DEFINITION. The arithmetic of sounding: the map of the sounding dimensions (R187), the compressed beamforming report and its
Givens reconstruction (R188), and the fixed-point form of a matrix in memory (R194, R203). -/

namespace Sys2Proof.Machine

/-! ### Sounding dimensions (R187) -/

/-- exp(-j 2π k / n) for an n that divides 8 or 6, in 2^-40. -/
def rootOfUnity (n k : Nat) : Int × Int :=
  let m := k % max 1 n
  let z := if n % 3 = 0 then cisThird (6 / n * m) else cis (8 / max 1 n * m) 2
  (z.1, -z.2)

/-- Q[c][d] for `nch` chains and `nsd` sounding dimensions (R187). -/
def soundCoef (nch nsd c k : Nat) : Cx :=
  let s := Fr.sqrt (Fr.of 1 (max 1 nch))
  (Cx.ofIQ 40 (rootOfUnity nsd (c * k))).scale s

/-- The matrix Q: a row for each radio chain, a column for each sounding dimension. -/
def soundMap (nch nsd : Nat) : Mat := (List.range nch).map fun c => (List.range nsd).map (soundCoef nch nsd c)

/-! ### Fixed point -/

/-- A value in units of 2^-`q`, as a signed 16-bit number. DESIGN CHOICE (log entry 346): the spec states no rounding, so a value
between two steps is free to take either. -/
def Dev.fixed (d : Dev) (q : Nat) (v : Fr) : Dev × Nat :=
  let s := v.mul ⟨2 ^ q, 1⟩
  let n := s.floor
  let r := if s.den = 1 then (d, 0) else d.draw 1
  (r.1, ofSigned 16 (clampInt (-(2 ^ 15)) (2 ^ 15 - 1) (n + (r.2 : Int))))

/-- A coefficient as its word: I below, Q above (R194, R203). -/
def Dev.fixedCx (d : Dev) (q : Nat) (c : Cx) : Dev × Nat :=
  let i := d.fixed q c.re
  let j := i.1.fixed q c.im
  (j.1, i.2 + 2 ^ 16 * j.2)

/-- A list of coefficients. -/
def Dev.fixedAll (d : Dev) (q : Nat) (l : List Cx) : Dev × List Nat :=
  l.foldl (fun (acc : Dev × List Nat) c => let r := acc.1.fixedCx q c; (r.1, acc.2 ++ [r.2])) (d, [])

/-- The coefficient a word of Q2.13 holds. -/
def cxOfWord (w : Nat) : Cx := Cx.ofIQ 13 (toSigned 16 (bits w 0 16), toSigned 16 (bits w 16 16))

/-! ### Compressed beamforming reports (R188) -/

/-- The reports the MAC accepts: format, Nc from 1 to Nr, Ng of 4 or 16, the four pairs of angle widths. -/
def bfAccepted (f : BfFact) : Bool :=
  decide (f.format < 3) && decide (1 ≤ f.nc) && decide (f.nc ≤ f.nr) && (decide (f.ng = 4) || decide (f.ng = 16))
    && [(4, 2), (6, 4), (7, 5), (9, 7)].contains (f.phi, f.psi)

/-- Every segment arrived. -/
def bfWhole (f : BfFact) : Bool := (List.range f.segCount).all f.segments.contains

/-- exp(jφ) for the code of an angle φ, and (cos ψ, sin ψ) for that of an angle ψ, as IEEE 802.11 quantises them: (2k + 1) π / 2^b
and (2k + 1) π / 2^(b + 2) (PRESUMED, log entry 347). -/
def phiOf (b k : Nat) : Cx := Cx.ofIQ 40 (cis (2 * k + 1) b)
def psiOf (b k : Nat) : Fr × Fr := let z := cis (2 * k + 1) (b + 2); (Fr.of z.1 (2 ^ 40), Fr.of z.2 (2 ^ 40))

/-- Row `i` of a matrix multiplied by a number. -/
def Mat.scaleRow (m : Mat) (i : Nat) (c : Cx) : Mat := m.zipIdx.map fun r => if r.2 = i then r.1.map (Cx.mul c) else r.1

/-- The transpose of the Givens rotation of rows `i` and `l` by (cos, sin), applied from the left. -/
def Mat.givens (m : Mat) (i l : Nat) (z : Fr × Fr) : Mat :=
  let a := nth [] m i
  let b := nth [] m l
  m.zipIdx.map fun r =>
    if r.2 = i then List.zipWith (fun u v => (u.scale z.1).sub (v.scale z.2)) a b
    else if r.2 = l then List.zipWith (fun u v => (u.scale z.2).add (v.scale z.1)) a b
    else r.1

/-- V of one group from its angles, in the order φ then ψ of each column (R188): the product over the columns of the diagonal of
phases and the rotations, times the first Nc columns of the identity. -/
def bfV (f : BfFact) (angles : List Nat) : Mat :=
  let cols := List.range (min f.nc (f.nr - 1))
  -- where the angles of column i start: two for each row below each earlier column
  let start (i : Nat) := ((List.range i).map fun j => 2 * (f.nr - 1 - j)).foldl (· + ·) 0
  cols.foldr (fun i m =>
    let n := f.nr - 1 - i
    let m := (List.range n).foldr (fun j m => m.givens i (i + 1 + j) (psiOf f.psi (nth 0 angles (start i + n + j)))) m
    (List.range n).foldl (fun m j => m.scaleRow (i + j) (phiOf f.phi (nth 0 angles (start i + j)))) m)
    ((Mat.eye f.nr).cols (List.range f.nc))

/-- 10^(x/20) of a delta SNR in dB. -/
def deltaGain (x : Int) : Fr := Fr.of (mwQ (2 * x)) (2 ^ 64)

/-- The matrix of a group as the record holds it (R194): row i is the conjugate of column i of V, scaled by the group's delta SNR. -/
def bfRows (f : BfFact) (g : Nat) : Mat :=
  let v : Mat := bfV f (nth [] f.angles g)
  let dl := nth [] f.delta g
  (List.range f.nc).map fun i => (v.col i).map fun c => c.conj.scale (if dl.isEmpty then Fr.one else deltaGain (nth 0 dl i))

/-- Header words 0 to 15 of a record, GEN and VALID 0 (R194). -/
def recordWords (source space nrow ncol ng beat bw punct groups sta : Nat) (snrs : List Nat) : List Nat :=
  let snr (i : Nat) := ofLeBytes ((List.range 4).map fun j => nth 0 snrs (4 * i + j) % 256)
  [source * 2 ^ 17 + space * 2 ^ 19 + nrow * 2 ^ 20 + ncol * 2 ^ 24 + ng * 2 ^ 29, beat % 2 ^ 32, bw % 8 + punct % 2 ^ 16 * 8,
    groups % 4096, snr 0, snr 1, sta % 2048] ++ List.replicate 9 0

/-! ### Channel estimates of trigger-based users (R190) -/

/-- The column of the first stream of user `u` in an RU, given the streams of each user. -/
def RxRu.firstStream (r : RxRu) (nss : Nat → Nat) (u : Nat) : Nat :=
  ((r.users.takeWhile (· ≠ u)).map nss).foldl (· + ·) 0

/-- The estimate of group `g` in downlink direction: a row for each of the user's streams, a column for each chain, multiplied by
the correction of the chain in the group's subchannel. None where no tone stands for the group. -/
def RxRu.groupRows (r : RxRu) (recip : Nat → Nat → Cx) (first nss nch g : Nat) : Option Mat :=
  (r.tones.find? fun t => decide (t.group = some g)).map fun t =>
    (List.range nss).map fun i => (List.range nch).map fun c => (nth Cx.zero (nth [] t.ltf c) (first + i)).mul (recip c t.sub)

/-- Power of a row summed over its chains. -/
def rowPower (l : List Cx) : Fr := Fr.sum (l.map Cx.normSq)

/-- The mean power of row `i` over the groups that have an estimate. -/
def meanPower (l : List (Option Mat)) (i : Nat) : Fr :=
  let have' := l.filterMap id
  (Fr.sum (have'.map fun m => rowPower (nth [] m i))).div ⟨max 1 have'.length, 1⟩

/-- The groups with each row scaled to unit norm averaged over them. -/
def unitRows (l : List (Option Mat)) (nss : Nat) : List (Option Mat) :=
  let k := (List.range nss).map fun i => Fr.one.div (Fr.sqrt (meanPower l i))
  l.map fun o => o.map fun m => m.zipIdx.map fun r => r.1.map fun c => c.scale (nth Fr.zero k r.2)

end Sys2Proof.Machine
end

