-- ==== Sys2Proof/Machine/Transmit.lean ====
section
/-! DEFINITION. The transmit path: precoder store (R203 to R208, R211 to R215), power (R209, R210), channel records (R188
to R194), sounding dimensions (R187), reciprocity calibration (R195 to R197), the hand-over of a PPDU (R177 to R184). -/

namespace Sys2Proof.Machine

def txPage (x : Nat) : Nat := 0x028 + x

/-- Tones of an RU_SIZE code. -/
def ruTones (s : Nat) : Nat :=
  nth 0 [26, 52, 106, 242, 484, 996, 1992, 3984, 78, 132, 726, 1480, 1722, 2476, 2988, 3472] s

/-- Tones of a PPDU of a BW code. -/
def bwTones (w : Nat) : Nat := nth 0 [242, 484, 996, 1992, 3984] w

/-- Modular age of beat `b` at beat `m`, on their low 32 bits. -/
def age32 (m b : Nat) : Nat := (m % 2 ^ 32 + 2 ^ 32 - b % 2 ^ 32) % 2 ^ 32

/-! ### Bank headers (R208) -/

/-- Offset of word `w` of bank `b` of entry `e`. -/
def bankOff (e b w : Nat) : Nat := 0x8000 + 64 * e + 32 * b + 4 * w

def Dev.bankW (d : Dev) (x e b w : Nat) : Nat := (d.rdW (txPage x) (bankOff e b w)).toNat
def Dev.setBankW (d : Dev) (x e b w v : Nat) : Dev := d.wrW (txPage x) (bankOff e b w) (BitVec.ofNat 32 v)

def Dev.bankValid (d : Dev) (x e b : Nat) : Bool := bit (d.bankW x e b 0) 0
def Dev.bankCurrent (d : Dev) (x e b : Nat) : Bool := bit (d.bankW x e b 0) 1
def Dev.bankPending (d : Dev) (x e b : Nat) : Bool := bit (d.bankW x e b 0) 2

/-- The current bank of an entry. -/
def Dev.currentBank (d : Dev) (x e : Nat) : Option Nat :=
  if d.bankCurrent x e 0 then some 0 else if d.bankCurrent x e 1 then some 1 else none

/-- The bank a new job of an entry writes: the one that is not current (R204). -/
def Dev.otherBank (d : Dev) (x e : Nat) : Nat := if d.bankCurrent x e 0 then 1 else 0

/-- Streams and the user checksum of an RU (R177, R198). -/
def PlanRu.nss (r : PlanRu) : Nat := (r.users.map fun u => u.nss).foldl (· + ·) 0

def PlanRu.userSum (r : PlanRu) : Nat := crc16 (r.users.flatMap fun u => leBytes 2 (u.sta + (u.nss - 1) * 4096))

/-- Bank `b` matches an RU in everything but its beat and age: VALID, RU, streams, users, chains (R207, R213). -/
def Dev.bankMatches (d : Dev) (x : Nat) (r : PlanRu) (b : Nat) : Bool :=
  let w0 := d.bankW x r.precId b 0
  let w4 := d.bankW x r.precId b 4
  bit w0 0 && decide (bits w0 3 5 = r.size) && decide (bits w0 8 9 = r.pos) && decide (bits w0 17 4 = r.nss)
    && decide (bits w4 0 16 = r.userSum) && decide (bits w4 16 5 = d.radioChains x)

/-- m minus SOUND_BEAT is at most AGE_MAX. -/
def Dev.bankAgeOk (d : Dev) (x e b m : Nat) : Bool :=
  decide (age32 m (d.bankW x e b 2) ≤ d.rd (txPage x) TXP_PREC_CFG.AGE_MAX)

/-- NSS of the RU and the nulls of the bank fit `n` unmasked chains (R211). -/
def Dev.bankFits (d : Dev) (x : Nat) (r : PlanRu) (b n : Nat) : Bool :=
  decide (r.nss + bits (d.bankW x r.precId b 0) 25 4 ≤ n)

/-- The outcome of an RU at beat `m` with `n` unmasked chains (R207, R211, R213): 4 spatial map, 0 on time, 1 to 3 the
step taken. -/
def Dev.ruOutcome (d : Dev) (x m n : Nat) (r : PlanRu) : Nat :=
  if r.precId = 0x1FF then 4
  else
    let fb := d.rd (txPage x) TXP_PREC_CFG.FB_MODE
    let cur := d.currentBank x r.precId
    let fits (b : Nat) := d.bankMatches x r b && d.bankAgeOk x r.precId b m && d.bankFits x r b n
    match cur with
    | some b =>
      if fits b && decide (d.bankW x r.precId b 1 = r.precBeat % 2 ^ 32) then 0
      else if fits b && decide (fb ≤ 1) then 1
      else if fb = 0 ∧ r.nullReq = false then 2
      else 3
    | none => if fb = 0 ∧ r.nullReq = false then 2 else 3

/-- An RU takes a step of R213: the radio's PREC_LATE bit, PREC_FALLBACK, and its counter (R215). -/
def Dev.noteLate (d : Dev) (x o : Nat) : Dev :=
  if o = 0 ∨ 4 ≤ o then d
  else
    let d := (d.wr 0x008 (PTP_BEAT_LATE.PREC_LATE.bitOf x) 1).ev (txPage x) 8
    if o = 1 then d.cnt (txPage x) TXP_CNT_RU_STALE.COUNT
    else if o = 2 then d.cnt (txPage x) TXP_CNT_RU_OPEN.COUNT
    else d.cnt (txPage x) TXP_CNT_RU_UNASSIGNED.COUNT

/-- The chains of a radio that are not masked, quads out of RUNNING counted as masked (R211, R794). -/
def Dev.unmasked (d : Dev) (x : Nat) : Nat :=
  ((List.range (d.radioChains x)).filter fun r =>
    match d.chainOf x r with | some c => d.chainUsable c | none => false).length

/-- At the boundary of `m`: pending banks whose FOR_BEAT is reached become current, and the other bank of the entry is
no longer (R205). -/
def Dev.banksAtBoundary (d : Dev) (x m : Nat) : Dev :=
  d.forAll ((d.listed (txPage x) 0x8000 0x10000).filter (· % 32 = 0)) fun o g =>
    let e := (o - 0x8000) / 64
    let b := (o - 0x8000) / 32 % 2
    if g.bankPending x e b && decide (g.bankW x e b 1 = m % 2 ^ 32) then
      let w := g.bankW x e b 0
      let g := g.setBankW x e b 0 (w - 4 + (if bit w 1 then 0 else 2))
      let o := g.bankW x e (1 - b) 0
      g.setBankW x e (1 - b) 0 (if bit o 1 then o - 2 else o)
    else g

/-- A job's header reaches the store (R204, R205): pending when it arrives at or before boundary FOR_BEAT, else refused with VALID
cleared. Answers the job status. A commit of the cycle of the boundary is taken before it (R28, log entry 324). -/
def Dev.precCommit (d : Dev) (x e b : Nat) (words : List Nat) : Dev × Nat :=
  let forBeat := nth 0 words 1
  if age32 d.beat forBeat < 2 ^ 31 then
    let w := d.bankW x e b 0
    let d := d.setBankW x e b 0 (if bit w 0 then w - 1 else w)
    let w5 := d.bankW x e b 5
    (d.setBankW x e b 5 (w5 % 2 ^ 16 + 2 ^ 16 * 1), 1)
  else
    let w0 := nth 0 words 0
    let w0 := w0 - w0 % 8 + 5
    let d := (List.range 8).foldl (fun f i => f.setBankW x e b i (nth 0 words i)) d
    let d := d.setBankW x e b 0 w0
    let w5 := d.bankW x e b 5
    ({ d with tx := { d.tx with spoiled := d.tx.spoiled.filter (· ≠ (x, e, b)) } }.setBankW x e b 5 (w5 % 2 ^ 16), 0)

/-- First line and number of lines of a bank. -/
def Dev.bankLines (d : Dev) (x e b : Nat) : Nat × Nat :=
  let w := d.bankW x e b 3
  (bits w 0 15, bits w 16 16)

/-- Octets `lo` to `hi` − 1 of radio `x`'s coefficient memory are written: a pending or current bank with lines there no longer
holds its precoder (R206). -/
def Dev.spoil (d : Dev) (x lo hi : Nat) : Dev :=
  let offs := (d.listed (txPage x) 0x8000 0x10000).filter (· % 32 = 0)
  let hit := offs.filterMap fun o =>
    let e := (o - 0x8000) / 64
    let b := (o - 0x8000) / 32 % 2
    let l := d.bankLines x e b
    if (d.bankPending x e b || d.bankCurrent x e b) && decide (64 * l.1 < hi) && decide (lo < 64 * (l.1 + l.2)) then some (x, e, b)
    else none
  { d with tx := { d.tx with spoiled := d.tx.spoiled ++ hit.filter fun h => !d.tx.spoiled.contains h } }

/-! ### Power (R209) -/

/-- Share of chain `c` in stream `s` of an RU, in 1/256, from the bank's share lines (R203). That of a bank whose lines were
written over is undefined, and free (R206). -/
def Dev.share (d : Dev) (x : Nat) (r : PlanRu) (b c s : Nat) : Nat :=
  let w0 := d.bankW x r.precId b 0
  let nch := d.radioChains x
  let nss := bits w0 17 4
  let g := ceilDiv (ruTones r.size) (if bit w0 29 then 16 else 4)
  let lines := g * ceilDiv (nch * nss * 4) 64
  let base := precBase x + 64 * (bits (d.bankW x r.precId b 3) 0 15 + lines)
  if d.tx.spoiled.contains (x, r.precId, b) then Config.spoiledShare x r.precId c s % 256
  else (lookD memFill d.mem (base + s * nch + c)).toNat

/-- What an RU adds to the power of chain `c`, in mW times 2^64: its streams' powers times their shares; 1/nch for the
spatial map and OPEN_LOOP; nothing when UNASSIGNED. -/
def Dev.ruChainPower (d : Dev) (x : Nat) (r : PlanRu) (outcome c : Nat) : Nat :=
  let users := if outcome = 2 then r.users.take 1 else if outcome = 3 then [] else r.users
  let streams := users.flatMap fun u => List.replicate u.nss u.pofs
  let wsum := (streams.map mwQ).foldl (· + ·) 0
  let nch := d.radioChains x
  let total := mwQ r.power
  (streams.zipIdx.map fun ps =>
    let p := if wsum = 0 then 0 else total * mwQ ps.1 / wsum
    match outcome, d.currentBank x r.precId with
    | 0, some b | 1, some b => p * d.share x r b c ps.2 / 256
    | _, _ => if nch = 0 then 0 else p / nch).foldl (· + ·) 0

/-- The chain commands of a PPDU and its scale, all in 0.25 dB (R209). Radio chains outside its set get none, nor do masked
chains and those of a quad page that is not RUNNING, whose rows are zero (R211, R794). -/
def Dev.ppduPowers (d : Dev) (x : Nat) (p : PlanPpdu) (outcomes : List Nat) : List Int × Nat :=
  let pc := (List.range 16).map fun c =>
    if bit p.chains c && (match d.chainOf x c with | some k => d.chainUsable k | none => false) then
      ((p.rus.zipIdx).map fun ru => d.ruChainPower x ru.1 (nth 4 outcomes ru.2) c).foldl (· + ·) 0
    else 0
  let on := (List.range 16).filterMap fun c => if nth 0 pc c = 0 then none else d.chainOf x c
  let raw := match d.pool.reg with
    | none => (-1000 : Int)
    | some t => clampRaw t (d.limitEntries (chanLo (d.centre x) (d.width x)) (chanHi (d.centre x) (d.width x))) on
        (bandOf (d.centre x)) (d.width x)
  let cap := min raw 24
  let top := pc.foldl max 0
  let q := dbmFloor top
  let qc := if mwQ q = top then q else q + 1
  let k : Nat := if d.rdB (txPage x) TXP_CFG.PRESCALE_EN then (qc - cap).toNat else 0
  (pc.map fun v => if v = 0 then -1000 else dbmFloor v - k, k)

/-! ### Handing a PPDU over -/

/-- Boundary `m` in ns. -/
def beatNs (m : Nat) : Nat := m * 250000

/-- Earliest start of a PPDU in ns: START_OFS, but not below 8.0 µs (R178). -/
def PlanPpdu.startNs (p : PlanPpdu) (m : Nat) : Nat := beatNs m + 100 * max p.ofs 80

/-- Latest start of a PPDU in ns: boundary m+1 minus DUR minus RESP (R179). -/
def PlanPpdu.latestNs (p : PlanPpdu) (m : Nat) : Nat := beatNs (m + 1) - 100 * (p.dur + p.resp)

/-- The outcomes of a PPDU's RUs at its start, where chains masked since the boundary send RUs to the late fallback
(R211, R215). -/
def Dev.startOutcomes (d : Dev) (x m : Nat) (p : PlanPpdu) (before : List Nat) : Dev × List Nat :=
  let n := d.unmasked x
  p.rus.zipIdx.foldl (fun acc ru =>
    let old := nth 4 before ru.2
    let new := acc.1.ruOutcome x m n ru.1
    let o := max old new
    ((if o = old ∨ old = 4 then acc.1 else acc.1.noteLate x o), acc.2 ++ [if old = 4 then 4 else o])) (d, [])

/-- The NSD a radio sounds with (R187). -/
def Dev.nsd (d : Dev) (x : Nat) : Nat :=
  let v := d.rd (txPage x) TXP_SOUND_CFG.NSD
  if v ≠ 0 then v else ((List.range 9).filter fun n => decide (n ≠ 0) && decide (d.radioChains x % n = 0)).foldl max 0

/-- A KIND 3 exchange: its NDP sounds NSD dimensions by the map of R187. -/
def Dev.sound (d : Dev) (x m : Nat) (p : PlanPpdu) : Dev :=
  if p.kind = 3 then
    ({ d with tx := { d.tx with ndp := put d.tx.ndp x (d.nsd x, p.bw, m) } }).emit
      (.sounding x (d.nsd x) (soundMap (d.radioChains x) (d.nsd x)))
  else d

/-- The transmit path readies a granted PPDU whose RUs have the given outcomes (R179, R181, R209, R211): its request to the chain
pool. Of a KIND 3 exchange the NDPA goes first and the NDP, SIFS behind it, fills the rest of DUR (R186); `short` when MPDUs were
not delivered (R182). -/
def Dev.readyPpdu (d : Dev) (x m index : Nat) (p : PlanPpdu) (outs : List Nat) (grantNs sent : Nat) (short : Bool) : Dev :=
  let w := d.ppduPowers x p outs
  let ndpa := if p.kind = 3 then some (100 * p.ndpa) else none
  let d := d.sound x m p
  let q : TxReq :=
    { isResponse := false, index := index, chains := p.chains, powers := w.1,
      start := max (p.startNs m) (grantNs + d.leadNs x), latest := p.latestNs m, dur := 100 * p.dur,
      sent := ndpa.getD sent, scale := w.2, ru := outs, short := short,
      ndp := ndpa.map fun n => sent - n - (if bandOf (d.centre x) = 0 then 10000 else 16000), ndpa := none }
  { d with tx := { d.tx with ready := put d.tx.ready x q } }

/-- A response is readied: it starts at the later of t_end + SIFS and hand-over + 1.30 µs + lead time, at the latest
0.4 µs after t_end + SIFS (R184). The spec states no power for it; that is left open (log entry 21). -/
def Dev.readyResponse (d : Dev) (x tEnd dur : Nat) : Dev :=
  let sifs := if bandOf (d.centre x) = 0 then 10000 else 16000
  let p := d.draw 8
  let d := p.1
  let q : TxReq :=
    { isResponse := true, index := 0, chains := 2 ^ d.radioChains x - 1,
      powers := List.replicate 16 (toSigned 8 p.2), start := max (tEnd + sifs) (d.ns + 1300 + d.leadNs x),
      latest := tEnd + sifs + 400, dur := dur, sent := dur, scale := 0, ru := [],
      short := false, ndp := none, ndpa := none }
  { d with tx := { d.tx with ready := put d.tx.ready x q } }

/-- SIFS of a radio in ns (R183). -/
def Dev.sifsNs (d : Dev) (x : Nat) : Nat := if bandOf (d.centre x) = 0 then 10000 else 16000

/-- The transmit path's own counters at a completion (R210, R216). -/
def Dev.txCount (d : Dev) (c : TxDone) : Dev :=
  let p := txPage c.radio
  let started := decide (c.status = 0) || decide (c.status = 1) || decide (c.status = 0xC) || decide (c.first ≠ 0)
  let d := d.when started fun e =>
    let e := e.cnt p TXP_CNT_PPDU.COUNT
    e.cnt p TXP_CNT_RU_OK.COUNT (c.ru.filter (· = 0)).length
  let d := d.when (decide (c.status = 0xC)) (·.cnt p TXP_CNT_UNDERRUN.COUNT)
  let d := d.when (decide (c.status = 0xA)) fun e => (e.cnt p TXP_CNT_WINMISS.COUNT).ev p 10
  let d := d.when (decide (c.status = 0xB)) fun e => (e.cnt p TXP_CNT_RESPLATE.COUNT).ev p 9
  d.when (decide (c.scale ≠ 0)) (·.cnt p TXP_CNT_PRESCALE.COUNT)

/-! ### Channel records (R188 to R194) -/

def Dev.chrecAddr (d : Dev) (x slot : Nat) : Nat :=
  d.rd (txPage x) TXP_CHREC_BASE.BASE * 4096 + slot * 2 ^ d.rd (txPage x) TXP_CHREC_CFG.SLOT_LOG2

/-- Write a record: GEN odd, the header and matrix, then GEN even with VALID 1 last, unless the record in place is
newer (R191, R192). `words` are words 0 to 15 with GEN and VALID 0, `matrix` its words from byte 64. -/
def Dev.chrecWrite (d : Dev) (x slot : Nat) (words matrix : List Nat) : Dev :=
  let a := d.chrecAddr x slot
  let p := txPage x
  if d.wrOk a (64 + 4 * matrix.length) = false then d.enterFault p ⟨0x04, 0, a⟩
  else
    let old := d.ld a 4
    let newer := bit old 16 && decide (age32 (nth 0 words 1) (d.ld (a + 4) 4) ≥ 2 ^ 31)
    if newer then d
    else
      let gen := (old % 2 ^ 16 + 2 + (if old % 2 = 0 then 0 else 1)) % 2 ^ 16
      let d := (d.st a 2 ((gen + 0xFFFF) % 2 ^ 16)).stWords (a + 64) matrix
      let d := d.stWords (a + 4) (words.drop 1)
      ((d.st a 4 (nth 0 words 0 % 2 ^ 32 / 2 ^ 17 * 2 ^ 17 + 2 ^ 16 + gen)).cnt p TXP_CNT_CHREC_WR.COUNT)

/-- A report that cannot be written (R189). -/
def Dev.chrecError (d : Dev) (x : Nat) : Dev := (d.cnt (txPage x) TXP_CNT_CHREC_ERR.COUNT).ev (txPage x) 12

/-- Write words formed free of rounding: the record's matrix in fixed point, then the record (R191, R192). -/
def Dev.chrecPut (d : Dev) (x slot : Nat) (words : List Nat) (rows : List Cx) : Dev :=
  let r := d.fixedAll 13 rows
  r.1.chrecWrite x slot words r.2

/-- A record of `groups` groups of `nrow` by `ncol` entries fits its slot. -/
def Dev.fitsSlot (d : Dev) (x groups nrow ncol : Nat) : Bool :=
  decide (64 + 4 * (groups * nrow * ncol) ≤ 2 ^ d.rd (txPage x) TXP_CHREC_CFG.SLOT_LOG2)

/-- A beamforming report answering a poll (R188, R189): a report outside what the MAC accepts leaves
no record (DESIGN CHOICE, log entry 348: it is not counted). -/
def Dev.bfReport (d : Dev) (x sta : Nat) (f : BfFact) : Dev :=
  match look d.tx.ndp x with
  | none => d
  | some n =>
    if bfWhole f = false ∨ f.nr ≠ n.1 ∨ f.bw ≠ n.2.1 ∨ d.fitsSlot x f.angles.length f.nc f.nr = false then d.chrecError x
    else if bfAccepted f = false then d
    else
      d.chrecPut x sta (recordWords 0 1 f.nc f.nr (if f.ng = 16 then 1 else 0) n.2.2 f.bw f.punct f.angles.length sta
        (f.snrs.map fun v => (clampInt 0 255 v).toNat)) ((List.range f.angles.length).flatMap fun g => (bfRows f g).flatten)

/-- The correction of chain `c` in subchannel `k` (TXP_RECIP). -/
def Dev.recip (d : Dev) (x c k : Nat) : Cx :=
  let w := (d.rdW (txPage x) (0x400 + 64 * c + 4 * k)).toNat
  Cx.ofIQ 14 (toSigned 16 (bits w 0 16), toSigned 16 (bits w 16 16))

/-- The implicit record of a user from the LTF estimate of its RU (R190): `first` its first stream. A group without an estimate is
free (log entry 349). -/
def Dev.implicitRecord (d : Dev) (x : Nat) (r : RxRu) (first : Nat) (u : TbUser) : Dev :=
  let rx := d.rxAt x
  let nch := d.radioChains x
  let n := (r.tones.filterMap (·.group)).foldl (fun a g => max a (g + 1)) 0
  let l := (List.range n).map fun g => r.groupRows (d.recip x) first u.nss nch g
  let snrs := (List.range u.nss).map fun i => ((meanPower l i).div r.noise).quarterDb 255
  let words := recordWords 1 0 u.nss nch (d.rd (txPage x) TXP_SOUND_CFG.IMPL_NG) (rx.startNs / 250000) rx.bw rx.punct n u.sta snrs
  if d.fitsSlot x n u.nss nch then
    let f := (unitRows l u.nss).foldl (fun (acc : Dev × List Nat) o => match o with
      | some m => let q := acc.1.fixedAll 13 m.flatten; (q.1, acc.2 ++ q.2)
      | none =>
        ({ acc.1 with draws := acc.1.draws + u.nss * nch },
          acc.2 ++ (List.range (u.nss * nch)).map fun i => Config.freeValue (acc.1.draws + i) % 2 ^ 32)) (d, [])
    f.1.chrecWrite x u.sta words f.2
  else d

/-- Implicit records of the trigger-based users that end OK or CW_ERRORS with enough SNR (R190). -/
def Dev.implicitRecords (d : Dev) (x : Nat) (users : List TbUser) (meas : List RxMeas) : Dev :=
  if d.rdB (txPage x) TXP_CFG.IMPLICIT_EN && decide (x < 3) && d.inService (txPage x) then
    d.forAll users.zipIdx fun u e =>
      let snr := match meas[u.2 + 1]? with | some m => m.snr | none => 0
      match (e.rxAt x).rus.find? fun r => r.users.contains u.2 with
      | some r =>
        if u.1.present && decide (e.rd (txPage x) TXP_SOUND_CFG.IMPL_SNR ≤ snr) then
          e.implicitRecord x r (r.firstStream (fun i => match users[i]? with | some v => v.nss | none => 0) u.2) u.1
        else e
      | none => e
  else d

/-! ### Reciprocity calibration (R195 to R197) -/

/-- Post the result of a calibration. -/
def Dev.rcalPost (d : Dev) (x result failed : Nat) : Dev :=
  let p := txPage x
  let d := (d.wr p TXP_RCAL_STAT.BUSY 0).wr p TXP_RCAL_STAT.RESULT result
  { (d.wr p TXP_RCAL_STAT.FAILED failed).wr p TXP_RCAL_CMD.GO 0 with tx := { d.tx with rcal := del d.tx.rcal x } }

/-- The sounding transmissions of a calibration: in each subchannel REF sends to every other chain, and every other chain to REF,
at −20 dBm under the regulatory clamp (R196, R197). None leaves while the fence stands or no transmitter is enabled (R8, R36). -/
def Dev.rcalSounds (d : Dev) (x ref : Nat) : List Emit :=
  if d.fenced || d.radioSilent then []
  else
    let send (a b k : Nat) : Option Emit :=
      match d.chainOf x a with
      | some c =>
        let p := min (-80) (d.clampLimit x [c])
        if d.chainUsable c && decide (-104 ≤ p) then some (.rcalSounding x a b k p) else none
      | none => none
    ((List.range (d.radioChains x)).filter (· ≠ ref)).flatMap fun c =>
      ((List.range (widthMhz (d.width x) / 20)).filterMap (send ref c)) ++ (List.range (widthMhz (d.width x) / 20)).filterMap (send c ref)

/-- RCAL_CMD (R195, R196). -/
def execRcalCmd (x ref : Nat) (s : State) : Host.Outcome State Fault Refusal :=
  s.onDev fun d =>
    if 3 ≤ x then d else d.regDo (txPage x) fun d =>
    let p := txPage x
    if d.rdB p TXP_RCAL_STAT.BUSY then d
    else
      let d := d.wr p TXP_RCAL_CMD.REF ref
      if d.bstate (0x030 + x) = .stopped ∧ d.inService p then
        let d := (d.wr p TXP_RCAL_CMD.GO 1).wr p TXP_RCAL_STAT.BUSY 1
        { d with tx := { d.tx with rcal := put d.tx.rcal x (ref % 16) }, out := d.out ++ d.rcalSounds x (ref % 16) }
      else d.rcalPost x 2 0

/-- The correction of a chain in a subchannel: the ratio of the response in the transmit direction of the chain to that in its
receive direction, REF being 1 (R196). DEDUCED (log entry 350): which response divides which. -/
def rcalRatio (l : RcalLoop) : Cx := (Cx.ofIQ 0 l.rev).div (Cx.ofIQ 0 l.fwd)

/-- What the sounding of chain `c` showed in subchannel `k`. -/
def rcalAt (loops : List RcalLoop) (c k : Nat) : Option RcalLoop :=
  loops.find? fun l => decide (l.chain = c) && decide (l.sub = k)

/-- The chains of radio `x` other than `ref`. -/
def Dev.rcalOthers (d : Dev) (x ref : Nat) : List Nat := (List.range (d.radioChains x)).filter (· ≠ ref)

/-- The subchannels of radio `x`. -/
def Dev.rcalSubs (d : Dev) (x : Nat) : List Nat := List.range (widthMhz (d.width x) / 20)

/-- The chains with a loop SNR below 25 dB in some subchannel (R197). -/
def Dev.rcalBad (d : Dev) (x ref : Nat) (snrs : List RcalSnr) (loops : List RcalLoop) : List Nat :=
  (d.rcalOthers x ref).filter fun c => (d.rcalSubs x).any fun k =>
    (rcalAt loops c k).isNone || !snrs.any fun r => decide (r.chain = c) && decide (r.sub = k) && decide (100 ≤ r.snr)

/-- The coefficients of chain `c`, the ratio normalised to REF (R196). -/
def Dev.rcalChain (d : Dev) (x : Nat) (loops : List RcalLoop) (c : Nat) : Dev :=
  d.forAll (d.rcalSubs x) fun k f => match rcalAt loops c k with
    | some l => let w := f.fixedCx 14 (rcalRatio l); w.1.wrW (txPage x) (0x400 + 64 * c + 4 * k) (BitVec.ofNat 32 w.2)
    | none => f

/-- The coefficients of REF are 1. -/
def Dev.rcalRef (d : Dev) (x ref : Nat) : Dev :=
  d.forAll (d.rcalSubs x) fun k f => f.wrW (txPage x) (0x400 + 64 * ref + 4 * k) 0x4000

/-- RCAL_DONE (R196, R197): `loops` and `snrs` are what the soundings of each chain and subchannel showed; one of which nothing is shown
has no SNR. -/
def execRcalDone (x : Nat) (snrs : List RcalSnr) (loops : List RcalLoop) (s : State) : Host.Outcome State Fault Refusal :=
  s.onDev fun d =>
    match look d.tx.rcal x with
    | none => d
    | some ref =>
      let bad := d.rcalBad x ref snrs loops
      let d := d.forAll ((d.rcalOthers x ref).filter fun c => !bad.contains c) fun c e => e.rcalChain x loops c
      let d := d.rcalRef x ref
      (d.rcalPost x (if bad.isEmpty then 0 else 1) (bad.foldl (fun a c => a + 2 ^ c) 0)).ev (txPage x) 11

/-- The completion of what the transmit path has readied and not handed over. -/
def Dev.readyEnds (d : Dev) (x status : Nat) : Dev :=
  match look d.tx.ready x with
  | some q =>
    ({ d with tx := { d.tx with ready := del d.tx.ready x } }).giveDone
      { radio := x, kind := if q.isResponse then .response else .planned q.index, beat := d.beat, status := status, clamped := false,
        scale := q.scale, chainLost := false, paOver := 0, first := q.ndpa.getD 0, ru := q.ru }
  | none => d

/-- The transmit page discards its work: a PPDU in progress or readied ends ABORT_STOP, a calibration ends ABORTED (R64, R197,
R795). -/
def Dev.txOnLeave (d : Dev) (x : Nat) : Dev :=
  let d := ((d.cutTx x 0xD).dropTx x 0xD).readyEnds x 0xD
  if (look d.tx.rcal x).isSome then (d.rcalPost x 3 0).ev (txPage x) 11 else d

/-- The first failed check of a transmit page's Start, as a fault code (R83, register tables). -/
def Dev.txStartCheck (d : Dev) (x : Nat) : Option Nat :=
  let p := txPage x
  let qs := d.rd p TXP_CFG.QUAD_SET
  let n := ((List.range 6).filter (bit qs)).length
  let nsd := d.rd p TXP_SOUND_CFG.NSD
  let sl := d.rd p TXP_CHREC_CFG.SLOT_LOG2
  if d.rd p TXP_CFG.CHAINS ≠ 4 * n ∨ qs ≠ d.quadSet x then some 0x03
  else if d.rd p TXP_PREC_CFG.AGE_MAX = 0 ∨ d.rd p TXP_PREC_CFG.FB_MODE = 3 ∨ sl < 12 ∨ 18 < sl then some 0x03
  else if nsd ≠ 0 ∧ (8 < nsd ∨ 4 * n % nsd ≠ 0) then some 0x03
  else none

end Sys2Proof.Machine
end

