-- ==== Sys2Proof/Machine/Precoder.lean ====
section
/-! DEFINITION. Channel records as their readers take them (R193, R194), and what a precoder job computes (R199, R200, R203, R208):
the precoder of each group, its nulls, its share lines. -/

namespace Sys2Proof.Machine

/-! ### Records -/

/-- Header word `w` of record `i` of radio `x`. -/
def Dev.recW (d : Dev) (x i w : Nat) : Nat := d.ld (d.chrecAddr x i + 4 * w) 4
def Dev.recValid (d : Dev) (x i : Nat) : Bool := d.memOk (d.chrecAddr x i) && bit (d.recW x i 0) 16
def Dev.recBusy (d : Dev) (x i : Nat) : Bool := bit (d.recW x i 0) 0
/-- FOR_BEAT minus MEAS_BEAT does not exceed AGE_MAX. -/
def Dev.recFresh (d : Dev) (x i m : Nat) : Bool :=
  decide (age32 m (d.recW x i 1) ≤ d.rd (txPage x) TXP_PREC_CFG.AGE_MAX)
def Dev.recSpace (d : Dev) (x i : Nat) : Nat := bits (d.recW x i 0) 19 1
def Dev.recNcol (d : Dev) (x i : Nat) : Nat := bits (d.recW x i 0) 24 5

/-- The first `n` rows of record `i` in group `g`, a column for each radio chain: the columns of a record of sounding dimensions go
back to the chains by the map of R187. -/
def Dev.recRows (d : Dev) (x i g n nch : Nat) : Mat :=
  let nrow := bits (d.recW x i 0) 20 4
  let ncol := d.recNcol x i
  let rows := (List.range n).map fun r => (List.range ncol).map fun j =>
    cxOfWord (d.ld (d.chrecAddr x i + 64 + ((g * nrow + r) * ncol + j) * 4) 4)
  if d.recSpace x i = 0 then rows else Mat.mul rows ((soundMap nch ncol).herm ncol) nch

/-- Mean SNR of row `r` of a record in 0.25 dB. -/
def Dev.recSnr (d : Dev) (x i r : Nat) : Nat := (d.ldB (d.chrecAddr x i + 16 + r)).toNat

/-- Tones of a record's grouping, and its centre group. -/
def Dev.recNg (d : Dev) (x i : Nat) : Nat := if bit (d.recW x i 0) 29 then 16 else 4
def Dev.recGroups (d : Dev) (x i : Nat) : Nat := bits (d.recW x i 3) 0 12

/-- Squared magnitude of the product of a row with another, conjugated, and of a row with itself. -/
def corrSq (a b : List Cx) : Fr := (Cx.dot a (b.map Cx.conj)).normSq

/-- The normalised correlation of two records on the centre group is below `lim` / 256 (R313). DESIGN CHOICE (log entry 352): of
records with several rows, that of every pair of rows. -/
def Dev.recApart (d : Dev) (x a b nch lim : Nat) : Bool :=
  let rows (i : Nat) := d.recRows x i (d.recGroups x i / 2) (bits (d.recW x i 0) 20 4) nch
  (rows a).all fun u => (rows b).all fun v =>
    !(((Fr.of (lim * lim) 65536).mul ((rowPower u).mul (rowPower v))).leB (corrSq u v))

/-! ### Precoder jobs (R198 to R203) -/

/-- Record index `u` of the 16-bit fields from word 5 on: users 0 to 7, nulls 8 to 15. -/
def jobRec (w : List Nat) (u : Nat) : Nat := bits (nth 0 w (5 + u / 2)) (16 * (u % 2)) 12

def jobNch (w : List Nat) : Nat := bits (nth 0 w 2) 16 5
def jobNss (w : List Nat) : Nat := bits (nth 0 w 2) 21 4

/-- Users and nulls of a job. -/
def jobNuser (w : List Nat) : Nat := min 8 (bits (nth 0 w 2) 25 4)
def jobNnull (w : List Nat) : Nat := min 8 (bits (nth 0 w 3) 0 4)

/-- Places of the records a job names: users from 0, nulls from 8. -/
def jobPlaces (w : List Nat) : List Nat := List.range (jobNuser w) ++ (List.range (jobNnull w)).map (8 + ·)

/-- Of the records at some places of a job, those that stay busy: a record whose GEN is odd is read again after 1 µs, and whether its
writer has finished by then is free (R193). -/
def Dev.stayBusy (d : Dev) (x : Nat) (w places : List Nat) : Dev × List Nat :=
  places.foldl (fun (acc : Dev × List Nat) u =>
    if acc.1.recBusy x (jobRec w u) then
      let v := acc.1.draw 1
      (v.1, if v.2 = 1 then acc.2 ++ [u] else acc.2)
    else acc) (d, [])

/-- The nulls of a job that are usable (R200), `busy` the places of its busy records. -/
def Dev.usableNulls (d : Dev) (x : Nat) (w busy : List Nat) : List Nat :=
  (List.range (jobNnull w)).filter fun n =>
    let i := jobRec w (8 + n)
    d.recValid x i && !busy.contains (8 + n) && d.recFresh x i (nth 0 w 1) && decide (d.recSpace x i = 0)
      && decide (d.recNcol x i = jobNch w)

/-- Lines of a job's bank, share lines included (R203). -/
def jobLines (w : List Nat) : Nat :=
  let n := jobNch w * jobNss w
  ceilDiv (ruTones (bits (nth 0 w 2) 0 5)) (if bit (nth 0 w 0) 21 then 16 else 4) * ceilDiv (n * 4) 64 + ceilDiv n 64

/-- Tones of a precoder group, and the number of groups of the job's RU (R202). -/
def jobNg (w : List Nat) : Nat := if bit (nth 0 w 0) 21 then 16 else 4
def jobGroups (w : List Nat) : Nat := ceilDiv (ruTones (bits (nth 0 w 2) 0 5)) (jobNg w)

/-- Record and streams of user `u` of a job. -/
def jobUser (w : List Nat) (u : Nat) : Nat × Nat := (jobRec w u, bits (nth 0 w (5 + u / 2)) (16 * (u % 2) + 12) 3 + 1)
def jobUsers (w : List Nat) : List (Nat × Nat) := (List.range (jobNuser w)).map (jobUser w)

/-- First tone of a 26-tone unit of an 80 MHz sequence of 37 units and 996 tones. -/
def unitTone (u : Nat) : Nat := u / 37 * 996 + u % 37 * 26

/-- The group of record `i` nearest the centre tone of group `g` of a job. PRESUMED (log entry 353): group h of a record holds tones
h × Ng to h × Ng + Ng − 1 of the channel. -/
def Dev.recGroupOf (d : Dev) (x i : Nat) (w : List Nat) (g : Nat) : Nat :=
  let t := unitTone (bits (nth 0 w 2) 5 9) + g * jobNg w + jobNg w / 2
  min (d.recGroups x i - 1) (t / d.recNg x i)

/-- The channel of group `g`: for each user its rows, each scaled by the square root of its SNR. -/
def Dev.jobH (d : Dev) (x : Nat) (w : List Nat) (g : Nat) : Mat :=
  (jobUsers w).flatMap fun u =>
    (d.recRows x u.1 (d.recGroupOf x u.1 w g) u.2 (jobNch w)).zipIdx.map fun r =>
      let k := Fr.sqrt (Fr.of (mwQ (d.recSnr x u.1 r.2)) (2 ^ 64))
      r.1.map fun c => c.scale k

/-- Row 0 of each usable null in group `g`. -/
def Dev.jobNulls (d : Dev) (x : Nat) (w : List Nat) (nulls : List Nat) (g : Nat) : Mat :=
  nulls.map fun n => let i := jobRec w (8 + n); nth [] (d.recRows x i (d.recGroupOf x i w g) 1 (jobNch w)) 0

/-- A Hermitian matrix loaded by a fraction of its mean diagonal, inverted: the inverse, and whether every pivot is at least 2^-24
of the mean diagonal (R201). -/
def loadedInv (m : Mat) (n : Nat) (reg : Fr) : Mat × Bool :=
  let md := m.meanDiag
  let r := (m.load (reg.mul md)).inv n
  (r.1, r.2.all fun p => (md.mul (Fr.of 1 (2 ^ 24))).leB p)

/-- The projector off the nulls. -/
def nullProjector (g : Mat) (nch : Nat) : Mat × Bool :=
  if g.isEmpty then (Mat.eye nch, true)
  else
    let gh := g.herm nch
    let q := loadedInv (Mat.mul g gh g.length) g.length (Fr.of 1 (2 ^ 20))
    ((Mat.eye nch).sub (Mat.mul (Mat.mul gh q.1 g.length) g nch), q.2)

/-- Regularised zero-forcing of a channel, each column of unit norm (R199). -/
def zeroForcing (h : Mat) (nch : Nat) (reg : Fr) : Mat × Bool :=
  let hh := h.herm nch
  let q := loadedInv (Mat.mul h hh h.length) h.length reg
  let w := Mat.mul hh q.1 h.length
  let k := (List.range h.length).map fun s => Fr.one.div (Fr.sqrt (rowPower (w.col s)))
  (w.map fun r => r.zipIdx.map fun c => c.1.scale (nth Fr.zero k c.2), q.2)

/-- W of group `g` (R199), and whether no pivot was too small (R201). For METHOD 1 the singular vectors are not computed here: the
spec fixes them only up to a phase, and their columns stay free (log entry 354). -/
def Dev.jobW (d : Dev) (x : Nat) (w nulls : List Nat) (g : Nat) : Mat × Bool :=
  let h := d.jobH x w g
  let p := nullProjector (d.jobNulls x w nulls g) (jobNch w)
  let z := zeroForcing (Mat.mul h p.1 (jobNch w)) (jobNch w) (Fr.of (bits (nth 0 w 3) 16 16) (2 ^ 12))
  if bits (nth 0 w 0) 10 2 = 1 then ([], p.2) else (z.1, p.2 && z.2)

/-- Some group has a pivot below 2^-24 of the mean diagonal (R201). -/
def Dev.jobRank (d : Dev) (x : Nat) (w nulls : List Nat) : Bool :=
  (List.range (jobGroups w)).any fun g => !(d.jobW x w nulls g).2

/-- The depth of a null in group `g`: the power of its unprojected response over that of its residual (R200). DESIGN CHOICE (log
entry 155): the unprojected response is that of the precoder computed without the projector. -/
def Dev.nullDepth (d : Dev) (x : Nat) (w nulls : List Nat) (n g : Nat) : Fr :=
  let row := nth [] (d.jobNulls x w [n] g) 0
  let power (m : Mat) := Fr.sum ((List.range (jobNss w)).map fun s => (Cx.dot row (m.col s)).normSq)
  (power (d.jobW x w [] g).1).div (power (d.jobW x w nulls g).1)

/-- The smallest depth of a null over the groups, in whole dB, at most 254. -/
def Dev.depthDb (d : Dev) (x : Nat) (w nulls : List Nat) (n : Nat) : Nat :=
  ((List.range (jobGroups w)).map fun g => (d.nullDepth x w nulls n g).quarterDb 1016 / 4).foldl min 254

/-- The words of the bank header a job commits (R200, R208). -/
def Dev.jobHeader (d : Dev) (x : Nat) (w nulls : List Nat) : List Nat :=
  let depth := nulls.map fun n => (n, d.depthDb x w nulls n)
  let set (l : List Nat) := l.foldl (fun a n => a + 2 ^ n) 0
  let beats := (jobUsers w).map fun u => d.recW x u.1 1
  let b := nth 0 w 1
  let old := beats.foldl (fun a v => if age32 b a < age32 b v then v else a) (nth 0 beats 0)
  [1 + bits (nth 0 w 2) 0 5 * 2 ^ 3 + bits (nth 0 w 2) 5 9 * 2 ^ 8 + jobNss w % 16 * 2 ^ 17 + bits (nth 0 w 2) 25 4 * 2 ^ 21
      + nulls.length % 16 * 2 ^ 25 + bits (nth 0 w 0) 21 1 * 2 ^ 29 + bits (nth 0 w 0) 10 2 * 2 ^ 30,
    b, old, bits (nth 0 w 4) 0 15 + jobLines w % 2 ^ 16 * 2 ^ 16,
    bits (nth 0 w 4) 16 16 + jobNch w % 32 * 2 ^ 16
      + (if nulls.isEmpty then 0xFF else (depth.map (·.2)).foldl min 254) * 2 ^ 24,
    set ((List.range (jobNnull w)).filter fun n => !nulls.contains n)
      + set ((depth.filter fun e => decide (e.2 < d.rd (txPage x) TXP_PREC_CFG.NULL_MIN)).map (·.1)) * 2 ^ 8, 0, 0]

/-- Octets of a list of words padded to whole 64-byte lines. -/
def toLines (l : List Nat) : List Nat := let b := l.flatMap (leBytes 4); b ++ List.replicate ((64 - b.length % 64) % 64) 0

/-- The lines of a job (R203): each group's W column by column in Q1.14, then the mean of |w|² of each coefficient in 1/256, between
two steps free to take either; of METHOD 1 both are free. -/
def Dev.jobLineOctets (d : Dev) (x : Nat) (w nulls : List Nat) : Dev × List Nat :=
  if bits (nth 0 w 0) 10 2 = 1 then d.drawOctets (64 * jobLines w)
  else
    let ms := (List.range (jobGroups w)).map fun g => (d.jobW x w nulls g).1
    let cols (m : Mat) := (List.range (jobNss w)).flatMap m.col
    let r := ms.foldl (fun (acc : Dev × List Nat) m => let q := acc.1.fixedAll 14 (cols m); (q.1, acc.2 ++ toLines q.2)) (d, [])
    let n := jobNch w * jobNss w
    let share (k : Nat) : Fr := (Fr.sum (ms.map fun m => (nth Cx.zero (cols m) k).normSq)).div ⟨max 1 ms.length, 1⟩
    let s := (List.range n).foldl (fun (acc : Dev × List Nat) k =>
      let q := acc.1.fixed 8 (share k)
      (q.1, acc.2 ++ [min 255 q.2])) (r.1, [])
    (s.1, r.2 ++ s.2 ++ List.replicate ((64 - n % 64) % 64) 0)

end Sys2Proof.Machine
end

