-- ==== Sys2Proof/Machine/Tables.lean ====
section
/-! DEFINITION. What the WLAN MAC and the air scheduler share: the station table (R221 to R224), key slots (R263 to R266),
links and power save (R227, R228, R268 to R277), TSF and TBTT (R278, R279), the transmit queues and completions (R284,
R287, R293 to R298, R327, R330). -/

namespace Sys2Proof.Machine

def macPage (x : Nat) : Nat := 0x030 + x
def airPage (x : Nat) : Nat := 0x038 + x

/-! ### The station table -/

def Dev.staAddr (d : Dev) (s : Nat) : Nat := d.rd 0x033 MAC_STA_BASE.BASE * 64 + 64 * s

/-- Bits `lo` and up, `w` of them, of word `k` of entry `s`. -/
def Dev.sta (d : Dev) (s k lo w : Nat) : Nat := bits (d.ld (d.staAddr s + 4 * k) 4) lo w

def Dev.setSta (d : Dev) (s k lo w v : Nat) : Dev :=
  let a := d.staAddr s + 4 * k
  d.st a 4 (setBits (BitVec.ofNat 32 (d.ld a 4)) lo w v).toNat

def Dev.staValid (d : Dev) (s : Nat) : Bool := decide (d.sta s 0 0 1 = 1)
def Dev.staSuspended (d : Dev) (s : Nat) : Bool := decide (d.sta s 0 1 1 = 1)
def Dev.staLinks (d : Dev) (s : Nat) : Nat := d.sta s 0 2 3
def Dev.staMld (d : Dev) (s : Nat) : Bool := decide (d.sta s 0 5 1 = 1)
def Dev.staEmlsr (d : Dev) (s : Nat) : Bool := decide (d.sta s 0 6 1 = 1)
def Dev.staDozes (d : Dev) (s x : Nat) : Bool := decide (d.sta s 0 (10 + x) 1 = 1)
def Dev.staPair (d : Dev) (s : Nat) : Nat := d.sta s 0 16 12
def Dev.staPmf (d : Dev) (s : Nat) : Bool := decide (d.sta s 0 28 1 = 1)
def Dev.staBss (d : Dev) (s x : Nat) : Nat := d.sta s 2 (16 + 4 * x) 4
def Dev.staBaTid (d : Dev) (s t : Nat) : Bool := decide (d.sta s 8 (16 + t) 1 = 1)

/-- Block Ack window of a TID: 64 to 1,024. -/
def Dev.baWindow (d : Dev) (s t : Nat) : Nat := 64 * 2 ^ min 4 (d.sta s 10 (3 * t) 3)

/-- The address of entry `s` on radio `x`: the link address of an MLD, ADDR otherwise (R224). -/
def Dev.staAddress (d : Dev) (s x : Nat) : Nat :=
  if d.staMld s then ofLeBytes (d.ldBytes (d.staAddr s + 12 + 6 * x) 6)
  else ofLeBytes (d.ldBytes (d.staAddr s + 4) 6)

/-- Lookup key of an address on a radio. -/
def lookKey (x a : Nat) : Nat := x * 2 ^ 48 + a % 2 ^ 48

/-- Entry of a transmitter address on a radio (R224). -/
def Dev.staOf (d : Dev) (x a : Nat) : Option Nat := look d.mac.lookup (lookKey x a)

/-- Radios of a station's links. -/
def Dev.staRadios (d : Dev) (s : Nat) : List Nat := [0, 1, 2].filter (bit (d.staLinks s))

/-- BSSID k of radio x is enabled. -/
def Dev.bssEnabled (d : Dev) (x k : Nat) : Bool := d.rdB (macPage x) (MAC_BSSID.EN.at k)

/-- The field checks of ADD and RESUME (R223, BAD_FIELD). -/
def Dev.staFieldsOk (d : Dev) (s : Nat) : Bool :=
  let ls := d.staRadios s
  decide (ls ≠ []) && (d.staMld s || decide (ls.length = 1)) && ls.all (fun x => d.bssEnabled x (d.staBss s x))
    && (decide (d.staPair s ≤ 2047) || decide (d.staPair s = 0xFFF))
    && decide (1 ≤ d.sta s 7 16 11) && decide (d.sta s 7 16 11 ≤ 2007)
    && decide (1 ≤ d.sta s 8 0 4) && decide (d.sta s 8 0 4 ≤ 8)
    && (List.range 8).all (fun t => !d.staBaTid s t || decide (d.sta s 10 (3 * t) 3 ≤ 4))

/-- No address of the entry is in the lookup for another entry on the same radio (R223, ADDR_CONFLICT). -/
def Dev.staAddrsFree (d : Dev) (s : Nat) : Bool :=
  (d.staRadios s).all fun x => match d.staOf x (d.staAddress s x) with
    | some o => decide (o = s)
    | none => true

/-- Take the entry's addresses out of the lookup. -/
def Dev.lookupDrop (d : Dev) (s : Nat) : Dev :=
  { d with mac := { d.mac with lookup := d.mac.lookup.filter fun e => decide (e.2 ≠ s) } }

/-- Enter the entry's addresses. -/
def Dev.lookupEnter (d : Dev) (s : Nat) : Dev :=
  (d.staRadios s).foldl (fun e x =>
    { e with mac := { e.mac with lookup := put e.mac.lookup (lookKey x (e.staAddress s x)) s } }) (d.lookupDrop s)

/-! ### Records of a TID -/

/-- Key of a record: TID 0 to 7, 8 non-QoS data, 9 management. -/
def recKey (s t : Nat) : Nat := 16 * s + t

def Dev.tidRec (d : Dev) (s t : Nat) : TidRec := lookOr TidRec.empty d.mac.recs (recKey s t)
def Dev.setTidRec (d : Dev) (s t : Nat) (r : TidRec) : Dev :=
  { d with mac := { d.mac with recs := put d.mac.recs (recKey s t) r } }

/-- Entries of the reorder pool in use (R253). -/
def Dev.roUsed (d : Dev) : Nat := (d.mac.recs.map fun e => e.2.held.length + e.2.frags.length).foldl (· + ·) 0

/-- Discard every record of an entry, held MPDUs and fragments with them. -/
def Dev.dropRecs (d : Dev) (s : Nat) : Dev :=
  { d with mac := { d.mac with recs := delRange d.mac.recs (16 * s) (16 * s + 16) } }

/-! ### Key slots -/

def Dev.slotState (d : Dev) (k : Nat) : Nat := d.rd 0x033 (MAC_KEYSLOT.STATE.at k)
def Dev.slotReady (d : Dev) (k : Nat) : Bool := decide (k < 2304) && decide (d.slotState k = 2)
def Dev.slotPn (d : Dev) (k : Nat) : Nat :=
  d.rd 0x033 (MAC_KEYSLOT.TX_PN_LO.at k) + d.rd 0x033 (MAC_KEYSLOT.TX_PN_HI.at k) * 2 ^ 32
def Dev.setSlotPn (d : Dev) (k pn : Nat) : Dev :=
  (d.wr 0x033 (MAC_KEYSLOT.TX_PN_LO.at k) (pn % 2 ^ 32)).wr 0x033 (MAC_KEYSLOT.TX_PN_HI.at k) (pn / 2 ^ 32)

/-- Take the next PN of a slot; none when the slot encrypts nothing further (R266). -/
def Dev.takePn (d : Dev) (k : Nat) : Dev × Option Nat :=
  let pn := d.slotPn k
  if 2 ^ 48 - 1 ≤ pn then (d, none)
  else
    let d := d.setSlotPn k (pn + 1)
    (d.when (decide (pn + 1 = 2 ^ 47)) (·.ev 0x033 12), some pn)

/-- Group slot of BSSID k of radio x, if it names one. -/
def groupSlot (g : Nat) : Option Nat := if g < 256 then some (2048 + g) else none

/-! ### Time and beacons -/

/-- TSF offset of radio x, 64 bits. -/
def Dev.tsfOfs (d : Dev) (x : Nat) : Nat :=
  d.rd (macPage x) MAC_TSF_OFS_LO.OFS + d.rd (macPage x) MAC_TSF_OFS_HI.OFS * 2 ^ 32

/-- TSF of radio x at a device time in ns (R278). -/
def Dev.tsf (d : Dev) (x ns : Nat) : Nat := (ns / 1000 + d.tsfOfs x) % 2 ^ 64

/-- The TBTT of BSSID k that lies in beat `m`: its offset in 0.1 µs and whether it is a DTIM (R279). -/
def Dev.tbttIn (d : Dev) (x k m : Nat) : Option (Nat × Bool) :=
  let t0 := d.tsf x (beatNs m)
  let ofs := d.rd (macPage x) (MAC_BSSID.BCN_OFS.at k) * 1024
  let int := d.rd (macPage x) (MAC_BSSID.BCN_INT.at k) * 1024
  if int = 0 then none
  else
    let i := if t0 ≤ ofs then 0 else ceilDiv (t0 - ofs) int
    let tb := ofs + i * int
    if t0 ≤ tb ∧ tb < t0 + 250 then some (10 * (tb - t0), decide (i % max 1 (d.rd (macPage x) (MAC_BSSID.DTIM_PERIOD.at k)) = 0))
    else none

/-- The next TBTT at or after beat `m`: beat, offset in 0.1 µs, DTIM (R279, R280). -/
def Dev.tbttNext (d : Dev) (x k m : Nat) : Nat × Nat × Bool :=
  let t0 := d.tsf x (beatNs m)
  let ofs := d.rd (macPage x) (MAC_BSSID.BCN_OFS.at k) * 1024
  let int := max 1024 (d.rd (macPage x) (MAC_BSSID.BCN_INT.at k) * 1024)
  let i := if t0 ≤ ofs then 0 else ceilDiv (t0 - ofs) int
  let tb := ofs + i * int - t0
  (m + tb / 250, 10 * (tb % 250), decide (i % max 1 (d.rd (macPage x) (MAC_BSSID.DTIM_PERIOD.at k)) = 0))

/-- Enabled transmitted BSSIDs. -/
def Dev.txBssids (d : Dev) (x : Nat) : List Nat :=
  (List.range 16).filter fun k => d.bssEnabled x k && d.rdB (macPage x) (MAC_BSSID.TX_BSSID.at k)

/-- Publish the next TBTT of each transmitted BSSID from beat `m` on (R280). -/
def Dev.publishTbtt (d : Dev) (x m : Nat) : Dev :=
  d.forAll (d.txBssids x) fun k e =>
    let t := e.tbttNext x k m
    ((e.wr (macPage x) (MAC_TBTT.BEAT_LO.at k) t.1).wr (macPage x) (MAC_TBTT.OFS.at k) t.2.1).wr
      (macPage x) (MAC_TBTT.DTIM.at k) (b2n t.2.2)

/-! ### Target wake time (R274 to R277) -/

/-- Word `k` of TWT entry `e`. -/
def Dev.twtW (d : Dev) (e k : Nat) : Nat := d.ld (d.rd 0x033 MAC_TWT_BASE.BASE * 4096 + 16 * e + 4 * k) 4

/-- The chain of TWT entries from `e` on (R274). -/
def Dev.twtChain (d : Dev) : Nat → Nat → List Nat
  | 0, _ => []
  | n + 1, e =>
    let nx := bits (d.twtW e 3) 20 12
    if nx = e then [e] else e :: d.twtChain n nx

/-- Beat `m` lies in a service period of entry `e` (R275). -/
def Dev.twtCovers (d : Dev) (e x m : Nat) : Bool :=
  let w0 := d.twtW e 0
  let start := d.twtW e 1 + bits (d.twtW e 2) 0 16 * 2 ^ 32
  let wake := bits (d.twtW e 2) 16 8 * 256
  let w3 := d.twtW e 3
  let int := bits w3 0 16 * 2 ^ bits w3 16 4
  let t0 := d.tsf x (beatNs m) % 2 ^ 48
  bit w0 0 && decide (bits w0 3 2 = x) && decide (start ≤ t0)
    && (let into := if int = 0 then t0 - start else (t0 - start) % int
        decide (into + 250 ≤ wake))

/-- A station's agreements cover beat `m` on radio `x` (R276). -/
def Dev.twtAwake (d : Dev) (s x m : Nat) : Bool :=
  decide (d.sta s 11 28 1 = 1) && (d.twtChain 4096 (d.sta s 11 16 12)).any fun e => d.twtCovers e x m

/-- The station counts as awake on the link in beat `m` (R268, R270, R271, R276). -/
def Dev.staAwake (d : Dev) (s x m : Nat) : Bool :=
  !d.staDozes s x || (look d.mac.sp (4 * s + x)).isSome || d.twtAwake s x m

/-- Radio x is permitted for a TID of a station (R227 without its doze condition, R228). -/
def Dev.linkOk (d : Dev) (s t x : Nat) : Bool :=
  let ttlm := bits (d.sta s 9 0 24) (3 * t) 3
  let lost := d.staMld s && (d.staRadios s).any (fun y => !d.radioInService y)
  d.radioInService x && bit (d.staLinks s) x && (lost || decide (ttlm = 0) || bit ttlm x)

/-! ### Transmit queues -/

/-- Number of the queue of an entry (R293). -/
def QEntry.queue (e : QEntry) : Nat := if e.sta = 0x7FF then 16384 + e.gq else 8 * e.sta + e.tid

def Dev.queue (d : Dev) (q : Nat) : List QEntry := lookOr [] d.air.queues q
def Dev.setQueue (d : Dev) (q : Nat) (l : List QEntry) : Dev :=
  { d with air := { d.air with queues := if l.isEmpty then del d.air.queues q else put d.air.queues q l } }

/-- Entries held in all queues. -/
def Dev.queued (d : Dev) : Nat := (d.air.queues.map fun e => e.2.length).foldl (· + ·) 0

/-- Free entries of the pool. -/
def Dev.poolFree (d : Dev) : Nat := d.rd 0x03B AIR_QPOOL_CFG.ENTRIES - d.queued

/-- Count an outcome code (AIR_CNT_OUT). -/
def Dev.outCount (d : Dev) (code : Nat) (n : Nat := 1) : Dev :=
  if code < 64 then d.cnt 0x03B (AIR_CNT_OUT.COUNT.at code) n else d

/-- The completion of an entry (R287, R330). -/
def QEntry.cpl (e : QEntry) (status outcome : Nat) : Cpl :=
  { status := status, tries := e.tries % 16, outcome := outcome, tid := e.tid, sta := e.sta, radio := e.lastRadio,
    cookie := e.cookie, timeNs := e.lastNs % 2 ^ 32, sn := e.sn.getD 0, ppduStatus := e.lastStatus,
    ruOutcome := e.lastRu, basket := e.basket }

/-- Words of a completion (R287). -/
def Cpl.words (c : Cpl) : List Nat :=
  [c.status % 16 + c.tries % 16 * 16 + c.outcome % 256 * 2 ^ 8 + c.tid % 8 * 2 ^ 16 + c.sta % 2048 * 2 ^ 19
      + c.radio % 4 * 2 ^ 30,
    c.cookie % 2 ^ 32, c.timeNs % 2 ^ 32,
    c.sn % 4096 + c.ppduStatus % 16 * 2 ^ 12 + c.ruOutcome % 8 * 2 ^ 16]

/-- Return a completion to the packet engine. -/
def Dev.giveCpl (d : Dev) (c : Cpl) : Dev := { d with cpls := d.cpls ++ [c] }

/-- Every entry a plan holds for a radio stays out of ageing and removal: identifiers on the air. -/
def Dev.onAirIds (d : Dev) : List Nat :=
  d.mac.radio.flatMap fun r => match r.onAir with
    | some o => o.users.flatMap fun u => u.ids
    | none => []

/-- Entry leaves its queue with a completion (R287, R296). -/
def Dev.finish (d : Dev) (e : QEntry) (status outcome : Nat) : Dev :=
  let q := e.queue
  (d.setQueue q ((d.queue q).filter fun f => decide (f.id ≠ e.id))).giveCpl (e.cpl status outcome)

/-- A scheduler completion: STATUS SCHEDULER, with its code counted (R328, R330, R335). -/
def Dev.finishSched (d : Dev) (e : QEntry) (code : Nat) : Dev := (d.finish e 7 code).outCount code

/-- Change the entry with an identifier in a queue. -/
def Dev.onEntry (d : Dev) (q id : Nat) (f : QEntry → QEntry) : Dev :=
  d.setQueue q ((d.queue q).map fun e => if e.id = id then f e else e)

/-- Record a delay on an entry (R327). -/
def Dev.delay (d : Dev) (q id code : Nat) : Dev :=
  (d.onEntry q id fun e => { e with delays := min 0xFFFF (e.delays + 1), lastOut := code }).outCount code

/-- Record a delay on the first entry of a queue that is not among `ids`. -/
def Dev.delayFirst (d : Dev) (q code : Nat) (ids : List Nat) : Dev :=
  match (d.queue q).find? fun e => !ids.contains e.id with
  | some e => d.delay q e.id code
  | none => d

/-- WinStart of a TID at the transmitter: the lowest sequence number neither acknowledged nor completed (R248). -/
def Dev.txWin (d : Dev) (s t : Nat) : Nat :=
  match (d.queue (8 * s + t)).findSome? fun e => e.sn with
  | some n => n
  | none => (d.tidRec s t).txNext

/-- A radio's MAC record. -/
def Dev.macR (d : Dev) (x : Nat) : MacRadio := nth MacRadio.reset d.mac.radio x
def Dev.setMacR (d : Dev) (x : Nat) (r : MacRadio) : Dev :=
  { d with mac := { d.mac with radio := setAt d.mac.radio x r } }

/-- Class registers (R294, R310, R328), from a class word 0. -/
def clsWeight (w : Nat) : Nat := bits w 0 8
def clsStrict (w : Nat) : Bool := bit w 8
def clsMaxAge (w : Nat) : Nat := bits w 16 16
def Dev.clsWord (d : Dev) (c w : Nat) : Nat := (d.rdW 0x03B (0x100 + 8 * c + 4 * w)).toNat

/-- Words of admitted flow `a`. -/
def Dev.flowW (d : Dev) (a w : Nat) : Nat := (d.rdW 0x03B (0x1000 + 8 * a + 4 * w)).toNat

/-- The valid flows as (index, station, class, direction, radio, RESV, USED). -/
def Dev.flowAt (d : Dev) (a : Nat) : Option (Nat × Nat × Nat × Nat × Nat × Nat) :=
  let w0 := d.flowW a 0
  let w1 := d.flowW a 1
  if bit w0 0 then some (bits w0 5 11, bits w0 2 3, bits w0 1 1, bits w0 16 2, bits w1 0 16, bits w1 16 16) else none

/-- Indices of the flows in use, ascending. -/
def Dev.flowIds (d : Dev) : List Nat :=
  ((d.listed 0x03B 0x1000 0x3000).filter fun o => decide (o % 8 = 0) && bit (d.rdW 0x03B o).toNat 0).map
    fun o => (o - 0x1000) / 8

end Sys2Proof.Machine
end

