-- ==== Sys2Proof/Machine/Air.lean ====
section
/-! DEFINITION. The air scheduler: enqueue (R294), admission (R299, R300), the queue snapshot (R309, R328, R332), the
plan (R308 to R321), its cost and the degradation ladder (R322 to R325), delays (R327), plan buffers (R305). -/

namespace Sys2Proof.Machine

/-! ### Enqueue (R294 to R298) -/

/-- The entry that request words 0 to 4 describe (R284). -/
def parseEntry (w : List Nat) (id : Nat) : QEntry :=
  let a := nth 0 w 1
  let b := nth 0 w 2
  { id := id, basket := bits (nth 0 w 0) 0 21, len := bits a 0 14, fmt := bits a 14 2, tid := bits a 16 3,
    sta := bits a 20 11, gq := bits b 0 6, bssid := bits b 6 4, radio := bits b 10 2, noAck := bit b 12,
    plain := bit b 13, ftm := bit b 14, cls := bits b 16 3, enqBeat := nth 0 w 3 % 2 ^ 32,
    cookie := nth 0 w 4 % 2 ^ 32, sn := none, tries := 0, enc := false, lastOut := 0xFF, delays := 0, demoted := false,
    lastNs := 0, lastStatus := 0, lastRu := 0, lastRadio := 0 }

/-- The station has an admitted downlink flow of a class on some radio. -/
def Dev.hasFlow (d : Dev) (s c : Nat) : Bool :=
  d.flowIds.any fun a => match d.flowAt a with
    | some f => decide (f.1 = s) && decide (f.2.1 = c) && decide (f.2.2.1 = 0)
    | none => false

/-- Entries of a class in a queue, and across all queues. -/
def Dev.inQueue (d : Dev) (q c : Nat) : Nat := ((d.queue q).filter fun e => decide (e.cls = c)).length
def Dev.inClass (d : Dev) (c : Nat) : Nat :=
  (d.air.queues.map fun q => (q.2.filter fun e => decide (e.cls = c)).length).foldl (· + ·) 0

/-- The checks of R294 in order: the entry as it would join, or the refusal code. -/
def Dev.enqueueCheck (d : Dev) (e : QEntry) : QEntry × Option Nat :=
  if e.sta = 0x7FF ∧ (2 < e.radio ∨ d.bssEnabled e.radio e.bssid = false) then (e, some 0x25)
  else if e.sta ≠ 0x7FF ∧ d.staValid e.sta = false then (e, some 0x20)
  else
    let w := d.clsWord e.cls 0
    let need := bit w 9 && !d.hasFlow e.sta e.cls
    if need ∧ bit w 10 = false then (e, some 0x24)
    else
      let e := if need then { e with cls := bits w 11 3, demoted := true } else e
      let w1 := d.clsWord e.cls 1
      if bits w1 0 16 ≤ d.inQueue e.queue e.cls then (e, some 0x21)
      else if bits w1 16 16 ≠ 0 ∧ bits w1 16 16 * 64 ≤ d.inClass e.cls then (e, some 0x22)
      else if d.poolFree = 0 then (e, some 0x23)
      else (e, none)

/-- An enqueue request (R294 to R298, R335): refused with BLOCK_UNAVAILABLE when the shared page is not in service. -/
def Dev.enqueueRequest (d : Dev) (words : List Nat) : Dev :=
  if d.inService 0x03B = false then d.complete .unavailable
  else
    let e := parseEntry words d.air.nextId
    let d := { d with air := { d.air with nextId := d.air.nextId + 1 } }
    let r := d.enqueueCheck e
    let d := d.when r.1.demoted (·.outCount 0x02)
    match r.2 with
    | some code => (((d.giveCpl (r.1.cpl 7 code)).outCount code).ev 0x03B 8).complete .okay
    | none =>
      let d := d.setQueue r.1.queue (d.queue r.1.queue ++ [r.1])
      let low := d.rd 0x03B AIR_QPOOL_CFG.LOW_MARK * d.rd 0x03B AIR_QPOOL_CFG.ENTRIES / 256
      (d.when (decide (d.poolFree < low)) (·.ev 0x03B 10)).complete .okay

/-- ENQUEUE_REQUEST. -/
def execEnqueueRequest (words : List Nat) (s : State) : Host.Outcome State Fault Refusal :=
  s.onDev (·.enqueueRequest words)

/-! ### Admission (R299 to R301) -/

/-- Post an admission result. -/
def Dev.admPost (d : Dev) (result index : Nat) : Dev :=
  let d := (d.wr 0x03B AIR_ADM_STAT.RESULT result).wr 0x03B AIR_ADM_STAT.INDEX index
  ((d.wr 0x03B AIR_ADM_STAT.BUSY 0).wr 0x03B AIR_ADM_CMD0.GO 0).ev 0x03B 11

/-- What the flows admitted on a radio have reserved (R299). -/
def Dev.flowSum (d : Dev) (radio : Nat) : Nat :=
  (d.flowIds.filterMap fun a => match d.flowAt a with
    | some f => if f.2.2.2.1 = radio then some f.2.2.2.2.1 else none
    | none => none).foldl (· + ·) 0

/-- The flow admitted with the same station, class, direction and radio. -/
def Dev.sameFlow (d : Dev) (sta cls dir radio : Nat) : Option Nat :=
  d.flowIds.find? fun a => match d.flowAt a with
    | some f => decide (f.1 = sta) && decide (f.2.1 = cls) && decide (f.2.2.1 = dir) && decide (f.2.2.2.1 = radio)
    | none => false

/-- The lowest free flow. -/
def Dev.freeFlow (d : Dev) : Option Nat := (List.range 1024).find? fun a => !d.flowIds.contains a

/-- ADM_ADD (R299). -/
def execAdmAdd (sta cls dir radio resv : Nat) (s : State) : Host.Outcome State Fault Refusal :=
  s.onDev fun d => d.regDo 0x03B fun d =>
    let sta := sta % 2048
    let cls := cls % 8
    let dir := dir % 2
    let radio := radio % 4
    let resv := resv % 2 ^ 16
    if d.inService 0x03B = false then d.admPost 6 0
    else
      if d.staValid sta = false ∨ bit (d.staLinks sta) radio = false then d.admPost 3 0
      else match d.sameFlow sta cls dir radio with
        | some a => d.admPost 4 a
        | none =>
          if d.rd 0x03B AIR_ADM_LIMIT.ADM_LIMIT < d.flowSum radio + resv then d.admPost 1 0
          else match d.freeFlow with
            | none => d.admPost 2 0
            | some a =>
              let w0 := 1 + dir * 2 + cls * 4 + sta * 32 + radio * 2 ^ 16
              let d := d.wrW 0x03B (0x1000 + 8 * a) (BitVec.ofNat 32 w0)
              (d.wrW 0x03B (0x1004 + 8 * a) (BitVec.ofNat 32 resv)).admPost 0 a

/-- ADM_REMOVE (R299, R301). -/
def execAdmRemove (index : Nat) (s : State) : Host.Outcome State Fault Refusal :=
  s.onDev fun d => d.regDo 0x03B fun d =>
    let a := index % 1024
    if d.inService 0x03B = false then d.admPost 6 0
    else if bit (d.flowW a 0) 0 = false then d.admPost 5 a
    else ((d.wrW 0x03B (0x1000 + 8 * a) 0).wrW 0x03B (0x1004 + 8 * a) 0).admPost 0 a

/-- USED of every flow is 0 from the boundary of position 0 (R300). -/
def Dev.flowsNewRound (d : Dev) : Dev :=
  d.forAll d.flowIds fun a e => e.wrW 0x03B (0x1004 + 8 * a) (BitVec.ofNat 32 (e.flowW a 1 % 2 ^ 16))

/-! ### The snapshot (R27, R28, R309, R328 to R333) -/

/-- Presets of a service mode: RU_MIN, RU_MAX, MU_MAX, MAX_USERS, TX_PSD in 0.25 dBm/MHz, LADDER_KEEP, UL_USERS_MAX
(R332). -/
def modePreset : Nat → Option (Nat × Nat × Nat × Nat × Nat × Nat × Nat)
  | 0 => some (4, 7, 8, 32, 0xC2, 2, 64)
  | 1 => some (0, 3, 4, 144, 0xC2, 3, 144)
  | 2 => some (2, 5, 4, 64, 0xC2, 3, 144)
  | 3 => some (3, 5, 2, 16, 0xD0, 4, 32)
  | 4 => some (2, 4, 4, 32, 0xB8, 5, 64)
  | _ => none

/-- The service mode in force. -/
def Dev.mode (d : Dev) : Nat := d.rd 0x001 PWR_MODE.MODE

/-- A radio takes the presets of a new mode at the first snapshot after the change (R332). -/
def Dev.takePresets (d : Dev) (x : Nat) : Dev :=
  let m := d.mode
  if look d.air.mode x = some m then d
  else
    let d := { d with air := { d.air with mode := put d.air.mode x m } }
    match modePreset m with
    | none => d
    | some (a, b, c, u, t, k, l) =>
      let p := airPage x
      let d := ((d.wr p AIR_POLICY.RU_MIN a).wr p AIR_POLICY.RU_MAX b).wr p AIR_POLICY.MU_MAX c
      let d := ((d.wr p AIR_POLICY.MAX_USERS u).wr p AIR_POLICY.TX_PSD t).wr p AIR_POLICY.LADDER_KEEP k
      d.wr p AIR_UL.UL_USERS_MAX l

/-- Identifiers a frozen or executing plan, or a PPDU on the air, holds. -/
def Plan.ids (p : Plan) : List Nat := p.ppdus.flatMap fun q => q.rus.flatMap fun r => r.users.flatMap fun u => u.ids

def Dev.planIds (d : Dev) : List Nat :=
  d.onAirIds ++ (d.air.bufs.flatMap fun b => match b.2.plan with
    | some p => if b.2.st = .frozen ∨ b.2.st = .executing then p.ids else []
    | none => [])

/-- Ageing of one queue at a snapshot for beat `m` (R328, R329): from the head, at most 256 entries, until one is not
aged. -/
def Dev.ageQueue (d : Dev) (q m : Nat) (held : List Nat) : Dev :=
  let rec go : Nat → List QEntry → Dev → Dev
    | 0, _, d => d
    | _ + 1, [], d => d
    | n + 1, e :: r, d =>
      let lim := clsMaxAge (d.clsWord e.cls 0)
      if lim = 0 ∨ age32 m e.enqBeat ≤ lim ∨ 2 ^ 31 ≤ age32 m e.enqBeat ∨ held.contains e.id then d
      else
        let dozed := decide (e.sta ≠ 0x7FF) && decide (d.staRadios e.sta ≠ [])
          && (d.staRadios e.sta).all fun x => d.staDozes e.sta x
        let code := if dozed then 0x32 else if e.tries = 0 then 0x30 else 0x31
        let d := (d.finishSched e code).ev 0x03B 9
        let d := if e.sn.isSome ∧ e.sta ≠ 0x7FF then
            d.setTidRec e.sta e.tid { d.tidRec e.sta e.tid with oweBar := true } else d
        go n r d
  go 256 (d.queue q) d

/-- The queue is one of management frames: its head is an 802.11 frame built by firmware (R293, log entry 24). -/
def Dev.mgmtQueue (d : Dev) (q : Nat) : Bool :=
  match d.queue q with | e :: _ => decide (16384 ≤ q) && decide (e.fmt = 2) | [] => false

/-- The transmitted BSSID whose beacon speaks for a BSSID (R219). DEDUCED (log entry 374): a nontransmitted BSSID shares the beacon,
its DTIMs and its TIM. -/
def Dev.beaconBss (d : Dev) (x k : Nat) : Nat :=
  if d.rdB (macPage x) (MAC_BSSID.TX_BSSID.at k) then k else d.rd (macPage x) (MAC_BSSID.TXB.at k)

/-- Beat `m` carries the DTIM beacon of a BSSID. -/
def Dev.dtimBeat (d : Dev) (x k m : Nat) : Bool :=
  match d.tbttIn x (d.beaconBss x k) m with | some t => t.2 | none => false

/-- Stations of a BSSID that doze on their link (R273). -/
def Dev.bssDozes (d : Dev) (x k : Nat) : Bool :=
  d.mac.lookup.any fun l => decide (l.1 / 2 ^ 48 = x) && decide (d.staBss l.2 x = k) && d.staDozes l.2 x

/-- A station is left out of the plans: SUSPENDED, or a SUSPEND for it is under way (R223). -/
def Dev.staLeftOut (d : Dev) (s : Nat) : Bool :=
  d.staSuspended s || (match d.mac.cmd with | some c => decide (c.sta = s) && decide (c.op = 2) | none => false)

/-- An EMLSR station that another link served cannot be served on radio `x` at time `t` yet (R233). -/
def Dev.emlsrAway (d : Dev) (s x t : Nat) : Bool :=
  d.staEmlsr s && (match look d.mac.emlsr s with
    | some (y, until_) => decide (y ≠ x) && decide (t < until_)
    | none => false)

/-- The first condition of R309 a queue fails for beat `m` on radio `x`, as a code. -/
def Dev.notEligible (d : Dev) (q x m typ : Nat) : Option Nat :=
  match d.queue q with
  | [] => some 0xFF
  | e :: _ =>
    let dl := (decide (typ = 0) || decide (typ = 2)) && decide (d.mode ≠ 5)
    if 16384 ≤ q then
      if e.radio ≠ x then some 0xFF
      else if d.mgmtQueue q then if typ = 3 ∨ d.mode = 5 then some 0x1D else none
      else if d.bssDozes x e.bssid && !d.dtimBeat x e.bssid m then some 0x1D
      else if dl then none else some 0x1D
    else
      let s := e.sta
      let slot := d.staPair s
      if d.staLeftOut s then some 0x1E
      else if d.linkOk s e.tid x = false then some 0x19
      else if d.staAwake s x m = false then some 0x18
      else if d.emlsrAway s x (beatNs m) then some 0x1F
      else if dl = false then some 0x1D
      else if slot ≠ 0xFFF ∧ d.slotReady slot = false ∧ e.plain = false then some 0x1B
      else if d.staBaTid s e.tid && (match e.sn with
          | some n => decide (d.baWindow s e.tid ≤ (n + 4096 - d.txWin s e.tid) % 4096)
          | none => decide (d.baWindow s e.tid ≤ ((d.tidRec s e.tid).txNext + 4096 - d.txWin s e.tid) % 4096)) then
        some 0x1C
      else none

/-- The floor the scheduler builds against: the one published for the beat, else the last for the radio (R325); SAFE_FLOOR while
the governor is not in service (R684). -/
def Dev.floorFor (d : Dev) (x m : Nat) : Nat :=
  if d.inService 0x001 = false then d.rd 0x001 PWR_SAFE_FLOOR.SAFE_FLOOR else match look d.gov.floors (4 * m + x) with
  | some f => f
  | none => lookOr 0 d.air.lastFloor x

def Dev.buf (d : Dev) (x m : Nat) : PlanBuf := lookOr { st := .free, plan := none } d.air.bufs (4 * x + m % 4)
def Dev.setBuf (d : Dev) (x m : Nat) (b : PlanBuf) : Dev :=
  { d with air := { d.air with bufs := put d.air.bufs (4 * x + m % 4) b } }

/-- Numbers of the queues that hold entries. -/
def Dev.queueIds (d : Dev) : List Nat := d.air.queues.map fun e => e.1

/-- Radios in the order in which the plans of beat `m` are built (R316). -/
def planOrder (m : Nat) : List Nat := [m % 3, (m + 1) % 3, (m + 2) % 3]

/-- The radio builds plans. -/
def Dev.plans (d : Dev) (x : Nat) : Bool := d.inService (airPage x) && decide (d.bstate (airPage x) = .running)

/-- Radios whose plans must be aligned with radio `x`'s: those it forms a non-STR pair with (R318). -/
def Dev.partners (d : Dev) (x : Nat) : List Nat :=
  [0, 1, 2].filter fun y => decide (y ≠ x) && d.pairNonStr x y && d.plans y && d.radioInService y

/-- The type of beat `m` for radio `x` (R308). The two plans of a non-STR pair carry one type (R318): DESIGN CHOICE (log entry 356),
that of the radio whose plan is built first. -/
def Dev.planType (d : Dev) (x m : Nat) : Nat :=
  let y := ((planOrder m).find? fun y => decide (y = x) || (d.partners x).contains y).getD x
  d.rd (airPage y) (AIR_ROUND_MAP.TYPE (m % 16))

/-- AIRTIME of radio `x`'s frozen or executing plan for a beat. -/
def Dev.planAirtime (d : Dev) (x m : Nat) : Nat :=
  match (d.buf x m).plan with | some p => if p.beat = m then p.airtime else 0 | none => 0

/-- The snapshot of one radio for beat `m`, with the nulls venue coordination gives (R27, R305, R309). -/
def Dev.snapRadio (d : Dev) (x m : Nat) (nulls : List (Nat × Nat × Bool)) : Dev :=
  if d.plans x = false ∨ (d.buf x m).st ≠ .free then d
  else
    let d := d.takePresets x
    let p := airPage x
    let typ := d.planType x m
    let res := d.queueIds.map fun q => (q, d.notEligible q x m typ)
    let duty := if d.rdB calPage (CHP_DUTY_LEFT.LIMITED.at x) then 10 * d.rd calPage (CHP_DUTY_LEFT.LEFT.at x)
      else 2 ^ 32
    let s : Snap :=
      { beat := m, mode := d.mode, typ := typ, floor := d.floorFor x m, left := duty,
        pol := (d.rdW p AIR_POLICY.word.off).toNat, pol2 := (d.rdW p AIR_POLICY2.word.off).toNat,
        ul := (d.rdW p AIR_UL.word.off).toNat, ulClass := (d.rdW 0x03B AIR_UL_CLASS.word.off).toNat,
        classes := (List.range 8).map fun c => d.clsWord c 0,
        eligible := res.filterMap fun r => if r.2 = none then some r.1 else none,
        failed := res.filterMap fun r => match r.2 with
          | some c => if c = 0xFF then none else some (r.1, c)
          | none => none,
        nulls := nulls }
    { d.setBuf x m { st := .building, plan := none } with
      air := { (d.setBuf x m { st := .building, plan := none }).air with snap := put d.air.snap x s } }

/-- The snapshot 30 µs before boundary m−2, for the plan of beat `m` = last boundary + 3 (R27): ageing first (R331),
then every radio's. `nulls` answers for a radio and a beat. -/
def Dev.queueSnapshot (d : Dev) (nulls : Nat → Nat → List (Nat × Nat × Bool)) : Dev :=
  let m := d.beat + 3
  let d := d.reach ((beatNs (m - 2) - 30000) * nsU)
  if d.inService 0x03B = false then d
  else
    let held := d.planIds
    let d := d.forAll d.queueIds fun q e => e.ageQueue q m held
    d.each 3 fun x e => e.snapRadio x m (nulls x m)

/-! ### Order of service (R310) -/

/-- A candidate queue: number, class, ENQ_BEAT of its head, tier. -/
structure Cand where
  q : Nat
  cls : Nat
  enq : Nat
  tier : Nat
  /-- Flow index in tier 3, station entry in tier 2. -/
  key : Nat
deriving DecidableEq, Repr

/-- Restricted TWT: the TID of a station belongs to a schedule whose service period contains the beat (R277). -/
def Dev.rtwt (d : Dev) (s t x m : Nat) : Bool :=
  decide (d.sta s 11 28 1 = 1) && (d.twtChain 4096 (d.sta s 11 16 12)).any fun e =>
    let w := d.twtW e 0
    bit w 0 && bit w 1 && decide (bits w 3 2 = x) && (List.range 4096).any fun f =>
      let v := d.twtW f 0
      bit v 0 && bit v 1 && decide (bits v 9 11 = 0x7FF) && decide (bits v 3 2 = x)
        && decide (bits v 5 4 = bits w 5 4) && decide (bits v 20 5 = bits w 20 5) && d.twtCovers f x m
        && bit (d.twtW f 2) (24 + t)

/-- The flow below its RESV that a queue has, if any: its index (R310, tier 3). -/
def Dev.flowBelow (d : Dev) (s c dir x : Nat) : Option Nat :=
  d.flowIds.find? fun a => match d.flowAt a with
    | some f => decide (f.1 = s) && decide (f.2.1 = c) && decide (f.2.2.1 = dir) && decide (f.2.2.2.1 = x)
        && decide (f.2.2.2.2.2 < f.2.2.2.2.1)
    | none => false

/-- Tier and keys of an eligible queue. -/
def Dev.candOf (d : Dev) (sn : Snap) (x q : Nat) : Option Cand :=
  match d.queue q with
  | [] => none
  | e :: _ =>
    let w := nth 0 sn.classes e.cls
    let mk (t k : Nat) : Option Cand := some { q := q, cls := e.cls, enq := e.enqBeat, tier := t, key := k }
    if q < 16384 ∧ d.rtwt e.sta e.tid x sn.beat then mk 2 e.sta
    else match (if q < 16384 then d.flowBelow e.sta e.cls 0 x else none) with
      | some a => mk 3 a
      | none => if clsStrict w then mk 4 0 else if clsWeight w ≠ 0 then mk 5 0 else mk 6 0

/-- Class and queue credits as the order is worked out, in 2^-16 µs. -/
structure Credits where
  cls : List (Nat × Int)
  queue : List (Nat × Int)
deriving DecidableEq, Repr

/-- Whether candidate `a` goes before `b` (R310). -/
def Credits.before (k : Credits) (a b : Cand) : Bool :=
  if a.tier ≠ b.tier then decide (a.tier < b.tier)
  else if a.tier = 2 then decide (a.key < b.key) || (decide (a.key = b.key) && decide (a.q < b.q))
  else if a.tier = 3 then decide (b.cls < a.cls) || (decide (a.cls = b.cls) && decide (a.key < b.key))
  else if a.tier = 4 then
    decide (b.cls < a.cls) || (decide (a.cls = b.cls) && (decide (a.enq < b.enq)
      || (decide (a.enq = b.enq) && decide (a.q < b.q))))
  else if a.tier = 5 then
    let ca := lookOr 0 k.cls a.cls
    let cb := lookOr 0 k.cls b.cls
    if a.cls ≠ b.cls then decide (cb < ca) || (decide (ca = cb) && decide (b.cls < a.cls))
    else
      let qa := lookOr 0 k.queue a.q
      let qb := lookOr 0 k.queue b.q
      decide (qb < qa) || (decide (qa = qb) && decide (a.q < b.q))
  else decide (a.enq < b.enq) || (decide (a.enq = b.enq) && decide (a.q < b.q))

/-- The candidate served next. -/
def Credits.pick (k : Credits) : List Cand → Option Cand
  | [] => none
  | a :: r => some (r.foldl (fun b c => if k.before c b then c else b) a)

/-- Charge a place of a weighted class. -/
def Credits.charge (k : Credits) (c : Cand) (a : Int) : Credits :=
  if c.tier = 5 then
    { cls := put k.cls c.cls (lookOr 0 k.cls c.cls - a), queue := put k.queue c.q (lookOr 0 k.queue c.q - a) }
  else k

/-- Work the order out over `n` places; `air` gives each planned queue its user airtime. None when the order serves a
queue that is not planned. -/
def serveOrder (k : Credits) (cands : List Cand) (air : List (Nat × Int)) : Nat → Option Credits
  | 0 => some k
  | n + 1 =>
    match k.pick cands with
    | none => some k
    | some c =>
      match look air c.q with
      | none => none
      | some a => serveOrder (k.charge c a) (cands.filter fun b => decide (b.q ≠ c.q)) air n

/-! ### The plan -/

/-- Signed policy fields of a snapshot. -/
def Snap.ruMin (s : Snap) : Nat := bits s.pol 0 3
def Snap.ruMax (s : Snap) : Nat := max (bits s.pol 0 3) (bits s.pol 3 3)
def Snap.muMax (s : Snap) : Nat := max 1 (min 8 (bits s.pol 6 4))
def Snap.maxUsers (s : Snap) : Nat := min 144 (bits s.pol 10 8)
def Snap.txPsd (s : Snap) : Int := toSigned 8 (bits s.pol 18 8)
def Snap.keep (s : Snap) : Nat := bits s.pol 26 3
def Snap.mcsMargin (s : Snap) : Nat := bits s.pol 29 3
def Snap.ladderEn (s : Snap) (k : Nat) : Bool := bit s.pol2 (k - 1)
def Snap.quantum (s : Snap) : Nat := bits s.pol2 4 12

/-- Required SNR of each MCS in dB (R312). -/
def mcsSnr : List Nat := [2, 5, 9, 11, 15, 18, 20, 25, 29, 31, 34, 37, 40, 43]

/-- The MCS of R312 for a predicted SNR in 0.25 dB, and its margin in 0.25 dB. -/
def chooseMcs (snr margin cap : Nat) : Nat × Int :=
  let ok := (List.range 14).filter fun m => decide (m ≤ cap) && decide (4 * (nth 0 mcsSnr m + margin) ≤ snr)
  let m := ok.foldl max 0
  (m, (snr : Int) - 4 * (nth 0 mcsSnr m + margin))

/-- Power of an RU of `tones` tones (R313), in 0.25 dB. -/
def Dev.ruPower (d : Dev) (x : Nat) (s : Snap) (tones chains : Nat) : Int :=
  let use := (List.range 16).filterMap fun r => if bit chains r then d.chainOf x r else none
  min (s.txPsd + dbRatio (tones * 5) 64) (d.clampLimit x use + dbRatio (max 1 use.length) 1)

/-- AC of a TID: 0 BE, 1 BK, 2 VI, 3 VO. -/
def acOf (t : Nat) : Nat := nth 0 [0, 1, 1, 0, 2, 2, 3, 3] t
/-- Rank of an AC, highest first VO, VI, BE, BK. -/
def acRank (a : Nat) : Nat := nth 0 [1, 0, 2, 3] a

/-- Class of a planned user, by its queue or by AIR_UL_CLASS for uplink. -/
def Dev.placeCls (d : Dev) (s : Snap) (ul : Bool) (q : Nat) : Nat :=
  if ul then bits s.ulClass (3 * (q % 8)) 3
  else match d.queue q with | e :: _ => e.cls | [] => 0

/-- Station of a place, 0x7FF for a group or management queue. -/
def placeSta (f : PlaceFact) : Nat := if f.queue < 16384 then f.queue / 8 else 0x7FF

/-- The station's channel record is usable at beat `m` (R313). -/
def Dev.recUsable (d : Dev) (x s m : Nat) : Bool := d.recValid x s && !d.recBusy x s && d.recFresh x s m

/-- PRED_SNR of a place (R312) in an RU of power `power` with `nss` streams: the record's SNR of the weakest planned stream, plus the
planned power per stream, minus that of the sounding; the SNR field of the station table where no record is usable, and for an uplink
user. -/
def Dev.predSnr (d : Dev) (x m : Nat) (ul : Bool) (power : Int) (nss : Nat) (f : PlaceFact) : Nat :=
  let s := placeSta f
  if s = 0x7FF then 0
  else if ul ∨ d.recUsable x s m = false then d.sta s 13 8 8
  else
    let weak := ((List.range f.nss).map (d.recSnr x s)).foldl min 255
    (clampInt 0 255 ((weak : Int) + (power - dbRatio (max 1 nss) 1) - f.soundPow)).toNat

/-- Build a user record. -/
def Dev.mkUser (d : Dev) (x : Nat) (s : Snap) (ul : Bool) (used : List Nat) (power : Int) (nss : Nat) (f : PlaceFact) : PlanUser :=
  let sta := placeSta f
  let cls := d.placeCls s ul f.queue
  let snr := d.predSnr x s.beat ul power nss f
  let mc := chooseMcs snr s.mcsMargin (if sta = 0x7FF then 0 else d.sta sta 8 7 4)
  { sta := sta, gq := if f.queue < 16384 then 0 else f.queue - 16384, tid := if f.queue < 16384 then f.queue % 8 else 0,
    cls := cls, ul := ul, nss := f.nss, mcs := mc.1, pofs := 0, predSnr := snr, mpdus := f.mpdus,
    octets := f.octets, queue := f.queue, margin := mc.2,
    ids := if ul then [] else
      (((d.queue f.queue).filter fun e => !used.contains e.id).take f.mpdus).map fun e => e.id,
    flow := (d.flowBelow sta cls (b2n ul) x).isSome }

/-- Build the candidate's records. `used` are identifiers other radios' plans of the beat hold. -/
def Dev.mkPpdu (d : Dev) (x : Nat) (s : Snap) (used : List Nat) (f : PpduFact) : PlanPpdu :=
  let ul := decide (f.kind = 2)
  let rus := f.rus.map fun r =>
    let power := if ul then -128 else d.ruPower x s (if r.size = 0x1F then bwTones f.bw else ruTones r.size) f.chains
    ({ size := r.size, pos := r.pos, precId := r.precId, nullReq := r.nullReq, nnull := r.nnull,
       precBeat := r.precBeat,
       power := power, ladder := 0,
       users := r.places.map (d.mkUser x s ul used power ((r.places.map fun f => f.nss).foldl (· + ·) 0)) } : PlanRu)
  let acs := rus.flatMap fun r => r.users.map fun u => acOf u.tid
  { kind := f.kind, trig := f.trig, pad := f.pad, ndpa := f.ndpa, align := f.align,
    ac := if 2 ≤ f.kind then 3 else acs.foldl (fun a b => if acRank a < acRank b then b else a) 1,
    bssid := f.bssid, ofs := f.ofs, dur := f.dur, resp := f.resp, bw := f.bw, punct := f.punct, chains := f.chains,
    energy := 0, ulDur := f.ulDur, ulGiLtf := f.ulGiLtf, ulNltf := f.ulNltf, ulTarget := bits s.ul 0 8, rus := rus }

def PlanPpdu.users (p : PlanPpdu) : List PlanUser := p.rus.flatMap fun r => r.users

/-- Sum of the streams of an RU's users. -/
def PlanRu.tones (r : PlanRu) : Nat := ruTones r.size

/-- Tones of an RU of a PPDU of a width: RU_SIZE 0x1F is the whole width. -/
def PlanRu.tonesIn (r : PlanRu) (bw : Nat) : Nat := if r.size = 0x1F then bwTones bw else r.tones

/-- Supply energy of a PPDU in units of 10^-4 nJ times 2^-64 (R322). -/
def Dev.ppduEnergy (d : Dev) (x : Nat) (p : PlanPpdu) : Nat :=
  let b := bandOf (d.centre x)
  let idle := d.rd 0x03B (AIR_ECOST.PA_IDLE.at b)
  let slope := d.rd 0x03B (AIR_ECOST.PA_SLOPE.at b)
  let n := ((List.range 16).filter (bit p.chains)).length
  let psum := (p.rus.map fun r => mwQ r.power).foldl (· + ·) 0
  let st := (p.rus.map fun r => r.nss * r.tonesIn p.bw).foldl (· + ·) 0
  p.dur * (n * idle * 1000 * 2 ^ 64 + slope * psum * 1000 + d.rd 0x03B AIR_ECOST_BB.BB_TX * 1000 * 2 ^ 64
      + st * d.rd 0x03B AIR_ECOST_BB.BB_TONE * 2 ^ 64)
    + p.resp * n * d.rd 0x03B AIR_ECOST_BB.RESP_CH * 1000 * 2 ^ 64

/-- Units of that energy in 1 µJ. -/
def ujUnit : Nat := 10 * 1000 * 1000 * 2 ^ 64

/-- COST of a list of PPDUs in µJ, rounded up (R322). -/
def Dev.costOf (d : Dev) (x : Nat) (l : List PlanPpdu) : Nat :=
  ceilDiv ((l.map (d.ppduEnergy x)).foldl (· + ·) 0) ujUnit

/-- The 20 MHz subchannels of the 26-tone units from `lo` on, `n` of them. -/
def unitSub (u : Nat) : Nat × Nat :=
  let b := u / 37 * 4
  let v := u % 37
  if v < 9 then (b, b) else if v < 18 then (b + 1, b + 1) else if v = 18 then (b + 1, b + 2)
  else if v < 28 then (b + 2, b + 2) else (b + 3, b + 3)

/-- 26-tone units an RU_SIZE spans. -/
def ruUnits (s : Nat) : Nat := nth 1 [1, 2, 4, 9, 18, 37, 74, 148, 3, 5, 27, 55, 64, 92, 111, 129] s

/-- Subchannels an RU of a size at a position covers, as a set. -/
def ruSubs (size pos bw : Nat) : Nat :=
  if size = 0x1F then 2 ^ (2 ^ bw) - 1
  else
    let lo := (unitSub pos).1
    let hi := (unitSub (pos + ruUnits size - 1)).2
    (List.range 16).foldl (fun a k => if lo ≤ k ∧ k ≤ hi then a + 2 ^ k else a) 0

def PlanRu.subs (r : PlanRu) (bw : Nat) : Nat := ruSubs r.size r.pos bw

/-- The puncturing patterns of IEEE 802.11be for a width (PRESUMED, log entry 22). -/
def punctPatterns (bw : Nat) : List Nat :=
  let run (n step w : Nat) := (List.range n).map fun i => (2 ^ w - 1) * 2 ^ (step * i)
  match bw with
  | 2 => 0 :: run 4 1 1
  | 3 => 0 :: (run 8 1 1 ++ run 4 2 2)
  | 4 => 0 :: (run 8 2 2 ++ run 4 4 4 ++ (run 6 2 2).map (· + 0xF000) ++ (run 6 2 2).map (fun p => p * 16 + 0xF))
  | _ => [0]

/-- Where the primary 20 MHz channel of a radio stands among its subchannels (the spec names no register for it). -/
def Dev.primarySub (_ : Dev) (x : Nat) : Nat := Config.primarySub x % 16

/-- The smallest pattern at the PPDU's width or a narrower one that covers the RUs and keeps the primary channel: width,
first subchannel, punctured set (R324). -/
def smallestPattern (bw need prim : Nat) : Option (Nat × Nat × Nat) :=
  let opts := (List.range (bw + 1)).flatMap fun w =>
    let n := 2 ^ w
    let base := prim % 2 ^ bw / n * n
    (punctPatterns w).filterMap fun p =>
      let used := ((2 ^ n - 1) &&& (Nat.xor p (2 ^ n - 1))) * 2 ^ base
      if need &&& used = need ∧ bit used (prim % 2 ^ bw) then some (w, base, p) else none
  let size (o : Nat × Nat × Nat) := ((List.range (2 ^ o.1)).filter fun k => !bit o.2.2 k).length
  match opts with
  | [] => none
  | o :: r => some (r.foldl (fun a b => if size b < size a then b else a) o)

/-- First 26-tone unit of subchannel `k`. -/
def subUnit (k : Nat) : Nat := k / 4 * 37 + nth 0 [0, 9, 19, 28] (k % 4)

/-- Drop RUs without users and reduce BW and PUNCT, or keep them at −32 dBm where no pattern fits (R324, step 1). -/
def PlanPpdu.shrink (p : PlanPpdu) (prim : Nat) : PlanPpdu :=
  let keep := p.rus.filter fun r => !r.users.isEmpty
  let need := keep.foldl (fun a r => a ||| r.subs p.bw) 0
  match smallestPattern p.bw need prim with
  | some (w, base, q) =>
    { p with bw := w, punct := q, rus := keep.map fun r => { r with pos := r.pos - subUnit base } }
  | none => { p with rus := p.rus.map fun r => if r.users.isEmpty then { r with power := -128 } else r }

/-- The candidate under the ladder: PPDUs, LADDER bits, and the queues taken out with their delay codes. -/
structure Ladder where
  ppdus : List PlanPpdu
  rungs : Nat
  out : List (Nat × Nat)
  skip : Bool
deriving DecidableEq, Repr

/-- Users step 1 may remove: below LADDER_KEEP and of no admitted flow. -/
def removable (keep : Nat) (u : PlanUser) : Bool := decide (u.cls < keep) && !u.flow && !u.ul

/-- One application of step 1. -/
def Ladder.step1 (l : Ladder) (keep prim : Nat) : Option Ladder :=
  let cands := ((l.ppdus.filter fun p => decide (p.kind ≠ 3)).flatMap PlanPpdu.users).filter (removable keep)
  match cands with
  | [] => none
  | u :: r =>
    let c := (r.map fun v => v.cls).foldl min u.cls
    let gone := cands.filter fun v => decide (v.cls = c)
    some { l with
      rungs := l.rungs ||| 1
      out := l.out ++ gone.map fun v => (v.queue, 0x12)
      ppdus := l.ppdus.filterMap fun p =>
        if p.kind ≠ 3 ∧ p.users.any (fun v => removable keep v && decide (v.cls = c)) then
          let q : PlanPpdu := { p with rus := p.rus.map fun q =>
              { q with users := q.users.filter fun v => !(removable keep v && decide (v.cls = c)) } }
          if q.users.isEmpty then none else some (q.shrink prim)
        else some p }

/-- Smallest user margin of an RU. -/
def PlanRu.margin (r : PlanRu) : Option Int :=
  match r.users with
  | [] => none
  | u :: l => some ((l.map fun v => v.margin).foldl min u.margin)

/-- The RUs of a candidate with their places, in record order. -/
def ruPlaces (l : List PlanPpdu) : List (Nat × Nat × PlanRu) :=
  l.zipIdx.flatMap fun p => p.1.rus.zipIdx.map fun r => (p.2, r.2, r.1)

/-- Replace RU `j` of PPDU `i`. -/
def onRu (l : List PlanPpdu) (i j : Nat) (f : PlanRu → PlanRu) : List PlanPpdu :=
  l.zipIdx.map fun p => if p.2 = i then
    { p.1 with rus := p.1.rus.zipIdx.map fun r => if r.2 = j then f r.1 else r.1 } else p.1

/-- One application of step 2. -/
def Ladder.step2 (l : Ladder) : Option Ladder :=
  let cands := (ruPlaces l.ppdus).filterMap fun r =>
    match r.2.2.margin with
    | some m => if 1 ≤ m ∧ r.2.2.users.all (fun u => !u.ul) then some (r.1, r.2.1, m) else none
    | none => none
  match cands with
  | [] => none
  | c :: r =>
    let best := r.foldl (fun a b => if a.2.2 < b.2.2 then b else a) c
    some { l with
      rungs := l.rungs ||| 2
      ppdus := onRu l.ppdus best.1 best.2.1 fun q =>
        { q with power := q.power - 1, ladder := q.ladder ||| 1,
                 users := q.users.map fun u => { u with margin := u.margin - 1 } } }

/-- One application of step 3. -/
def Ladder.step3 (l : Ladder) : Option Ladder :=
  match l.ppdus.zipIdx with
  | [] => none
  | p :: r =>
    let big := r.foldl (fun a b => if a.1.energy < b.1.energy then b else a) p
    let quad := ([3, 2, 1, 0].find? fun q => decide (bits big.1.chains (4 * q) 4 ≠ 0)).getD 0
    let left := big.1.chains - bits big.1.chains (4 * quad) 4 * 2 ^ (4 * quad)
    let n := ((List.range 16).filter (bit left)).length
    if n ≠ 0 ∧ big.1.rus.all fun q => decide (q.nss + q.nnull ≤ n) && !q.nullReq then
      some { l with
        rungs := l.rungs ||| 4
        ppdus := l.ppdus.zipIdx.map fun o =>
          if o.2 = big.2 then { o.1 with chains := left, rus := o.1.rus.map fun q => { q with ladder := q.ladder ||| 2 } }
          else o.1 }
    else none

/-- One application of step 4; `power` gives the power of a size. -/
def Ladder.step4 (l : Ladder) (power : Nat → Nat → Int) : Option Ladder :=
  let us := (l.ppdus.filter fun p => decide (p.kind ≠ 2)).flatMap PlanPpdu.users
  match us with
  | [] => none
  | u :: r =>
    let c := (r.map fun v => v.cls).foldl min u.cls
    let cands := (ruPlaces l.ppdus).filter fun q =>
      q.2.2.users.any (fun v => decide (v.cls = c) && !v.ul) && decide (1 ≤ q.2.2.size) && decide (q.2.2.size ≤ 5)
    match cands with
    | [] => none
    | q :: qs =>
      let best := qs.foldl (fun a b => if a.2.2.size < b.2.2.size then b else a) q
      let chains := match l.ppdus[best.1]? with | some p => p.chains | none => 0
      let old := best.2.2.size
      some { l with
        rungs := l.rungs ||| 8
        out := l.out ++ (best.2.2.users.filter fun v => decide (v.mpdus * ruTones (old - 1) / ruTones old < v.ids.length)).map fun v => (v.queue, 0x13)
        ppdus := onRu l.ppdus best.1 best.2.1 fun v =>
          { v with size := old - 1, power := power (old - 1) chains, ladder := v.ladder ||| 4,
                   users := v.users.map fun w =>
                     { w with octets := w.octets * ruTones (old - 1) / ruTones old,
                              mpdus := w.mpdus * ruTones (old - 1) / ruTones old,
                              ids := w.ids.take (w.mpdus * ruTones (old - 1) / ruTones old) } } }

/-- Fill in each PPDU's ENERGY. -/
def Dev.withEnergy (d : Dev) (x : Nat) (l : List PlanPpdu) : List PlanPpdu :=
  l.map fun p => { p with energy := ceilDiv (d.ppduEnergy x p) ujUnit }

/-- Apply the ladder until the plan fits the budget (R323, R324). -/
def Dev.descend (d : Dev) (x : Nat) (s : Snap) (budget : Nat) : Nat → Ladder → Ladder
  | 0, l => { l with ppdus := [], rungs := l.rungs ||| 16, skip := true }
  | n + 1, l =>
    let l := { l with ppdus := d.withEnergy x l.ppdus }
    if d.costOf x l.ppdus ≤ budget then l
    else
      let prim := d.primarySub x
      let next :=
        match (if s.ladderEn 1 then l.step1 s.keep prim else none) with
        | some k => some k
        | none =>
          match (if s.ladderEn 2 then l.step2 else none) with
          | some k => some k
          | none =>
            match (if s.ladderEn 3 then l.step3 else none) with
            | some k => some k
            | none => if s.ladderEn 4 then l.step4 fun z c => d.ruPower x s (ruTones z) c else none
      match next with
      | some k => d.descend x s budget n k
      | none => { l with ppdus := [], rungs := l.rungs ||| 16, skip := true }

/-- Ids of plans other radios froze for the beat (R316). -/
def Dev.otherIds (d : Dev) (x m : Nat) : List Nat :=
  [0, 1, 2].flatMap fun y => if y = x then [] else
    match (d.buf y m).plan with
    | some p => if p.beat = m then p.ids else []
    | none => []

/-- User airtime of a place in 2^-16 µs (R310). -/
def placeAir (p : PpduFact) (r : RuFact) (f : PlaceFact) : Int :=
  let nss := (r.places.map fun u => u.nss).foldl (· + ·) 0
  let t := if r.size = 0x1F then bwTones p.bw else ruTones r.size
  ((p.dur * 65536 * t * f.nss) / (10 * bwTones p.bw * max 1 nss) : Nat)

/-- A PPDU is a beacon: management, with one RU and no user (R800). -/
def isBeacon (p : PpduFact) : Bool := decide (p.kind = 4) && p.rus.all fun r => r.places.isEmpty

/-- Each exchange starts where the one before it ends, from 8.0 µs on, or later for a beacon, which waits for its TBTT, and for a member
of an aligned set, and all end by the boundary (R30, R178, R315). -/
def timesOk : Nat → List PpduFact → Bool
  | _, [] => true
  | t, p :: r => (if isBeacon p || p.align.isSome then decide (max t 80 ≤ p.ofs) else decide (p.ofs = max t 80)) && decide (p.ofs + p.dur + p.resp ≤ 2500)
      && timesOk (p.ofs + p.dur + p.resp) r

/-- A PPDU is an MU-RTS trigger; a trigger that solicits uplink data or buffer status. -/
def isMuRts (p : PpduFact) : Bool := decide (p.kind = 2) && decide (p.trig = 3)
def isBasic (p : PpduFact) : Bool := decide (p.kind = 2) && (decide (p.trig = 0) || decide (p.trig = 4))

def ppPlaces (p : PpduFact) : List PlaceFact := p.rus.flatMap fun r => r.places
def ruStreams (r : RuFact) : Nat := (r.places.map fun f => f.nss).foldl (· + ·) 0

/-- Kinds a beat type carries (R308, R333). An MU-RTS that a served EMLSR station needs goes in a downlink beat too (R317). -/
def kindOk (typ : Nat) (p : PpduFact) : Bool :=
  match typ with
  | 0 => decide (p.kind ≠ 2) || isMuRts p
  | 1 => decide (p.kind = 2) || decide (p.kind = 4)
  | 2 => decide (p.kind ≤ 4)
  | _ => isBeacon p

/-- At most one basic or BSRP trigger, and in a MIX beat no downlink behind it (R308, R320). -/
def triggersOk (typ : Nat) (l : List PpduFact) : Bool :=
  decide ((l.filter isBasic).length ≤ 1)
    && (decide (typ ≠ 2) || ((l.dropWhile fun p => !isBasic p).all fun p => decide (p.kind = 2) || isBeacon p))

/-- Longest time in ns of the precoder job of an RU: CYC of R202 for the radio's chains and streams plus nulls, 1.6 times that
for METHOD 1, at the KCLK in force (R659). -/
def Dev.jobBoundNs (d : Dev) (x : Nat) (r : RuFact) : Nat :=
  let nch := d.radioChains x
  let k := min nch ((r.places.map fun f => f.nss).foldl (· + ·) 0 + r.nnull)
  let row := nth [] [[120], [160, 300], [190, 360, 700], [220, 420, 780, 1100]] (nch / 4 - 1)
  let cyc := nth 0 row ((max 1 k - 1) / 4)
  let groups := ceilDiv (ruTones r.size) (if r.ng = 0 then 4 else 16)
  let mhz := 200 * (8 - d.rd 0x001 (PWR_PL_STAT.LEVEL 1))
  2000 + ceilDiv (groups * cyc * (if r.method = 1 then 16 else 10) * 100) mhz

/-- USER_SUM of a candidate RU (R198). -/
def ruSum (r : RuFact) : Nat := crc16 (r.places.flatMap fun f => leBytes 2 (placeSta f + (f.nss - 1) * 4096))

/-- A bank of entry `e` holds the precoder of a candidate RU's group for the radio's chains. -/
def Dev.bankOf (d : Dev) (x e b : Nat) (r : RuFact) : Bool :=
  let w0 := d.bankW x e b 0
  let w4 := d.bankW x e b 4
  bit w0 0 && decide (bits w0 3 5 = r.size) && decide (bits w0 8 9 = r.pos) && decide (bits w0 17 4 = ruStreams r)
    && decide (bits w4 0 16 = ruSum r) && decide (bits w4 16 5 = d.radioChains x)

/-- Pending and current banks of the store: entry and bank. -/
def Dev.liveBanks (d : Dev) (x : Nat) : List (Nat × Nat) :=
  ((d.listed (txPage x) 0x8000 0x10000).filter (· % 32 = 0)).filterMap fun o =>
    let e := (o - 0x8000) / 64
    let b := (o - 0x8000) / 32 % 2
    if d.bankPending x e b || d.bankCurrent x e b then some (e, b) else none

/-- Lines of the bank a job for a candidate RU writes (R203). -/
def Dev.draftLines (d : Dev) (x : Nat) (r : RuFact) : Nat :=
  let n := d.radioChains x * ruStreams r
  ceilDiv (ruTones r.size) (if r.ng = 0 then 4 else 16) * ceilDiv (n * 4) 64 + ceilDiv n 64

/-- Two spans of lines do not meet. -/
def linesApart (a n b m : Nat) : Bool := decide (a + n ≤ b) || decide (b + m ≤ a)

/-- A candidate RU that posts a job (R314): no current bank of the scheduler's entries serves its group within PREC_REFRESH, and its
lines lie in the scheduler's range apart from those of every pending or current bank (R206). -/
def Dev.precJobOk (d : Dev) (x m : Nat) (r : RuFact) : Bool :=
  let g (f : Fld) := d.rd (airPage x) f
  let live := d.liveBanks x
  decide (g AIR_PREC_LINES.LINE_LO ≤ r.lineBase) && decide (r.lineBase + d.draftLines x r ≤ g AIR_PREC_LINES.LINE_HI + 1)
    -- a group refreshed in consecutive beats alternates between two entries
    && (match (d.buf x (m - 1)).plan with
        | some p => p.ppdus.all fun q => q.rus.all fun u =>
            !(decide (u.precBeat + 1 = m) && decide (u.precId = r.precId) && decide (u.userSum = ruSum r))
        | none => true)
    && live.all (fun e => let l := d.bankLines x e.1 e.2; linesApart r.lineBase (d.draftLines x r) l.1 l.2)
    && !(live.any fun e => d.bankCurrent x e.1 e.2 && d.bankOf x e.1 e.2 r
          && decide (g AIR_PREC_CFG.ENTRY_LO ≤ e.1) && decide (e.1 ≤ g AIR_PREC_CFG.ENTRY_HI)
          && decide (age32 m (d.bankW x e.1 e.2 1) ≤ g AIR_PREC_REG.PREC_REFRESH))

/-- A candidate RU that posts no job names a bank of its group by that bank's FOR_BEAT, no older than PREC_REFRESH (R314). -/
def Dev.reuseOk (d : Dev) (x m : Nat) (r : RuFact) : Bool :=
  decide (r.precBeat ≤ m) && decide (m - r.precBeat ≤ d.rd (airPage x) AIR_PREC_REG.PREC_REFRESH)
    && [0, 1].any fun b => d.bankOf x r.precId b r && decide (d.bankW x r.precId b 1 = r.precBeat % 2 ^ 32)

/-- The precoders a candidate names: entries of the scheduler's range, banks to reuse or jobs to post, and the posted jobs within
JOB_BUDGET (R314, R315). -/
def Dev.precOk (d : Dev) (x m : Nat) (draft : List PpduFact) : Bool :=
  let g (f : Fld) := d.rd (airPage x) f
  let rus := (draft.flatMap fun p => if p.kind < 2 then p.rus else []).filter fun r => decide (r.precId ≠ 0x1FF)
  let jobs := rus.filter fun r => decide (r.precBeat = m)
  rus.all (fun r => decide (g AIR_PREC_CFG.ENTRY_LO ≤ r.precId) && decide (r.precId ≤ g AIR_PREC_CFG.ENTRY_HI)
      && (if r.precBeat = m then d.precJobOk x m r else d.reuseOk x m r))
    && jobs.zipIdx.all (fun a => jobs.zipIdx.all fun b => decide (a.2 = b.2)
        || linesApart a.1.lineBase (d.draftLines x a.1) b.1.lineBase (d.draftLines x b.1))
    && decide ((jobs.map (d.jobBoundNs x)).foldl (· + ·) 0 ≤ 1000 * g AIR_CFG.JOB_BUDGET)

/-- The first entries of a place's queue that no other radio has placed, as many as it carries, fit in its OCTETS (R315). -/
def Dev.placeFits (d : Dev) (used : List Nat) (f : PlaceFact) : Bool :=
  let l := ((d.queue f.queue).filter fun e => !used.contains e.id).take f.mpdus
  decide ((l.map fun e => e.len).foldl (· + ·) 0 ≤ f.octets)

/-- What a station's entry allows a place (R218, R221, R223): not suspended; streams, width, A-MPDU octets and MPDUs, and the Block Ack
window of the TID. -/
def Dev.placeOk (d : Dev) (bw size : Nat) (f : PlaceFact) : Bool :=
  let s := placeSta f
  let tones := if size = 0x1F then bwTones bw else ruTones size
  decide (1 ≤ f.nss) && (decide (s = 0x7FF) ||
    (!d.staLeftOut s && decide (f.nss ≤ d.sta s 8 0 4) && decide (tones ≤ bwTones (d.sta s 8 4 3))
      && decide (f.octets ≤ min 15523199 (2 ^ (13 + d.sta s 8 12 4) - 1)) && decide (f.mpdus ≤ 1024)
      && (!d.staBaTid s (f.queue % 8) || decide (f.mpdus ≤ d.baWindow s (f.queue % 8)))))

/-- The nulls asked of an RU over subchannels `subs`: the union of their lists, in rank, cut to NULL_PER_SPAN (R315, R363): foreign
slots and whether they are required. -/
def Dev.ruNulls (d : Dev) (s : Snap) (subs : Nat) : List (Nat × Bool) :=
  ((s.nulls.filter fun n => bit subs n.1).map fun n => n.2).eraseDups.take (d.rd 0x040 VEN_NULL.NULL_PER_SPAN)

/-- A group's RU carries the nulls asked of its span, and the required ones fit its chains (R315). -/
def Dev.nullsOk (d : Dev) (x : Nat) (s : Snap) (bw : Nat) (r : RuFact) : Bool :=
  let l := d.ruNulls s (ruSubs r.size r.pos bw)
  let need := (l.filter (·.2)).length
  decide (r.precId = 0x1FF)
    || (decide (r.nnull = l.length) && decide (r.nullReq = decide (need ≠ 0))
      && decide (ruStreams r + need ≤ d.radioChains x))

/-- The layout of a downlink MU PPDU (R313): groups on RUs of RU_MAX, of stations with usable records apart from each other; stations
without one alone on RUs of RU_MIN; the groups' classes from the highest down. -/
def Dev.layoutOk (d : Dev) (x : Nat) (s : Snap) (p : PpduFact) : Bool :=
  let whole (r : RuFact) := decide (r.size = 0x1F) || decide (ruTones r.size = bwTones p.bw)
  let groups := p.rus.filter fun r => decide (r.precId ≠ 0x1FF)
  let cls := groups.flatMap fun r => r.places.map fun f => d.placeCls s false f.queue
  decide (p.kind ≠ 1)
    || (p.rus.all (fun r =>
        if r.precId ≠ 0x1FF then
          (decide (r.size = s.ruMax) || (decide (bwTones p.bw < ruTones s.ruMax) && whole r))
            && r.places.all (fun f => d.recUsable x (placeSta f) s.beat)
            && r.places.zipIdx.all (fun a => r.places.zipIdx.all fun b => decide (b.2 ≤ a.2)
              || d.recApart x (placeSta a.1) (placeSta b.1) (d.radioChains x) (bits s.pol2 24 8))
        else decide (r.places.length ≤ 1)
          && r.places.all fun f => d.recUsable x (placeSta f) s.beat || decide (r.size = s.ruMin))
      && (cls.zip (cls.drop 1)).all fun e => decide (e.2 ≤ e.1))

/-- Plans other radios froze for the beat. -/
def Dev.otherPlans (d : Dev) (x m : Nat) : List (Nat × Plan) :=
  ([0, 1, 2].filter (· ≠ x)).filterMap fun y => match (d.buf y m).st, (d.buf y m).plan with
    | .frozen, some p => if p.beat = m then some (y, p) else none
    | _, _ => none

/-- EMLSR stations (R231, R316, R317): none that another radio has taken, each behind an MU-RTS of the same plan that addresses it and
is padded by the largest EMLSR_PAD it needs. -/
def Dev.emlsrOk (d : Dev) (x m : Nat) (draft : List PpduFact) : Bool :=
  let pad (s : Nat) := nth 0 [0, 32, 64, 128, 256] (d.sta s 9 24 3)
  let taken := (d.otherPlans x m).flatMap fun p => (p.2.ppdus.flatMap fun q => q.rus.flatMap fun r => r.users).map fun u => u.sta
  draft.zipIdx.all fun p =>
    if isMuRts p.1 then
      decide (p.1.pad = (((ppPlaces p.1).map placeSta).map pad).foldl max 0) && decide (10 * p.1.pad ≤ p.1.dur)
    else (((ppPlaces p.1).map placeSta).filter fun s => decide (s ≠ 0x7FF) && d.staEmlsr s).all fun s =>
      !taken.contains s && (draft.take p.2).any fun q => isMuRts q && ((ppPlaces q).map placeSta).contains s

/-- Two PPDUs are the members of an aligned set (R234, R318). -/
def alignedWith (x y : Nat) (p : PpduFact) (q : PlanPpdu) : Bool :=
  decide (p.align = some y) && decide (q.align = some x) && decide (p.ofs = q.ofs) && decide (p.dur = q.dur)

/-- Non-STR pairs (R318): each downlink PPDU but a beacon is in an aligned set with a partner, matched in the partner's plan where that
is frozen, and so is each that the partner aligned; a station with a station-side non-STR pair is on both links only in a set. -/
def Dev.alignOk (d : Dev) (x m : Nat) (draft : List PpduFact) : Bool :=
  let others := d.otherPlans x m
  let down := draft.filter fun p => decide (p.kind ≠ 2) && !isBeacon p
  let ps := (d.partners x).filter fun y => decide ((d.buf y m).st = .building) || others.any fun o => decide (o.1 = y)
  let met (y : Nat) (p : PpduFact) := others.all fun o => decide (o.1 ≠ y) || o.2.ppdus.any (alignedWith x y p)
  let nstr (s y : Nat) := decide (d.sta s 0 (if x + y = 1 then 7 else if x + y = 2 then 8 else 9) 1 = 1)
  (ps.isEmpty || down.all fun p => ps.any fun y => decide (p.align = some y) && met y p)
    && others.all (fun o => o.2.ppdus.all fun q => decide (q.align ≠ some x) || down.any fun p => alignedWith x o.1 p q)
    && down.all (fun p => ((ppPlaces p).map placeSta).all fun s => others.all fun o =>
        decide (s = 0x7FF) || !nstr s o.1
          || (o.2.ppdus.filter fun q => q.rus.any fun r => r.users.any fun u => decide (u.sta = s)).all (alignedWith x o.1 p))

/-- Stations of radio `x` whose records will be older than SOUND_AGE at beat `m` (R315), with their ages. -/
def Dev.soundList (d : Dev) (x m age : Nat) : List (Nat × Nat) :=
  (((d.mac.lookup.filter fun l => decide (l.1 / 2 ^ 48 = x)).map (·.2)).eraseDups.filter fun s => d.recValid x s).filterMap fun s =>
    let a := age32 m (d.recW x s 1)
    if age < a then some (s, a) else none

/-- Sounding (R315): in a downlink or MIX beat a plan with exchanges sounds when eight stations are gathered or the oldest record
reaches AGE_MAX − 4, and only then, but for stations that have no record. -/
def Dev.soundOk (d : Dev) (x : Nat) (s : Snap) (draft : List PpduFact) : Bool :=
  let l := d.soundList x s.beat (bits s.pol2 16 8)
  let due := decide (8 ≤ l.length) || l.any fun e => decide (d.rd (txPage x) TXP_PREC_CFG.AGE_MAX ≤ e.2 + 4)
  let ks := draft.filter fun p => decide (p.kind = 3)
  let sifs := if bandOf (d.centre x) = 0 then 100 else 160
  ks.all (fun p => decide (0 < p.ndpa) && decide (p.ndpa + sifs < p.dur)
      && (due || (ppPlaces p).all fun f => !d.recValid x (placeSta f)))
    && (!due || !(decide (s.typ = 0) || decide (s.typ = 2)) || draft.all isBeacon || !ks.isEmpty)

/-- The poll of a sounding (R315): a plan of the next beat that carries triggers polls the stations sounded, ahead of other exchanges
with users. -/
def Dev.pollsOk (d : Dev) (x : Nat) (s : Snap) (draft : List PpduFact) : Bool :=
  let owed := lookOr [] d.air.polls x
  (owed.isEmpty || decide (s.typ ≠ 1 ∧ s.typ ≠ 2) || draft.all isBeacon)
    || (match draft.find? fun p => !isBeacon p && decide (p.kind ≠ 3) && !isMuRts p with
        | some p => decide (p.kind = 2) && decide (p.trig = 1) && owed.all fun a => ((ppPlaces p).map placeSta).contains a
        | none => false)

/-- The stations a frozen plan sounds wait for their poll; a plan that polls has done so (R315). -/
def Dev.notePolls (d : Dev) (x : Nat) (p : Plan) : Dev :=
  let polled := (p.ppdus.filter fun q => decide (q.kind = 2) && decide (q.trig = 1)).flatMap fun q => q.rus.flatMap fun r => r.users.map fun u => u.sta
  let sounded := (p.ppdus.filter fun q => decide (q.kind = 3)).flatMap fun q => q.rus.flatMap fun r => r.users.map fun u => u.sta
  let left := ((lookOr [] d.air.polls x).filter fun a => !polled.contains a) ++ sounded
  { d with air := { d.air with polls := if left.isEmpty then del d.air.polls x else put d.air.polls x left } }

/-- Users of triggers (R320): those of a basic trigger have demand and RUs from RU_MIN to RU_MAX; a BSRP trigger goes out when no
station has known demand and some station has sent no report for BSRP_AGE beats. -/
def Dev.uplinkOk (d : Dev) (x : Nat) (s : Snap) (p : PpduFact) : Bool :=
  let known := d.mac.demand.any fun e => decide (e.2.1 ≠ 0) && d.linkOk (e.1 / 8) (e.1 % 8) x
  let quiet (q : Nat) := (List.range 8).all fun t =>
    match look d.mac.demand (8 * (q / 8) + t) with | some v => decide (bits s.ul 24 8 ≤ s.beat - v.2) | none => true
  decide (p.kind ≠ 2)
    || ((ppPlaces p).all (fun f => d.linkOk (f.queue / 8) (f.queue % 8) x)
      && (decide (p.trig ≠ 0) || p.rus.all fun r => decide (s.ruMin ≤ r.size) && decide (r.size ≤ s.ruMax)
          && r.places.all fun f => let need := (lookOr (0, 0) d.mac.demand f.queue).1
            -- the smallest RU that carries the demand, and none above RU_MAX
            decide (need ≠ 0) && (decide (need ≤ f.octets) || decide (r.size = s.ruMax))
              && (decide (r.size = s.ruMin) || decide (f.octets * ruTones (r.size - 1) / ruTones r.size < need)))
      && (decide (p.trig ≠ 4) || (!known && (ppPlaces p).any fun f => quiet f.queue)))

/-- A group PPDU of a BSSID with dozing stations follows the DTIM beacon in the plan (R273, R309). -/
def Dev.groupOk (d : Dev) (x : Nat) (draft : List PpduFact) : Bool :=
  draft.zipIdx.all fun p => (ppPlaces p.1).all fun f =>
    decide (f.queue < 16384) || d.mgmtQueue f.queue || (match d.queue f.queue with
      | e :: _ => !d.bssDozes x e.bssid || (draft.take p.2).any fun q => isBeacon q && decide (q.bssid = d.beaconBss x e.bssid)
      | [] => true)

/-- Octets of a BSSID's management MIC element (R800). -/
def Dev.micOctets (d : Dev) (x k : Nat) : Nat :=
  let big := d.rd (macPage x) (MAC_BSSID.BIGTK_SLOT.at k)
  if big < 256 then (if d.rd 0x033 (MAC_KEYSLOT.CIPHER.at (2048 + big)) = 4 then 18 else 26) else 0

/-- Duration in µs of a beacon PPDU of `octets`: 16 service and 6 tail bits and 4 µs symbols after a 20 µs preamble, or
DSSS with a 192 µs preamble and 8 µs an octet (R800). -/
def beaconUs (dsss : Bool) (rate octets : Nat) : Nat :=
  if dsss then 192 + 8 * octets
  else 20 + 4 * ceilDiv (22 + 8 * octets) (4 * nth 6 [6, 9, 12, 18, 24, 36, 48, 54] rate)

/-- DUR of the beacon of a BSSID in a plan, in 0.1 µs: the template, 256 octets of TIM, the management MIC element and the FCS at the
beacon's rate (R800). -/
def Dev.beaconDur (d : Dev) (x k : Nat) : Nat :=
  let h := d.ld (d.rd (macPage x) MAC_BCN_BASE.BASE * 2048 + 2048 * k) 4
  10 * beaconUs (bit h 28 && decide (bandOf (d.centre x) = 0)) (bits h 24 4) (bits h 0 12 + 256 + d.micOctets x k + 4)

/-- The transmitted BSSIDs whose TBTT lies in beat `m` and whose beacons fit into it one after the other (R310, tier 0). -/
def Dev.beaconsDue (d : Dev) (x m : Nat) : List Nat :=
  ((d.txBssids x).foldl (fun (acc : Nat × List Nat) k =>
    match d.tbttIn x k m with
    | none => acc
    | some t =>
      let fin := max acc.1 (max 80 t.1) + d.beaconDur x k
      if fin ≤ 2500 then (fin, acc.2 ++ [k]) else acc) (0, [])).2

/-- What a PPDU of a candidate holds (R302, R308, R313, R800). -/
def Dev.ppduOk (d : Dev) (x : Nat) (s : Snap) (p : PpduFact) : Bool :=
  kindOk s.typ p && decide (p.rus.length ≤ 148) && decide ((ppPlaces p).length ≤ s.maxUsers)
    && (!isBeacon p || (match d.tbttIn x p.bssid s.beat with
          | some t => decide (max 80 t.1 ≤ p.ofs) && decide (p.dur = d.beaconDur x p.bssid)
          | none => false))
    && p.rus.all (fun r => decide (r.places.length ≤ s.muMax) && decide (r.precId < 512) && decide (ruStreams r ≤ 8)
        && d.nullsOk x s p.bw r && r.places.all (d.placeOk p.bw r.size))
    && d.layoutOk x s p && d.uplinkOk x s p

/-- What the rules ask of a candidate plan (R30, R308 to R320). -/
def Dev.draftOk (d : Dev) (x : Nat) (s : Snap) (draft : List PpduFact) : Bool :=
  let data := draft.flatMap fun p => if p.kind = 2 ∨ p.kind = 3 then [] else
    p.rus.flatMap fun r => r.places.map fun f => (f.queue, placeAir p r f)
  let ul := (draft.filter isBasic).flatMap fun p => (ppPlaces p).map fun f => f.queue
  let nru : Nat := (draft.map fun p => p.rus.length).foldl (· + ·) 0
  let nss : Nat := (draft.flatMap fun p => (ppPlaces p).map fun f => f.nss).foldl (· + ·) 0
  let dur : Nat := (draft.map fun p => p.dur).foldl (· + ·) 0
  let used := d.otherIds x s.beat
  let rssi := ul.map fun q => d.sta (q / 8) 13 0 8
  let spread := (rssi.map (toSigned 8)).foldl max (-128) - (rssi.map (toSigned 8)).foldl min 127
  timesOk 0 draft && triggersOk s.typ draft && d.precOk x s.beat draft && d.emlsrOk x s.beat draft && d.alignOk x s.beat draft
    && d.soundOk x s draft && d.groupOk x draft
    && ((planOrder s.beat).takeWhile (· ≠ x)).all (fun y => decide ((d.buf y s.beat).st ≠ .building))
    && decide (draft.length ≤ d.rd (airPage x) AIR_CFG.MAX_PPDU) && decide (nru ≤ 512)
    && decide (nss ≤ 512)
    && decide (dur + d.planAirtime x (s.beat - 1) + d.planAirtime x (s.beat - 2) ≤ s.left)
    && draft.all (d.ppduOk x s)
    && data.all (fun q => s.eligible.contains q.1 && decide ((data.filter fun e => decide (e.1 = q.1)).length = 1)
        && (d.queue q.1).any fun e => !used.contains e.id)
    && draft.all (fun p => decide (p.kind = 2) || decide (p.kind = 3) || (ppPlaces p).all (d.placeFits used))
    && decide (ul.length ≤ bits s.ul 16 8) && (ul.isEmpty || decide (spread ≤ bits s.ul 8 5))
    && (if s.mode = 5 then decide (draft = [])
        else decide ((draft.filter isBeacon).map (fun p => p.bssid) = d.beaconsDue x s.beat))
    && d.pollsOk x s draft

/-- Credits of a radio before its tier 5: each weighted class with an eligible queue gains its quantum (R310). -/
def Dev.creditsOf (d : Dev) (x : Nat) (s : Snap) (cands : List Cand) : Credits :=
  let q := (s.quantum : Int) * 65536
  let cls := (List.range 8).map fun c =>
    let w := (clsWeight (nth 0 s.classes c) : Int)
    let here := cands.any fun k => decide (k.tier = 5) && decide (k.cls = c)
    let v := lookOr 0 d.air.ccredit (8 * x + c) + if here then w * q else 0
    (c, clampInt (-16 * w * q) (16 * w * q) v)
  { cls := cls, queue := cands.map fun k => (k.q, lookOr 0 d.air.qcredit (32768 * x + k.q)) }

/-- Keep the credits after the freeze: places the ladder took out are given back (R311), eligible queues without a place
gain the quantum, all clamped; an empty queue has credit 0. -/
def Dev.keepCredits (d : Dev) (x : Nat) (s : Snap) (cands : List Cand) (k : Credits) (air : List (Nat × Int))
    (removed placed : List Nat) : Dev :=
  let q := (s.quantum : Int) * 65536
  let back := cands.filter fun c => decide (c.tier = 5) && removed.contains c.q
  let k := back.foldl (fun k c => k.charge c (-(lookOr 0 air c.q))) k
  let cc := k.cls.foldl (fun m e =>
    let w := (clsWeight (nth 0 s.classes e.1) : Int)
    put m (8 * x + e.1) (clampInt (-16 * w * q) (16 * w * q) e.2)) d.air.ccredit
  let qc := cands.foldl (fun m c =>
    if c.tier = 5 then
      let v := lookOr 0 k.queue c.q + if placed.contains c.q then 0 else q
      put m (32768 * x + c.q) (clampInt (-16 * q) (16 * q) v)
    else m) d.air.qcredit
  let live := qc.filter fun e => decide (e.1 / 32768 ≠ x) || !(d.queue (e.1 % 32768)).isEmpty
  { d with air := { d.air with ccredit := cc, qcredit := live } }

/-! ### Writing the plan (R303, R304) -/

def Plan.nru (p : Plan) : Nat := (p.ppdus.map fun q => q.rus.length).foldl (· + ·) 0
def Plan.nuser (p : Plan) : Nat := (p.ppdus.map fun q => q.users.length).foldl (· + ·) 0

/-- Header words. -/
def Plan.header (p : Plan) : List Nat :=
  [p.beat % 2 ^ 32,
    p.ppdus.length + b2n p.fallback * 2 ^ 6 + b2n p.skip * 2 ^ 7 + p.ladder % 32 * 2 ^ 8 + p.mode % 8 * 2 ^ 13
      + p.nru * 2 ^ 16,
    p.nuser + p.typ % 4 * 2 ^ 10, p.cost % 2 ^ 24, p.floor % 2 ^ 24, min 0xFFFF p.airtime]
    ++ List.replicate 10 0

def PlanPpdu.words (p : PlanPpdu) (firstRu : Nat) : List Nat :=
  [p.kind + b2n p.align.isSome * 8 + p.align.getD 0 * 16 + p.ac * 2 ^ 8 + p.bssid % 16 * 2 ^ 10 + firstRu * 2 ^ 16,
    p.ofs % 4096 + p.dur % 4096 * 2 ^ 16, p.resp % 4096 + p.bw * 2 ^ 12 + p.punct % 2 ^ 16 * 2 ^ 16,
    p.chains % 2 ^ 16 + p.rus.length * 2 ^ 16, min 0xFFFFFF p.energy,
    if p.kind = 2 then p.ulDur % 4096 + p.ulGiLtf % 8 * 2 ^ 12 + p.ulNltf % 16 * 2 ^ 15 + p.ulTarget % 256 * 2 ^ 19
      else 0, 0, 0]

def PlanRu.words (r : PlanRu) (firstUser : Nat) : List Nat :=
  [r.size % 32 + r.pos % 512 * 2 ^ 5 + r.precId % 512 * 2 ^ 14 + b2n r.nullReq * 2 ^ 23 + r.nnull % 16 * 2 ^ 24,
    r.precBeat % 2 ^ 32, r.userSum + ofSigned 8 r.power * 2 ^ 16,
    firstUser + r.users.length % 16 * 2 ^ 9 + r.ladder % 8 * 2 ^ 13]

def PlanUser.words (u : PlanUser) : List Nat :=
  [u.sta + u.gq % 64 * 2 ^ 11 + u.tid % 8 * 2 ^ 17 + u.cls % 8 * 2 ^ 20 + b2n u.ul * 2 ^ 23 + u.nss % 16 * 2 ^ 24
      + u.mcs % 16 * 2 ^ 28,
    ofSigned 8 u.pofs + u.predSnr % 256 * 2 ^ 8 + u.mpdus % 2048 * 2 ^ 16, u.octets % 2 ^ 24, 0]

/-- Write a plan into its buffer. -/
def Dev.writePlan (d : Dev) (x : Nat) (p : Plan) : Dev :=
  let a := d.rd (airPage x) AIR_PLAN_BASE.BASE * 2 ^ 17 + p.beat % 4 * 0x8000
  if d.wrOk a 0x4800 = false then d.enterFault (airPage x) ⟨0x04, 0, a⟩
  else
    let d := d.stWords a p.header
    (p.ppdus.zipIdx.foldl (fun (acc : Dev × Nat × Nat) q =>
      let e := acc.1.stWords (a + 0x40 + 32 * q.2) (q.1.words acc.2.1)
      q.1.rus.foldl (fun (b : Dev × Nat × Nat) r =>
        let f := b.1.stWords (a + 0x800 + 16 * b.2.1) (r.words b.2.2)
        (f.stWords (a + 0x2800 + 16 * b.2.2) (r.users.flatMap PlanUser.words), b.2.1 + 1, b.2.2 + r.users.length))
        (e, acc.2.1, acc.2.2)) (d, 0, 0)).1

/-- USED of the admitted flows takes the user airtime a frozen plan gives (R300). -/
def Dev.chargeFlows (d : Dev) (x : Nat) (p : Plan) : Dev :=
  d.forAll p.ppdus fun q e => e.forAll q.rus fun r e => e.forAll r.users fun u e =>
    let nss := max 1 r.nss
    let t := if r.size = 0x1F then bwTones q.bw else r.tones
    let us := q.dur * t * u.nss / (10 * bwTones q.bw * nss)
    let flow := e.flowIds.find? fun a => match e.flowAt a with
      | some f => decide (f.1 = u.sta) && decide (f.2.1 = u.cls) && decide (f.2.2.1 = b2n u.ul) && decide (f.2.2.2.1 = x)
      | none => false
    match flow with
    | some a => e.wrW 0x03B (0x1004 + 8 * a)
        (BitVec.ofNat 32 (e.flowW a 1 % 2 ^ 16 + 2 ^ 16 * min 0xFFFF (e.flowW a 1 / 2 ^ 16 + us)))
    | none => e

/-- Boundary of position 0: USED of every flow is 0, then takes the plans already frozen for beats of the round. DEDUCED (log entry
375): those plans are frozen before the boundary that zeroes USED. -/
def Dev.flowsBoundary (d : Dev) (n : Nat) : Dev :=
  (d.flowsNewRound).each 3 fun x e => e.forAll [n, n + 1] fun m f =>
    match (f.buf x m).st, (f.buf x m).plan with
    | .frozen, some p => if p.beat = m then f.chargeFlows x p else f
    | _, _ => f

/-- Each planned uplink user's demand is reduced by its planned OCTETS (R321). -/
def Dev.takeDemand (d : Dev) (p : Plan) : Dev :=
  d.forAll p.ppdus fun q e => e.forAll q.rus fun r e => e.forAll r.users fun u e =>
    if u.ul then
      let k := 8 * u.sta + u.tid
      let dm := lookOr (0, 0) e.mac.demand k
      { e with mac := { e.mac with demand := put e.mac.demand k (dm.1 - u.octets, dm.2) } }
    else e

/-- Delays recorded at the freeze (R327): `left` gives the queues the layout left out for R319 or R315. -/
def Dev.freezeDelays (d : Dev) (x : Nat) (s : Snap) (p : Plan) (out left : List (Nat × Nat)) (skipped : List Nat) : Dev :=
  let ids := p.ids
  -- an EMLSR station another radio placed is tested before the beat type, the key and the window (R309, R316)
  let taken := (d.otherPlans x s.beat).flatMap fun o => (o.2.ppdus.flatMap PlanPpdu.users).map fun u => u.sta
  let away (q : Nat) := decide (q < 16384) && d.staEmlsr (q / 8) && taken.contains (q / 8)
  let d := d.forAll s.failed fun f e => e.delayFirst f.1 (if away f.1 ∧ 0x1B ≤ f.2 ∧ f.2 ≤ 0x1D then 0x1F else f.2) []
  d.forAll s.eligible fun q e =>
    let code := if away q then 0x1F else match look out q with
      | some c => c
      | none => if skipped.contains q then 0x14 else match left.find? fun l => decide (l.1 = q) with
        | some l => l.2
        | none => if s.mode = 5 then 0x1D else 0x10
    e.delayFirst q code ids

/-- PLAN_FREEZE of radio `x` (R304, R305, R310 to R327). The draft is the layout R313 to R320 leave to the scheduler;
`noLine` counts the groups it did not form under R315. -/
def Dev.planFreeze (d : Dev) (x : Nat) (draft : List PpduFact) (left : List (Nat × Nat)) (noLine : Nat) : Dev :=
  match look d.air.snap x with
  | none => d
  | some s =>
    let m := s.beat
    let b := d.buf x m
    let cands := s.eligible.filterMap (d.candOf s x)
    let air := draft.flatMap fun p => if p.kind = 2 ∨ p.kind = 3 then [] else
      p.rus.flatMap fun r => r.places.map fun f => (f.queue, placeAir p r f)
    let order := serveOrder (d.creditsOf x s cands) cands air air.length
    match order with
    | none => d
    | some k =>
      if b.st ≠ .building ∨ d.beat + 2 ≠ m ∨ beatNs (m - 2) + 4000 < d.ns ∨ d.draftOk x s draft = false then d
      else
        let used := d.otherIds x m
        let ppdus := draft.map (d.mkPpdu x s used)
        let res := d.rd 0x03B AIR_ECOST_RES.RESP_RES
        let l := d.descend x s (s.floor - res) 4096 { ppdus := ppdus, rungs := 0, out := [], skip := false }
        let fits := decide (res ≤ s.floor) || l.ppdus.isEmpty
        let l := if fits then l else { l with ppdus := [], rungs := l.rungs ||| 16, skip := true }
        let plan : Plan :=
          { beat := m, quads := d.ownedSet x, fallback := false, skip := l.skip, ladder := l.rungs, mode := s.mode,
            typ := s.typ, cost := d.costOf x l.ppdus, floor := s.floor,
            airtime := (l.ppdus.map fun p => p.dur).foldl (· + ·) 0, ppdus := l.ppdus }
        let d := d.writePlan x plan
        if d.inService (airPage x) = false then d.setBuf x m { st := .free, plan := none }
        else
          let p := airPage x
          let placed := (l.ppdus.flatMap PlanPpdu.users).map fun u => u.queue
          let gone := (air.map fun e => e.1).filter fun q => !placed.contains q
          let d := d.keepCredits x s cands k air gone placed
          let d := d.when (decide (m / 16 = d.beat / 16)) (·.chargeFlows x plan)
          let d := ((d.takeDemand plan).notePolls x plan).freezeDelays x s plan
            (if l.skip then l.out.filter fun o => decide (o.2 = 0x12) else l.out) left
            (if l.skip then air.map fun e => e.1 else [])
          let d := (d.setBuf x m { st := .frozen, plan := some plan }).cnt p AIR_CNT_PLAN.COUNT
          let d := d.wr 0x008 (PTP_BEAT_STAGE.PLAN_FROZEN.bitOf x) 1
          let d := d.when (bit l.rungs 0) (·.cnt p AIR_CNT_STEP1.COUNT)
          let d := d.when (bit l.rungs 1) (·.cnt p AIR_CNT_STEP2.COUNT)
          let d := d.when (bit l.rungs 2) (·.cnt p AIR_CNT_STEP3.COUNT)
          let d := d.when (bit l.rungs 3) (·.cnt p AIR_CNT_STEP4.COUNT)
          let d := d.when l.skip fun e => ((e.cnt p AIR_CNT_STEP5.COUNT).cnt p AIR_CNT_SKIP.COUNT).ev p 11
          let d := d.when (decide (l.rungs ≠ 0)) (·.ev p 10)
          let d := d.cnt p AIR_CNT_UL_USER.COUNT ((l.ppdus.flatMap PlanPpdu.users).filter fun u => u.ul).length
          let d := d.cnt p AIR_CNT_SOUND.COUNT (l.ppdus.filter fun q => decide (q.kind = 3)).length
          let d := d.cnt p AIR_CNT_JOB_NOLINE.COUNT noLine
          let w1 := plan.cost % 2 ^ 24 + l.rungs % 32 * 2 ^ 24 + b2n l.skip * 2 ^ 30
          let w2 := plan.floor % 2 ^ 24 + l.ppdus.length % 64 * 2 ^ 24
          let d := d.wr p AIR_LAST0.BEAT_LO m
          { d with air := { d.air with last := put d.air.last x (m, w1, w2), snap := del d.air.snap x } }

/-- PLAN_FREEZE_MISSED (R29, R305): the buffer is freed, PLAN_LATE, and the queues that were eligible record
DELAY_DISCARD. -/
def execPlanFreezeMissed (radio : Nat) (s : State) : Host.Outcome State Fault Refusal :=
  s.onDev fun d =>
    match look d.air.snap radio with
    | none => d
    | some sn =>
      if (d.buf radio sn.beat).st = .building ∧ d.beat + 2 = sn.beat ∧ radio < 3 then
        let d := d.reach ((beatNs (sn.beat - 2) + 4000) * nsU)
        let d := d.setBuf radio sn.beat { st := .free, plan := none }
        let d := (d.cnt (airPage radio) AIR_CNT_PLANLATE.COUNT).ev (airPage radio) 8
        let d := (d.wr 0x008 (PTP_BEAT_LATE.PLAN_LATE.bitOf radio) 1).ev 0x008 8
        let d := d.forAll sn.eligible fun q e => e.delayFirst q 0x15 []
        { d with air := { d.air with snap := del d.air.snap radio } }
      else d

/-- AIR_LAST0_READ (R305): the read captures AIR_LAST1 and AIR_LAST2. -/
def execAirLast0Read (x : Nat) (s : State) : Host.Outcome State Fault Refusal :=
  s.onDev fun d =>
    if 3 ≤ x then d else d.regDo (airPage x) fun d =>
      let l := lookOr (0, 0, 0) d.air.last x
      let p := airPage x
      let d := d.wrW p AIR_LAST1.word.off (BitVec.ofNat 32 l.2.1)
      let d := d.wrW p AIR_LAST2.word.off (BitVec.ofNat 32 l.2.2)
      d.complete .okay (l.1 % 2 ^ 32)

/-! ### Plan buffers at boundaries and discards (R305, R307) -/

/-- The fallback plan of beat `m` (R307, R800): the beacons whose TBTT lies in the beat. -/
def Dev.fallbackPlan (d : Dev) (x m : Nat) : Plan :=
  let w := d.width x
  let bcn (k : Nat) : Option PlanPpdu := match d.tbttIn x k m with
    | none => none
    | some t =>
      some { kind := 4, trig := 0, pad := 0, ndpa := 0, align := none, ac := 3, bssid := k, ofs := max 80 t.1, dur := d.beaconDur x k, resp := 0, bw := w,
             punct := Config.staticPunct x % 2 ^ 16, chains := 2 ^ d.radioChains x - 1, energy := 0, ulDur := 0, ulGiLtf := 0, ulNltf := 0,
             ulTarget := 0,
             rus := [{ size := 0x1F, pos := 0, precId := 0x1FF, nullReq := false, nnull := 0, precBeat := 0,
                       power := min (toSigned 8 (d.rd (airPage x) AIR_POLICY.TX_PSD) + dbRatio (widthMhz w) 1)
                         (d.clampLimit x (d.synChains x) + dbRatio (max 1 (d.radioChains x)) 1),
                       ladder := 0, users := [] }] }
  { beat := m, quads := d.ownedSet x, fallback := true, skip := false, ladder := 0, mode := d.mode, typ := 0, cost := 0,
    floor := 0, airtime := 0, ppdus := if d.mode = 5 then [] else (d.txBssids x).filterMap bcn }

/-- Every entry of a plan that is then not served records a delay (R327). -/
def Dev.delayPlan (d : Dev) (p : Plan) (code : Nat) : Dev :=
  d.forAll p.ppdus fun q e => e.forAll q.users fun u e => e.forAll u.ids fun i e => e.delay u.queue i code

/-- A frozen or building plan of radio `x` for beat `m` is discarded (R23, R84, R305). -/
def Dev.discardPlan (d : Dev) (x m code : Nat) : Dev :=
  let b := d.buf x m
  match b.st, b.plan with
  | .frozen, some p => (d.delayPlan p code).setBuf x m { st := .free, plan := none }
  | .building, _ =>
    { d.setBuf x m { st := .free, plan := none } with
      air := { (d.setBuf x m { st := .free, plan := none }).air with snap := del d.air.snap x } }
  | _, _ => d

/-- The beacons due in beat `m` that no plan in execution carries are lost (R280): `planned` are those of the plan. -/
def Dev.beaconsLost (d : Dev) (x m : Nat) (planned : List Nat) : Dev :=
  let n := ((d.txBssids x).filter fun k => (d.tbttIn x k m).isSome && !planned.contains k).length
  d.when (decide (n ≠ 0)) fun e => (e.cnt (macPage x) MAC_CNT_BCNLOST.COUNT n).ev (macPage x) 8

/-- The BSSID whose beacon a planned PPDU is. -/
def PlanPpdu.beacon (p : PlanPpdu) : Option Nat := if p.kind = 4 ∧ p.users.isEmpty then some p.bssid else none

/-- Stations addressed by an MU-RTS trigger (R231). -/
def PlanPpdu.muRts (p : PlanPpdu) : List Nat := if p.kind = 2 ∧ p.trig = 3 then p.users.map fun u => u.sta else []

/-- EMLSR stations that no CTS announced get none of their MPDUs in the beat (R231, R232). DEDUCED (log entry 373): nor does one
whose MU-RTS was not sent. -/
def Dev.emlsrDeaf (d : Dev) (x : Nat) (stas : List Nat) : Dev :=
  d.setMacR x { d.macR x with noCts := (d.macR x).noCts ++ stas.filter fun s => d.staEmlsr s && !(d.macR x).noCts.contains s }

/-- The completion of a planned PPDU that was not handed to the chain pool (R179, R214, R216): its entries record a delay, its beacon
is lost. `outs` are the outcomes of its RUs. -/
def Dev.notSent (d : Dev) (x : Nat) (p : PlanPpdu) (index beat status code : Nat) (outs : List Nat) : Dev :=
  let d := (d.forAll p.users fun u f => f.forAll u.ids fun k g => g.delay u.queue k code).emlsrDeaf x p.muRts
  let d := match p.beacon with
    | some _ => (d.cnt (macPage x) MAC_CNT_BCNLOST.COUNT).ev (macPage x) 8
    | none => d
  d.giveDone { radio := x, kind := .planned index, beat := beat, status := status, clamped := false, scale := 0,
               chainLost := false, paOver := 0, first := 0, ru := outs }

/-- The PPDUs of the plan in execution that have not been granted lose their windows with the beat: each completes WINDOW_MISSED (R30,
R179, R795). -/
def Dev.execEnds (d : Dev) (x : Nat) : Dev :=
  match look d.air.exec x with
  | some e =>
    let d := d.forAll (e.plan.ppdus.zipIdx.drop e.next) fun p f => f.notSent x p.1 p.2 e.plan.beat 0xA 0x17 (nth [] e.outcomes p.2)
    { d with air := { d.air with exec := del d.air.exec x } }
  | none => d

/-- Begin executing a plan: RU outcomes at the boundary (R207, R213, R215). -/
def Dev.execPlan (d : Dev) (x : Nat) (p : Plan) : Dev :=
  let n := d.unmasked x
  let outs := p.ppdus.map fun q => q.rus.map (d.ruOutcome x p.beat n)
  let d := d.forAll (outs.flatMap id) fun o e => e.noteLate x o
  { d with air := { d.air with exec := put d.air.exec x { plan := p, next := 0, outcomes := outs } } }

/-- The radio takes the fallback plan (R307). -/
def Dev.execFallback (d : Dev) (x m : Nat) : Dev :=
  ((d.execPlan x (d.fallbackPlan x m)).cnt (airPage x) AIR_CNT_FALLBACK.COUNT).ev (airPage x) 9

/-- Boundary `m` for radio `x` (R29, R34, R84, R305, R307); `allow` is the allowance for the beat when an emergency
lowered it. -/
def Dev.airBoundary (d : Dev) (x m : Nat) (emergency : Option Nat) : Dev :=
  let old := d.buf x (m + 3)
  let d := d.when (decide (old.st = .executing)) (·.setBuf x (m + 3) { st := .free, plan := none })
  let d := d.execEnds x
  let b := d.buf x m
  let skip (e : Dev) : Dev := (e.beaconsLost x m []).wr 0x008 (PTP_BEAT_LATE.EXEC_SKIP.bitOf x) 1 |>.ev 0x008 8
  if d.inRun = false ∨ d.radioInService x = false then skip (d.discardPlan x m 0x14)
  else
    match b.st, b.plan with
    | .frozen, some p =>
      if p.quads ≠ d.ownedSet x then (d.discardPlan x m 0x15).execFallback x m
      else if (match emergency with | some a => decide (a < p.cost) | none => false) then
        (skip (d.discardPlan x m 0x14)).cnt (airPage x) AIR_CNT_SKIP.COUNT
      else
        let d := d.setBuf x m { st := .executing, plan := some p }
        (d.execPlan x p).beaconsLost x m (p.ppdus.filterMap PlanPpdu.beacon)
    | _, _ => d.execFallback x m

/-- An air scheduler page stops: its buffers are freed (R305). -/
def Dev.airOnLeave (d : Dev) (x : Nat) : Dev :=
  let d := d.each 4 fun k e =>
    let b := e.buf x k
    match b.st, b.plan with
    | .frozen, some p => (e.delayPlan p 0x15).setBuf x k { st := .free, plan := none }
    | .building, _ => e.setBuf x k { st := .free, plan := none }
    | _, _ => e
  { d with air := { d.air with snap := del d.air.snap x } }

/-- The shared page reaches STOPPED or FAULT: every entry completes DISCARDED (R335). -/
def Dev.airSharedOnLeave (d : Dev) : Dev :=
  d.forAll d.queueIds fun q e => e.forAll (e.queue q) fun f g => g.finishSched f 0x3F

/-- First failed check of the Start of an air scheduler page, as a fault code (R334, register tables). -/
def Dev.airStartCheck (d : Dev) (x : Nat) : Option Nat :=
  let p := airPage x
  let mp := d.rd p AIR_CFG.MAX_PPDU
  if d.bstate 0x03B ≠ .running ∨ mp = 0 ∨ 32 < mp
    ∨ d.rd p AIR_PREC_CFG.ENTRY_HI < d.rd p AIR_PREC_CFG.ENTRY_LO
    ∨ d.rd p AIR_PREC_LINES.LINE_HI < d.rd p AIR_PREC_LINES.LINE_LO then some 0x03
  else none

/-- First failed check of the Start of page 0x03B. -/
def Dev.airSharedStartCheck (d : Dev) : Option Nat :=
  let n := d.rd 0x03B AIR_QPOOL_CFG.ENTRIES
  if n < 4096 ∨ 1048576 < n then some 0x03
  else none

end Sys2Proof.Machine
end

