-- ==== Sys2Proof/Machine/Bus.lean ====
section
/-! DEFINITION. Accesses that blocks make to the address map on their own (R37, R60, R551): memory inside the device, and
the outbound windows to PCI Express. -/

namespace Sys2Proof.Machine

/-- The lowest-numbered enabled outbound window that contains fabric address `a`, as the PCI Express address (R551). -/
def Dev.outWindow (d : Dev) (a : Nat) : Option Nat :=
  (List.range 8).findSome? fun w =>
    let lg := d.rd 0x131 (PCIE_OUTWIN.LOG2.at w)
    let base := d.rd 0x131 (PCIE_OUTWIN.FAB.at w) * 2 ^ 16
    let base := base / 2 ^ lg * 2 ^ lg
    if d.rdB 0x131 (PCIE_OUTWIN.EN.at w) && decide (16 ≤ lg) && decide (lg ≤ 32) && decide (base ≤ a)
        && decide (a < base + 2 ^ lg) then
      some (d.rd 0x131 (PCIE_OUTWIN.PCI_HI.at w) * 2 ^ 32 + d.rd 0x131 (PCIE_OUTWIN.PCI_LO.at w) * 2 ^ 16 + (a - base))
    else none

/-- What the link makes of an outbound request (R551): `okay` when it is queued for the link. -/
def Dev.outCode (d : Dev) (a : Nat) : Code :=
  match d.outWindow a with
  | none => .decodeError
  | some _ => if d.rdB 0x130 PCIE_CTL.LTSSM_EN && d.rdB 0x130 PCIE_LINK.UP then .okay else .unavailable

/-- The completion of a block's own access of `n` bytes. -/
def Dev.busCode (d : Dev) (a n : Nat) : Code :=
  match regionOf a with
  | .pcie => d.outCode a
  | _ => if d.memOkN a n then .okay else if d.memOk a then d.memCode (a + n - 1) else d.memCode a

/-- Program memory of a Koveton core whose page is not STOPPED takes no write (R404). -/
def Dev.kovLocked (d : Dev) (a : Nat) : Bool :=
  decide (regionOf a = .kov) && decide (0x40000 ≤ (a - kovBase) % 0x100000)
    && decide (d.bstate (0x050 + (a - kovBase) / 0x100000) ≠ .stopped)

/-- A block writes bytes: to memory, or out to the link. Answers whether it completed OKAY. -/
def Dev.busWrite (d : Dev) (a : Nat) (bytes : List Nat) : Dev × Bool :=
  if d.kovLocked a ∨ regionOf a = .rom ∨ regionOf a = .xspi then (d, false)
  else if d.busCode a bytes.length = .okay then
    match regionOf a, d.outWindow a with
    | .pcie, some p => (d.emit (.hostWrite p bytes), true)
    | _, _ => ((d.stBytes a bytes).heal a bytes.length, true)
  else (d, false)

/-- A block reads `n` bytes; a word that cannot be corrected ends the read with DATA_ERROR (R576). What the link's other side returns is given by `host`, bytes by fabric address (R552). -/
def Dev.busRead (d : Dev) (host : List (Nat × Nat)) (a n : Nat) : Option (List Nat) :=
  if d.busCode a n = .okay ∧ d.badIn a n = false then
    match regionOf a with
    | .pcie => some ((List.range n).map fun i => lookOr 0 host (a + i) % 256)
    | _ => some (d.ldBytes a n)
  else none

/-- The 32-bit words that bytes spell, little-endian. -/
def toWords (l : List Nat) (n : Nat) : List Nat := (List.range n).map fun i => ofLeBytes ((l.drop (4 * i)).take 4)

end Sys2Proof.Machine
end

