-- ==== Sys2Proof/Machine/KovOps.lean ====
section
/-! DEFINITION. A Koveton core as a machine: its registers (R407), bundles (R408, R409), move slots and addressing (R412 to
R414), saturation and rounding (R415 to R418), stalls (R410, R411), hardware loops (R423 to R426), and how a bundle issues. -/

namespace Sys2Proof.Machine

def kclPage : Nat := 0x048
def corePage (k : Nat) : Nat := 0x050 + k
def coreBase (k : Nat) : Nat := kovBase + k * 0x100000

def Dev.core (d : Dev) (k : Nat) : KCore := nth KCore.reset d.kov.cores k
def Dev.setCore (d : Dev) (k : Nat) (c : KCore) : Dev := { d with kov := { d.kov with cores := setAt d.kov.cores k c } }

/-! ### Registers -/

/-- Place of scalar `i` in the bank in use: S8 to S15 are banked. -/
def KCore.sIx (c : KCore) (i : Nat) : Nat := if c.bank && decide (8 ≤ i) then i + 8 else i
/-- Place of track, step or window register `i`: 4 to 7 are banked. -/
def KCore.tIx (c : KCore) (i : Nat) : Nat := if c.bank && decide (4 ≤ i) then i + 4 else i

def KCore.sR (c : KCore) (i : Nat) : BitVec 32 := nth 0 c.s (c.sIx i)
def KCore.sW (c : KCore) (i : Nat) (v : BitVec 32) : KCore := { c with s := setAt c.s (c.sIx i) v }
def KCore.tR (c : KCore) (i : Nat) : BitVec 18 := nth 0 c.t (c.tIx i)
def KCore.tW (c : KCore) (i : Nat) (v : BitVec 18) : KCore := { c with t := setAt c.t (c.tIx i) v }
def KCore.dR (c : KCore) (i : Nat) : BitVec 18 := nth 0 c.dd (c.tIx i)
def KCore.dW (c : KCore) (i : Nat) (v : BitVec 18) : KCore := { c with dd := setAt c.dd (c.tIx i) v }
def KCore.wR (c : KCore) (i : Nat) : BitVec 29 := nth 0 c.w (c.tIx i)
def KCore.wW (c : KCore) (i : Nat) (v : BitVec 29) : KCore := { c with w := setAt c.w (c.tIx i) v }
def KCore.vR (c : KCore) (i : Nat) : List (BitVec 16) := nth [] c.v i
def KCore.vW (c : KCore) (i : Nat) (v : List (BitVec 16)) : KCore := { c with v := setAt c.v i v }
def KCore.aR (c : KCore) (i : Nat) : List (BitVec 40) := nth [] c.a (i % 4)
def KCore.aW (c : KCore) (i : Nat) (v : List (BitVec 40)) : KCore := { c with a := setAt c.a (i % 4) v }
def KCore.lrR (c : KCore) : BitVec 12 := nth 0 c.lr (b2n c.bank)
def KCore.lrW (c : KCore) (v : BitVec 12) : KCore := { c with lr := setAt c.lr (b2n c.bank) v }

/-- ST without LD and BANK, which stand in fields of their own. -/
def KCore.stR (c : KCore) : BitVec 32 := nth 0 c.st (b2n c.bank)
def KCore.stW (c : KCore) (v : BitVec 32) : KCore := { c with st := setAt c.st (b2n c.bank) (v &&& 0x13F#32) }
def KCore.ldR (c : KCore) : Nat := nth 0 c.ld (b2n c.bank)
def KCore.ldW (c : KCore) (n : Nat) : KCore := { c with ld := setAt c.ld (b2n c.bank) n }

/-- ST as SMVA reads it. -/
def KCore.status (c : KCore) : BitVec 32 :=
  c.stR ||| BitVec.ofNat 32 (c.ldR * 64 + b2n c.bank * 512)

/-- Bit `i` of ST: 0 Z, 1 N, 2 C, 3 V, 4 SV, 5 AV, 8 IE. -/
def KCore.flag (c : KCore) (i : Nat) : Bool := c.stR.getLsbD i
def KCore.setFlag (c : KCore) (i : Nat) (b : Bool) : KCore := c.stW (setBits c.stR i 1 (b2n b))

def KLoop.none : KLoop := { count := 0, start := 0, fin := 0 }
def KCore.loopR (c : KCore) (l : Nat) : KLoop := nth KLoop.none (nth [] c.loops (b2n c.bank)) l
def KCore.loopW (c : KCore) (l : Nat) (p : KLoop) : KCore :=
  { c with loops := setAt c.loops (b2n c.bank) (setAt (nth [] c.loops (b2n c.bank)) l p) }

/-- The innermost active loop. -/
def KCore.inner (c : KCore) : Option KLoop := if c.ldR = 0 then none else some (c.loopR (c.ldR - 1))

/-! ### Saturation and rounding (R415 to R418) -/

/-- Right shift by `n` rounded as the SAT field says. -/
def shrSat (sat : Nat) (x : Int) (n : Nat) : Int :=
  let p : Int := (2 ^ n : Nat)
  if n = 0 then x
  else if sat = 2 then (x + p / 2) / p
  else if sat = 3 then
    let q := x / p
    let r := x % p
    if p < 2 * r ∨ (2 * r = p ∧ q % 2 = 1) then q + 1 else q
  else x / p

/-- A 16-bit result: its low bits under WRAP, saturated otherwise; whether it was saturated. -/
def narrow16 (sat : Nat) (x : Int) : BitVec 16 × Bool :=
  if sat = 0 then (BitVec.ofInt 16 x, false)
  else if x < -32768 then (0x8000#16, true) else if 32767 < x then (0x7FFF#16, true) else (BitVec.ofInt 16 x, false)

/-- A 40-bit accumulator result: whether it was saturated, and whether it wrapped. -/
def narrow40 (sat : Nat) (x : Int) : BitVec 40 × Bool × Bool :=
  let lo : Int := -(2 ^ 39 : Nat)
  let hi : Int := (2 ^ 39 : Nat) - 1
  if lo ≤ x ∧ x ≤ hi then (BitVec.ofInt 40 x, false, false)
  else if sat = 0 then (BitVec.ofInt 40 x, false, true)
  else (BitVec.ofInt 40 (if x < lo then lo else hi), true, false)

/-- Leading bits equal to the sign bit, less one, of a `w`-bit value (R418). -/
def rsb {w : Nat} (x : BitVec w) : Nat :=
  ((List.range (w - 1)).takeWhile fun i => x.getLsbD (w - 2 - i) == x.msb).length

/-- The lane pairs of a vector as (re, im). -/
def laneOf (v : List (BitVec 16)) (l : Nat) : Int × Int := ((nth 0 v (2 * l)).toInt, (nth 0 v (2 * l + 1)).toInt)

/-- Exact complex products per lane, as 16 reals (R416). -/
def cprod (x y : List (BitVec 16)) (conj : Bool) : List Int :=
  (List.range 8).flatMap fun l =>
    let p := laneOf x l
    let q := laneOf y l
    let qi := if conj then -q.2 else q.2
    [p.1 * q.1 - p.2 * qi, p.1 * qi + p.2 * q.1]

/-- Exact products per real element. -/
def rprod (x y : List (BitVec 16)) : List Int := (List.range 16).map fun e => (nth 0 x e).toInt * (nth 0 y e).toInt

def zipInt (f : Int → Int → Int) (x y : List Int) : List Int := (List.range 16).map fun e => f (nth 0 x e) (nth 0 y e)
def vInts (v : List (BitVec 16)) : List Int := (List.range 16).map fun e => (nth 0 v e).toInt
def aInts (a : List (BitVec 40)) : List Int := (List.range 16).map fun e => (nth 0 a e).toInt

/-- Integer square root, floor, of a number below 2^44. -/
def isqrt (n : Nat) : Nat :=
  (List.range 22).foldl (fun r i => let t := r + 2 ^ (21 - i); if t * t ≤ n then t else r) 0

/-! ### What an operation slot does -/

/-- The outcome of an operation slot: device, core, the bundle it continues at with the cycles that costs when it is not the
one after it, and whether an element was saturated. -/
structure KRes where
  d : Dev
  c : KCore
  jump : Option (Nat × Nat)
  sat : Bool

def KRes.plain (d : Dev) (c : KCore) : KRes := { d := d, c := c, jump := none, sat := false }

/-- Write a vector of 16-bit results (R417). -/
def kPutV (d : Dev) (c : KCore) (dst : Nat) (l : List (BitVec 16 × Bool)) : KRes :=
  let sat := l.any fun e => e.2
  let c := c.vW dst (l.map fun e => e.1)
  { d := d, c := if sat then c.setFlag 4 true else c, jump := none, sat := sat }

/-- Write an accumulator of exact results narrowed by SAT (R417). -/
def kPutA (d : Dev) (c : KCore) (dst sat : Nat) (l : List Int) : KRes :=
  let n := l.map (narrow40 sat)
  let s := n.any fun e => e.2.1
  let w := n.any fun e => e.2.2
  let c := c.aW dst (n.map fun e => e.1)
  let c := if s then c.setFlag 4 true else c
  { d := d, c := if w then c.setFlag 5 true else c, jump := none, sat := s }

def kPutS (d : Dev) (c : KCore) (dst : Nat) (v : BitVec 32) : KRes := .plain d (c.sW dst v)

/-- A vector of free elements, for a shift count outside the range its operation states. -/
def kFreeV (d : Dev) (c : KCore) (dst : Nat) : KRes :=
  .plain { d with draws := d.draws + 16 }
    (c.vW dst ((List.range 16).map fun i => BitVec.ofNat 16 (Config.freeValue (d.draws + i))))
def kFreeA (d : Dev) (c : KCore) (dst : Nat) : KRes :=
  .plain { d with draws := d.draws + 16 }
    (c.aW dst ((List.range 16).map fun i => BitVec.ofNat 40 (Config.freeValue (d.draws + i))))

/-! ### Fields of the operation slot (R419) -/

def kOpc (op : Nat) : Nat := bits op 26 6
def kD (op : Nat) : Nat := bits op 22 4
def kA (op : Nat) : Nat := bits op 18 4
def kB (op : Nat) : Nat := bits op 14 4
def kSat (op : Nat) : Nat := bits op 12 2
def kSh (op : Nat) : Nat := bits op 6 6
def kCode (op : Nat) : Nat := bits op 17 5
def kDir (op : Nat) : Bool := bit op 16
def kT (op : Nat) : Nat := bits op 19 3
def kTarget (op : Nat) : Nat := bits op 10 12

/-- Formats of R419. -/
inductive KFmt where
  | nil
  | vv
  | s3
  | si
  | sm
  | sl
  | ct
  | sy
deriving DecidableEq, Repr

/-- The format of an opcode (R420). -/
def kFmt (o : Nat) : KFmt :=
  if o = 0 ∨ o = 0x35 ∨ o = 0x37 ∨ o = 0x38 then .nil
  else if o = 0x13 then .s3
  else if o < 0x24 then .vv
  else if o < 0x2D then .s3
  else if o < 0x30 then .si
  else if o = 0x30 then .sm
  else if o < 0x33 then .sl
  else if o < 0x37 then .ct
  else .sy

/-- Which of D, A and B name an accumulator. -/
def kAccFields (o : Nat) : Bool × Bool × Bool :=
  if (1 ≤ o ∧ o ≤ 9) ∨ o = 0x0B then (true, false, false)
  else if o = 0x0A ∨ o = 0x0F then (false, true, false)
  else if o = 0x0C ∨ o = 0x0D then (true, true, true)
  else if o = 0x0E ∨ o = 0x10 then (true, true, false)
  else (false, false, false)

/-- A reserved bit of the operation slot is 1. -/
def kReserved (op : Nat) : Bool :=
  let o := kOpc op
  let acc := kAccFields o
  (match kFmt o with
    | .nil => decide (bits op 0 26 ≠ 0)
    | .vv => decide (bits op 0 6 ≠ 0)
    | .s3 => decide (bits op 0 14 ≠ 0)
    | .si => decide (o = 0x2E) && decide (kA op ≠ 0)
    | .sm => decide (bits op 0 16 ≠ 0)
    | .sl => decide (bits op 17 2 ≠ 0)
    | .ct => decide (o ≠ 0x36) && decide (bits op 0 10 ≠ 0)
    | .sy => decide (bits op 8 10 ≠ 0) || (decide (o ≠ 0x39) && decide (bits op 18 4 ≠ 0)))
  || (acc.1 && decide (4 ≤ kD op)) || (acc.2.1 && decide (4 ≤ kA op)) || (acc.2.2 && decide (4 ≤ kB op))

/-- A register under one number: V 0 to 15, A 16 to 19, S 32 to 47, T 64 to 71, D 72 to 79, W 80 to 87. -/
def kRegV (i : Nat) : Nat := i
def kRegA (i : Nat) : Nat := 16 + i % 4
def kRegS (i : Nat) : Nat := 32 + i
def kRegT (i : Nat) : Nat := 64 + i

/-- The register an operation slot writes, with its producer class for R410: 2 vector operation, 3 AEXT, 4 multiply, 5 scalar
operation, 6 scalar result at distance 2, 7 SMVA to a track, step or window register, 9 other accumulator result. -/
def kWrites (op : Nat) : Option (Nat × Nat) :=
  let o := kOpc op
  let dd := kD op
  if 1 ≤ o ∧ o ≤ 9 then some (kRegA dd, 4)
  else if o = 0x0A then some (kRegV dd, 3)
  else if o = 0x0B ∨ o = 0x0C ∨ o = 0x0D ∨ o = 0x0E ∨ o = 0x10 then some (kRegA dd, 9)
  else if o = 0x0F ∨ o = 0x11 ∨ o = 0x13 ∨ o = 0x23 ∨ o = 0x31 then some (kRegS dd, 6)
  else if o = 0x12 ∨ (0x14 ≤ o ∧ o ≤ 0x22) then some (kRegV dd, 2)
  else if (0x24 ≤ o ∧ o ≤ 0x2F ∧ o ≠ 0x2C) ∨ o = 0x3A then some (kRegS dd, 5)
  else if o = 0x30 then
    if kDir op then some (kRegS dd, 5) else if kCode op < 24 then some (64 + kCode op, 7) else none
  else none

/-- The registers an operation slot reads, with the consumer class: 0 any, 1 accumulate, 2 accumulator operand, 3 scalar, 4
address. -/
def kReads (op : Nat) : List (Nat × Nat) :=
  let o := kOpc op
  let va := (kRegV (kA op), 0)
  let vb := (kRegV (kB op), 0)
  let aa := (kRegA (kA op), 2)
  let sa := (kRegS (kA op), 3)
  let sb := (kRegS (kB op), 3)
  let sd := (kRegS (kD op), 3)
  let acc := (kRegA (kD op), 1)
  if o = 0 then []
  else if o ≤ 9 then
    [va, vb] ++ (if o = 9 then [(kRegV (kA op + 1), 0), (kRegV (kB op + 1), 0)] else [])
      ++ (if o = 1 ∨ o = 2 ∨ o = 7 then [] else [acc])
  else if o = 0x0A ∨ o = 0x0E ∨ o = 0x0F then [aa]
  else if o = 0x0B ∨ o = 0x11 ∨ o = 0x16 ∨ o = 0x17 ∨ (0x1A ≤ o ∧ o ≤ 0x1E) ∨ o = 0x20 ∨ o = 0x21 ∨ o = 0x23 then [va]
  else if o = 0x0C ∨ o = 0x0D then [aa, (kRegA (kB op), 2)]
  else if o = 0x10 then [aa, sb]
  else if o = 0x12 then [va, sb]
  else if o = 0x13 ∨ o = 0x2D then [sa]
  else if o = 0x22 then [sa, (kRegV (kD op), 0)]
  else if o ≤ 0x23 then [va, vb]
  else if o ≤ 0x2C then [sa, sb]
  else if o = 0x2F then [sd]
  else if o = 0x30 then (if kDir op then (if kCode op < 24 then [(64 + kCode op, 0)] else []) else [sd])
  else if o = 0x31 then [(kRegT (kT op), 4)]
  else if o = 0x32 then [(kRegT (kT op), 4), sd]
  else if o = 0x36 ∨ o = 0x39 ∨ o = 0x3C then [sd]
  else []

/-! ### Move slots (R412 to R414) -/

def mK (m : Nat) : Nat := bits m 14 2
def mVr (m : Nat) : Nat := bits m 10 4
def mTr (m : Nat) : Nat := bits m 7 3
def mAm (m : Nat) : Nat := bits m 5 2
/-- The slot loads a vector register. -/
def mLoads (m : Nat) : Bool := decide (mK m = 1) || decide (mK m = 3)

/-- The registers a move slot writes, with producer class 1 (vector load) and 8 (post-modify). -/
def mWrites (m : Nat) : List (Nat × Nat) :=
  if mK m = 0 then []
  else (if mLoads m then [(kRegV (mVr m), 1)] else []) ++ (if mAm m = 0 then [] else [(kRegT (mTr m), 8)])

/-- The registers a move slot reads. -/
def mReads (m : Nat) : List (Nat × Nat) :=
  if mK m = 0 then []
  else [(kRegT (mTr m), 4)] ++ (if mK m = 2 then [(kRegV (mVr m), 0)] else [])
    ++ (if 2 ≤ mAm m then [(72 + mTr m, 4)] else []) ++ (if mAm m = 3 then [(80 + mTr m, 4)] else [])

/-- Address and memory of a move slot's access. -/
def mAddr (c : KCore) (m : Nat) : Nat := (c.tR (mTr m)).toNat % 0x20000
def mMem (c : KCore) (m : Nat) : Nat := (c.tR (mTr m)).toNat / 0x20000

/-- The track register after the access (R413). -/
def postMod (c : KCore) (m : Nat) : Nat :=
  let a := mAddr c m
  let step := (c.dR (mTr m)).toInt
  match mAm m with
  | 0 => a
  | 1 => (a + (if mK m = 3 then 4 else 32)) % 0x20000
  | 2 => (((a : Int) + step) % 0x20000).toNat
  | _ =>
    let w := (c.wR (mTr m)).toNat
    let lo := bits w 0 13 * 32
    let n := bits w 16 13
    let hi := min (lo + (if n = 0 then 4096 else n) * 32) 131072
    if a < lo ∨ hi ≤ a then (((a : Int) + step) % 0x20000).toNat
    else lo + (((a : Int) - lo + step) % ((hi - lo : Nat) : Int)).toNat

/-- 16-bit elements of bytes. -/
def elems (l : List Nat) : List (BitVec 16) :=
  (List.range 16).map fun e => BitVec.ofNat 16 (nth 0 l (2 * e) + 256 * nth 0 l (2 * e + 1))

/-- A move slot: registers are read from `c0` as they stood before the bundle. -/
def kMove (d : Dev) (k : Nat) (c0 c : KCore) (m : Nat) : Dev × KCore :=
  if mK m = 0 then (d, c)
  else
    let base := coreBase k + 0x20000 * mMem c0 m
    let a := mAddr c0 m
    let r := match mK m with
      | 1 => (d, c.vW (mVr m) (elems (d.ldBytes (base + a / 32 * 32) 32)))
      | 2 => (d.stBytes (base + a / 32 * 32) ((c0.vR (mVr m)).flatMap fun e => leBytes 2 e.toNat), c)
      | _ =>
        let b := d.ldBytes (base + a / 4 * 4) 4
        (d, c.vW (mVr m) (elems (List.replicate 8 b).flatten))
    if mAm m = 0 then r
    else (r.1, { r.2 with t := setAt r.2.t (c0.tIx (mTr m)) (BitVec.ofNat 18 (mMem c0 m * 0x20000 + postMod c0 m)) })

/-! ### Issue -/

/-- The bundle at address `pc` of core `k`: operation slot, move slots 0 and 1 (R408). -/
def Dev.bundle (d : Dev) (k pc : Nat) : Nat × Nat × Nat :=
  let w := d.ld (coreBase k + 0x40000 + 8 * pc) 8
  (bits w 32 32, bits w 16 16, bits w 0 16)

def Dev.corePc (d : Dev) (k : Nat) : Nat := d.rd (corePage k) KOV_CORE_STAT.PC
def Dev.setPc (d : Dev) (k pc : Nat) : Dev := d.wr (corePage k) KOV_CORE_STAT.PC pc
def Dev.coreRun (d : Dev) (k : Nat) : Nat := d.rd (corePage k) KOV_CORE_STAT.RSTATE
def Dev.coreWait (d : Dev) (k : Nat) : Nat := d.rd (corePage k) KOV_CORE_STAT.WAIT
def Dev.setWait (d : Dev) (k w : Nat) : Dev := d.wr (corePage k) KOV_CORE_STAT.WAIT w

/-- The core runs bundles: in a job or free running, in service or draining. -/
def Dev.coreIssues (d : Dev) (k : Nat) : Bool :=
  decide (k < 16) && d.active (corePage k) && (decide (d.coreRun k = 1) || decide (d.coreRun k = 2)) && !(d.core k).exhaust

/-- What an operation makes illegal beside its fields (R409, R420 to R423, R430, R434). `run` is RSTATE. -/
def kOpIllegal (c : KCore) (run op : Nat) : Bool :=
  let o := kOpc op
  (decide (o = 9) && (decide (kA op % 2 = 1) || decide (kB op % 2 = 1)))
    || (decide (o = 0x30) && !kDir op && decide (29 ≤ kCode op))
    || (decide (o = 0x33) && decide (11 ≤ kD op))
    || (decide (o = 0x36) && decide (c.ldR = 3))
    || (decide (o = 0x37) && (!c.inN || c.inF))
    || (decide (o = 0x38) && !c.inF)
    || (decide (o = 0x3F) && decide (run = 1))

/-- Two slots of a bundle write one register (R409). -/
def clash (l : List Nat) : Bool := decide (¬ l.Nodup)

/-- An illegal bundle (R409). -/
def kIllegal (c : KCore) (run : Nat) (b : Nat × Nat × Nat) : Bool :=
  let w := (match kWrites b.1 with | some r => [r.1] | none => []) ++ (mWrites b.2.1).map (·.1) ++ (mWrites b.2.2).map (·.1)
  kReserved b.1 || decide (bits b.2.1 0 5 ≠ 0) || decide (bits b.2.2 0 5 ≠ 0) || kOpIllegal c run b.1 || clash w

/-- Distance in cycles a consumer of a class keeps from a producer (R410). -/
def kDist (prod cons : Nat) : Nat :=
  match prod with
  | 1 => 3
  | 2 => 2
  | 3 => 3
  | 4 => if cons = 2 then 2 else 1
  | 6 => 2
  | 7 => if cons = 4 then 3 else 1
  | _ => 1

/-- The cycle at which a bundle's operands are available. -/
def KCore.readyAt (c : KCore) (b : Nat × Nat × Nat) : Nat :=
  ((kReads b.1 ++ mReads b.2.1 ++ mReads b.2.2).map fun r => match look c.ready r.1 with
    | some (cls, t) => t + kDist cls r.2
    | none => 0).foldl max 0

/-- The bundle after the one at `pc` (R423 to R425): back to the start of the innermost loop that ends there, while its count
allows; a count found exhausted waits for LOOP_COUNT_EXHAUSTED. Answers also the cycles the return costs. -/
def kNext (c : KCore) (pc : Nat) : KCore × Nat × Nat :=
  match c.inner with
  | some l =>
    if l.fin = pc then
      if 1 < l.count then
        (c.loopW (c.ldR - 1) { l with count := l.count - 1 }, l.start, if l.fin + 1 - l.start ≤ 64 then 0 else 3)
      else ({ c with exhaust := true }, pc, 0)
    else (c, (pc + 1) % 4096, 0)
  | none => (c, (pc + 1) % 4096, 0)

/-- Cycles of KCLK pass at core `k`: the cycles that CYC counts modulo 2^32, and KOV_TMR, whose step to 0 sets TMR. -/
def Dev.coreTick (d : Dev) (k n : Nat) (c : KCore) : Dev × KCore :=
  let t := d.rd (corePage k) KOV_TMR.COUNT
  let d := d.wr (corePage k) KOV_TMR.COUNT (t - n)
  let d := d.when (decide (t ≠ 0) && decide (t ≤ n)) (·.wr (corePage k) KOV_IRQ_PEND.TMR 1)
  (d, { c with cyc := c.cyc + n })

/-- Note an illegal bundle or another fault of a bundle. -/
def Dev.coreFault (d : Dev) (k code detail addr : Nat) : Dev := d.enterFault (corePage k) ⟨code, detail, addr⟩

/-- Issue the bundle at the core's PC, whose operation slot does `f`; an operation that takes the page out of service (a job end
whose record fails, R449) leaves nothing to go on. -/
def Dev.kovDo (d : Dev) (k : Nat) (f : Dev → Nat → KCore → Nat → KRes) : Dev :=
  let pc := d.corePc k
  let b := d.bundle k pc
  let c := d.core k
  let stall := c.readyAt b - c.cyc
  let both := b2n (decide (mK b.2.1 ≠ 0) && decide (mK b.2.2 ≠ 0) && decide (mMem c b.2.1 = mMem c b.2.2))
  let r := f d k c b.1
  if r.d.active (corePage k) = false then r.d
  else
  let m0 := kMove r.d k c r.c b.2.1
  let m1 := kMove m0.1 k c m0.2 b.2.2
  let at' := c.cyc + stall
  let c1 := m1.2
  let ws := (match kWrites b.1 with | some w => [w] | none => []) ++ mWrites b.2.1 ++ mWrites b.2.2
  let c1 := { c1 with ready := ws.foldl (fun l w => put l w.1 (w.2, at')) c1.ready }
  let n := match r.jump with
    | some t => (c1, t.1 % 4096, t.2)
    | none => kNext c1 pc
  let tick := m1.1.coreTick k (1 + stall + both + n.2.2) n.1
  let d := (tick.1.setCore k tick.2).setPc k n.2.1
  let d := (d.setWait k 0).cnt (corePage k) KOV_CNT_BUNDLES.COUNT
  let d := d.cnt (corePage k) KOV_CNT_STALL_DATA.COUNT (stall + both)
  d.when r.sat (·.cnt (corePage k) KOV_CNT_SAT.COUNT)

/-- Whether core `k` stands at a bundle with opcode `o` that it may issue. -/
def Dev.kovAt (d : Dev) (k o : Nat) : Bool := d.coreIssues k && decide (kOpc (d.bundle k (d.corePc k)).1 = o)

/-- What ECC does with what core `k` reads with its bundle (R405). -/
def Dev.kovEcc (d : Dev) (k : Nat) (ecc : EccFact) : Dev :=
  match ecc with
  | .clean => d
  | .corrected => (d.cnt (corePage k) KOV_CNT_ECC.COUNT).ev (corePage k) 10
  | .uncorrectable a => d.coreFault k 0x01 0 a

/-- The core goes on with `f` where it could read its bundle and operands. -/
def Dev.kovRead (d : Dev) (k : Nat) (ecc : EccFact) (f : Dev → Dev) : Dev :=
  match ecc with
  | .uncorrectable _ => d.kovEcc k ecc
  | _ => f (d.kovEcc k ecc)

/-- Issue a bundle with opcode `o` at core `k`, if it stands there and does not wait (R408, R409, R405). -/
def Dev.kovIssue (d : Dev) (k o : Nat) (ecc : EccFact) (f : Dev → Nat → KCore → Nat → KRes) : Dev :=
  if d.kovAt k o = false ∨ d.coreWait k ≠ 0 then d
  else d.kovRead k ecc fun d =>
    if kIllegal (d.core k) (d.coreRun k) (d.bundle k (d.corePc k)) then d.coreFault k 0x41 o (d.corePc k) else d.kovDo k f

/-- A core waits (R432, R434, R436): the bundle has not issued. -/
def Dev.kovWait (d : Dev) (k o code : Nat) (ecc : EccFact) : Dev :=
  if d.kovAt k o = false ∨ d.coreWait k ≠ 0 then d
  else d.kovRead k ecc fun d =>
    if kIllegal (d.core k) (d.coreRun k) (d.bundle k (d.corePc k)) then d.coreFault k 0x41 o (d.corePc k) else d.setWait k code

/-- A waiting core issues its bundle after a number of cycles that the spec leaves open. -/
def Dev.kovResume (d : Dev) (k o : Nat) (f : Dev → Nat → KCore → Nat → KRes) : Dev :=
  if d.kovAt k o = false ∨ d.coreWait k = 0 then d
  else
    let v := d.draw 16
    let t := v.1.coreTick k v.2 (v.1.core k)
    let d := (t.1.setCore k t.2).cnt (corePage k) KOV_CNT_STALL_WAIT.COUNT v.2
    (d.setWait k 0).kovDo k f

end Sys2Proof.Machine
end

