-- ==== Sys2Proof/Machine/KovJobs.lean ====
section
/-! DEFINITION. The Koveton cluster around its cores: mailboxes (R431 to R433), barriers (R434, R435), the DMA engine (R436 to
R440), the job interface (R441 to R452) with the start checks of a precoder job (R200, R201), interrupts (R427 to R430). -/

namespace Sys2Proof.Machine

/-! ### Mailboxes -/

/-- KOV_MBX_STAT.COUNT and the MBX source follow the mailbox. -/
def Dev.mbxSync (d : Dev) (k : Nat) (l : List (BitVec 32)) : Dev :=
  (d.wr (corePage k) KOV_MBX_STAT.COUNT l.length).wr (corePage k) KOV_IRQ_PEND.MBX (b2n (!l.isEmpty))

/-- An entry enters the mailbox of core `k`. -/
def Dev.mbxPush (d : Dev) (k : Nat) (v : BitVec 32) : Dev :=
  let c := d.core k
  let l := c.mbx ++ [v]
  (d.setCore k { c with mbx := l }).mbxSync k l

/-- A write of KOV_MBX_IN (R432). -/
def Dev.mbxIn (d : Dev) (k v : Nat) : Dev :=
  if d.inService (corePage k) = false then d.complete .unavailable
  else if (d.core k).mbx.length < 8 then (d.mbxPush k (BitVec.ofNat 32 v)).complete .okay
  else ((d.cnt (corePage k) KOV_MBX_STAT.DROP).ev (corePage k) 11).complete .okay

def execKovMbxInWrite (core data : Nat) (s : State) : Host.Outcome State Fault Refusal :=
  s.onDev fun d => d.regDo (0x050 + core) fun d => if 16 ≤ core then d else d.mbxIn core data

def execKovSoftIrq (core : Nat) (s : State) : Host.Outcome State Fault Refusal :=
  s.onDev fun d =>
    if 16 ≤ core then d
    else d.regDo (corePage core) fun d =>
      (d.when (d.inService (corePage core)) (·.wr (corePage core) KOV_IRQ_PEND.SOFT 1)).complete .okay

/-- KOV_TMR steps to 0: the cycles it still counted have passed. -/
def execKovTimerExpiry (core : Nat) (s : State) : Host.Outcome State Fault Refusal :=
  s.onDev fun d =>
    if 16 ≤ core ∨ d.active (corePage core) = false then d
    else
      let t := d.coreTick core (d.rd (corePage core) KOV_TMR.COUNT) (d.core core)
      t.1.setCore core t.2

/-! ### Barriers -/

/-- Core `k` has arrived at barrier `n`. -/
def Dev.arrived (d : Dev) (n k : Nat) : Bool := bit (d.rd kclPage (KOV_BAR.ARRIVED.at n)) k

/-- Core `k` withdraws its arrivals (R435). -/
def Dev.barWithdraw (d : Dev) (k : Nat) : Dev :=
  d.each 8 fun n g => if g.arrived n k then g.wr kclPage (KOV_BAR.ARRIVED.at n) (g.rd kclPage (KOV_BAR.ARRIVED.at n) - 2 ^ k) else g

/-- The arrivals of barrier `n` include every core in its MASK, and some core waits. -/
def Dev.barComplete (d : Dev) (n : Nat) : Bool :=
  let m := d.rd kclPage (KOV_BAR.MASK.at n)
  let a := d.rd kclPage (KOV_BAR.ARRIVED.at n)
  decide (a ≠ 0) && decide (m &&& a = m)

/-- What a bundle that only waited does in its operation slot. -/
def opNop (d : Dev) (_ : Nat) (c : KCore) (_ : Nat) : KRes := .plain d c

/-- Release of barrier `n` (R434). -/
def Dev.barRelease (d : Dev) (n : Nat) : Dev :=
  if d.barComplete n then
    let a := d.rd kclPage (KOV_BAR.ARRIVED.at n)
    let d := d.wr kclPage (KOV_BAR.ARRIVED.at n) 0
    d.forAll ((List.range 16).filter (bit a)) fun k g => g.kovResume k 0x3B opNop
  else d

def execBarrierRelease (bar : Nat) (s : State) : Host.Outcome State Fault Refusal :=
  s.onDev fun d => if bar < 8 then d.barRelease bar else d

def execBarrierMaskWrite (bar mask : Nat) (s : State) : Host.Outcome State Fault Refusal :=
  s.onDev fun d => d.regDo 0x048 fun d =>
    if 8 ≤ bar then d
    else if d.inReset kclPage ∨ d.unpowered kclPage then d.complete .unavailable
    else ((d.wr kclPage (KOV_BAR.MASK.at bar) mask).complete .okay).barRelease bar

/-! ### DMA (R436 to R440) -/

def Dev.chan (d : Dev) (c : Nat) : KChan := nth { queue := [], bad := false } d.kov.chans c
def Dev.setChan (d : Dev) (c : Nat) (k : KChan) : Dev := { d with kov := { d.kov with chans := setAt d.kov.chans c k } }

/-- OUT of channel `c` follows its queue. -/
def Dev.chanOut (d : Dev) (c : Nat) : Dev :=
  let n := (d.chan c).queue.length
  if c < 16 then d.wr (corePage c) KOV_DMA_STAT.OUT n
  else if c = 16 then d.wr kclPage KOV_DMA_STAT_FW.OUT16 n
  else d.wr kclPage KOV_DMA_STAT_FW.OUT17 n

/-- LAST of channel `c`. -/
def Dev.chanLast (d : Dev) (c status : Nat) : Dev :=
  if c < 16 then d.wr (corePage c) KOV_DMA_STAT.LAST status
  else if c = 16 then d.wr kclPage KOV_DMA_STAT_FW.LAST16 status
  else d.wr kclPage KOV_DMA_STAT_FW.LAST17 status

/-- A descriptor joins channel `c`. -/
def Dev.dmaPost (d : Dev) (c addr : Nat) (words : List Nat) : Dev :=
  let k := d.chan c
  (d.setChan c { k with queue := k.queue ++ [(words, addr)] }).chanOut c

def dSrc (w : List Nat) : Nat := nth 0 w 0 + 2 ^ 32 * bits (nth 0 w 1) 0 4
def dKind (w : List Nat) : Nat := bits (nth 0 w 3) 8 2
def dDst (w : List Nat) : Nat := nth 0 w 2 + 2 ^ 32 * bits (nth 0 w 3) 0 4
def dRowBytes (w : List Nat) : Nat := bits (nth 0 w 4) 0 16
def dRows (w : List Nat) : Nat := bits (nth 0 w 4) 16 16
def dRadio (w : List Nat) : Nat := bits (nth 0 w 2) 16 2

/-- A descriptor outside the table of R437. -/
def dmaBad (c : Nat) (w : List Nat) (addr : Nat) : Bool :=
  let k := dKind w
  decide (addr % 32 ≠ 0) || (decide (c < 16) && decide (0x20000 ≤ addr)) || decide (dRows w = 0) || decide (dRowBytes w % 32 ≠ 0)
    || (decide (k = 1) && (decide (dRowBytes w % 64 ≠ 0) || decide (dRadio w = 3)))
    || (decide (k = 2) && (decide (dRowBytes w ≠ 32) || decide (dRows w ≠ 1) || decide (dRadio w = 3)))
    || (decide (k = 3) && !(decide (regionOf (dDst w) = .kov) && decide ((dDst w - kovBase) % 0x100000 < 0x20000)))

/-- Address of row `r`, modulo the 36-bit address space. -/
def rowAddr (base : Nat) (stride r : Nat) : Nat := (((base : Int) + toSigned 32 stride * r) % (2 ^ 36 : Nat)).toNat

/-- What the destination of a descriptor that does not complete holds is open (R65): of a transfer to memory, and of one to the
precoder store. -/
def Dev.dmaHalf (d : Dev) (w : List Nat) : Dev :=
  if dKind w = 2 then d
  else
    let n := dRowBytes w
    if dKind w = 1 then
      let lo := 64 * bits (nth 0 w 2) 0 15
      let r := d.drawOctets (min (n * dRows w) (64 * 32768 - lo))
      (r.1.spoil (dRadio w) lo (lo + r.2.length)).stBytes (precBase (dRadio w) + lo) r.2
    else
      d.each (dRows w) fun r e =>
        let v := e.drawOctets n
        let a := rowAddr (dDst w) (nth 0 w 6) r
        let e := (v.1.busWrite a v.2).1
        if dKind w = 3 then (e.busWrite (a + 0x20000) v.2).1 else e

/-- Every descriptor of channel `c` ends DISCARDED; what the first had written of its destination by then is open (R65). -/
def Dev.chanDiscard (d : Dev) (c : Nat) : Dev :=
  match (d.chan c).queue with
  | [] => d
  | q :: _ => (((d.dmaHalf q.1).setChan c { queue := [], bad := true }).chanOut c).chanLast c 4

/-- Write one row by KIND; the failing address, if any. -/
def Dev.dmaPut (d : Dev) (w : List Nat) (r : Nat) (b : List Nat) : Dev × Option Nat :=
  let a := rowAddr (dDst w) (nth 0 w 6) r
  let put (d : Dev) (a : Nat) : Dev × Option Nat := let x := d.busWrite a b; (x.1, if x.2 then none else some a)
  match dKind w with
  | 1 =>
    let o := 64 * bits (nth 0 w 2) 0 15 + r * dRowBytes w
    if 64 * 32768 < o + b.length then (d, some o) else ((d.spoil (dRadio w) o (o + b.length)).stBytes (precBase (dRadio w) + o) b, none)
  | 3 =>
    let x := put d a
    if x.2.isSome then x else put x.1 (a + 0x20000)
  | _ => put d a

/-- Move rows `r` up, `n` of them, until one fails: the failing address. -/
def Dev.dmaRows (d : Dev) (host : List (Nat × Nat)) (w : List Nat) (r : Nat) : Nat → Dev × Option Nat
  | 0 => (d, none)
  | n + 1 =>
    let a := rowAddr (dSrc w) (nth 0 w 5) r
    match d.busRead host a (dRowBytes w) with
    | none => (d, some a)
    | some b =>
      let x := d.dmaPut w r b
      if x.2.isSome then x else x.1.dmaRows host w (r + 1) n

/-- The job that the precoder kernel of R450 runs on core `c`. -/
def Dev.kernelJob (d : Dev) (c : Nat) : Option KJob :=
  if c < 16 ∧ Config.precKernel (d.rd kclPage KOV_JOB_VEC.ENTRY_PREC) = true then
    (d.core c).job.filter fun j => decide (bits (nth 0 j.words 0) 0 8 = 1)
  else none

/-- GEN of the records a job reads, by their places. -/
def Dev.gensOf (d : Dev) (x : Nat) (w places : List Nat) : List (Nat × Nat) :=
  places.map fun u => (u, bits (d.recW x (jobRec w u) 0) 0 16)

/-- The commit of the precoder kernel (R199 to R205): GEN of each record is tested again, and unless one stays busy, the lines and the
bank header are those of the computation. Answers what the commit did, as a status of R201. -/
def Dev.kernelCommit (d : Dev) (c : Nat) (j : KJob) (x e b : Nat) : Dev × Nat :=
  let w := j.words
  let changed := ((d.gensOf x w (j.gens.map (·.1))).zip j.gens).filter fun g => decide (g.1 ≠ g.2)
  let again := d.stayBusy x w (changed.map fun g => g.1.1)
  let d := again.1
  if again.2.isEmpty then
    let nulls := j.gens.filterMap fun g => if 8 ≤ g.1 then some (g.1 - 8) else none
    let lines := d.jobLineOctets x w nulls
    let lo := 64 * bits (nth 0 w 4) 0 15
    let d := lines.1.spoil x lo (lo + lines.2.length)
    (d.stBytes (precBase x + lo) lines.2).precCommit x e b (d.jobHeader x w nulls)
  else (d.setCore c { d.core c with job := some { j with busy := true } }, 6)

/-- A KIND 2 descriptor commits a bank header: by the precoder kernel of what it computed, else as its octets say. -/
def Dev.dmaCommit (d : Dev) (c : Nat) (w header : List Nat) : Dev × Nat :=
  let x := dRadio w
  let e := bits (nth 0 w 2) 0 9
  let b := bits (nth 0 w 2) 9 1
  match d.kernelJob c with
  | some j => d.kernelCommit c j x e b
  | none => d.precCommit x e b header

/-- Carry out the descriptor `w`: device, status (R438), failing address. -/
def Dev.dmaRun (d : Dev) (c : Nat) (host : List (Nat × Nat)) (w : List Nat) (addr : Nat) : Dev × Nat × Nat :=
  let k := dKind w
  if dmaBad c w addr then (d, 3, addr)
  else if (k = 1 ∨ k = 2) ∧ d.active (txPage (dRadio w)) = false then (d, 4, 0)
  else if k = 2 then
    if (d.chan c).bad then (d, 4, 0)
    else
      match d.busRead host (dSrc w) 32 with
      | none => (d, 1, dSrc w)
      | some b =>
        let r := d.dmaCommit c w (toWords b 8)
        (r.1, if r.2 = 0 then 0 else if r.2 = 1 then 2 else 4, 0)
  else
    let x := d.dmaRows host w 0 (dRows w)
    match x.2 with
    | some a => (x.1, 1, a)
    | none => (x.1, 0, 0)

/-- The first descriptor of channel `c` completes (R438, R439). -/
def Dev.dmaDone (d : Dev) (c : Nat) (host : List (Nat × Nat)) : Dev :=
  let ch := d.chan c
  match ch.queue with
  | [] => d
  | (w, addr) :: rest =>
    let r := d.dmaRun c host w addr
    let st := r.2.1
    let d := r.1.setChan c { queue := rest, bad := if dKind w = 2 then false else ch.bad || decide (st ≠ 0) }
    let d := (d.chanOut c).chanLast c st
    let d := d.when (bit (nth 0 w 7) 0) fun g =>
      if c < 16 then g.wr (corePage c) KOV_IRQ_PEND.DMA 1 else g.ev kclPage 12
    if st = 1 ∨ st = 3 then
      if c < 16 then d.coreFault c 0x04 0 r.2.2 else (d.chanDiscard c).ev kclPage 13
    else d

/-- The owner of a channel carries out its work. -/
def Dev.chanActive (d : Dev) (c : Nat) : Bool :=
  d.active kclPage && (decide (16 ≤ c) || d.active (corePage c))

def execDmaDescriptorDone (chan : Nat) (host : List (Nat × Nat)) (s : State) : Host.Outcome State Fault Refusal :=
  s.onDev fun d => if 18 ≤ chan ∨ d.chanActive chan = false then d else d.dmaDone chan host

/-- The words at a descriptor's address, free where it cannot be read. -/
def Dev.readWords (d : Dev) (host : List (Nat × Nat)) (a n : Nat) : Dev × List Nat :=
  match d.busRead host a (4 * n) with
  | some b => (d, toWords b n)
  | none =>
    ({ d with draws := d.draws + n }, (List.range n).map fun i => Config.freeValue (d.draws + i) % 2 ^ 32)

/-- A write of KOV_DMA_POST_16 or _17 with DESC `addr` (R436). -/
def execDmaFabricPost (chan addr : Nat) (host : List (Nat × Nat)) (s : State) : Host.Outcome State Fault Refusal :=
  s.onDev fun d =>
    if chan ≠ 16 ∧ chan ≠ 17 then d
    else if d.inService kclPage = false then d.complete .unavailable
    else if 16 ≤ (d.chan chan).queue.length then (d.cnt kclPage KOV_CNT_DMA_REFUSED.COUNT).complete .okay
    else
      let a := addr % 2 ^ 31 * 32
      let w := d.readWords host a 8
      (w.1.dmaPost chan a w.2).complete .okay

/-- A DMA access that waited 16 cycles is served (R406). -/
def execDmaWaitExpiry (core : Nat) (wanted : Bool) (s : State) : Host.Outcome State Fault Refusal :=
  s.onDev fun d =>
    if d.coreIssues core && wanted then
      let t := d.coreTick core 1 (d.core core)
      (t.1.setCore core t.2).cnt (corePage core) KOV_CNT_STALL_DMA.COUNT
    else d

/-! ### Jobs (R441 to R452) -/

def KJob.type (j : KJob) : Nat := bits (nth 0 j.words 0) 0 8

/-- KOV_JQ_DEPTH follows the queue. -/
def Dev.setJobs (d : Dev) (l : List KJob) : Dev :=
  let d := { d with kov := { d.kov with jobs := l } }
  let d := d.wr kclPage KOV_JQ_DEPTH.DEPTH l.length
  d.wr kclPage KOV_JQ_DEPTH.PEAK (max (d.rd kclPage KOV_JQ_DEPTH.PEAK) l.length)

/-- Radio, entry and bank of a precoder job that names a store (R201). -/
def Dev.jobBank (d : Dev) (w : List Nat) : Option (Nat × Nat × Nat) :=
  let x := bits (nth 0 w 0) 8 2
  let n := bits (nth 0 w 2) 16 5
  if x = 3 ∨ ¬ (n = 4 ∨ n = 8 ∨ n = 12 ∨ n = 16) then none
  else
    let e := bits (nth 0 w 0) 12 9
    some (x, e, d.otherBank x e)

/-- The status of a precoder job in JOB_STATUS of its bank, and the count of late ones. -/
def Dev.noteJob (d : Dev) (j : KJob) (status : Nat) : Dev :=
  if j.type ≠ 1 then d
  else
    match (match j.bank with | some b => some b | none => d.jobBank j.words) with
    | none => d
    | some (x, e, b) =>
      let w := d.bankW x e b 5
      let d := d.setBankW x e b 5 (w % 2 ^ 16 + 2 ^ 16 * status + w / 2 ^ 24 * 2 ^ 24)
      d.when (decide (status = 1)) (·.cnt (txPage x) TXP_CNT_JOB_LATE.COUNT)

/-- The completion record of a job end (R449). -/
def Dev.jobRecord (d : Dev) (j : KJob) (core : Option Nat) (status : Nat) : Dev :=
  if d.rdB kclPage KOV_JC_CFG.JC_EN then
    let lg := d.rd kclPage KOV_JC_CFG.JC_LOG2
    let wr := d.rd kclPage KOV_JC_WR.INDEX
    let rd := d.rd kclPage KOV_JC_RD.INDEX
    if 2 ^ lg ≤ (wr + 65536 - rd) % 65536 then (d.cnt kclPage KOV_CNT_JC_DROP.COUNT).ev kclPage 9
    else
      let a := d.rd kclPage KOV_JC_BASE.BASE * 4096 + wr % 2 ^ lg * 16
      let w0 := j.type + 256 * (status % 256) + (match core with | some k => 65536 * k + 2 ^ 20 | none => 0)
      let x := d.busWrite a ([w0, j.addr / 64 % 2 ^ 30, (if core.isSome then j.start else 0) % 2 ^ 32, d.ns % 2 ^ 32].flatMap (leBytes 4))
      if x.2 then (x.1.bump kclPage KOV_JC_WR.INDEX).ev kclPage 8 else d.enterFault kclPage ⟨0x04, 0, a⟩
  else d

/-- A job ends with a status: on core `core`, or without having started. -/
def Dev.jobEnd (d : Dev) (j : KJob) (core : Option Nat) (status : Nat) : Dev :=
  let d := d.noteJob j status
  let d := d.when (decide (status = 8)) (·.cnt kclPage KOV_CNT_DISCARDED.COUNT)
  d.jobRecord j core status

/-- A job is posted (R441, R442): refused when the queue is full, ended at once when its type is none. -/
def Dev.kovPost (d : Dev) (addr : Nat) (words : List Nat) : Dev :=
  let w0 := nth 0 words 0
  let j : KJob := { addr := addr, words := words, due := if bit w0 31 then none else some (nth 0 words 1), start := 0, bank := none, gens := [], busy := false }
  if 512 ≤ d.kov.jobs.length then (d.cnt kclPage KOV_CNT_POST_FULL.COUNT).ev kclPage 10
  else if j.type = 0 ∨ 0x80 ≤ j.type then (d.cnt kclPage KOV_CNT_BAD_TYPE.COUNT).jobEnd j none 9
  else (d.setJobs (d.kov.jobs ++ [j])).cnt kclPage KOV_CNT_POSTED.COUNT

/-- A write of KOV_JOB_POST with DESC `addr`. -/
def execKovJobPost (addr : Nat) (host : List (Nat × Nat)) (s : State) : Host.Outcome State Fault Refusal :=
  s.onDev fun d =>
    if d.inService kclPage = false then d.complete .unavailable
    else
      let a := addr % 2 ^ 30 * 64
      let w := d.readWords host a 16
      (w.1.kovPost a w.2).complete .okay

/-- Boundaries from the current beat to the due one, signed 32-bit (R443). -/
def Dev.dueIn (d : Dev) (due : Nat) : Int := toSigned 32 ((due + 2 ^ 32 - d.beat % 2 ^ 32) % 2 ^ 32)

/-- Job `a` starts before job `b` posted after it. -/
def Dev.jobBefore (d : Dev) (a b : KJob) : Bool :=
  match a.due, b.due with
  | none, some _ => false
  | none, none => true
  | some _, none => true
  | some x, some y => decide (d.dueIn x ≤ d.dueIn y)

/-- Place of the first job in starting order among those that `ok` admits. -/
def Dev.firstJob (d : Dev) (ok : KJob → Bool) : Option (Nat × KJob) :=
  d.kov.jobs.zipIdx.foldl (fun (best : Option (Nat × KJob)) e =>
    if ok e.1 then match best with
      | none => some (e.2, e.1)
      | some b => if d.jobBefore b.2 e.1 then some b else some (e.2, e.1)
    else best) none

/-- Core `k` is idle and takes jobs. -/
def Dev.coreIdle (d : Dev) (k : Nat) : Bool :=
  d.inService (corePage k) && decide (d.coreRun k = 0) && !d.rdB (corePage k) KOV_CORE_CFG.FREE_RUN

/-- Core `k` accepts a job: its type, and a due boundary that has not passed (R443, R451). -/
def Dev.coreAccepts (d : Dev) (k : Nat) (j : KJob) : Bool :=
  bit (d.rd (corePage k) KOV_CORE_CFG.ACCEPT) (if j.type = 1 then 0 else 1)
    && (match j.due with | some u => decide (0 < d.dueIn u) | none => true)

/-- The first check of R201 that a precoder job fails at its start; `busy` the places of the records that stay busy. -/
def Dev.precChecks (d : Dev) (w busy : List Nat) : Option Nat :=
  match d.jobBank w with
  | none => some 5
  | some (x, e, _) =>
    let users := (List.range (jobNuser w)).map (jobRec w)
    let nulls := d.usableNulls x w busy
    let meth := bits (nth 0 w 0) 10 2
    let busyEntry := d.kov.cores.any fun c => match c.job with
      | some j => j.type == 1 && (match j.bank with | some b => b.1 == x && b.2.1 == e | none => false)
      | none => false
    if d.dueIn (nth 0 w 1) ≤ 0 then some 1
    else if busyEntry ∨ d.bankPending x e 0 ∨ d.bankPending x e 1 then some 2
    else if users.any (fun i => !d.recValid x i) then some 3
    else if users.any (fun i => !d.recFresh x i (nth 0 w 1)) then some 4
    else if 2 ≤ meth ∨ (meth = 1 ∧ users.length > 1) ∨ jobNch w < jobNss w + nulls.length
        ∨ users.any (fun i => decide (d.recNcol x i ≠ (if d.recSpace x i = 0 then jobNch w else d.nsd x)))
        ∨ d.jobRank x w nulls then some 5
    else if busy.any (· < 8) then some 6
    else if 32768 < bits (nth 0 w 4) 0 15 + jobLines w then some 7
    else if d.inService (txPage x) = false then some 8
    else none

/-- What the start of job `j` settles: for a precoder job the bank it addresses, GEN of the records it reads, and its checks. -/
def Dev.jobChecks (d : Dev) (j : KJob) : Dev × KJob × Option Nat :=
  let j := { j with start := d.ns }
  if j.type ≠ 1 then (d, j, none)
  else match d.jobBank j.words with
    | none => (d, j, some 5)
    | some (x, e, b) =>
      let w := j.words
      let r := d.stayBusy x w (jobPlaces w)
      let used := List.range (jobNuser w) ++ (r.1.usableNulls x w r.2).map (8 + ·)
      (r.1, { j with bank := some (x, e, b), gens := r.1.gensOf x w used }, r.1.precChecks w r.2)

/-- Core `k` takes job `j` (R445), which for a precoder job may end at once (R201). -/
def Dev.jobBegin (d : Dev) (k : Nat) (j : KJob) : Dev :=
  let r := d.jobChecks j
  let d := r.1
  let j := r.2.1
  let p := corePage k
  let d := d.stWords (coreBase k + 0x1FFC0) j.words
  let c := d.core k
  let c := { c with bank := false, inN := false, inF := false, exhaust := false, ready := [] }
  let c := ((c.ldW 0).setFlag 8 false).tW 0 0x1FFC0
  let c := ((c.sW 0 (BitVec.ofNat 32 j.type)).sW 1 (BitVec.ofNat 32 (j.addr / 64))).sW 2 (BitVec.ofNat 32 d.beat)
  let d := (d.cnt kclPage KOV_CNT_STARTED.COUNT).cnt p KOV_CNT_JOBS.COUNT
  match r.2.2 with
  | some st => ((d.setCore k c).jobEnd j (some k) st).ev p 8
  | none =>
    let d := (d.setCore k { c with job := some j }).wr p KOV_CORE_STAT.RSTATE 1
    let d := (d.wr p KOV_CORE_STAT.JOB_TYPE j.type).setWait k 0
    d.setPc k (if j.type = 1 then d.rd kclPage KOV_JOB_VEC.ENTRY_PREC else d.rd kclPage KOV_JOB_VEC.ENTRY_FW)

/-- An idle core takes the first job it accepts, the lowest core first (R443). -/
def Dev.jobStart (d : Dev) : Dev :=
  if d.active kclPage = false then d
  else
    match (List.range 16).findSome? fun k =>
      if d.coreIdle k then (d.firstJob (d.coreAccepts k)).map fun e => (k, e) else none with
    | none => d
    | some (k, i, j) => (d.setJobs (d.kov.jobs.eraseIdx i)).jobBegin k j

def execJobStart (s : State) : Host.Outcome State Fault Refusal := s.onDev (·.jobStart)

/-- Queued jobs whose due boundary is reached end LATE (R444). -/
def Dev.jobDue (d : Dev) : Dev :=
  let due (j : KJob) : Bool := match j.due with | some u => decide (d.dueIn u ≤ 0) | none => false
  let late := d.kov.jobs.filter due
  (d.setJobs (d.kov.jobs.filter fun j => !due j)).forAll late fun j g =>
    ((g.cnt kclPage KOV_CNT_LATE_START.COUNT).ev kclPage 11).jobEnd j none 1

def execJobDueExpiry (s : State) : Host.Outcome State Fault Refusal :=
  s.onDev fun d => if d.active kclPage then d.jobDue else d

/-- A job has run KOV_JOB_LIMIT µs (R447); its end is part of the discard. -/
def execJobLimitExpiry (core : Nat) (s : State) : Host.Outcome State Fault Refusal :=
  s.onDev fun d =>
    let lim := d.rd kclPage KOV_JOB_LIMIT.LIMIT
    match (d.core core).job with
    | some j => if d.active (corePage core) ∧ lim ≠ 0 then (d.reach (j.start * nsU + lim * usU)).coreFault core 0x40 0 0 else d
    | none => d

/-! ### Pages -/

/-- What a core page loses when it goes out of service (R63, R435, R448). -/
def Dev.kcoOnLeave (d : Dev) (k : Nat) : Dev :=
  let p := corePage k
  let c := d.core k
  let d := (d.chanDiscard k).barWithdraw k
  let d := match c.job with | some j => d.jobEnd j (some k) 8 | none => d
  let d := (d.setCore k { c with job := none, mbx := [], exhaust := false }).mbxSync k []
  ((d.wr p KOV_CORE_STAT.RSTATE 0).wr p KOV_CORE_STAT.JOB_TYPE 0).setWait k 0

/-- Channel `c` starts anew: no descriptor of it has failed. -/
def Dev.chanStart (d : Dev) (c : Nat) : Dev := d.setChan c { d.chan c with bad := false }

/-- Start of a core page: CYC is 0, and FREE_RUN runs from ENTRY. -/
def Dev.kcoOnStart (d : Dev) (k : Nat) : Dev :=
  let d := d.chanStart k
  let c := d.core k
  let c := { c with bank := false, inN := false, inF := false, exhaust := false, ready := [], cyc := 0, job := none }
  let d := d.setCore k ((c.ldW 0).setFlag 8 false)
  if d.rdB (corePage k) KOV_CORE_CFG.FREE_RUN then
    (d.wr (corePage k) KOV_CORE_STAT.RSTATE 2).setPc k (d.rd (corePage k) KOV_CORE_CFG.ENTRY)
  else d.wr (corePage k) KOV_CORE_STAT.RSTATE 0

def Dev.kcoStartCheck (d : Dev) : Option Nat := if d.bstate kclPage = .running then none else some 0x03

/-- A draining core page has finished when no job runs (R451, R452). -/
def Dev.kcoIdle (d : Dev) (k : Nat) : Bool := (d.core k).job.isNone

def Dev.kclStartCheck (d : Dev) : Option Nat :=
  let lg := d.rd kclPage KOV_JC_CFG.JC_LOG2
  if 4 ≤ lg ∧ lg ≤ 12 then none else some 0x03

def Dev.kclOnStart (d : Dev) : Dev :=
  (((d.wr kclPage KOV_JC_WR.INDEX 0).wr kclPage KOV_JC_RD.INDEX 0).chanStart 16).chanStart 17

/-- Every queued job ends DISCARDED, and the fabric's channels lose their descriptors (R448, R438). -/
def Dev.kclOnLeave (d : Dev) : Dev :=
  let l := d.kov.jobs
  let d := (d.setJobs []).forAll l fun j g => g.jobEnd j none 8
  (d.chanDiscard 16).chanDiscard 17

/-- A draining cluster page has finished when its queue is empty, no core runs a job of it, and its own channels are empty (R54,
R452). -/
def Dev.kclIdle (d : Dev) : Bool :=
  d.kov.jobs.isEmpty && d.kov.cores.all (fun c => c.job.isNone) && (d.chan 16).queue.isEmpty && (d.chan 17).queue.isEmpty

/-! ### Interrupts (R427 to R430) -/

/-- Sources pending and enabled, by route. -/
def Dev.kovPending (d : Dev) (k : Nat) (fast : Bool) : Bool :=
  let p := corePage k
  let pe := d.rdW p KOV_IRQ_PEND.word.off &&& d.rdW p KOV_IRQ_EN.word.off &&& 0xF#32
  let f := d.rdW p KOV_IRQ_FAST.word.off
  decide ((pe &&& (if fast then f else ~~~f)) ≠ 0)

/-- The core stands between bundles, or in a wait that an interrupt abandons (R430): MBR, BAR, DMW, DMQ. -/
def Dev.kovBetween (d : Dev) (k : Nat) : Bool :=
  d.coreIssues k && (decide (d.coreWait k = 0) || decide (kOpc (d.bundle k (d.corePc k)).1 ≠ 0x39))

def execFastInterruptEntry (core : Nat) (s : State) : Host.Outcome State Fault Refusal :=
  s.onDev fun d =>
    let c := d.core core
    if d.kovBetween core && d.kovPending core true && !c.inF then
      let d := (d.barWithdraw core).setCore core { c with retF := d.corePc core, inF := true, bank := true, ready := [] }
      (d.setWait core 0).setPc core (d.rd (corePage core) KOV_VEC.VEC_FAST)
    else d

def execNormalInterruptEntry (core : Nat) (s : State) : Host.Outcome State Fault Refusal :=
  s.onDev fun d =>
    let c := d.core core
    if d.kovBetween core && d.kovPending core false && c.flag 8 && !c.inF && !d.kovPending core true then
      let d := (d.barWithdraw core).setCore core ({ c with retN := d.corePc core, inN := true, ready := [] }.setFlag 8 false)
      (d.setWait core 0).setPc core (d.rd (corePage core) KOV_VEC.VEC_IRQ)
    else d

end Sys2Proof.Machine
end

