-- ==== Sys2Proof/Machine/VenOps.lean ====
section
/-! DEFINITION. What other blocks ask of venue coordination: which neighbours are coordinated (R356), their colours (R364),
the triggers and colours it asked for in a listen beat (R357, R358). -/

namespace Sys2Proof.Machine

def venPage : Nat := 0x040

def Dev.venNbr (d : Dev) (n : Nat) : VenNbr := lookOr VenNbr.empty d.ven.nbr n
def Dev.setVenNbr (d : Dev) (n : Nat) (v : VenNbr) : Dev := { d with ven := { d.ven with nbr := put d.ven.nbr n v } }

/-- STATUS of a neighbour entry. -/
def Dev.venStatus (d : Dev) (n : Nat) : Nat := d.rd venPage (VEN_NBR.STATUS.at n)

def Dev.venTimeOk (d : Dev) : Bool := d.rdB venPage VEN_STAT.TIME_OK

/-- A neighbour is coordinated (R356); the page carries it out while it is in service (R365). -/
def Dev.coordinated (d : Dev) (n : Nat) : Bool :=
  d.inService venPage && d.venTimeOk && decide (d.venStatus n = 2)

/-- A radio block overlaps the channel of radio `x`, one that its synthesiser is set to. -/
def Dev.blockOverlaps (d : Dev) (x : Nat) (b : VenBlock) : Bool :=
  decide (d.centre x ≠ 0) && overlap b.centre b.width (d.centre x) (d.width x)

/-- Colours marked coordinated for radio `x` in the current beat (R364). -/
def Dev.venColours (d : Dev) (x : Nat) : List Nat :=
  if d.rd (airPage x) (AIR_ROUND_MAP.TYPE d.pos) = 3 then []
  else
    (List.range 32).flatMap fun n =>
      if d.coordinated n then ((d.venNbr n).blocks.filter (d.blockOverlaps x)).map (·.colour) else []

/-- The current beat is a listen beat (R344). -/
def Dev.listenBeat (d : Dev) : Bool := d.inService venPage && bit (d.rd venPage VEN_LISTEN.LISTEN) d.pos

/-- Neighbour radios whose triggers are matched for radio `x`, in service, in a listen beat: entry and block, at most 8 (R357). -/
def Dev.venAsked (d : Dev) (x : Nat) : List (Nat × VenBlock) :=
  if d.listenBeat && decide (x < 3) && d.radioInService x then
    ((List.range 32).flatMap fun n =>
      if d.coordinated n then
        ((d.venNbr n).blocks.filter fun b => d.blockOverlaps x b && (d.venNbr n).edges.any fun e => decide (e.radio = b.radio)).map
          fun b => (n, b)
      else []).take 8
  else []

/-- The estimate of a PPDU of a colour is asked for: a trigger of that colour matched in this beat (R151, R358). -/
def Dev.venWants (d : Dev) (x colour : Nat) : Bool :=
  d.inService venPage && d.ven.matched.any fun m => decide (m.radio = x) && decide (m.colour = colour)

end Sys2Proof.Machine
end

