-- ==== Sys2Proof/Machine/MacTx.lean ====
section
/-! DEFINITION. The WLAN MAC on the transmit side: medium access (R237 to R244), building MPDUs (R248, R250, R263 to R266,
R269, R285, R286), beacons (R281), what a PPDU's completion leads to (R249 to R252, R326, R327), responses (R245 to
R247). -/

namespace Sys2Proof.Machine

/-! ### Busy and idle (R237, R241) -/

def Dev.edThr (d : Dev) (x : Nat) : Int := d.rdS (macPage x) MAC_CCA.ED_THR

/-- The posted floor of subchannel `k` keeps it busy: VALID and above ED_THR − 6 dB. -/
def Dev.floorBusy (d : Dev) (x k : Nat) : Bool :=
  d.rdB (rxPage x) (RXP_NF.VALID.at k)
    && decide (2 * (d.edThr x - 6) < (d.rd (rxPage x) (RXP_NF.MEAN.at k) : Int) - 256)

/-- The planned PPDU that is next on a radio. -/
def Dev.nextPpdu (d : Dev) (x : Nat) : Option (Plan × Nat × PlanPpdu) :=
  match look d.air.exec x with
  | some e => (e.plan.ppdus[e.next]?).map fun p => (e.plan, e.next, p)
  | none => none

/-- A backward step holds the next boundary and the radio has completed its plan: it neither transmits nor solicits (R25). -/
def Dev.heldOff (d : Dev) (x : Nat) : Bool :=
  d.time.hold && (d.nextPpdu x).isNone && (d.macR x).onAir.isNone && (d.txOf x).isNone && (look d.tx.ready x).isNone

/-- The power condition of R241, in 0.25 dB. -/
def Dev.obssPowerOk (d : Dev) (x : Nat) : Bool :=
  match d.nextPpdu x, d.pool.reg with
  | some (_, _, p), some t =>
    let top := (p.rus.map fun r => r.power).foldl max (-200)
    let g := ((d.synChains x).map fun c => nth 0 t.gains (24 * bandOf (d.centre x) + c)).foldl max (-128)
    decide (top + g ≤ 84 - 4 * (d.rdS (macPage x) MAC_CCA.OBSS_PD + 82))
  | _, _ => false

/-- How a PPDU on the channel counts: 0 not there or too weak, 1 busy, 2 ignored under OBSS PD, 3 ignored as
coordinated. -/
def Dev.ccaOf (d : Dev) (x t : Nat) : Nat :=
  match (d.rxAt x).cca with
  | none => 0
  | some c =>
    let p := macPage x
    if c.untilNs ≤ t ∨ c.level < d.rdS p MAC_CCA.PD_THR then 0
    else if c.obss && d.rdB p MAC_CFG.OBSS_PD_EN && decide (c.level < d.rdS p MAC_CCA.OBSS_PD) && d.obssPowerOk x then 2
    else if d.rdB p MAC_CFG.COORD_PD_EN && (d.venColours x).contains c.colour
      && decide (c.level < d.rdS p MAC_CCA.COORD_PD) then 3
    else 1

/-- Count a PPDU the first time it is ignored. -/
def Dev.countIgnored (d : Dev) (x k : Nat) : Dev :=
  match (d.rxAt x).cca with
  | some c =>
    if c.counted ∨ k < 2 then d
    else
      let d := d.setRx x { d.rxAt x with cca := some { c with counted := true } }
      if k = 2 then d.cnt (macPage x) MAC_CNT_OBSSPD.COUNT else d.cnt (macPage x) MAC_CNT_COORDPD.COUNT
  | none => d

/-- AIFS of an AC and PIFS, in ns (R239). -/
def Dev.aifsNs (d : Dev) (x ac : Nat) : Nat := d.sifsNs x + 9000 * d.rd (macPage x) (MAC_EDCA.AIFSN.at ac)
def Dev.pifsNs (d : Dev) (x : Nat) : Nat := d.sifsNs x + 9000

def Dev.cwMin (d : Dev) (x ac : Nat) : Nat := 2 ^ d.rd (macPage x) (MAC_EDCA.ECWMIN.at ac) - 1
def Dev.cwMax (d : Dev) (x ac : Nat) : Nat := 2 ^ d.rd (macPage x) (MAC_EDCA.ECWMAX.at ac) - 1

/-- An exchange of an AC ended (R239): CW is reset after a success or RETRY_MAX, doubled after a failure. -/
def Dev.setCw (d : Dev) (x ac : Nat) (ok : Bool) : Dev :=
  let r := d.macR x
  let cw := nth 15 r.cw ac
  d.setMacR x { r with cw := setAt r.cw ac (if ok then d.cwMin x ac else min (2 * cw + 1) (d.cwMax x ac)) }

/-- Draw the backoff of an AC when its contention begins (R239). -/
def Dev.drawBackoff (d : Dev) (x ac : Nat) : Dev :=
  let r := d.macR x
  match nth none r.backoff ac with
  | some _ => d
  | none =>
    let v := d.draw 32
    v.1.setMacR x { r with backoff := setAt r.backoff ac (some (v.2 % (nth 15 r.cw ac + 1))) }

/-! ### Building MPDUs -/

/-- A frame of 802.11 format or Ethernet that the MAC cannot carry (R286): FMT 3, or above the limit of R218. -/
def QEntry.tooLong (e : QEntry) : Bool := decide (e.fmt = 3) || decide (2304 + (if e.fmt = 2 then 36 else 14) < e.len)

/-- Octets of the frame an entry names. -/
def Dev.entryOctets (d : Dev) (e : QEntry) : List Nat :=
  match look d.pkt.chains e.basket with | some f => f.octets | none => []

/-- The frame of an entry of a group or management queue is group-addressed: one built by firmware by the group bit of its RA. -/
def Dev.groupFrame (d : Dev) (e : QEntry) : Bool :=
  decide (e.sta = 0x7FF) && (decide (e.fmt ≠ 2) || bit (nth 0 (d.entryOctets e) 4) 0)

/-- Categories of Action frames that are not robust (IEEE 802.11): public, HT, unprotected WNM, self-protected,
unprotected DMG, VHT, vendor-specific. -/
def plainCategory (c : Nat) : Bool := [4, 7, 11, 15, 20, 21, 127].contains c

/-- An 802.11 frame is a robust management frame by its subtype and Action category (R253): disassociation,
deauthentication, robust Action. -/
def robustMgmt (o : List Nat) : Bool :=
  let fc := nth 0 o 0
  decide (bits fc 2 2 = 0) && (decide (bits fc 4 4 = 10) || decide (bits fc 4 4 = 12)
    || (decide (bits fc 4 4 = 13) && !plainCategory (nth 4 o 24)))

/-- The frame is EAPOL: EtherType 0x888E, in Ethernet II, behind LLC/SNAP, or in an 802.11 data frame. -/
def isEapol (fmt : Nat) (o : List Nat) : Bool :=
  let at' (i : Nat) := decide (nth 0 o i = 0x88) && decide (nth 0 o (i + 1) = 0x8E)
  match fmt with
  | 0 => at' 12
  | 1 => at' 20
  | _ => at' 30 || at' 32

/-- The key slot an entry needs: the station's pairwise slot, or the BSSID's group slot, for a robust management frame its
integrity slot (R263, R267). A management frame that is not robust needs none. -/
def Dev.slotOf (d : Dev) (x : Nat) (e : QEntry) : Option Nat :=
  let o := d.entryOctets e
  let mgmt := decide (e.fmt = 2) && decide (bits (nth 0 o 0) 2 2 = 0)
  if e.plain || (mgmt && !robustMgmt o) then none
  else if e.sta = 0x7FF then
    groupSlot (d.rd (macPage x) (if mgmt then MAC_BSSID.IGTK_SLOT.at e.bssid else MAC_BSSID.GTK_SLOT.at e.bssid))
  else if d.staPair e.sta ≤ 2047 && (!mgmt || d.staPmf e.sta) then some (d.staPair e.sta) else none

/-- PLAIN where protection is required (R285). -/
def Dev.protRequired (d : Dev) (e : QEntry) : Bool :=
  let o := d.entryOctets e
  let mgmt := decide (e.fmt = 2) && decide (bits (nth 0 o 0) 2 2 = 0)
  e.plain && decide (e.sta ≠ 0x7FF) &&
    ((!mgmt && !isEapol e.fmt o && d.slotReady (d.staPair e.sta)) || (mgmt && robustMgmt o && d.staPmf e.sta))

/-- A number the twin mirrors moved (R741). -/
def Dev.mark (d : Dev) (m : Mark) : Dev := { d with marks := d.marks ++ [m] }

/-- The next sequence number of a TID moves past `sn` when it was freshly assigned. -/
def Dev.nextSn (d : Dev) (s t q sn : Nat) (fresh : Bool) : Dev :=
  if fresh then
    let d := d.setTidRec s t { d.tidRec s t with txNext := (sn + 1) % 4096 }
    d.mark { kind := 1, index := q, old := sn, new := (sn + 1) % 4096 }
  else d

/-- Address of a BSSID of the radio. -/
def Dev.bssAddr (d : Dev) (x k : Nat) : Nat :=
  d.rd (macPage x) (MAC_BSSID.ADDR_LO.at k) + d.rd (macPage x) (MAC_BSSID.ADDR_HI.at k) * 2 ^ 32

/-- Receiver and transmitter address of an entry's header, then of its nonce and additional authentication data (R225): to an MLD the
link addresses in the header, and the two MLD addresses in the others. A frame built by firmware without a station entry carries its
own. -/
def Dev.mpduAddrs (d : Dev) (x : Nat) (e : QEntry) : Nat × Nat × Nat × Nat :=
  if e.sta = 0x7FF then
    let o := d.entryOctets e
    let ra := if e.fmt = 2 then ofLeBytes ((o.drop 4).take 6) else ofLeBytes (o.take 6)
    let ta := d.bssAddr x e.bssid
    (ra, ta, ra, ta)
  else
    let ra := d.staAddress e.sta x
    let ta := d.bssAddr x (d.staBss e.sta x)
    if d.staMld e.sta then
      let j := d.sta e.sta 2 28 4
      (ra, ta, ofLeBytes (d.ldBytes (d.staAddr e.sta + 4) 6),
        d.rd 0x033 (MAC_APMLD.ADDR_LO.at j) + d.rd 0x033 (MAC_APMLD.ADDR_HI.at j) * 2 ^ 32)
    else (ra, ta, ra, ta)

/-- Put one entry into a PSDU: its sequence number at the first attempt, its packet number when it is encrypted (R250,
R265, R266). None when its slot encrypts nothing. -/
def Dev.buildMpdu (d : Dev) (x : Nat) (e : QEntry) : Dev × Bool :=
  let d := match (if e.ftm then look d.mac.ftm e.sta else none) with
    | some t => d.emit (.ftm x e.queue t.1 t.2.1 4 t.2.2)
    | none => d
  let a := d.mpduAddrs x e
  let sent (d : Dev) (sn pn : Nat) : Dev := d.emit (.mpduSent x e.queue sn pn a.1 a.2.1 a.2.2.1 a.2.2.2)
  let key := if e.sta = 0x7FF then (2048 + e.gq, 0) else (e.sta, e.tid)
  let r := d.tidRec key.1 key.2
  let sn := e.sn.getD r.txNext
  let fresh := e.sn.isNone
  match (if e.enc then none else d.slotOf x e) with
  | none =>
    let d := d.nextSn key.1 key.2 e.queue sn fresh
    (sent (d.onEntry e.queue e.id fun q => { q with sn := some sn }) sn 0, true)
  | some k =>
    match d.takePn k with
    | (_, none) => (d, false)
    | (d, some pn) =>
      let d := d.mark { kind := 0, index := k, old := pn, new := pn + 1 }
      let d := d.nextSn key.1 key.2 e.queue sn fresh
      (sent (d.onEntry e.queue e.id fun q => { q with sn := some sn, enc := true }) sn pn, true)

/-- An entry lies in the Block Ack window of its TID (R248), with the number it holds or would be given. -/
def Dev.inBaWindow (d : Dev) (e : QEntry) : Bool :=
  decide (e.sta = 0x7FF) || !d.staBaTid e.sta e.tid
    || decide ((e.sn.getD (d.tidRec e.sta e.tid).txNext + 4096 - d.txWin e.sta e.tid) % 4096 < d.baWindow e.sta e.tid)

/-- What keeps an entry out of the PSDU now, as a delay code (R227, R232, R248, R263, R269). -/
def Dev.withheld (d : Dev) (x m : Nat) (e : QEntry) : Option Nat :=
  if d.inBaWindow e = false then some 0x1C
  else if e.sta ≠ 0x7FF ∧ d.linkOk e.sta e.tid x = false then some 0x19
  else if e.sta ≠ 0x7FF ∧ ((d.macR x).noCts.contains e.sta ∨ d.emlsrAway e.sta x (d.ns + d.leadNs x)) then some 0x1F
  else if e.sta ≠ 0x7FF ∧ d.staAwake e.sta x m = false then some 0x18
  else if e.enc then none
  else match d.slotOf x e with
    | some k => if d.slotReady k then none else some 0x1B
    | none => none

/-- A PS-Poll serves one MPDU: the station dozes on the link, and nothing else keeps it awake (R270). -/
def Dev.pollOnly (d : Dev) (s x m : Nat) : Bool :=
  decide (s ≠ 0x7FF) && d.staDozes s x && !d.twtAwake s x m
    && (match look d.mac.sp (4 * s + x) with | some (1, _) => true | _ => false)

/-- Build the MPDUs of one planned user; answers the identifiers put in. -/
def Dev.buildUser (d : Dev) (x m : Nat) (u : PlanUser) : Dev × List Nat :=
  u.ids.foldl (fun (acc : Dev × List Nat) id =>
    let d := acc.1
    match (d.queue u.queue).find? fun e => decide (e.id = id) with
    | none => acc
    | some e =>
      if d.protRequired e then (d.finish e 5 e.lastOut, acc.2)
      else if e.tooLong then (d.finish e 6 e.lastOut, acc.2)
      else match (if d.pollOnly e.sta x m && !acc.2.isEmpty then some 0x18 else d.withheld x m e) with
        | some code =>
          let d := d.when (decide (code = 0x18)) (·.cnt 0x033 MAC_CNT_PSWITHHELD.COUNT)
          (d.delay u.queue id code, acc.2)
        | none =>
          let r := d.buildMpdu x e
          if r.2 then (r.1, acc.2 ++ [id]) else (r.1.delay u.queue id 0x1B, acc.2)) (d, [])

/-- Octets of a beacon (R281): the template with its Timestamp, and the TIM element inserted at TIM_OFS. -/
def Dev.beaconOctets (d : Dev) (x k ts dtimCount : Nat) : List Nat :=
  let a := d.rd (macPage x) MAC_BCN_BASE.BASE * 2048 + 2048 * k
  let h := d.ld a 4
  let len := min 2044 (bits h 0 12)
  let ofs := min len (bits h 12 12)
  let body := d.ldBytes (a + 4) len
  let body := body.take 24 ++ leBytes 8 ts ++ body.drop 32
  let aids := d.mac.lookup.filterMap fun l =>
    if l.1 / 2 ^ 48 = x ∧ d.beaconBss x (d.staBss l.2 x) = k ∧ d.staDozes l.2 x
        ∧ (List.range 8).any (fun t => !(d.queue (8 * l.2 + t)).isEmpty && d.linkOk l.2 t x)
    then some (d.sta l.2 7 16 11) else none
  let map := (List.range 251).map fun o => (List.range 8).foldl (fun (b : Nat) i => if aids.contains (8 * o + i) then b + 2 ^ i else b) 0
  let last := ((List.range 251).filter fun o => decide (nth 0 map o ≠ 0)).foldl max 0
  let group := (List.range 64).any fun g => (d.queue (16384 + g)).any fun e =>
    decide (e.bssid = k) && decide (e.radio = x) && d.groupFrame e
  let bm := map.take (last + 1)
  let tim := [5, 3 + bm.length, dtimCount, d.rd (macPage x) (MAC_BSSID.DTIM_PERIOD.at k),
    b2n (group && decide (dtimCount = 0))] ++ bm
  body.take ofs ++ tim ++ body.drop ofs

/-- The heading and marks of a user's MPDUs (R251, R270, R271, R273). -/
def Dev.userHead (d : Dev) (x : Nat) (u : SentUser) : Dev :=
  let rest := (d.queue u.queue).any fun e => !u.ids.contains e.id
  if u.ids.isEmpty then d
  else if u.sta = 0x7FF then d.emit (.userHead x u.queue none rest false)
  else
    let tid := u.queue % 8
    let r := d.tidRec u.sta tid
    let more := (List.range 8).any fun t => d.linkOk u.sta t x
      && (d.queue (8 * u.sta + t)).any fun e => !u.ids.contains e.id
    let sp := look d.mac.sp (4 * u.sta + x)
    let d := d.emit (.userHead x u.queue (if r.oweBar then some (d.txWin u.sta tid) else none)
      (more && (match sp with | some (1, _) => true | _ => false)) (match sp with | some (2, _) => true | _ => false))
    d.when r.oweBar (·.setTidRec u.sta tid { r with oweBar := false })

/-- How long the beacon PPDU of a BSSID lasts as sent, to its last octet, in ns (R800): the template, the TIM element, the
management MIC element and the FCS. -/
def Dev.beaconNs (d : Dev) (x k : Nat) : Nat :=
  let h := d.ld (d.rd (macPage x) MAC_BCN_BASE.BASE * 2048 + 2048 * k) 4
  1000 * (beaconUs (bit h 28 && decide (bandOf (d.centre x) = 0)) (bits h 24 4)
    ((d.beaconOctets x k 0 0).length + d.micOctets x k + 4))

/-- Build a beacon for its first sample at `ns` (R281): the Timestamp is the TSF there plus the offset of its first
symbol. -/
def Dev.buildBeacon (d : Dev) (x k m ns : Nat) (mic : Option (Nat × Nat)) : Dev :=
  let a := d.rd (macPage x) MAC_BCN_BASE.BASE * 2048 + 2048 * k
  let h := d.ld a 4
  let dsss := bit h 28 && decide (bandOf (d.centre x) = 0)
  let rate := nth 6 [6, 9, 12, 18, 24, 36, 48, 54] (bits h 24 4)
  -- 208 bits of SERVICE and header precede the Timestamp; DSSS: 192 µs preamble and 24 octets at 1 Mb/s
  let ofs := if dsss then 192 + 192 else 20 + 4 * (208 / (4 * rate))
  let ts := d.tsf x (ns + 1000 * ofs)
  let i := match d.tbttIn x k m with | some t => t.2 | none => false
  let int := max 1024 (d.rd (macPage x) (MAC_BSSID.BCN_INT.at k) * 1024)
  let n := (d.tsf x (beatNs m) + 250 - d.rd (macPage x) (MAC_BSSID.BCN_OFS.at k) * 1024) / int
  let per := max 1 (d.rd (macPage x) (MAC_BSSID.DTIM_PERIOD.at k))
  let dtim := if i then 0 else (per - n % per) % per
  d.emit (.beacon x k ts (d.beaconOctets x k ts dtim) mic)

/-- A beacon is built, protected with its BSSID's integrity slot where that is set (R267); while the slot is not READY the
beacon is not delivered (R263) and counts as lost. -/
def Dev.sendBeacon (d : Dev) (x k m ns : Nat) : Dev :=
  match groupSlot (d.rd (macPage x) (MAC_BSSID.BIGTK_SLOT.at k)) with
  | none => d.buildBeacon x k m ns none
  | some sl =>
    match (if d.slotReady sl then d.takePn sl else (d, none)) with
    | (d, some pn) => (d.mark { kind := 0, index := sl, old := pn, new := pn + 1 }).buildBeacon x k m ns (some (sl, pn))
    | (d, none) =>
      let r := d.macR x
      let d := d.setMacR x { r with onAir := r.onAir.map fun o => { o with beacon := none } }
      (d.cnt (macPage x) MAC_CNT_BCNLOST.COUNT).ev (macPage x) 8

/-! ### The grant (R234 to R236, R240 to R244) -/

/-- Advance to the next planned PPDU. -/
def Dev.advance (d : Dev) (x : Nat) : Dev :=
  match look d.air.exec x with
  | some e => { d with air := { d.air with exec := put d.air.exec x { e with next := e.next + 1 } } }
  | none => d

/-- Data bits of each MCS of IEEE 802.11be in sixths of a bit per tone and stream (log entry 91). -/
def mcsBits : List Nat := [3, 6, 9, 12, 18, 24, 27, 30, 36, 40, 45, 50, 54, 60]

/-- The first user of an OPEN_LOOP RU: its MCS lowered by MCS_DROP, its PSDU refilled for the same duration (R213). -/
def Dev.openLoopUser (d : Dev) (x : Nat) (u : PlanUser) : PlanUser :=
  let mcs := u.mcs - d.rd (txPage x) TXP_PREC_CFG.MCS_DROP
  let octets := u.octets * nth 3 mcsBits mcs / nth 3 mcsBits u.mcs
  let fit := u.ids.foldl (fun (a : List Nat × Nat × Bool) i =>
    match (d.queue u.queue).find? fun e => decide (e.id = i) with
    | some e => if a.2.2 ∧ a.2.1 + e.len ≤ octets then (a.1 ++ [i], a.2.1 + e.len, true) else (a.1, a.2.1, false)
    | none => a) ([], 0, true)
  { u with mcs := mcs, octets := octets, mpdus := min u.mpdus fit.1.length, ids := fit.1 }

/-- What a granted PPDU's users carry, and the number of MPDUs its plan asks of the MAC: users of an UNASSIGNED RU, and all but the
first of an OPEN_LOOP one, are not served (R213, R214). -/
def Dev.buildPpdu (d : Dev) (x m : Nat) (p : PlanPpdu) (outs : List Nat) : Dev × List SentUser × Nat :=
  p.rus.zipIdx.foldl (fun (acc : Dev × List SentUser × Nat) ru =>
    let o := nth 4 outs ru.2
    ru.1.users.zipIdx.foldl (fun (b : Dev × List SentUser × Nat) u =>
      if u.1.ul then b
      else if o = 3 ∨ (o = 2 ∧ u.2 ≠ 0) then
        (b.1.forAll u.1.ids fun i g => g.delay u.1.queue i 0x16, b.2)
      else
        let v := if o = 2 then b.1.openLoopUser x u.1 else u.1
        let rest := u.1.ids.filter fun i => !v.ids.contains i
        let w := (b.1.forAll rest fun i g => g.delay u.1.queue i 0x16).buildUser x m v
        (w.1, b.2.1 ++ [{ ru := ru.2, sta := u.1.sta, queue := u.1.queue, ids := w.2,
                          degraded := decide (ru.1.ladder ≠ 0) }], b.2.2 + v.ids.length)) acc) (d, [], 0)

/-- The exchange a granted PPDU begins. -/
def Dev.exchangeOf (_ : Dev) (p : PlanPpdu) (index m : Nat) (users : List SentUser) : OnAir :=
  { index := index, beat := m, ac := p.ac, kind := p.kind, users := users,
    solicits := decide (p.kind = 2) || (decide (p.resp ≠ 0) && decide (p.kind ≠ 3) && p.beacon.isNone),
    undelivered := [], trig := p.trig, beacon := p.beacon,
    muRtsTo := p.muRts,
    awaiting := false, acked := [] }

/-- The TXOP a grant under the backoff condition begins (R242). -/
def Dev.txopBegin (d : Dev) (x ac t m : Nat) : Dev :=
  let r := d.macR x
  let limit := 32000 * d.rd (macPage x) (MAC_EDCA.TXOP.at ac)
  d.setMacR x { r with backoff := setAt r.backoff ac none,
                       txop := some (ac, t, min (if limit = 0 then t else t + limit) (beatNs (m + 1))) }

/-- Grant a planned PPDU at slot time `t`, its first sample not before `start` (R240, R250, R269, R281). `counter` when under the
backoff condition. -/
def Dev.grant (d : Dev) (x t start : Nat) (counter : Bool) : Dev :=
  match look d.air.exec x with
  | none => d
  | some e =>
    match e.plan.ppdus[e.next]? with
    | none => d
    | some p =>
      let m := e.plan.beat
      let d := (d.advance x).when counter (·.txopBegin x p.ac t m)
      let d := d.setMacR x { d.macR x with waiting := false }
      -- chains masked since the boundary may send further RUs to the late fallback (R211)
      let so := d.startOutcomes x m p (nth [] e.outcomes e.next)
      let d := so.1
      if p.rus.length = 1 ∧ so.2 = [3] ∧ p.users.length ≤ 1 ∧ p.kind < 2 then d.notSent x p e.next m 0xE 0x16 so.2
      else
        let built := d.buildPpdu x m p so.2
        let d := built.1
        let d := d.setMacR x { d.macR x with onAir := some (d.exchangeOf p e.next m built.2.1) }
        let d := d.forAll built.2.1 fun u f => f.userHead x u
        let d := match p.beacon with
          | some k => d.sendBeacon x k m start
          | none => d
        -- MPDUs planned and not delivered, and a beacon not built, leave padding in their place (R182, R263, R269)
        let lost := match (d.macR x).onAir with | some o => p.beacon.isSome && o.beacon.isNone | none => false
        let short := lost || decide ((built.2.1.map fun u => u.ids.length).foldl (· + ·) 0 ≠ built.2.2)
        d.readyPpdu x m e.next p so.2 start (match p.beacon with | some k => d.beaconNs x k | none => 100 * p.dur) short

/-- The partner of a non-STR pair allows a start outside an aligned set (R236). -/
def Dev.partnerFree (d : Dev) (x : Nat) : Bool :=
  [0, 1, 2].all fun y =>
    decide (y = x) || !d.pairNonStr x y ||
      (let r := d.rxAt y
       !(r.receiving && (!r.obss)) && (d.macR y).resp.isNone
         && (match r.tb with
              | some t => decide (d.ns + 12500 < t.expect) || decide (t.expect + 4800 < d.ns)
              | none => true))

/-- Subchannels a PPDU uses beside the primary one. -/
def Dev.secondaries (d : Dev) (x : Nat) (p : PlanPpdu) : List Nat :=
  (List.range (2 ^ p.bw)).filter fun k => decide (k ≠ d.primarySub x % 2 ^ p.bw) && !bit p.punct k

/-- The radio's instances are free to start a planned PPDU. -/
def Dev.macFree (d : Dev) (x : Nat) : Bool :=
  (d.macR x).onAir.isNone && (look d.tx.ready x).isNone && (d.macR x).resp.isNone && d.active (macPage x) && d.radioServes x

/-- Energy and reception in a slot: since when each 20 MHz subchannel, and (16) the primary channel, have been idle (R237), and whether
the primary is busy now. -/
def Dev.listenSlot (d : Dev) (x : Nat) (med : Medium) : Dev × Bool :=
  let t := med.atNs
  let sending := d.transmitting x
  let cca := d.ccaOf x t
  let d := d.countIgnored x cca
  let busy := sending || decide (d.edThr x ≤ med.primary) || decide (cca = 1) || decide (t < (d.macR x).nav)
  let idle := (List.range 17).map fun k =>
    let b := if k = 16 then busy else sending || decide (d.edThr x ≤ nth (-128) med.energy k) || d.floorBusy x k
    if b then t else nth 0 (d.macR x).idleFrom k
  let d := d.when busy (·.cnt (macPage x) MAC_CNT_BUSY_US.COUNT 9)
  (d.setMacR x { d.macR x with idleFrom := idle }, busy)

/-- Counters fall in an idle slot after AIFS (R239); answers the ACs whose counter reaches 0 in it. -/
def Dev.countDown (d : Dev) (x t : Nat) (busy : Bool) : Dev × List Nat :=
  let r := d.macR x
  let falls (b : Option Nat) (ac : Nat) : Bool := match b with
    | some (_ + 1) => decide (nth 0 r.idleFrom 16 + d.aifsNs x ac ≤ t) && !busy
    | _ => false
  let next := r.backoff.zipIdx.map fun b => if falls b.1 b.2 then b.1.map (· - 1) else b.1
  (d.setMacR x { r with backoff := next },
    (List.range 4).filter fun a => falls (nth none r.backoff a) a && decide (nth none next a = some 0))

/-- The lower ACs whose counters reach 0 in the slot of a grant are treated as having failed an exchange (R243). -/
def Dev.internalLoss (d : Dev) (x : Nat) (acs : List Nat) : Dev :=
  d.forAll acs fun a e =>
    let e := e.setCw x a false
    e.setMacR x { e.macR x with backoff := setAt (e.macR x).backoff a none }

/-- The busy subchannels of the next PPDU are punctured (R244). -/
def Dev.repuncture (d : Dev) (x dyn : Nat) : Dev :=
  match look d.air.exec x with
  | some e =>
    match e.plan.ppdus[e.next]? with
    | some p =>
      let ps := setAt e.plan.ppdus e.next { p with punct := dyn }
      { d with air := { d.air with exec := put d.air.exec x { e with plan := { e.plan with ppdus := ps } } } }
    | none => d
  | none => d

/-- The other member of an aligned set can start at slot `t` (R88, R179, R235): it is the partner's next PPDU, its channel has been idle
for PIFS, its window stands, and the pair is a non-STR pair still. -/
def Dev.partnerJoins (d : Dev) (x y t : Nat) : Bool :=
  match d.nextPpdu y with
  | some (plan, _, q) =>
    decide (q.align = some x) && d.pairNonStr x y && d.locked y && d.macFree y
      && decide (nth 0 (d.macR y).idleFrom 16 + d.pifsNs y ≤ t) && decide (t + d.leadNs y ≤ q.latestNs plan.beat)
  | none => false

/-- The next PPDU of radio `y` loses its window. -/
def Dev.missNext (d : Dev) (y : Nat) : Dev :=
  match look d.air.exec y, d.nextPpdu y with
  | some e, some (plan, i, q) => (d.advance y).notSent y q i plan.beat 0xA 0x17 (nth [] e.outcomes i)
  | _, _ => d

/-- The grant of the next PPDU `p` of the plan for beat `m`, alone or with the other member of its aligned set (R234 to R236). -/
def Dev.grantSet (d : Dev) (x t m : Nat) (p : PlanPpdu) (counter lastCall : Bool) : Dev :=
  let start := max (p.startNs m) (t + d.leadNs x)
  match p.align with
  | none => if d.partnerFree x then d.grant x t start counter else d
  | some y =>
    if d.partnerJoins x y t then
      let both := max start (t + d.leadNs y)
      (d.grant x t both counter).grant y t both false
    else if lastCall && d.partnerFree x then
      let partner := match d.nextPpdu y with
        | some (_, _, q) => decide (q.align = some x)
        | none => false
      (d.grant x t start counter).when partner (·.missNext y)
    else d.setMacR x { d.macR x with waiting := true }

/-- The conditions of R240 and R244 for the next PPDU at slot `t`: none, or whether under the counter, and the puncturing. -/
def Dev.grantCond (d : Dev) (x t m : Nat) (p : PlanPpdu) (busy : Bool) : Option (Bool × Option Nat) :=
  let r := d.macR x
  let prim := nth 0 r.idleFrom 16
  let inTxop := match r.txop with
    | some (_, _, fin) => decide (t < fin) && decide (max prim r.prevEnd + (if r.prevOk then d.sifsNs x else d.pifsNs x) ≤ t)
    | none => false
  let byCount := decide (nth none r.backoff p.ac = some 0) && decide (prim + d.aifsNs x p.ac ≤ t)
  let sec := (d.secondaries x p).filter fun k => decide (t < nth 0 r.idleFrom k + d.pifsNs x)
  let free := p.rus.all (fun q => decide (q.precId = 0x1FF)) && (decide (p.kind = 0) || decide (p.kind = 4))
    && d.rdB (macPage x) MAC_CFG.DYN_PUNCT
  let dyn := p.punct ||| sec.foldl (fun a k => a + 2 ^ k) 0
  if busy ∨ t + d.leadNs x < p.startNs m ∨ p.latestNs m < t + d.leadNs x ∨ (inTxop || byCount) = false then none
  else if sec.isEmpty then some (!inTxop, none)
  else if free && (punctPatterns p.bw).contains dyn then some (!inTxop, some dyn)
  else none

/-- BACKOFF_SLOT (R235 to R244). Contention for a PPDU begins with the first slot after the boundary or the exchange before it. -/
def Dev.backoffSlot (d : Dev) (x : Nat) (med : Medium) : Dev :=
  let l := (d.reach (med.atNs * nsU)).listenSlot x med
  let t := med.atNs
  let f := l.1.countDown x t l.2
  let d := f.1
  if d.macFree x = false ∨ d.heldOff x then d
  else match d.nextPpdu x with
    | none => d
    | some (plan, _, p) =>
      let d := d.drawBackoff x p.ac
      match d.grantCond x t plan.beat p l.2 with
      | none => d
      | some (counter, dyn) =>
        let low := if f.2.contains p.ac then f.2.filter fun a => decide (acRank a < acRank p.ac) else []
        let d := d.internalLoss x low
        let d := match dyn with | some q => d.repuncture x q | none => d
        d.grantSet x t plan.beat p counter (decide (p.latestNs plan.beat < t + 9000 + d.leadNs x))

/-! ### Completions (R216, R249 to R252, R280, R326, R327) -/

/-- Stations an exchange serves: those of its MPDUs, and of a trigger that is no MU-RTS those it solicits (R233). -/
def Dev.stasServed (d : Dev) (x : Nat) (o : OnAir) : List Nat :=
  (o.users.map fun u => u.sta) ++ (if o.kind = 2 ∧ o.muRtsTo = [] then
      match (look d.air.exec x).bind fun e => e.plan.ppdus[o.index]? with
      | some p => p.users.map fun u => u.sta
      | none => []
    else [])

/-- An exchange of radio `x` with EMLSR stations ends: another link serves them only EMLSR_TRANS later (R233). -/
def Dev.emlsrServed (d : Dev) (x : Nat) (stas : List Nat) : Dev :=
  d.forAll stas fun s e =>
    if s ≠ 0x7FF ∧ e.staEmlsr s then
      let trans := nth 0 [0, 16, 32, 64, 128, 256] (e.sta s 9 27 3) * 1000
      { e with mac := { e.mac with emlsr := put e.mac.emlsr s (x, e.ns + trans) } }
    else e

/-- The MAC's own end of an exchange: CW, TXOP, the idle reference, and the EMLSR stations it served. -/
def Dev.exchangeEnd (d : Dev) (x : Nat) (ac : Nat) (ok : Bool) : Dev :=
  let d := match (d.macR x).onAir with
    | some o => d.when o.awaiting (·.emlsrServed x (d.stasServed x o))
    | none => d
  let d := d.setCw x ac ok
  let r := d.macR x
  let single := d.rd (macPage x) (MAC_EDCA.TXOP.at ac) = 0
  d.setMacR x { r with prevEnd := d.ns, prevOk := ok, onAir := none, txop := if single then none else r.txop }

/-- An attempt left an MPDU unacknowledged (R250, R251). -/
def Dev.unacked (d : Dev) (x : Nat) (u : SentUser) (id : Nat) : Dev :=
  match (d.queue u.queue).find? fun e => decide (e.id = id) with
  | none => d
  | some e =>
    let e := { e with tries := min 15 (e.tries + 1) }
    let d := d.onEntry u.queue id fun q => { q with tries := e.tries }
    if d.rd (macPage x) MAC_CFG.RETRY_MAX ≤ e.tries then
      let d := (d.finish e 2 (b2n u.degraded)).cnt (macPage x) MAC_CNT_RETRYLIMIT.COUNT
      if e.sta = 0x7FF then d
      else d.setTidRec e.sta e.tid { d.tidRec e.sta e.tid with oweBar := true }
    else d

/-- An MPDU was acknowledged (R249). -/
def Dev.ackedEntry (d : Dev) (x : Nat) (u : SentUser) (id : Nat) : Dev :=
  match (d.queue u.queue).find? fun e => decide (e.id = id) with
  | none => d
  | some e => (d.finish e 0 (b2n u.degraded)).cnt (macPage x) MAC_CNT_ACKED.COUNT

/-- No CTS of these stations answered an MU-RTS (R232): each is counted once. -/
def Dev.ctsMissed (d : Dev) (x : Nat) (stas : List Nat) : Dev :=
  let n := (stas.filter fun s => d.staEmlsr s && !(d.macR x).noCts.contains s).length
  (d.emlsrDeaf x stas).when (decide (n ≠ 0)) fun e => (e.cnt (macPage x) MAC_CNT_EMLSR_NOCTS.COUNT n).ev (macPage x) 10

/-- RESPONSE_TIMEOUT (R249 to R251): nothing arrived; every MPDU of the PPDU stays unacknowledged. CW starts again when an MPDU of it
reached RETRY_MAX (R239). -/
def Dev.responseTimeout (d : Dev) (x : Nat) : Dev :=
  match (d.macR x).onAir with
  | some o =>
    if o.awaiting then
      let last := o.users.any fun u => (d.queue u.queue).any fun e =>
        u.ids.contains e.id && decide (d.rd (macPage x) MAC_CFG.RETRY_MAX ≤ e.tries + 1)
      let d := d.forAll o.users fun u e => e.forAll u.ids fun i f => f.unacked x u i
      ((d.ctsMissed x o.muRtsTo).exchangeEnd x o.ac false).when last (·.setCw x o.ac true)
    else d
  | none => d

/-- Stamp an attempt on an entry, and count it. -/
def Dev.attempt (d : Dev) (x : Nat) (c : TxDone) (u : SentUser) (id : Nat) : Dev :=
  match (d.queue u.queue).find? fun e => decide (e.id = id) with
  | none => d
  | some e =>
    let dly := d.rd (macPage x) MAC_FTM_DLY.FTM_TX_DLY
    let d := if e.ftm then
        { d with mac := { d.mac with ftm := put d.mac.ftm e.sta ((10 * c.first + dly) % 2 ^ 48,
          (lookOr (0, 0, 0) d.mac.ftm e.sta).2) } }
      else d
    let d := d.onEntry u.queue id fun q =>
      { q with lastNs := c.first, lastStatus := c.status, lastRu := nth 4 c.ru u.ru, lastRadio := x }
    let d := (d.cnt (macPage x) MAC_CNT_MPDU_TX.COUNT).outCount (b2n u.degraded)
    d.when (decide (e.tries ≠ 0)) (·.cnt (macPage x) MAC_CNT_RETRY.COUNT)

/-- The trigger parameters of a planned trigger that ended at `endNs` (R163). -/
def Dev.trigParams (d : Dev) (x : Nat) (p : PlanPpdu) (endNs : Nat) : TbParams :=
  let sym := ceilDiv (p.ulDur - 200) 40
  { expect := endNs + d.sifsNs x, ulLen := 3 * sym - 5,
    eht := p.users.all fun u => decide (d.sta u.sta 0 13 3 = 5),
    giLtf := p.ulGiLtf, nltf := p.ulNltf,
    users := p.rus.flatMap fun r => r.users.map fun u =>
      { sta := u.sta, ruSize := r.size, ruPos := r.pos, mcs := u.mcs, nss := u.nss,
        ldpc := decide (d.sta u.sta 8 11 1 = 1), psduLen := u.octets, present := true, timing := 0, cfo := 0, ok := 0,
        bad := 0 } }

/-- Service periods and EMLSR stations a PPDU served (R233, R270, R271). -/
def Dev.servedStas (d : Dev) (x : Nat) (o : OnAir) : Dev :=
  (d.forAll o.users fun u e =>
    if u.sta = 0x7FF then e else { e with mac := { e.mac with sp := del e.mac.sp (4 * u.sta + x) } }).emlsrServed x
    (d.stasServed x o)

/-- A completion of a planned PPDU reaches the MAC and the scheduler. -/
def Dev.settlePlanned (d : Dev) (c : TxDone) : Dev :=
  let x := c.radio
  match (d.macR x).onAir with
  | none => d
  | some o =>
    -- a PPDU that was not granted recorded its delays as it was not sent
    if o.beat ≠ c.beat ∨ c.kind ≠ .planned o.index then d
    else if c.status = 0 ∨ c.status = 1 ∨ c.status = 0xC then
      let sent := o.users.map fun u => { u with ids := u.ids.filter fun i => !o.undelivered.contains i }
      let d := d.forAll sent fun u e => e.forAll u.ids fun i f => f.attempt x c u i
      let d := d.servedStas x o
      -- group frames and No Ack policy complete at once (R252)
      let d := d.forAll sent fun u e => e.forAll u.ids fun i f =>
        match (f.queue u.queue).find? fun q => decide (q.id = i) with
        | some q => if q.noAck ∨ f.groupFrame q then f.finish q 1 (b2n u.degraded) else f
        | none => f
      let d := match o.beacon with
        | some _ => d.cnt (macPage x) MAC_CNT_BCN.COUNT
        | none => d
      let d := if o.kind = 2 then
          match (look d.air.exec x).bind fun e => e.plan.ppdus[o.index]? with
          | some p => if p.ulDur = 0 then d else d.giveTrigger x (d.trigParams x p d.ns)
          | none => d
        else d
      if o.solicits then d.setMacR x { d.macR x with onAir := some { o with users := sent, awaiting := true } }
      else d.exchangeEnd x o.ac true
    else
      let d := d.forAll o.users fun u e => e.forAll u.ids fun i f =>
        (f.onEntry u.queue i fun q => { q with lastStatus := c.status, lastRadio := x }).delay u.queue i 0x17
      let d := match o.beacon with
        | some _ => (d.cnt (macPage x) MAC_CNT_BCNLOST.COUNT).ev (macPage x) 8
        | none => d
      (d.emlsrDeaf x o.muRtsTo).exchangeEnd x o.ac true

/-- DOZE follows the Power Management bit of the frames a sent response acknowledged (R268). -/
def Dev.dozeUpdate (d : Dev) (x : Nat) (acks : List (Nat × Bool)) : Dev :=
  d.forAll acks fun a e => if a.1 < 2048 then e.setSta a.1 0 (10 + x) 1 (b2n a.2) else e

/-- A completion of a response. -/
def Dev.settleResponse (d : Dev) (c : TxDone) : Dev :=
  let x := c.radio
  let r := d.macR x
  let d := match r.resp with
    | some p => d.when (decide (c.status ≤ 1) && decide (p.form ≠ 3)) (·.dozeUpdate x p.acks)
    | none => d
  d.setMacR x { d.macR x with resp := none }

/-- The completions the chain pool and transmit path returned reach the MAC and the scheduler (R216). -/
def Dev.takeDone (d : Dev) : Dev :=
  let l := d.pool.done
  let d := { d with pool := { d.pool with done := [] } }
  d.forAll l fun c e =>
    let e := e.txCount c
    match c.kind with
    | .planned _ => e.settlePlanned c
    | .response => e.settleResponse c

/-- WINDOW_MISSED (R179, R180). -/
def Dev.windowMissed (d : Dev) (x : Nat) : Dev :=
  match d.nextPpdu x with
  | none => d
  | some (plan, _, p) =>
    let d := d.reach ((p.latestNs plan.beat - d.leadNs x) * nsU)
    (d.setMacR x { d.macR x with waiting := false }).missNext x

/-- DATA_UNDERRUN for a user (R182): padding takes the place of the MPDUs `ids`, which were not delivered in time and were not sent;
those delivered before stay sent. -/
def Dev.dataUnderrun (d : Dev) (x sta : Nat) (ids : List Nat) : Dev :=
  match d.txOf x, (d.macR x).onAir with
  | some c, some o =>
    if c.phase = TxPhase.sending ∧ o.users.any (fun u => decide (u.sta = sta)) then
      let d := d.setTx x { c with underrun := true }
      let late := (o.users.filter fun u => decide (u.sta = sta)).map fun u =>
        { u with ids := u.ids.filter fun i => ids.contains i && !o.undelivered.contains i }
      let d := d.forAll late fun u e => e.forAll u.ids fun i f => f.delay u.queue i 0x17
      d.setMacR x { d.macR x with onAir := some { o with undelivered := o.undelivered ++ late.flatMap fun u => u.ids } }
    else d
  | _, _ => d

/-! ### Acknowledgements received (R249) -/

/-- An Ack for the one user of the PPDU on the air. -/
def Dev.ackReceived (d : Dev) (x : Nat) : Dev :=
  match (d.macR x).onAir with
  | some o =>
    if o.awaiting then
      -- the first path of the L-LTF lies 8 µs after the first sample (R282)
      let rx := d.rxAt x
      let toa := (10 * (rx.startNs + 8000) + 10 * rx.startFrac / 2 ^ 16 + 2 ^ 48
        - d.rd (macPage x) MAC_FTM_DLY.FTM_RX_DLY) % 2 ^ 48
      let d := d.forAll o.users fun u e => match look e.mac.ftm u.sta with
        | some t => if (e.queue u.queue).any (fun q => q.ftm && u.ids.contains q.id) then
            { e with mac := { e.mac with ftm := put e.mac.ftm u.sta (t.1, toa, nth 5 [30, 15, 8, 5] rx.bw) } } else e
        | none => e
      let d := d.forAll o.users fun u e => e.forAll u.ids fun i f => f.ackedEntry x u i
      d.exchangeEnd x o.ac true
    else d
  | none => d

/-- Block Ack records (R249): an MPDU whose bit is set, or that lies before the starting sequence number within 2,048, is
acknowledged; the user's others are not. -/
def Dev.blockAckReceived (d : Dev) (x sta : Nat) (acks : List (Nat × Nat × List Nat)) : Dev :=
  match (d.macR x).onAir with
  | some o =>
    if o.awaiting = false then d
    else
      let hit := o.users.filter fun u => decide (u.sta = sta)
      let d := d.forAll hit fun u e => e.forAll u.ids fun i f =>
        match (f.queue u.queue).find? fun q => decide (q.id = i) with
        | none => f
        | some q =>
          let n := q.sn.getD 0
          let ok := acks.any fun a => decide (a.1 = q.tid) &&
            (a.2.2.contains n || (decide (0 < (a.2.1 + 4096 - n) % 4096) && decide ((a.2.1 + 4096 - n) % 4096 ≤ 2048)))
          if ok then f.ackedEntry x u i else f.unacked x u i
      let rest := o.users.filter fun u => decide (u.sta ≠ sta)
      if rest.isEmpty then d.exchangeEnd x o.ac true
      else d.setMacR x { d.macR x with onAir := some { o with users := rest } }
  | none => d

/-! ### Meanings without a completion -/

/-- BACKOFF_SLOT changes only what the device holds; the marks it leaves go out with the twin's frames. -/
def Dev.navExpiry (d : Dev) (x : Nat) : Dev :=
  let r := d.macR x
  if r.nav ≠ 0 then (d.reach (r.nav * nsU)).setMacR x { r with nav := 0 } else d

def execNavExpiry (x : Nat) (s : State) : Host.Outcome State Fault Refusal :=
  s.onDev fun d => if x < 3 then d.navExpiry x else d

/-- TXOP_END (R242). -/
def execTxopEnd (x : Nat) (s : State) : Host.Outcome State Fault Refusal :=
  s.onDev fun d =>
    match (d.macR x).txop with
    | some (_, _, fin) => (d.reach (fin * nsU)).setMacR x { d.macR x with txop := none }
    | none => d

/-- EMLSR_NO_CTS (R232). -/
def execEmlsrNoCts (x sta : Nat) (s : State) : Host.Outcome State Fault Refusal :=
  s.onDev fun d =>
    let r := d.macR x
    match r.onAir with
    | some o =>
      if o.awaiting && o.muRtsTo.contains sta then d.ctsMissed x [sta] else d
    | none => d

/-- RESPONSE_CUT (R245, R246). -/
def execResponseCut (x : Nat) (s : State) : Host.Outcome State Fault Refusal :=
  s.onDev fun d =>
    let r := d.macR x
    match r.resp with
    | some p =>
      let d := d.reach ((p.tEnd + d.sifsNs x - 4000) * nsU)
      d.setMacR x { d.macR x with resp := some { p with cut := true } }
    | none => d

/-- What R247 asks before a response is handed over, and R25 while a boundary is held. -/
def Dev.mayRespond (d : Dev) (x : Nat) : Bool :=
  decide (d.mode ≠ 5) && d.active (rxPage x) && d.active (txPage x) && d.active (macPage x) && d.locked x
    && !(d.runningQuads x).isEmpty && !d.heldOff x

/-- RESPONSE_HANDOVER (R184, R245, R247): within 2.0 µs of the later of t_end and the earlier of the last MPDU and the
cut, or not at all. -/
def execResponseHandover (x dur : Nat) (s : State) : Host.Outcome State Fault Refusal :=
  s.onDev fun d =>
    let r := d.macR x
    match r.resp with
    | some p =>
      if p.handed || !(p.complete || p.cut) then d
      else if d.mayRespond x then
        let d := d.setMacR x { r with resp := some { p with handed := true } }
        let d := (d.cnt (macPage x) MAC_CNT_RESP.COUNT).emit (.response x p.form (p.acks.map fun a => a.1))
        d.readyResponse x p.tEnd dur
      else d.setMacR x { r with resp := none }
    | none => d

/-! ### MAC page hooks -/

/-- First failed check of a radio page's Start (R220, R290, register tables), as a fault code. -/
def Dev.macStartCheck (d : Dev) (x : Nat) : Option Nat :=
  let p := macPage x
  let ks := (List.range 16).filter fun k => d.bssEnabled x k
  let addr (k : Nat) := d.rd p (MAC_BSSID.ADDR_LO.at k) + d.rd p (MAC_BSSID.ADDR_HI.at k) * 2 ^ 32
  let txb (k : Nat) := d.rd p (MAC_BSSID.TXB.at k)
  let isTx (k : Nat) := d.rdB p (MAC_BSSID.TX_BSSID.at k)
  let int (k : Nat) := d.rd p (MAC_BSSID.BCN_INT.at k)
  let pd := d.rdS p MAC_CCA.OBSS_PD
  let bad (k : Nat) :=
    (!isTx k && (!(d.bssEnabled x (txb k) && isTx (txb k))
      -- bits [3:0] of the last octet only may differ
      || decide ((Nat.xor (addr k) (addr (txb k))) / 2 ^ 44 * 2 ^ 44 + (Nat.xor (addr k) (addr (txb k))) % 2 ^ 40 ≠ 0)
      || decide (int k ≠ int (txb k))))
    || (isTx k && decide (int k = 0))
    || ks.any (fun j => decide (j ≠ k) && decide (addr j = addr k))
  if d.bstate 0x033 ≠ .running then some 0x03
  else if d.rd p MAC_CFG.BSS_COLOR = 0 ∨ 80 < d.rd p MAC_CFG.ALIGN_TOL ∨ d.rd p MAC_CFG.RETRY_MAX = 0
    ∨ pd < -82 ∨ -62 < pd then some 0x03
  else if ks.any bad then some 0x03
  else none

/-- A MAC page becomes RUNNING: CW of each AC starts at 2^ECWMIN − 1 (R239). -/
def Dev.macOnStart (d : Dev) (x : Nat) : Dev := d.setMacR x { d.macR x with cw := (List.range 4).map (d.cwMin x) }

/-- A MAC page leaves service: contention, TXOP and owed responses go; attempts do not count (R230). -/
def Dev.macOnLeave (d : Dev) (x : Nat) : Dev :=
  let r := d.macR x
  let d := match r.onAir with
    | some o => d.forAll o.users fun u e => e.forAll u.ids fun i f => f.delay u.queue i 0x17
    | none => d
  let keep := MacRadio.reset
  d.setMacR x { keep with nav := r.nav }

end Sys2Proof.Machine
end

