-- ==== Sys2Proof/Machine/Parse.lean ====
section
/-! DEFINITION. The parser of the packet engine (R464 to R467) and the lookup keys (R468 to R471), over the octets of a
frame. -/

namespace Sys2Proof.Machine

/-- Octet `i` of a frame, and the big-endian numbers there; octets past the end read 0. -/
def ob (l : List Nat) (i : Nat) : Nat := nth 0 l i
def ob2 (l : List Nat) (i : Nat) : Nat := ob l i * 256 + ob l (i + 1)
def obN (l : List Nat) (i : Nat) : Nat → Nat
  | 0 => 0
  | n + 1 => obN l i n * 256 + ob l (i + n)

/-- Headers of one layer: offsets of the ETH header, of the tags' TCI fields, of the last type field with its value,
whether it is an LLC header without SNAP; the IP version with its offset and the end of its payload; the last next
header; the L4 protocol (1 for ICMP) with its offset. -/
structure Layer where
  eth : Option Nat
  tags : List Nat
  etype : Nat
  typeAt : Nat
  llcOnly : Bool
  ip : Nat
  ipAt : Nat
  payEnd : Nat
  proto : Nat
  l4 : Nat
  l4At : Nat
deriving DecidableEq, Repr

def Layer.empty : Layer :=
  { eth := none, tags := [], etype := 0, typeAt := 0, llcOnly := false, ip := 0, ipAt := 0, payEnd := 0, proto := 0,
    l4 := 0, l4At := 0 }

/-- Nodes of the parse graph. -/
inductive Node where
  | eth | vlan | llc | mpls (n : Nat) | ip4 | ip6 | ext | ah | frag6 | tcp | udp | vxlan | geneve | gre | dot11
deriving DecidableEq, Repr

/-- The walk so far: position, headers parsed, flags, the two layers and which one it is in, the tunnel's VNI or key, the
inner ETH offset, and for GRE that carries IP the outer and inner IP offsets. -/
structure Parse where
  pos : Nat
  count : Nat
  frag : Bool
  depthExc : Bool
  lenBad : Bool
  tagged : Bool
  inInner : Bool
  outer : Layer
  inner : Layer
  vni : Nat
  innerEth : Option Nat
  greIp : Option (Nat × Nat)
  overGre : Bool
deriving DecidableEq, Repr

def Parse.start : Parse :=
  { pos := 0, count := 0, frag := false, depthExc := false, lenBad := false, tagged := false, inInner := false,
    outer := Layer.empty, inner := Layer.empty, vni := 0, innerEth := none, greIp := none, overGre := false }

/-- The layer being filled. -/
def Parse.cur (p : Parse) : Layer := if p.inInner then p.inner else p.outer
def Parse.setCur (p : Parse) (y : Layer) : Parse := if p.inInner then { p with inner := y } else { p with outer := y }

/-- The node an EtherType leads to (R464). -/
def nodeOfType (t : Nat) : Option Node :=
  if t = 0x8100 ∨ t = 0x88A8 then some .vlan
  else if t = 0x0800 then some .ip4
  else if t = 0x86DD then some .ip6
  else if t = 0x8847 then some (.mpls 0)
  else if t < 0x0600 then some .llc
  else none

/-- The node an IPv4 protocol leads to. -/
def nodeOfProto (q : Nat) : Option Node :=
  if q = 6 then some .tcp else if q = 17 then some .udp else if q = 47 then some .gre
  else if q = 4 then some .ip4 else if q = 41 then some .ip6 else none

/-- The node an IPv6 next header leads to. -/
def nodeOfNext (q : Nat) : Option Node :=
  if q = 0 ∨ q = 43 ∨ q = 60 then some .ext else if q = 44 then some .frag6 else if q = 51 then some .ah
  else nodeOfProto q

/-- Length in octets of the header of a node at the position, as far as its octets say (R464). -/
def nodeLen (l : List Nat) (i : Nat) : Node → Nat
  | .eth => 14
  | .vlan => 4
  | .llc => if ob l i = 0xAA ∧ ob l (i + 1) = 0xAA ∧ ob l (i + 2) = 3 then 8 else 3
  | .mpls _ => 4
  | .ip4 => max 20 (ob l i % 16 * 4)
  | .ip6 => 40
  | .ext => (ob l (i + 1) + 1) * 8
  | .ah => (ob l (i + 1) + 2) * 4
  | .frag6 => 8
  | .tcp => max 20 (ob l (i + 12) / 16 * 4)
  | .udp => 8
  | .vxlan => 8
  | .geneve => 8 + ob l i % 64 * 4
  | .gre => 4 + 4 * (b2n (bit (ob l i) 7) + b2n (bit (ob l i) 5) + b2n (bit (ob l i) 4))
  | .dot11 => if ob l 0 / 4 % 4 = 2 ∧ bit (ob l 0) 7 then 26 else 24

/-- The header at the position contradicts the frame (R466), beyond ending outside it. -/
def nodeBad (l : List Nat) (y : Layer) (i : Nat) : Node → Bool
  | .ip4 => decide (ob l i % 16 < 5) || decide (ob2 l (i + 2) < ob l i % 16 * 4) || decide (l.length - i < ob2 l (i + 2))
  | .ip6 => decide (ob2 l (i + 4) = 0) || decide (l.length - i - 40 < ob2 l (i + 4))
  | .udp => decide (ob2 l (i + 4) < 8) || decide (y.payEnd - i < ob2 l (i + 4))
  | .tcp => decide (ob l (i + 12) / 16 < 5) || decide (y.payEnd - i < ob l (i + 12) / 16 * 4)
  | .llc => decide (l.length - (y.typeAt + 2) < y.etype)
  | _ => false

/-- Offset of the optional key of a GRE header. -/
def greKeyAt (l : List Nat) (i : Nat) : Nat := i + 4 + 4 * b2n (bit (ob l i) 7)

/-- A first ETH node of the layer is recorded; the second layer's is the inner ETH. -/
def Parse.noteEth (p : Parse) (i : Nat) : Parse :=
  let p := if p.inInner ∧ p.innerEth = none then { p with innerEth := some i } else p
  if (p.cur.eth).isSome ∨ p.cur.ip ≠ 0 then p else p.setCur { p.cur with eth := some i }

/-- An IP node: the second IP of a layer begins the inner headers (R464). -/
def Parse.noteIp (p : Parse) (v i endAt q : Nat) : Parse :=
  let p := if p.cur.ip ≠ 0 then { p with inInner := true } else p
  let p := if p.overGre then { p with overGre := false, greIp := some (p.outer.ipAt, i) } else p
  if p.cur.ip = 0 then p.setCur { p.cur with ip := v, ipAt := i, payEnd := endAt, proto := q }
  else p.setCur { p.cur with payEnd := endAt }

/-- The fields a header gives, and the node after it (R464). -/
def Parse.take (p : Parse) (l : List Nat) (n : Node) : Parse × Option Node :=
  let i := p.pos
  match n with
  | .eth =>
    let p := p.noteEth i
    let t := ob2 l (i + 12)
    (p.setCur { p.cur with etype := t, typeAt := i + 12 }, nodeOfType t)
  | .vlan =>
    let t := ob2 l (i + 2)
    let p := { p with tagged := true }
    let p := p.setCur { p.cur with tags := p.cur.tags ++ [i], etype := t, typeAt := i + 2 }
    let nx := nodeOfType t
    (p, if nx = some .vlan ∧ 2 ≤ p.cur.tags.length then none else nx)
  | .llc =>
    if nodeLen l i .llc = 8 then
      let t := ob2 l (i + 6)
      (p.setCur { p.cur with etype := t, typeAt := i + 6 }, nodeOfType t)
    else (p.setCur { p.cur with etype := 0, llcOnly := true }, none)
  | .mpls k =>
    if bit (ob l (i + 2)) 0 then
      let v := ob l (i + 4) / 16
      (p, if v = 4 then some .ip4 else if v = 6 then some .ip6 else none)
    else (p, if k = 3 then none else some (.mpls (k + 1)))
  | .ip4 =>
    let q := ob l (i + 9)
    let frag := decide (ob2 l (i + 6) % 0x4000 ≠ 0)
    let p := p.noteIp 4 i (min l.length (i + ob2 l (i + 2))) q
    if frag then ({ p with frag := true }, none)
    else
      let p := if q = 1 ∧ p.cur.l4 = 0 ∧ nodeBad l p.cur i .ip4 = false ∧ i + nodeLen l i .ip4 ≤ l.length then p.setCur { p.cur with l4 := 1, l4At := i + nodeLen l i .ip4 } else p
      (p, nodeOfProto q)
  | .ip6 =>
    let q := ob l (i + 6)
    (p.noteIp 6 i (min l.length (i + 40 + ob2 l (i + 4))) q, nodeOfNext q)
  | .ext | .ah =>
    let q := ob l i
    (p.setCur { p.cur with proto := q }, nodeOfNext q)
  | .frag6 => ({ p.setCur { p.cur with proto := ob l i } with frag := true }, none)
  | .tcp => (if p.cur.l4 = 0 then p.setCur { p.cur with l4 := 6, l4At := i } else p, none)
  | .udp =>
    let dp := ob2 l (i + 2)
    (if p.cur.l4 = 0 then p.setCur { p.cur with l4 := 17, l4At := i } else p,
      if dp = 4789 then some .vxlan else if dp = 6081 then some .geneve else none)
  | .vxlan => ({ p with vni := if p.inInner then p.vni else obN l (i + 4) 3, inInner := true }, some .eth)
  | .geneve =>
    ({ p with vni := if p.inInner then p.vni else obN l (i + 4) 3, inInner := true },
      if ob2 l (i + 2) = 0x6558 then some .eth else none)
  | .gre =>
    let key := if bit (ob l i) 5 then obN l (greKeyAt l i + 1) 3 else 0
    let t := ob2 l (i + 2)
    ({ p with vni := if p.inInner then p.vni else key, inInner := true,
              overGre := !p.inInner && (decide (t = 0x0800) || decide (t = 0x86DD)) },
      if t = 0x6558 then some .eth else if t = 0x0800 then some .ip4 else if t = 0x86DD then some .ip6 else none)
  | .dot11 => (p, none)

/-- Walk from a node; `fuel` bounds the headers (R465 allows 16). -/
def Parse.walk (l : List Nat) : Nat → Parse → Option Node → Parse
  | 0, p, _ => p
  | _ + 1, p, none => p
  | f + 1, p, some n =>
    let len := nodeLen l p.pos n
    if 16 ≤ p.count ∨ 256 < p.pos + len then
      -- the frame may end inside the header that is not parsed (R466)
      { p with depthExc := true, lenBad := decide (l.length < p.pos + len) }
    else
      let r := p.take l n
      if l.length < p.pos + len ∨ nodeBad l p.cur p.pos n ∨
          (decide (n = .udp) || decide (n = .tcp)) && nodeBad l r.1.cur p.pos n then
        { r.1 with lenBad := true }
      else Parse.walk l f { r.1 with pos := p.pos + len, count := p.count + 1 } r.2

/-- Parse a frame. -/
def parseFrame (l : List Nat) (dot11 : Bool) : Parse :=
  Parse.walk l 20 Parse.start (some (if dot11 then .dot11 else .eth))

/-! ### Keys -/

/-- A field of a key, placed at bits `hi` down to `lo`. -/
def kf (hi lo v : Nat) : Nat := v % 2 ^ (hi + 1 - lo) * 2 ^ lo

/-- The layer a key is built from. -/
def Parse.layer (p : Parse) (inner : Bool) : Layer := if inner then p.inner else p.outer

/-- VID and PCP of tag `k` of a layer. -/
def Layer.tci (y : Layer) (l : List Nat) (k : Nat) : Nat := match y.tags[k]? with | some i => ob2 l i | none => 0

/-- Addresses of a layer's ETH header, most significant octet first. -/
def Layer.dmac (y : Layer) (l : List Nat) : Nat := match y.eth with | some i => obN l i 6 | none => 0
def Layer.smac (y : Layer) (l : List Nat) : Nat := match y.eth with | some i => obN l (i + 6) 6 | none => 0

/-- The class of L3 in a KTYPE 0 key. -/
def Layer.l3c (y : Layer) : Nat :=
  if y.eth = none ∨ y.llcOnly then 0
  else if y.etype = 0x0800 then 1 else if y.etype = 0x86DD then 2 else if y.etype = 0x0806 then 3
  else if y.etype = 0x8847 then 4 else 5

/-- Ports of a layer: source (ICMP type and code in its place when `icmp`), destination. -/
def Layer.sport (y : Layer) (l : List Nat) (icmp : Bool) : Nat :=
  if y.l4 = 6 ∨ y.l4 = 17 ∨ (y.l4 = 1 ∧ icmp) then ob2 l y.l4At else 0
def Layer.dport (y : Layer) (l : List Nat) : Nat := if y.l4 = 6 ∨ y.l4 = 17 then ob2 l (y.l4At + 2) else 0

/-- Traffic class of an IP header: DSCP and ECN. -/
def Layer.tos (y : Layer) (l : List Nat) : Nat :=
  if y.ip = 4 then ob l (y.ipAt + 1) else if y.ip = 6 then ob2 l y.ipAt / 16 % 256 else 0

/-- The key of a pass (R468 to R471). -/
def buildKey (p : Parse) (l : List Nat) (ktype src : Nat) (second inner : Bool) (info : Nat) : Nat :=
  let y := p.layer inner
  let common := kf 319 316 ktype + kf 315 310 src + kf 309 309 (b2n second) + kf 308 308 (b2n p.frag)
    + kf 307 307 (b2n p.depthExc) + kf 306 306 (b2n p.lenBad) + kf 305 305 (b2n inner) + kf 304 304 (b2n p.tagged)
  let vid := y.tci l 0 % 4096
  match ktype with
  | 0 =>
    common + kf 303 256 (y.dmac l) + kf 255 208 (y.smac l) + kf 207 196 vid + kf 195 193 (y.tci l 0 / 2 ^ 13)
      + kf 191 180 (y.tci l 1 % 4096) + kf 179 164 y.etype + kf 163 160 y.l3c + kf 159 128 info
  | 1 =>
    if y.ip ≠ 4 then common + kf 127 96 info
    else
      let ip := y.ipAt
      common + kf 303 272 (obN l (ip + 12) 4) + kf 271 240 (obN l (ip + 16) 4) + kf 239 232 (ob l (ip + 9))
        + kf 231 226 (ob l (ip + 1) / 4) + kf 225 224 (ob l (ip + 1)) + kf 223 216 (ob l (ip + 8))
        + kf 215 200 (y.sport l true) + kf 199 184 (y.dport l)
        + kf 183 176 (if y.l4 = 6 then ob l (y.l4At + 13) else 0) + kf 175 152 p.vni + kf 151 140 vid
        + kf 127 96 info + kf 95 48 (y.dmac l)
  | 2 =>
    if y.ip ≠ 6 then common
    else
      let ip := y.ipAt
      common + kf 303 176 (obN l (ip + 8) 16) + kf 175 48 (obN l (ip + 24) 16) + kf 47 40 y.proto
        + kf 39 24 (y.sport l false) + kf 23 8 (y.dport l) + kf 7 2 (y.tos l / 4)
  | _ =>
    if y.ip ≠ 6 then common + kf 31 0 info
    else
      let ip := y.ipAt
      common + kf 303 176 (obN l (ip + 24) 16) + kf 175 112 (obN l (ip + 8) 8) + kf 111 104 y.proto
        + kf 103 88 (y.sport l false) + kf 87 72 (y.dport l) + kf 71 66 (y.tos l / 4) + kf 65 54 vid + kf 31 0 info

/-- KTYPE by a menu header's KEY_SEL for the outer L3 of a frame (R469). -/
def keySel (sel : Nat) (p : Parse) : Nat :=
  if p.outer.ip = 4 then bits sel 4 4 else if p.outer.ip = 6 then bits sel 8 4 else bits sel 0 4

/-- META of a WLAN receive descriptor (R471). -/
def wlanMeta (sta tid radio bssid : Nat) (mcast prot eapol : Bool) : Nat :=
  sta % 2048 + tid % 8 * 2 ^ 11 + radio % 4 * 2 ^ 14 + bssid % 16 * 2 ^ 16 + b2n mcast * 2 ^ 20 + b2n prot * 2 ^ 21
    + b2n eapol * 2 ^ 22

end Sys2Proof.Machine
end

