-- ==== Sys2Proof/Machine/Packet.lean ====
section
/-! DEFINITION. The packet engine: baskets (R458 to R463), passes and menus (R472 to R477), actions and templates (R478 to
R487), rings (R488 to R500), the completions of transmit queue entries (R484). -/

namespace Sys2Proof.Machine

/-! ### Baskets (R458 to R462) -/

/-- Insert into a rising list. -/
def insertUp (n : Nat) : List Nat → List Nat
  | [] => [n]
  | a :: r => if n ≤ a then n :: a :: r else a :: insertUp n r

/-- The `k`-th number that a rising list does not hold. -/
def kthFree (used : List Nat) (k : Nat) : Nat := used.foldl (fun k u => if u ≤ k then k + 1 else k) k

/-- Baskets in use, rising. -/
def Dev.usedUnits (d : Dev) : List Nat :=
  (d.pkt.chains.flatMap fun c => c.2.units).foldl (fun l u => insertUp u l) []

/-- Which basket is taken among the free ones is open: `v` picks (log entry 26). -/
def pickUnit (used : List Nat) (lo size v : Nat) : Nat :=
  let mine := (used.filter fun u => decide (lo ≤ u) && decide (u < lo + size)).map (· - lo)
  lo + kthFree mine (v % max 1 (size - mine.length))

/-- A basket is taken (R459); `held` are those already taken for the frame. -/
def Dev.takeUnit (d : Dev) (held : List Nat) : Dev × Option Nat :=
  let on := d.rd 0x063 PKT_FREE_ON.FREE
  let dr := d.rd 0x063 PKT_FREE_DRAM.FREE
  let dram := (decide (on < d.rd 0x063 PKT_SPILL.SPILL_MARK) || decide (on = 0)) && decide (dr ≠ 0)
  if dram = false ∧ on = 0 then (d, none)
  else
    let before := on + dr
    let p := d.draw 32
    let used := held.foldl (fun l u => insertUp u l) d.usedUnits
    let u := if dram then pickUnit used 32768 (d.rd 0x063 PKT_DRAM_UNITS.UNITS) p.2 else pickUnit used 0 32768 p.2
    let d := p.1
    let d := if dram then (d.wr 0x063 PKT_FREE_DRAM.FREE (dr - 1)).cnt 0x063 PKT_CNT_SPILL.COUNT
      else (d.wr 0x063 PKT_FREE_ON.FREE (on - 1)).wr 0x063 PKT_FREE_ON.MIN (min (d.rd 0x063 PKT_FREE_ON.MIN) (on - 1))
    let mark := d.rd 0x063 PKT_SPILL.LOW_MARK
    (d.when (decide (mark ≤ before) && decide (before - 1 < mark)) (·.ev 0x063 8), some u)

/-- Free baskets (R462). -/
def Dev.freeUnits (d : Dev) (l : List Nat) : Dev :=
  let on := (l.filter (· < 32768)).length
  let d := d.wr 0x063 PKT_FREE_ON.FREE (min 32768 (d.rd 0x063 PKT_FREE_ON.FREE + on))
  d.wr 0x063 PKT_FREE_DRAM.FREE (min (d.rd 0x063 PKT_DRAM_UNITS.UNITS) (d.rd 0x063 PKT_FREE_DRAM.FREE + (l.length - on)))

/-- Take `n` baskets, or none: a frame that finds none free is dropped and counted (R460). -/
def Dev.takeUnits (d : Dev) : Nat → List Nat → Dev × Option (List Nat)
  | 0, held => (d, some held)
  | n + 1, held =>
    match d.takeUnit held with
    | (d, some u) => d.takeUnits n (held ++ [u])
    | (d, none) => (((d.freeUnits held).cnt 0x063 PKT_CNT_NO_BASKET.COUNT).ev 0x063 9, none)

def unitsFor (n : Nat) : Nat := max 1 (ceilDiv n 256)

/-- Address of a DRAM basket (R463). -/
def Dev.unitAddr (d : Dev) (u : Nat) : Nat := d.rd 0x063 PKT_DRAM_BASE.BASE * 4096 + (u - 32768) * 260

/-- The first DRAM basket among `l` that an access `ok` fails at. -/
def Dev.unitBad (d : Dev) (l : List Nat) (ok : Dev → Nat → Nat → Bool) : Option Nat :=
  l.find? fun u => decide (32768 ≤ u) && !ok d (d.unitAddr u) 260

/-- Baskets are written; one in DRAM that cannot be is a fault of page 0x063. -/
def Dev.unitsWrite (d : Dev) (l : List Nat) : Dev :=
  match d.unitBad l Dev.wrOk with
  | some u => d.enterFault 0x063 ⟨0x04, 0, d.unitAddr u⟩
  | none => d

/-- Store a frame in a chain of baskets (R458). -/
def Dev.storeFrame (d : Dev) (octets : List Nat) : Dev × Option Nat :=
  match d.takeUnits (unitsFor octets.length) [] with
  | (d, some l) =>
    let b := nth 0 l 0
    (({ d with pkt := { d.pkt with chains := put d.pkt.chains b ⟨octets, l⟩ } } : Dev).unitsWrite l, some b)
  | (d, none) => (d, none)

/-- A DRAM basket of the frame whose first basket is `b` that cannot be read. -/
def Dev.frameBad (d : Dev) (b : Nat) : Option Nat :=
  match look d.pkt.chains b with
  | some f => d.unitBad f.units Dev.rdOk
  | none => none

/-- The octets of the frame whose first basket is `b`. -/
def Dev.frameOctets (d : Dev) (b : Nat) : List Nat := ((look d.pkt.chains b).map (·.octets)).getD []

/-- Free a frame's baskets. -/
def Dev.freeFrame (d : Dev) (b : Nat) : Dev :=
  match look d.pkt.chains b with
  | some f => { d.freeUnits f.units with pkt := { (d.freeUnits f.units).pkt with chains := del d.pkt.chains b } }
  | none => d

/-- A rewritten frame takes more baskets or gives some back; false when none is free, and the frame is gone (R460). -/
def Dev.rewriteFrame (d : Dev) (b : Nat) (octets : List Nat) : Dev × Bool :=
  match look d.pkt.chains b with
  | none => (d, false)
  | some f =>
    let n := unitsFor octets.length
    let keep := f.units.take n
    let d := d.freeUnits (f.units.drop n)
    let d := { d with pkt := { d.pkt with chains := put d.pkt.chains b ⟨octets, keep⟩ } }
    match d.takeUnits (n - keep.length) [] with
    | (d, some l) =>
      (({ d with pkt := { d.pkt with chains := put d.pkt.chains b ⟨octets, keep ++ l⟩ } } : Dev).unitsWrite (keep ++ l), true)
    | (d, none) => (d.freeFrame b, false)

/-! ### Frames in (R453, R457, R461) -/

/-- Frames of a pipeline that wait for their first pass. -/
def Dev.waiting (d : Dev) (pipe : Nat) : List PFrame :=
  d.pkt.inq.filter fun f => decide ((if f.src < 8 then 0 else 1) = pipe)

/-- Octets of port `m`'s frames that wait for their first pass: the fill of its receive FIFO (log entry 27). -/
def Dev.rxFill (d : Dev) (m : Nat) : Nat :=
  ((d.pkt.inq.filter fun f => decide (f.src = m)).map fun f => (d.frameOctets f.basket).length).foldl (· + ·) 0

/-- A frame enters a pipeline with its octets (R457, R460, R461). Answers whether it was taken. -/
def Dev.pktIn (d : Dev) (f : PFrame) (octets : List Nat) : Dev × Bool :=
  if d.inService 0x060 = false then (d, false)
  else if 9728 < octets.length then (d.cnt 0x063 PKT_CNT_TOO_LONG.COUNT, false)
  else
    match d.storeFrame octets with
    | (d, some b) => ({ d with pkt := { d.pkt with inq := d.pkt.inq ++ [{ f with basket := b }] } }, true)
    | (d, none) => (d, false)

/-! ### Menus (R472 to R477) -/

/-- Header of a menu: KEY_SEL and the default action. -/
def Dev.menuHdr (d : Dev) (k : Nat) : Nat × List Nat := lookOr (0, List.replicate 8 0) d.pkt.hdr k

/-- The lowest-indexed matching entry of a menu (R472): its index in the menu and its action. -/
def Dev.tcMatch (d : Dev) (menu key : Nat) (anomalous : Bool) : Option (Nat × List Nat) :=
  d.pkt.tcam.findSome? fun e =>
    if decide (e.1 / 16384 = menu) && e.2.valid && decide ((key ^^^ e.2.value) &&& e.2.mask = 0)
        && (e.2.anomaly || !anomalous) then some (e.1 % 16384, e.2.action)
    else none

/-- State of a menu (R474, R475). -/
def Dev.menuActive (d : Dev) : Nat := d.rd 0x060 PKT_MENU_CTL.ACTIVE
def Dev.menuDraining (d : Dev) : Bool := d.rdB 0x060 PKT_MENU_CTL.OLD_STATE

/-- SWAP (R474 to R476). -/
def Dev.menuSwap (d : Dev) : Dev :=
  if d.menuDraining then d.wr 0x060 PKT_MENU_CTL.SWAP_REJ 1
  else
    let d := (d.wr 0x060 PKT_MENU_CTL.ACTIVE (1 - d.menuActive)).bump 0x060 PKT_MENU_CTL.EPOCH
    d.wr 0x060 PKT_MENU_CTL.OLD_STATE 1

def execMenuSwap (s : State) : Host.Outcome State Fault Refusal := s.onDev (·.regDo 0x060 (·.menuSwap))

/-- MENU_DRAIN_DONE (R475): no frame of the old epoch remains. -/
def Dev.menuDrainDone (d : Dev) : Dev :=
  if d.menuDraining && !(d.pkt.recirc.any fun f => decide (f.menu ≠ d.menuActive)) then
    (d.wr 0x060 PKT_MENU_CTL.OLD_STATE 0).ev 0x060 8
  else d

def execMenuDrainDone (s : State) : Host.Outcome State Fault Refusal := s.onDev (·.menuDrainDone)

/-- The staged value, mask and action. -/
def Dev.staged (d : Dev) (base n : Nat) : List Nat := (List.range n).map fun k => (d.rdW 0x060 (base + 4 * k)).toNat
def Dev.setStaged (d : Dev) (base : Nat) (l : List Nat) : Dev :=
  d.forAll l.zipIdx fun w e => e.wrW 0x060 (base + 4 * w.2) (BitVec.ofNat 32 w.1)
def wide (l : List Nat) : Nat := l.foldr (fun w r => w + 2 ^ 32 * r) 0
def narrow (v n : Nat) : List Nat := (List.range n).map fun k => bits v (32 * k) 32

/-- Fields of an action record (R478). -/
def actF (a : List Nat) (k lo w : Nat) : Nat := bits (nth 0 a k) lo w
def actFlag (a : List Nat) (k : Nat) : Bool := bit (nth 0 a 1) k

/-- The result code of an action record and a KEY_SEL at their write: 0, 4 BAD_ACTION or 5 BAD_FIELD. -/
def actCheck (a : List Nat) (direct : Bool) : Nat :=
  let fwd := actF a 0 0 3
  if 6 ≤ fwd ∨ (fwd = 1 ∧ 4 < actF a 0 3 8) ∨ actF a 5 11 2 = 3 ∨ actF a 5 16 2 = 3 ∨ (direct ∧ fwd = 5) then 4
  else if 3 < actF a 1 12 4 ∧ actF a 1 12 4 ≠ 0xF then 5
  else 0

def keySelBad (k : Nat) : Bool := decide (3 < bits k 0 4) || decide (3 < bits k 4 4) || decide (3 < bits k 8 4)

/-- Post the result of a TCAM command. -/
def Dev.tcPost (d : Dev) (r : Nat) : Dev :=
  (((d.wr 0x060 PKT_TC_STAT.BUSY 0).wr 0x060 PKT_TC_STAT.RESULT r).wr 0x060 PKT_TC_CMD.GO 0).ev 0x060 9

/-- PKT_TC_CMD as written: INDEX, MENU, ANOMALY, OP. -/
def Dev.tcCmd (d : Dev) (index menu : Nat) (anomaly : Bool) (op : Nat) : Dev :=
  (((d.wr 0x060 PKT_TC_CMD.INDEX index).wr 0x060 PKT_TC_CMD.MENU menu).wr 0x060 PKT_TC_CMD.ANOMALY (b2n anomaly)).wr
    0x060 PKT_TC_CMD.OP op

/-- A menu is DRAINING, or not IDLE (R477). -/
def Dev.menuDrains (d : Dev) (menu : Nat) : Bool := d.menuDraining && decide (menu ≠ d.menuActive)
def Dev.menuIdle (d : Dev) (menu : Nat) : Bool := !d.menuDraining && decide (menu ≠ d.menuActive)

def Dev.tcEntry (d : Dev) (menu index : Nat) : TcEntry := lookOr TcEntry.empty d.pkt.tcam (16384 * menu + index)
def Dev.setTc (d : Dev) (menu index : Nat) (e : TcEntry) : Dev :=
  { d with pkt := { d.pkt with tcam := put d.pkt.tcam (16384 * menu + index) e } }

/-- TC_WRITE. -/
def Dev.tcWrite (d : Dev) (menu index : Nat) (anomaly : Bool) : Dev :=
  let menu := menu % 2
  let index := index % 16384
  let d := d.tcCmd index menu anomaly 1
  let a := d.staged 0x200 8
  if d.menuDrains menu then d.tcPost 1
  else if actCheck a false ≠ 0 then d.tcPost (actCheck a false)
  else
    (d.setTc menu index { valid := true, anomaly := anomaly, value := wide (d.staged 0xA0 10),
                          mask := wide (d.staged 0xD0 10), action := a }).tcPost 0

def execTcWrite (menu index : Nat) (anomaly : Bool) (s : State) : Host.Outcome State Fault Refusal :=
  s.onDev (·.regDo 0x060 (·.tcWrite menu index anomaly))

/-- TC_INVALIDATE. -/
def Dev.tcInvalidate (d : Dev) (menu index : Nat) : Dev :=
  let menu := menu % 2
  let index := index % 16384
  let d := d.tcCmd index menu false 2
  if d.menuDrains menu then d.tcPost 1
  else (d.setTc menu index { d.tcEntry menu index with valid := false }).tcPost 0

def execTcInvalidate (menu index : Nat) (s : State) : Host.Outcome State Fault Refusal :=
  s.onDev (·.regDo 0x060 (·.tcInvalidate menu index))

/-- TC_READ. -/
def Dev.tcRead (d : Dev) (menu index : Nat) : Dev :=
  let menu := menu % 2
  let index := index % 16384
  let d := d.tcCmd index menu false 3
  let e := d.tcEntry menu index
  (((d.setStaged 0xA0 (narrow e.value 10)).setStaged 0xD0 (narrow e.mask 10)).setStaged 0x200 e.action).tcPost 0

def execTcRead (menu index : Nat) (s : State) : Host.Outcome State Fault Refusal := s.onDev (·.regDo 0x060 (·.tcRead menu index))

/-- TC_WRITE_HDR. -/
def Dev.tcWriteHdr (d : Dev) (menu : Nat) : Dev :=
  let menu := menu % 2
  let d := d.tcCmd 0 menu false 4
  let a := d.staged 0x200 8
  let sel := bits (d.rdW 0x060 0xA0).toNat 0 12
  if d.menuIdle menu = false then d.tcPost 1
  else if actCheck a false ≠ 0 then d.tcPost (actCheck a false)
  else if keySelBad sel then d.tcPost 5
  else { d.tcPost 0 with pkt := { (d.tcPost 0).pkt with hdr := put d.pkt.hdr menu (sel, a) } }

def execTcWriteHdr (menu : Nat) (s : State) : Host.Outcome State Fault Refusal := s.onDev (·.regDo 0x060 (·.tcWriteHdr menu))

/-- TC_READ_HDR. -/
def Dev.tcReadHdr (d : Dev) (menu : Nat) : Dev :=
  let menu := menu % 2
  let d := d.tcCmd 0 menu false 5
  let h := d.menuHdr menu
  let w := (d.rdW 0x060 0xA0).toNat
  ((d.setStaged 0xA0 [w - w % 4096 + h.1]).setStaged 0x200 h.2).tcPost 0

def execTcReadHdr (menu : Nat) (s : State) : Host.Outcome State Fault Refusal := s.onDev (·.regDo 0x060 (·.tcReadHdr menu))

/-- TC_WRITE_DIRECT (R482). -/
def Dev.tcWriteDirect (d : Dev) (index : Nat) : Dev :=
  let index := index % 16384
  let d := d.tcCmd index 0 false 6
  let a := d.staged 0x200 8
  if 1024 ≤ index then d.tcPost 2
  else if actCheck a true ≠ 0 then d.tcPost (actCheck a true)
  else { d.tcPost 0 with pkt := { (d.tcPost 0).pkt with direct := put d.pkt.direct index a } }

def execTcWriteDirect (index : Nat) (s : State) : Host.Outcome State Fault Refusal := s.onDev (·.regDo 0x060 (·.tcWriteDirect index))

def Dev.directAction (d : Dev) (i : Nat) : List Nat := lookOr (List.replicate 8 0) d.pkt.direct i

/-- TC_READ_DIRECT. -/
def Dev.tcReadDirect (d : Dev) (index : Nat) : Dev :=
  let index := index % 16384
  let d := d.tcCmd index 0 false 7
  if 1024 ≤ index then d.tcPost 2 else (d.setStaged 0x200 (d.directAction index)).tcPost 0

def execTcReadDirect (index : Nat) (s : State) : Host.Outcome State Fault Refusal := s.onDev (·.regDo 0x060 (·.tcReadDirect index))

/-! ### Counters (R479) -/

def Dev.pktCtr (d : Dev) (i : Nat) : Nat × Nat := lookOr (0, 0) d.pkt.ctr i

/-- Read a counter into the result registers. -/
def Dev.ctrRead (d : Dev) (i : Nat) (clear : Bool) : Dev :=
  let i := i % 16384
  let v := d.pktCtr i
  let d := (d.wr 0x061 PKT_CTR_CMD.INDEX i).wr 0x061 PKT_CTR_CMD.CLEAR (b2n clear)
  let d := (d.wr 0x061 PKT_CTR_PKTS_LO.VALUE v.1).wr 0x061 PKT_CTR_PKTS_HI.VALUE (v.1 / 2 ^ 32)
  let d := (d.wr 0x061 PKT_CTR_BYTES_LO.VALUE v.2).wr 0x061 PKT_CTR_BYTES_HI.VALUE (v.2 / 2 ^ 32)
  let d := d.wr 0x061 PKT_CTR_CMD.GO 0
  if clear then { d with pkt := { d.pkt with ctr := put d.pkt.ctr i (0, 0) } } else d

/-- CTR_READ. -/
def execCtrRead (index : Nat) (s : State) : Host.Outcome State Fault Refusal := s.onDev (·.regDo 0x061 (·.ctrRead index false))
/-- CTR_READ_CLEAR. -/
def execCtrReadClear (index : Nat) (s : State) : Host.Outcome State Fault Refusal := s.onDev (·.regDo 0x061 (·.ctrRead index true))

/-- COUNT of an action: 64-bit counts that wrap. -/
def Dev.ctrAdd (d : Dev) (i octets : Nat) : Dev :=
  let v := d.pktCtr i
  { d with pkt := { d.pkt with ctr := put d.pkt.ctr i ((v.1 + 1) % 2 ^ 64, (v.2 + octets) % 2 ^ 64) } }

/-! ### Rings (R488 to R500) -/

def Dev.ringType (d : Dev) (r : Nat) : Nat :=
  if d.rdB 0x062 (PKT_RING_STAT.ACTIVE.at r) then d.rd 0x062 (PKT_RING_CFG.TYPE.at r) else 0
def Dev.ringSize (d : Dev) (r : Nat) : Nat := 2 ^ d.rd 0x062 (PKT_RING_CFG.LOG2.at r)
def Dev.ringSw (d : Dev) (r : Nat) : Nat := d.rd 0x062 (PKT_RING_SW.INDEX.at r)
def Dev.ringHw (d : Dev) (r : Nat) : Nat := d.rd 0x062 (PKT_RING_HW.INDEX.at r)
/-- Descriptors posted and not returned, or records written and not read. -/
def Dev.ringHeld (d : Dev) (r : Nat) (cpl : Bool) : Nat :=
  if cpl then (d.ringHw r + 131072 - d.ringSw r) % 131072 else (d.ringSw r + 131072 - d.ringHw r) % 131072
/-- Address of descriptor `i`. -/
def Dev.ringAddr (d : Dev) (r i : Nat) : Nat :=
  d.rd 0x062 (PKT_RING_BASE_HI.BASE_HI.at r) * 2 ^ 32 + d.rd 0x062 (PKT_RING_BASE_LO.BASE.at r) * 32
    + i % d.ringSize r * 32
def Dev.ringRej (d : Dev) : Dev := d.ev 0x062 8

/-- Set a ring's interrupt. -/
def Dev.ringIrq (d : Dev) (r : Nat) : Dev := d.wr 0x062 (PKT_RING_STAT.IRQ.at r) 1

/-- HW advances past `n` descriptors (R489, R500). -/
def Dev.ringAdvance (d : Dev) (r n : Nat) : Dev :=
  let d := d.bump 0x062 (PKT_RING_HW.INDEX.at r) n
  let s := lookOr (0, d.ns) d.pkt.since r
  let d := { d with pkt := { d.pkt with since := put d.pkt.since r (s.1 + n, s.2) } }
  d.when (decide (max 1 (d.rd 0x062 (PKT_RING_IRQ.IRQ_COUNT.at r)) ≤ s.1 + n)) (·.ringIrq r)

/-- RING_IRQ_TIMER (R500). -/
def Dev.ringIrqTimer (d : Dev) (r : Nat) : Dev :=
  let us := d.rd 0x062 (PKT_RING_IRQ.IRQ_USEC.at r)
  match look d.pkt.since r with
  | some s =>
    if r < 256 ∧ us ≠ 0 ∧ d.rdB 0x062 (PKT_RING_STAT.IRQ.at r) = false then
      (d.reach ((s.2 + 1000 * us) * nsU)).ringIrq r
    else d
  | none => d

def execRingIrqTimer (ring : Nat) (s : State) : Host.Outcome State Fault Refusal := s.onDev (·.ringIrqTimer ring)

/-- Writing 1 to IRQ clears it, and the advances count anew (R500). -/
def Dev.ringIrqClear (d : Dev) (r : Nat) : Dev :=
  let d := d.wr 0x062 (PKT_RING_STAT.IRQ.at r) 0
  { d with pkt := { d.pkt with since := del d.pkt.since r } }

/-- A write of PKT_RING_CFG (R490). -/
def Dev.ringCfg (d : Dev) (r v : Nat) : Dev :=
  let typ := v % 4
  let lg := bits v 3 5
  let active := d.rdB 0x062 (PKT_RING_STAT.ACTIVE.at r)
  if 256 ≤ r then d
  else if active then
    if typ = 0 then
      ((d.wrW 0x062 (PKT_RING_CFG.word.at r).off (BitVec.ofNat 32 (v % 2 ^ 16 - bits v 2 1 * 4)))).wr 0x062
        (PKT_RING_STAT.ACTIVE.at r) 0
    else d.ringRej
  else if typ = 0 then d.wrW 0x062 (PKT_RING_CFG.word.at r).off (BitVec.ofNat 32 (v % 2 ^ 16 - bits v 2 1 * 4))
  else if lg < 4 ∨ 16 < lg then d.ringRej
  else
    let d := d.wrW 0x062 (PKT_RING_CFG.word.at r).off (BitVec.ofNat 32 (v % 2 ^ 16 - bits v 2 1 * 4))
    let d := (d.wr 0x062 (PKT_RING_SW.INDEX.at r) 0).wr 0x062 (PKT_RING_HW.INDEX.at r) 0
    d.wr 0x062 (PKT_RING_STAT.ACTIVE.at r) 1

/-- RING_ENABLE: a write whose TYPE is not 0. -/
def execRingEnable (ring cfg : Nat) (s : State) : Host.Outcome State Fault Refusal :=
  s.onDev fun d => d.regDo 0x062 fun d => if cfg % 4 = 0 then d else d.ringCfg ring cfg

/-- RING_DISABLE: a write whose TYPE is 0. -/
def execRingDisable (ring cfg : Nat) (s : State) : Host.Outcome State Fault Refusal :=
  s.onDev fun d => d.regDo 0x062 fun d => if cfg % 4 = 0 then d.ringCfg ring cfg else d

/-- A write of SW (R489): ignored when the ring would hold more than it has descriptors. -/
def Dev.ringSwWrite (d : Dev) (r sw : Nat) : Dev :=
  let sw := sw % 131072
  let held := if d.ringType r = 3 then (d.ringHw r + 131072 - sw) % 131072 else (sw + 131072 - d.ringHw r) % 131072
  if 256 ≤ r then d
  else if d.ringSize r < held then d.ringRej
  else d.wr 0x062 (PKT_RING_SW.INDEX.at r) sw

/-- RING_SW_WRITE. -/
def execRingSwWrite (ring sw : Nat) (s : State) : Host.Outcome State Fault Refusal := s.onDev (·.regDo 0x062 (·.ringSwWrite ring sw))

/-- A descriptor or record write of the engine; a failure is a fault of page 0x062. -/
def Dev.ringWrite (d : Dev) (a : Nat) (words : List Nat) : Dev × Bool :=
  let r := d.busWrite a (words.flatMap (leBytes 4))
  if r.2 then r else (d.enterFault 0x062 ⟨0x04, 0, a⟩, false)

/-- Words 2 to 7 of a returned RX descriptor (R491). -/
def rxWords2 (len status src flen rule info : Nat) (sop eop : Bool) (ts tsf key menu reason : Nat) : List Nat :=
  [len % 2 ^ 16 + b2n sop * 2 ^ 16 + b2n eop * 2 ^ 17 + status * 2 ^ 18 + src % 64 * 2 ^ 24,
    flen % 2 ^ 16 + rule % 2 ^ 16 * 2 ^ 16, info % 2 ^ 32, ts % 2 ^ 32,
    bits key 304 6 + menu % 2 * 2 ^ 6 + reason % 256 * 2 ^ 8, tsf % 2 ^ 16]

/-- Buffer address in a descriptor, from a given reader of the link (R491, R496). -/
def Dev.descBuf (d : Dev) (host : List (Nat × Nat)) (a : Nat) : Option Nat :=
  (d.busRead host a 8).map fun b => ofLeBytes (b.take 4) + nth 0 b 4 % 16 * 2 ^ 32

/-- Fill buffers and return descriptors, one for each piece (R492, R493). `bad` returns them as RING_EXHAUSTED. -/
def Dev.rxFillRing (d : Dev) (r : Nat) (host : List (Nat × Nat)) (bad : Bool) (size flen : Nat)
    (info : Nat → Bool → Bool → Nat → List Nat) : List (List Nat) → Nat → Bool → Dev × Bool
  | [], _, _ => (d, true)
  | piece :: rest, i, sop =>
    let a := d.ringAddr r i
    match d.descBuf host a with
    | none => (d.enterFault 0x062 ⟨0x04, 0, a⟩, false)
    | some buf =>
      let p := if bad then d.drawOctets size else (d, piece)
      let w := p.1.busWrite (buf / 64 * 64) p.2
      if w.2 = false then (p.1.enterFault 0x062 ⟨0x04, 0, buf / 64 * 64⟩, false)
      else
        let q := w.1.ringWrite (a + 8) (info (if bad then 0 else piece.length) sop rest.isEmpty (b2n bad))
        if q.2 then Dev.rxFillRing q.1 r host bad size flen info rest (i + 1) false else (q.1, false)

/-- Pieces of at most `n` octets, `fuel` bounding their number. -/
def pieces (n : Nat) : Nat → List Nat → List (List Nat)
  | 0, _ => []
  | f + 1, l => if l.length ≤ n then [l] else l.take n :: pieces n f (l.drop n)

/-- Deliver a frame to an RX ring (R486, R491 to R494), and free it. Descriptors that lie beyond the PCI Express link are
read through `host`. -/
def Dev.rxRing (d : Dev) (r : Nat) (host : List (Nat × Nat)) (f : PFrame) (octets : List Nat)
    (rule key menu reason : Nat) : Dev :=
  if d.ringType r ≠ 1 ∨ 256 ≤ r ∨ d.inService 0x062 = false then (d.cnt 0x061 PKT_CNT_DEST_OFF.COUNT).freeFrame f.basket
  else
    let posted := d.ringHeld r false
    let buf := d.rd 0x062 (PKT_RING_CFG.BUF.at r)
    let size := 64 * (if buf = 0 then 256 else buf)
    let info (len : Nat) (sop eop : Bool) (st : Nat) :=
      rxWords2 len st f.src octets.length rule f.info sop eop f.tsNs f.tsFrac key menu reason
    if posted = 0 then
      let d := d.cnt 0x062 (PKT_RING_DROP.EMPTY.at r)
      (((d.cnt 0x062 PKT_CNT_RX_EMPTY.COUNT).ev 0x062 10).freeFrame f.basket)
    else
      let ps := pieces size 9729 octets
      let bad := decide (posted < ps.length)
      let ps := if bad then ps.take posted else ps
      let w := Dev.rxFillRing d r host bad size octets.length info ps (d.ringHw r) true
      let d := w.1
      if w.2 = false then d.freeFrame f.basket
      else
        let d := d.ringAdvance r ps.length
        let d := if bad then ((d.cnt 0x062 (PKT_RING_DROP.EXH.at r)).cnt 0x062 PKT_CNT_RX_EXH.COUNT).ev 0x062 9
          else d.cnt 0x062 PKT_CNT_RX_FRAMES.COUNT
        d.freeFrame f.basket

/-- Write a completion record to a CPL ring (R484, R499). -/
def Dev.cplRing (d : Dev) (r : Nat) (words : List Nat) : Dev :=
  if d.ringType r ≠ 3 ∨ d.inService 0x062 = false ∨ d.ringSize r ≤ d.ringHeld r true then
    (d.cnt 0x061 PKT_CNT_CPL_LOST.COUNT).ev 0x061 10
  else
    let w := d.ringWrite (d.ringAddr r (d.ringHw r)) (words ++ List.replicate 4 0)
    if w.2 then (w.1.ringAdvance r 1).cnt 0x062 PKT_CNT_CPL.COUNT else w.1

/-- WLAN_COMPLETION (R484): the oldest completion on its way is taken. -/
def Dev.wlanCompletion (d : Dev) : Dev :=
  match d.cpls with
  | [] => d
  | c :: rest =>
    let d := { d with cpls := rest }
    let s := look d.pkt.sent c.basket
    let d := (d.freeFrame c.basket)
    let d := { d with pkt := { d.pkt with sent := del d.pkt.sent c.basket } }
    let d := d.when (decide (c.status = 7) && decide (0x20 ≤ c.outcome) && decide (c.outcome ≤ 0x25))
      (·.cnt 0x061 PKT_CNT_WLAN_REFUSED.COUNT)
    match s with
    | some (true, r) => d.cplRing r c.words
    | _ => d

def execWlanCompletion (s : State) : Host.Outcome State Fault Refusal := s.onDev (·.wlanCompletion)

/-! ### Rewriting (R479 to R481, R487) -/

/-- A frame under its action: octets, where the key's IP header stands (version, offset), steps skipped. -/
structure Rw where
  o : List Nat
  ip : Option (Nat × Nat)
  skip : Nat
deriving DecidableEq, Repr

def Rw.skipped (w : Rw) : Rw := { w with skip := w.skip + 1 }

/-- Replace octets from offset `i`. -/
def patch (l : List Nat) (i : Nat) (v : List Nat) : List Nat := l.take i ++ v ++ l.drop (i + v.length)

/-- One's complement sum folded to 16 bits. -/
def fold16 (n : Nat) : Nat := let m := n / 65536 + n % 65536; m / 65536 + m % 65536

/-- The Internet checksum of octets. -/
def inetSum : List Nat → Nat
  | [] => 0
  | [a] => a * 256
  | a :: b :: r => fold16 (a * 256 + b + inetSum r)
def inetCsum (l : List Nat) : Nat := 0xFFFF - fold16 (inetSum l)

/-- A 16-bit word of the IPv4 header at `ip` becomes `new`, and its checksum follows. -/
def ip4Set (l : List Nat) (ip k new : Nat) : List Nat :=
  let old := ob2 l (ip + k)
  let c := ob2 l (ip + 10)
  let c' := 0xFFFF - fold16 ((0xFFFF - c) + (0xFFFF - old) + new)
  patch (patch l (ip + k) (beBytes 2 new)) (ip + 10) (beBytes 2 c')

/-- POP_TUNNEL. -/
def Rw.popTunnel (w : Rw) (p : Parse) : Rw :=
  match p.innerEth, p.greIp with
  | some i, _ =>
    { w with o := w.o.drop i, ip := w.ip.bind fun v => if i ≤ v.2 then some (v.1, v.2 - i) else none }
  | none, some (a, b) =>
    let o := patch (w.o.take a ++ w.o.drop b) p.outer.typeAt
      (beBytes 2 (if ob w.o b / 16 = 6 then 0x86DD else 0x0800))
    { w with o := o, ip := w.ip.bind fun v =>
        if v.2 < a then some v else if b ≤ v.2 then some (v.1, v.2 - (b - a)) else none }
  | none, none => w.skipped

/-- The outermost tag of an Ethernet frame. -/
def outerTagged (l : List Nat) : Bool := decide (ob2 l 12 = 0x8100) || decide (ob2 l 12 = 0x88A8)

/-- POP_VLAN. -/
def Rw.popVlan (w : Rw) (dot11 : Bool) : Rw :=
  if !dot11 && outerTagged w.o then
    { w with o := w.o.take 12 ++ w.o.drop 16, ip := w.ip.map fun v => (v.1, v.2 - 4) }
  else w.skipped

/-- SET_DMAC and SET_SMAC: six octets at an offset. -/
def Rw.setAddr (w : Rw) (dot11 : Bool) (i : Nat) (a : List Nat) : Rw :=
  if dot11 ∨ w.o.length < 14 then w.skipped else { w with o := patch w.o i a }

/-- SET_VID and SET_PCP: the outermost tag's TCI under a function. -/
def Rw.setTci (w : Rw) (dot11 : Bool) (f : Nat → Nat) : Rw :=
  if !dot11 && outerTagged w.o then { w with o := patch w.o 14 (beBytes 2 (f (ob2 w.o 14))) } else w.skipped

/-- SET_DSCP, on the outermost IP header of the frame as it now stands. -/
def Rw.setDscp (w : Rw) (dot11 : Bool) (v : Nat) : Rw :=
  let y := (parseFrame w.o dot11).outer
  if y.ip = 4 then
    let old := ob2 w.o y.ipAt
    { w with o := ip4Set w.o y.ipAt 0 (old / 256 * 256 + v * 4 + old % 4) }
  else if y.ip = 6 then
    let old := ob2 w.o y.ipAt
    { w with o := patch w.o y.ipAt (beBytes 2 (old / 4096 * 4096 + v * 64 + old % 64)) }
  else w.skipped

/-- DEC_TTL: none when the frame is not forwarded (R481). -/
def Rw.decTtl (w : Rw) : Option Rw :=
  match w.ip with
  | none => some w.skipped
  | some (v, i) =>
    let at' := if v = 4 then i + 8 else i + 7
    let t := ob w.o at'
    if t ≤ 1 then none
    else if v = 4 then some { w with o := ip4Set w.o i 8 ((t - 1) * 256 + ob w.o (i + 9)) }
    else some { w with o := patch w.o at' [t - 1] }

/-- PUSH_VLAN. -/
def Rw.pushVlan (w : Rw) (dot11 : Bool) (pcp vid : Nat) : Rw :=
  if dot11 ∨ w.o.length < 14 then w.skipped
  else { w with o := w.o.take 12 ++ [0x81, 0x00] ++ beBytes 2 (pcp * 2 ^ 13 + vid) ++ w.o.drop 12 }

/-- PUSH_TMPL with its fix-ups (R487): `t` the template's 128 octets, `key` the pass's key. -/
def Rw.pushTmpl (w : Rw) (t : List Nat) (key : Nat) : Rw :=
  let len := ob t 0
  if len < 14 ∨ 120 < len then w.skipped
  else
    let f := w.o.length
    let l3 := ob t 1
    let l4 := ob t 2
    let fl := ob t 3
    let h := (t.drop 8).take len
    let h := if bit fl 0 then
        let h := patch (patch h (l3 + 2) (beBytes 2 ((len - l3 + f) % 65536))) (l3 + 10) [0, 0]
        patch h (l3 + 10) (beBytes 2 (inetCsum ((h.drop l3).take (ob h l3 % 16 * 4))))
      else h
    let h := if bit fl 1 then patch h (l3 + 4) (beBytes 2 ((len - l3 - 40 + f) % 65536)) else h
    let h := if bit fl 2 then
        let h := if bit fl 3 then patch h l4 (beBytes 2 (0xC000 + crc32 (beBytes 40 key) % 0x4000)) else h
        let n := len - l4 + f
        let h := patch (patch h (l4 + 4) (beBytes 2 (n % 65536))) (l4 + 6) [0, 0]
        if bit fl 1 then
          let pseudo := (h.drop (l3 + 8)).take 32 ++ beBytes 4 n ++ [0, 0, 0, 17]
          let c := inetCsum (pseudo ++ h.drop l4 ++ w.o)
          patch h (l4 + 6) (beBytes 2 (if c = 0 then 0xFFFF else c))
        else h
      else h
    { w with o := h ++ w.o, ip := w.ip.map fun v => (v.1, v.2 + len) }

/-- Address table entry `i` as six octets. -/
def Dev.addrEntry (d : Dev) (i : Nat) : List Nat :=
  leBytes 4 (d.rd 0x061 (PKT_ADDR.ADDR_LO.at i)) ++ leBytes 2 (d.rd 0x061 (PKT_ADDR.ADDR_HI.at i))

/-- Steps 1 to 3 of an action (R479). -/
def Dev.rewriteHead (d : Dev) (a : List Nat) (dot11 : Bool) (p : Parse) (w : Rw) : Rw :=
  let w := if actFlag a 7 then w.popTunnel p else w
  let w := if actFlag a 6 then w.popVlan dot11 else w
  let w := if actFlag a 0 then w.setAddr dot11 0 (d.addrEntry (actF a 2 12 12)) else w
  let w := if actFlag a 1 then w.setAddr dot11 6 (d.addrEntry (actF a 3 0 12)) else w
  let w := if actFlag a 2 then w.setTci dot11 fun t => t / 4096 * 4096 + actF a 2 0 12 else w
  let w := if actFlag a 3 then w.setTci dot11 fun t => t % 8192 + actF a 1 16 3 * 8192 else w
  if actFlag a 4 then w.setDscp dot11 (actF a 1 19 6) else w

/-! ### Forwarding (R482 to R486) -/

/-- A valid station entry with an address, most significant octet last. -/
def Dev.staByAddr (d : Dev) (a : Nat) : Option Nat :=
  (d.mac.lookup.map (·.2)).find? fun s =>
    d.staValid s && decide (d.sta s 1 0 32 + d.sta s 2 0 16 * 2 ^ 32 = a)

/-- Hand a frame to a transmit queue of a port (R514): answers whether it was taken. -/
def Dev.ethEnqueue (d : Dev) (m eq : Nat) (t : EthTx) : Dev × Bool :=
  let p := 0x068 + m
  let e := nth EthMac.reset d.eth m
  let q := lookOr [] e.queues eq
  if m < 5 ∧ d.inService p ∧ q.length < 256 then
    ({ d with eth := setAt d.eth m { e with queues := put e.queues eq (q ++ [t]) } }, true)
  else if m < 5 then
    let c := d.rd p ETH_TX_REFUSED.COUNT
    let d := (d.wr p ETH_TX_REFUSED.COUNT (c + 1)).when (decide ((c + 1) % 2 ^ 31 = 0)) fun f =>
      (f.wr p (ETH_CNT_HALF.word.bitOf 20) 1).ev p 8
    (d, false)
  else (d, false)

/-- Words 0 to 4 of the enqueue request (R483, R484). -/
def Dev.wlanWords (d : Dev) (a : List Nat) (b len fmt sta tid cookie : Nat) : List Nat :=
  [b, len % 2 ^ 14 + fmt * 2 ^ 14 + tid % 8 * 2 ^ 16 + sta % 2048 * 2 ^ 20,
    actF a 5 21 6 + actF a 5 27 4 * 2 ^ 6 + actF a 6 0 2 * 2 ^ 10 + actF a 5 31 1 * 2 ^ 12 + actF a 6 2 1 * 2 ^ 13
      + actF a 6 3 1 * 2 ^ 14 + actF a 5 18 3 * 2 ^ 16, d.beat % 2 ^ 32, cookie, 0, 0, 0]

/-- Traffic class of the IP header from which the pass's key was built: as the rewritten frame has it where the header still
stands, else as it was. -/
def keyTos (w : Rw) (y : Layer) (was : List Nat) : Nat :=
  match w.ip with
  | some (v, i) => if v = 4 then ob w.o (i + 1) else ob2 w.o i / 16 % 256
  | none => y.tos was

/-- FWD WLAN (R483); `tos` as `keyTos`. -/
def Dev.fwdWlan (d : Dev) (f : PFrame) (a : List Nat) (octets : List Nat) (tos : Nat) : Dev :=
  let dmac := ofLeBytes (octets.take 6)
  let src := actF a 5 11 2
  let group := decide (src = 1) && bit (ob octets 0) 0
  let sta := if src = 0 then some (actF a 5 0 11)
    else if src = 2 then some (f.info % 2048)
    else if group then some 0x7FF else d.staByAddr dmac
  match sta with
  | none => (((d.cnt 0x061 PKT_CNT_STA_MISS.COUNT).ev 0x061 8).freeFrame f.basket)
  | some sta =>
    if d.inService 0x03B = false then (d.cnt 0x061 PKT_CNT_DEST_OFF.COUNT).freeFrame f.basket
    else
      let ts := actF a 5 16 2
      let tid := if ts = 0 then actF a 5 13 3
        else if ts = 1 then (if outerTagged octets && !f.dot11 then ob octets 14 / 32 else 0)
        else tos / 4 / 8
      let fmt := if f.dot11 then 2 else if ob2 octets 12 < 0x0600 then 1 else 0
      let d := (d.cnt 0x061 PKT_CNT_WLAN_ENQ.COUNT)
      let d := { d with pkt := { d.pkt with sent := put d.pkt.sent f.basket (bit (nth 0 a 6) 12, actF a 6 4 8) } }
      d.enqueueRequest (d.wlanWords a f.basket octets.length fmt sta tid f.cookie)

/-- FWD of an action (R478, R482 to R486). -/
def Dev.forward (d : Dev) (f : PFrame) (a : List Nat) (octets : List Nat) (second : Bool) (tos : Nat)
    (host : List (Nat × Nat)) (rule key menu reason : Nat) : Dev :=
  match actF a 0 0 3 with
  | 0 => (d.cnt 0x061 PKT_CNT_DROP.COUNT).freeFrame f.basket
  | 1 =>
    let r := d.ethEnqueue (actF a 0 3 8) (actF a 0 11 3)
      { octets := octets, basket := some f.basket, tsReq := f.tsReq, ven := false }
    if r.2 then r.1 else (r.1.cnt 0x061 PKT_CNT_ETH_REFUSED.COUNT).freeFrame f.basket
  | 2 => d.fwdWlan f a octets tos
  | 3 => d.rxRing (actF a 0 3 8) host f octets rule key menu reason
  | 4 =>
    if d.inService 0x040 then
      let d := (d.cnt 0x061 PKT_CNT_VEN.COUNT).freeFrame f.basket
      { d with ven := { d.ven with inbox := d.ven.inbox ++ [(octets, f.tsNs)] } }
    else (d.cnt 0x061 PKT_CNT_DEST_OFF.COUNT).freeFrame f.basket
  | _ =>
    if second then (d.cnt 0x060 PKT_CNT_RECIRC_LIMIT.COUNT).freeFrame f.basket
    else
      { d with pkt := { d.pkt with recirc := d.pkt.recirc ++
          [{ f with menu := menu, kt2 := actF a 1 12 4, inner := actFlag a 11 }] } }

/-- The selected action applied to a frame (R479). -/
def Dev.applyAction (d : Dev) (f : PFrame) (a : List Nat) (p : Parse) (second inner : Bool)
    (host : List (Nat × Nat)) (rule key menu : Nat) : Dev :=
  let y := p.layer inner
  let reason := if rule = 0xFFFF then 1 else 0
  let f := if actFlag a 10 then { f with info := nth 0 a 4 } else f
  let w0 : Rw := { o := d.frameOctets f.basket, ip := if y.ip = 0 then none else some (y.ip, y.ipAt), skip := 0 }
  let w := d.rewriteHead a f.dot11 p w0
  match (if actFlag a 5 then w.decTtl else some w) with
  | none =>
    let d := d.cnt 0x061 PKT_CNT_REWRITE_SKIP.COUNT w.skip
    let d := (d.cnt 0x061 PKT_CNT_TTL.COUNT).ev 0x061 9
    if d.rdB 0x060 PKT_EXC_CFG.EXC_EN then
      let r := d.rewriteFrame f.basket w.o
      if r.2 then r.1.rxRing (d.rd 0x060 PKT_EXC_CFG.EXC_RING) host f w.o rule key menu 2 else r.1
    else d.freeFrame f.basket
  | some w =>
    let w := if actFlag a 8 then w.pushVlan f.dot11 (actF a 1 16 3) (actF a 2 0 12) else w
    let ta := d.rd 0x061 PKT_TMPL_BASE.BASE * 2 ^ 17 + 128 * actF a 3 12 10
    if actFlag a 9 && !d.rdOk ta 128 then
      (d.freeFrame f.basket).enterFault 0x061 ⟨0x04, 0, ta⟩
    else
      let w := if actFlag a 9 then w.pushTmpl (d.ldBytes ta 128) key else w
      let d := d.cnt 0x061 PKT_CNT_REWRITE_SKIP.COUNT w.skip
      if 9728 < w.o.length then (d.cnt 0x063 PKT_CNT_TOO_LONG.COUNT).freeFrame f.basket
      else
        let r := d.rewriteFrame f.basket w.o
        if r.2 = false then r.1
        else
          let d := r.1.when (bit (nth 0 a 0) 14) (·.ctrAdd (actF a 0 16 14) w.o.length)
          d.forward f a w.o second (keyTos w y w0.o) host rule key menu reason

/-- A pass of a frame whose baskets can be read (R464 to R472). -/
def Dev.passRead (d : Dev) (f : PFrame) (second : Bool) (host : List (Nat × Nat)) : Dev :=
  let l := d.frameOctets f.basket
  let p := parseFrame l f.dot11
  let menu := if second then f.menu else d.menuActive
  let hdr := d.menuHdr menu
  let kt := if second ∧ f.kt2 ≠ 0xF then f.kt2 else keySel hdr.1 p
  let inner := second && f.inner
  let key := buildKey p l kt f.src second inner f.info
  let d := d.cnt 0x060 (if second then PKT_CNT_PASS2.COUNT else PKT_CNT_PASS1.COUNT)
  let d := d.when p.depthExc (·.cnt 0x060 PKT_CNT_DEPTH.COUNT)
  let d := d.when p.lenBad (·.cnt 0x060 PKT_CNT_LENBAD.COUNT)
  let d := d.when p.frag (·.cnt 0x060 PKT_CNT_FRAG.COUNT)
  match second, f.direct with
  | false, some i => d.applyAction f (d.directAction i) p second inner host 0xFFFE key menu
  | _, _ =>
    match d.tcMatch menu key (p.depthExc || p.lenBad) with
    | some (i, a) => d.applyAction f a p second inner host i key menu
    | none => (d.cnt 0x060 PKT_CNT_DEFAULT.COUNT).applyAction f hdr.2 p second inner host 0xFFFF key menu

/-- A pass of a frame. -/
def Dev.pass (d : Dev) (f : PFrame) (second : Bool) (host : List (Nat × Nat)) : Dev :=
  match d.frameBad f.basket with
  | some u => (d.freeFrame f.basket).enterFault 0x063 ⟨0x04, 0, d.unitAddr u⟩
  | none => d.passRead f second host

/-- The pages a pass needs carry work. -/
def Dev.pktRuns (d : Dev) : Bool := d.active 0x060 && d.active 0x061 && d.active 0x063

/-- FIRST_PASS (R472) of the oldest frame of a pipeline. -/
def Dev.firstPass (d : Dev) (pipe : Nat) (host : List (Nat × Nat)) : Dev :=
  match d.waiting pipe, d.pktRuns with
  | f :: _, true =>
    let d := { d with pkt := { d.pkt with inq := d.pkt.inq.filter fun g => decide (g.basket ≠ f.basket) } }
    d.pass f false host
  | _, _ => d

def execFirstPass (pipe : Nat) (host : List (Nat × Nat)) (s : State) : Host.Outcome State Fault Refusal :=
  s.onDev (·.firstPass pipe host)

/-- SECOND_PASS (R475) of the oldest recirculated frame of a pipeline. -/
def Dev.secondPass (d : Dev) (pipe : Nat) (host : List (Nat × Nat)) : Dev :=
  match d.pkt.recirc.filter (fun f => decide ((if f.src < 8 then 0 else 1) = pipe)), d.pktRuns with
  | f :: _, true =>
    let d := { d with pkt := { d.pkt with recirc := d.pkt.recirc.filter fun g => decide (g.basket ≠ f.basket) } }
    d.pass f true host
  | _, _ => d

def execSecondPass (pipe : Nat) (host : List (Nat × Nat)) (s : State) : Host.Outcome State Fault Refusal :=
  s.onDev (·.secondPass pipe host)

/-! ### TX rings (R496 to R498) -/

/-- What a look at a TX ring's descriptors finds: nothing whole yet, a descriptor that cannot be read, a refused frame of
some descriptors, or a frame's descriptors. -/
inductive TxLook where
  | wait
  | unread (addr : Nat)
  | bad (n : Nat)
  | frame (descs : List (List Nat))
deriving DecidableEq, Repr

/-- Look from index `i`, with `left` descriptors posted, the descriptors before it given. -/
def Dev.txLook (d : Dev) (r : Nat) (host : List (Nat × Nat)) : Nat → Nat → List (List Nat) → TxLook
  | 0, _, _ => .wait
  | left + 1, i, before =>
    let a := d.ringAddr r i
    match d.busRead host a 32 with
    | none => .unread a
    | some b =>
      let w := toWords b 8
      let w2 := nth 0 w 2
      let n := before.length + 1
      if bit w2 16 ≠ before.isEmpty ∨ bits w2 0 16 = 0 ∨ 64 < n then .bad n
      else if bit w2 17 then .frame (before ++ [w])
      else Dev.txLook d r host left (i + 1) (before ++ [w])

/-- Write STATUS into `n` descriptors from HW, and advance. -/
def Dev.txReturn (d : Dev) (r n status : Nat) : Dev :=
  let w := (List.range n).foldl (fun (acc : Dev × Bool) k =>
    if acc.2 then acc.1.ringWrite (acc.1.ringAddr r (d.ringHw r + k) + 24) [status] else acc) (d, true)
  if w.2 then w.1.ringAdvance r n else w.1

def Dev.txBad (d : Dev) (r n : Nat) : Dev :=
  ((d.txReturn r n 2).cnt 0x062 PKT_CNT_TX_BADDESC.COUNT).ev 0x062 11

/-- The octets of a TX frame's buffers, none when a read fails. -/
def Dev.txOctets (d : Dev) (host : List (Nat × Nat)) : List (List Nat) → Option (List Nat)
  | [] => some []
  | w :: rest =>
    match d.busRead host (nth 0 w 0 + nth 0 w 1 % 16 * 2 ^ 32) (bits (nth 0 w 2) 0 16), d.txOctets host rest with
    | some a, some b => some (a ++ b)
    | _, _ => none

/-- TX_RING_FRAME_START (R497, R498). -/
def Dev.txRingFrameStart (d : Dev) (r : Nat) (host : List (Nat × Nat)) : Dev :=
  if d.ringType r ≠ 2 ∨ 256 ≤ r ∨ d.inService 0x062 = false then d
  else
    match d.txLook r host (d.ringHeld r false) (d.ringHw r) [] with
    | .wait => d
    | .unread a => d.enterFault 0x062 ⟨0x04, 0, a⟩
    | .bad n => d.txBad r n
    | .frame ws =>
      let n := ws.length
      let w := nth [] ws 0
      let total := (ws.map fun v => bits (nth 0 v 2) 0 16).foldl (· + ·) 0
      let direct := bit (nth 0 w 2) 18
      let fmt11 := bit (nth 0 w 2) 20
      let act := d.directAction (bits (nth 0 w 3) 0 10)
      if 9728 < total ∨ (fmt11 ∧ (direct = false ∨ actF act 0 0 3 ≠ 2)) then d.txBad r n
      else
        match d.txOctets host ws with
        | none => d.txReturn r n 4
        | some o =>
          if d.inService 0x060 = false then d.txReturn r n 3
          else
            let f : PFrame :=
              { basket := 0, src := 0x10, dot11 := fmt11, info := nth 0 w 4, tsNs := 0, tsFrac := 0, cookie := nth 0 w 5,
                tsReq := if bit (nth 0 w 2) 19 then some (r, d.ringHw r) else none,
                direct := if direct then some (bits (nth 0 w 3) 0 10) else none, menu := 0, kt2 := 0xF, inner := false }
            let q := d.pktIn f o
            if q.2 then (q.1.txReturn r n 0).cnt 0x062 PKT_CNT_TX_FRAMES.COUNT else q.1.txReturn r n 1

def execTxRingFrameStart (ring : Nat) (host : List (Nat × Nat)) (s : State) : Host.Outcome State Fault Refusal :=
  s.onDev (·.txRingFrameStart ring host)

/-! ### Receive descriptors of the MAC (R457, R471) -/

/-- A receive descriptor is offered to pipeline 1: whether it was taken. -/
def Dev.rxDescriptor (d : Dev) (f : PFrame) (octets : List Nat) : Dev × Bool :=
  if d.inService 0x060 = false then (d, false)
  else if 1024 ≤ (d.waiting 1).length then ((d.cnt 0x060 PKT_CNT_IN_FULL.COUNT).ev 0x060 10, false)
  else d.pktIn f octets

/-! ### Starting and leaving (R501 to R503) -/

/-- First failed check of a Start of a packet engine page. -/
def Dev.pktStartCheck (d : Dev) (k : Nat) : Option Nat :=
  match k with
  | 3 => if 1048576 < d.rd 0x063 PKT_DRAM_UNITS.UNITS then some 0x03 else none
  | 0 => if d.bstate 0x063 ≠ .running ∨ d.bstate 0x061 ≠ .running then some 0x03 else none
  | _ => if d.bstate 0x063 ≠ .running then some 0x03 else none

/-- Start of page 0x063 frees every basket. -/
def Dev.pktOnStart (d : Dev) (k : Nat) : Dev :=
  if k = 3 then
    let d := (d.wr 0x063 PKT_FREE_ON.FREE 32768).wr 0x063 PKT_FREE_ON.MIN 32768
    d.wr 0x063 PKT_FREE_DRAM.FREE (d.rd 0x063 PKT_DRAM_UNITS.UNITS)
  else d

/-- A page discards its work: 0x060 or 0x061 the frames in the pipelines; 0x063 every chain, and every
basket is free (R503). -/
def Dev.pktOnLeave (d : Dev) (k : Nat) : Dev :=
  if k ≤ 1 then
    let l := d.pkt.inq ++ d.pkt.recirc
    let d := d.forAll l fun f e => e.freeFrame f.basket
    { d with pkt := { d.pkt with inq := [], recirc := [] } }
  else if k = 3 then
    let d := d.freeUnits d.usedUnits
    { d with pkt := { d.pkt with chains := [] } }
  else d

end Sys2Proof.Machine
end

