-- ==== Sys2Proof/Machine/Crypto.lean ====
section
/-! DEFINITION. The cryptographic functions the spec names by their standards (R622, R623, R633 to R637): AES (FIPS 197)
and its modes, GCM, CCM, CMAC, XTS, SHA-256 and SHA-384 (FIPS 180-4), HMAC, the counter-mode KDF, ECDSA verification
(FIPS 186-5). All over lists of octets. PRESUMED: the standards are taken as published (log entry 8). -/

namespace Sys2Proof.Machine

/-! ### AES -/

def xtime (a : Nat) : Nat := if a < 128 then a * 2 else (a * 2 % 256) ^^^ 0x1B

/-- The S-box of FIPS 197, one literal for each row of its table: the octet of column 0 is the most significant. -/
def sboxRows : List Nat :=
  [0x637C777BF26B6FC53001672BFED7AB76, 0xCA82C97DFA5947F0ADD4A2AF9CA472C0, 0xB7FD9326363FF7CC34A5E5F171D83115,
    0x04C723C31896059A071280E2EB27B275, 0x09832C1A1B6E5AA0523BD6B329E32F84, 0x53D100ED20FCB15B6ACBBE394A4C58CF,
    0xD0EFAAFB434D338545F9027F503C9FA8, 0x51A3408F929D38F5BCB6DA2110FFF3D2, 0xCD0C13EC5F974417C4A77E3D645D1973,
    0x60814FDC222A908846EEB814DE5E0BDB, 0xE0323A0A4906245CC2D3AC629195E479, 0xE7C8376D8DD54EA96C56F4EA657AAE08,
    0xBA78252E1CA6B4C6E8DD741F4BBD8B8A, 0x703EB5664803F60E613557B986C11D9E, 0xE1F8981169D98E949B1E87E9CE5528DF,
    0x8CA1890DBFE6426841992D0FB054BB16]

/-- Its inverse. -/
def invSboxRows : List Nat :=
  [0x52096AD53036A538BF40A39E81F3D7FB, 0x7CE339829B2FFF87348E4344C4DEE9CB, 0x547B9432A6C2233DEE4C950B42FAC34E,
    0x082EA16628D924B2765BA2496D8BD125, 0x72F8F66486689816D4A45CCC5D65B692, 0x6C704850FDEDB9DA5E154657A78D9D84,
    0x90D8AB008CBCD30AF7E45805B8B34506, 0xD02C1E8FCA3F0F02C1AFBD0301138A6B, 0x3A9111414F67DCEA97F2CFCEF0B4E673,
    0x96AC7422E7AD3585E2F937E81C75DF6E, 0x47F11A711D29C5896FB7620EAA18BE1B, 0xFC563E4BC6D279209ADBC0FE78CD5AF4,
    0x1FDDA8338807C731B11210592780EC5F, 0x60517FA919B54A0D2DE57A9F93C99CEF, 0xA0E03B4DAE2AF5B0C8EBBB3C83539961,
    0x172B047EBA77D626E169146355210C7D]

def tableOctet (t : List Nat) (a : Nat) : Nat := t.getD (a / 16) 0 / 256 ^ (15 - a % 16) % 256

def sbox (a : Nat) : Nat := tableOctet sboxRows a
def invSbox (a : Nat) : Nat := tableOctet invSboxRows a

def xorBytes (a b : List Nat) : List Nat := List.zipWith (· ^^^ ·) a b

/-- Key expansion, word by word: `w` holds the words so far, latest first. -/
def aesExpand (nk : Nat) : Nat → Nat → Nat → List (List Nat) → List (List Nat)
  | 0, _, _, w => w.reverse
  | n + 1, i, rcon, w =>
    let prev := w.headD []
    let t :=
      if i % nk = 0 then
        let s := (prev.drop 1 ++ prev.take 1).map sbox
        (s.headD 0 ^^^ rcon) :: s.drop 1
      else if 6 < nk ∧ i % nk = 4 then prev.map sbox
      else prev
    aesExpand nk n (i + 1) (if i % nk = 0 then xtime rcon else rcon) (xorBytes (w.getD (nk - 1) []) t :: w)

/-- Pieces of `k` octets. -/
def chunks (k : Nat) (l : List Nat) : List (List Nat) :=
  (List.range (ceilDiv l.length k)).map fun i => (l.drop (k * i)).take k

/-- The round keys of a 128- or 256-bit key. -/
def aesKeys (key : List Nat) : List (List Nat) :=
  let nk := key.length / 4
  let words := aesExpand nk (4 * (nk + 7) - nk) nk 1 (chunks 4 key).reverse
  chunks 16 (words.flatMap id)

def shiftRows (s : List Nat) : List Nat := (List.range 16).map fun i => s.getD ((i + 4 * (i % 4)) % 16) 0
def invShiftRows (s : List Nat) : List Nat := (List.range 16).map fun i => s.getD ((i + 16 - 4 * (i % 4)) % 16) 0

/-- One column times the circulant matrix of 2, 3, 1, 1. -/
def mixColumn (c : List Nat) : List Nat :=
  let a (i : Nat) : Nat := c.getD (i % 4) 0
  let t := a 0 ^^^ a 1 ^^^ a 2 ^^^ a 3
  [0, 1, 2, 3].map fun r => a r ^^^ t ^^^ xtime (a r ^^^ a (r + 1))

/-- The inverse: the matrix of 14, 11, 13, 9 is that of 2, 3, 1, 1 after that of 5, 0, 4, 0. -/
def invMixColumn (c : List Nat) : List Nat :=
  let a (i : Nat) : Nat := c.getD i 0
  let u := xtime (xtime (a 0 ^^^ a 2))
  let v := xtime (xtime (a 1 ^^^ a 3))
  mixColumn [a 0 ^^^ u, a 1 ^^^ v, a 2 ^^^ u, a 3 ^^^ v]

/-- Encrypt one block under round keys. -/
def aesEnc (rks : List (List Nat)) (b : List Nat) : List Nat :=
  let s := xorBytes b (rks.headD [])
  let mid := (rks.drop 1).dropLast
  let s := mid.foldl (fun s k => xorBytes ((chunks 4 (shiftRows (s.map sbox))).flatMap mixColumn) k) s
  xorBytes (shiftRows (s.map sbox)) (rks.getLastD [])

/-- Decrypt one block under round keys. -/
def aesDec (rks : List (List Nat)) (b : List Nat) : List Nat :=
  let s := xorBytes b (rks.getLastD [])
  let mid := ((rks.drop 1).dropLast).reverse
  let s := mid.foldl (fun s k => (chunks 4 (xorBytes ((invShiftRows s).map invSbox) k)).flatMap invMixColumn) s
  xorBytes ((invShiftRows s).map invSbox) (rks.headD [])

/-! ### Modes -/

def beNum (l : List Nat) : Nat := l.foldl (fun n b => n * 256 + b) 0

def zeros (n : Nat) : List Nat := List.replicate n 0

/-- Zero octets up to a multiple of 16. -/
def pad16 (l : List Nat) : List Nat := l ++ zeros ((16 - l.length % 16) % 16)

/-- Add `i` to the low `w` octets of a counter block, modulo their range. -/
def ctrAdd (w : Nat) (blk : List Nat) (i : Nat) : List Nat :=
  blk.take (16 - w) ++ beBytes w ((beNum (blk.drop (16 - w)) + i) % 256 ^ w)

/-- Counter mode from a first counter block. -/
def ctrMode (rks : List (List Nat)) (w : Nat) (blk text : List Nat) : List Nat :=
  ((chunks 16 text).zipIdx).flatMap fun c => xorBytes c.1 (aesEnc rks (ctrAdd w blk c.2))

def cbcEnc (rks : List (List Nat)) : List Nat → List (List Nat) → List Nat
  | _, [] => []
  | iv, b :: r => let c := aesEnc rks (xorBytes b iv); c ++ cbcEnc rks c r

def cbcDec (rks : List (List Nat)) : List Nat → List (List Nat) → List Nat
  | _, [] => []
  | iv, b :: r => xorBytes (aesDec rks b) iv ++ cbcDec rks b r

/-- The last block of CBC: CBC-MAC. -/
def cbcMac (rks : List (List Nat)) (blocks : List (List Nat)) : List Nat :=
  blocks.foldl (fun c b => aesEnc rks (xorBytes b c)) (zeros 16)

def ghashMulFuel : Nat → Nat → Nat → Nat
  | 0, _, _ => 0
  | n + 1, x, v => (if bit x n then v else 0) ^^^ ghashMulFuel n x (if v % 2 = 1 then (v / 2) ^^^ (0xE1 * 2 ^ 120) else v / 2)

/-- Product of GHASH (SP 800-38D), blocks as numbers with their first bit highest. -/
def ghashMul (x y : Nat) : Nat := ghashMulFuel 128 x y

def ghash (h : Nat) (l : List Nat) : Nat := (chunks 16 l).foldl (fun y b => ghashMul (y ^^^ beNum b) h) 0

/-- The tag of AES-GCM with a 96-bit IV. -/
def gcmTag (rks : List (List Nat)) (iv aad ct : List Nat) : List Nat :=
  let h := beNum (aesEnc rks (zeros 16))
  let s := ghash h (pad16 aad ++ pad16 ct ++ beBytes 8 (8 * aad.length) ++ beBytes 8 (8 * ct.length))
  xorBytes (beBytes 16 s) (aesEnc rks (iv ++ [0, 0, 0, 1]))

/-- The text of AES-GCM, encrypted or decrypted. -/
def gcmText (rks : List (List Nat)) (iv text : List Nat) : List Nat := ctrMode rks 4 (iv ++ [0, 0, 0, 2]) text

/-- AES-CCM (SP 800-38C): the tag over nonce, associated data and plain text. -/
def ccmTag (rks : List (List Nat)) (nonce aad text : List Nat) (t : Nat) : List Nat :=
  let q := 15 - nonce.length
  let b0 := ((if aad = [] then 0 else 64) + 8 * ((t - 2) / 2) + (q - 1)) :: (nonce ++ beBytes q text.length)
  let a := if aad = [] then [] else if aad.length < 0xFF00 then beBytes 2 aad.length ++ aad
    else [0xFF, 0xFE] ++ beBytes 4 aad.length ++ aad
  let m := cbcMac rks (chunks 16 (b0 ++ pad16 a ++ pad16 text))
  (xorBytes m (aesEnc rks ((q - 1) :: (nonce ++ zeros q)))).take t

def ccmText (rks : List (List Nat)) (nonce text : List Nat) : List Nat :=
  let q := 15 - nonce.length
  ctrMode rks q ((q - 1) :: (nonce ++ zeros (q - 1) ++ [1])) text

/-- Doubling in GF(2^128) as CMAC uses it. -/
def cmacDbl (n : Nat) : Nat := if n < 2 ^ 127 then 2 * n else (2 * n % 2 ^ 128) ^^^ 0x87

/-- AES-CMAC (SP 800-38B), 16 octets. -/
def aesCmac (key msg : List Nat) : List Nat :=
  let rks := aesKeys key
  let k1 := cmacDbl (beNum (aesEnc rks (zeros 16)))
  let whole := decide (msg ≠ []) && decide (msg.length % 16 = 0)
  let bs := chunks 16 msg
  let last := if whole then xorBytes (bs.getLastD []) (beBytes 16 k1)
    else
      let t := if msg.length % 16 = 0 then [] else bs.getLastD []
      xorBytes (t ++ [0x80] ++ zeros (15 - t.length)) (beBytes 16 (cmacDbl k1))
  cbcMac rks ((if msg.length % 16 = 0 ∧ whole = false then bs else bs.dropLast) ++ [last])

/-- Multiplication of an XTS tweak by x (IEEE 1619): the tweak little-endian. -/
def xtsNext (t : List Nat) : List Nat :=
  let n := ofLeBytes t * 2
  leBytes 16 (if n < 2 ^ 128 then n else (n % 2 ^ 128) ^^^ 0x87)

def xtsBlock (enc : Bool) (rks : List (List Nat)) (t b : List Nat) : List Nat :=
  xorBytes ((if enc then aesEnc else aesDec) rks (xorBytes b t)) t

/-- XTS over blocks, the last one or two by ciphertext stealing. -/
def xtsRun (enc : Bool) (rks : List (List Nat)) : List Nat → List (List Nat) → List Nat
  | _, [] => []
  | t, [b] => xtsBlock enc rks t b
  | t, [b, c] =>
    if c.length = 16 then xtsBlock enc rks t b ++ xtsBlock enc rks (xtsNext t) c
    else
      -- the whole block of a stolen pair decrypts under the later tweak
      let cc := xtsBlock enc rks (if enc then t else xtsNext t) b
      xtsBlock enc rks (if enc then xtsNext t else t) (c ++ cc.drop c.length) ++ cc.take c.length
  | t, b :: c :: e :: r => xtsBlock enc rks t b ++ xtsRun enc rks (xtsNext t) (c :: e :: r)

/-- XTS-AES of one data unit. -/
def xts (enc : Bool) (k1 k2 tweak text : List Nat) : List Nat :=
  xtsRun enc (aesKeys k1) (aesEnc (aesKeys k2) tweak) (chunks 16 text)

/-! ### SHA-2 -/

/-- The largest `r` with `r ^ k ≤ n`, built bit by bit from bit `b - 1`. -/
def rootFuel (k n : Nat) : Nat → Nat → Nat
  | 0, r => r
  | b + 1, r => rootFuel k n b (if (r + 2 ^ b) ^ k ≤ n then r + 2 ^ b else r)

def primes80 : List Nat := (List.range 410).filter fun n => decide (2 ≤ n) && (List.range 19).all fun m => decide (m + 2 ≥ n) || decide (n % (m + 2) ≠ 0)

/-- The first 64 bits of the fraction of the `k`-th root of a prime. -/
def rootBits (k p : Nat) : Nat := rootFuel k (p * 2 ^ (64 * k)) 69 0 % 2 ^ 64

/-- SHA-2 round constants: cube roots of the first primes, their leading `w` bits. -/
def shaK (w n : Nat) : List Nat := (primes80.take n).map fun p => rootBits 3 p / 2 ^ (64 - w)

def rotr (w a k : Nat) : Nat := a / 2 ^ k + (a * 2 ^ (w - k)) % 2 ^ w

/-- One member of the SHA-2 family: word size, rounds, rotations of the big and small sigmas, and digest octets. -/
structure Sha where
  w : Nat
  rounds : Nat
  big : List Nat
  small : List Nat
  init : List Nat
  out : Nat

def sha256P : Sha :=
  { w := 32, rounds := 64, big := [2, 13, 22, 6, 11, 25], small := [7, 18, 3, 17, 19, 10],
    init := (primes80.take 8).map fun p => rootBits 2 p / 2 ^ 32, out := 32 }

def sha384P : Sha :=
  { w := 64, rounds := 80, big := [28, 34, 39, 14, 18, 41], small := [1, 8, 7, 19, 61, 6],
    init := ((primes80.drop 8).take 8).map (rootBits 2), out := 48 }

def Sha.bigS (p : Sha) (i a : Nat) : Nat :=
  rotr p.w a (p.big.getD i 0) ^^^ rotr p.w a (p.big.getD (i + 1) 0) ^^^ rotr p.w a (p.big.getD (i + 2) 0)

def Sha.smallS (p : Sha) (i a : Nat) : Nat :=
  rotr p.w a (p.small.getD i 0) ^^^ rotr p.w a (p.small.getD (i + 1) 0) ^^^ (a / 2 ^ p.small.getD (i + 2) 0)

/-- Message schedule: `w` holds the words so far, latest first. -/
def Sha.schedule (p : Sha) : Nat → List Nat → List Nat
  | 0, w => w.reverse
  | n + 1, w =>
    p.schedule n ((p.smallS 3 (w.getD 1 0) + w.getD 6 0 + p.smallS 0 (w.getD 14 0) + w.getD 15 0) % 2 ^ p.w :: w)

/-- One round on a to h. -/
def Sha.round (p : Sha) (s : List Nat) (kw : Nat) : List Nat :=
  let a := s.getD 0 0
  let b := s.getD 1 0
  let c := s.getD 2 0
  let e := s.getD 4 0
  let ch := (e &&& s.getD 5 0) ^^^ ((2 ^ p.w - 1 - e) &&& s.getD 6 0)
  let t1 := s.getD 7 0 + p.bigS 3 e + ch + kw
  let t2 := p.bigS 0 a + ((a &&& b) ^^^ (a &&& c) ^^^ (b &&& c))
  [(t1 + t2) % 2 ^ p.w, a, b, c, (s.getD 3 0 + t1) % 2 ^ p.w, e, s.getD 5 0, s.getD 6 0]

def Sha.compress (p : Sha) (ks h block : List Nat) : List Nat :=
  let w := p.schedule (p.rounds - 16) ((chunks (p.w / 8) block).map beNum).reverse
  let s := (List.zipWith (· + ·) ks w).foldl p.round h
  (List.zipWith (· + ·) h s).map (· % 2 ^ p.w)

/-- The digest of a message. -/
def Sha.hash (p : Sha) (msg : List Nat) : List Nat :=
  let blk := 2 * p.w
  let lenOct := p.w / 4
  let z := (blk - (msg.length + 1 + lenOct) % blk) % blk
  let m := msg ++ [0x80] ++ zeros z ++ beBytes lenOct (8 * msg.length)
  let ks := shaK p.w p.rounds
  (((chunks blk m).foldl (p.compress ks) p.init).flatMap (beBytes (p.w / 8))).take p.out

def sha256 (msg : List Nat) : List Nat := sha256P.hash msg
def sha384 (msg : List Nat) : List Nat := sha384P.hash msg

/-- HMAC (FIPS 198-1). -/
def Sha.hmac (p : Sha) (key msg : List Nat) : List Nat :=
  let blk := 2 * p.w
  let k := if blk < key.length then p.hash key else key
  let k := k ++ zeros (blk - k.length)
  p.hash (k.map (· ^^^ 0x5C) ++ p.hash (k.map (· ^^^ 0x36) ++ msg))

/-- The counter-mode KDF of SP 800-108 with HMAC-SHA-256 (R622): `len` octets (16 or 32, one block). -/
def kdf (parent label ctx : List Nat) (f len : Nat) : List Nat :=
  (sha256P.hmac parent (beBytes 4 1 ++ label ++ [0] ++ ctx ++ [f] ++ beBytes 4 (8 * len))).take len

/-! ### ECDSA verification -/

def powModFuel : Nat → Nat → Nat → Nat → Nat
  | 0, _, _, m => 1 % m
  | n + 1, b, e, m =>
    let r := powModFuel n (b * b % m) (e / 2) m
    if e % 2 = 1 then r * b % m else r

/-- Inverse modulo a prime of at most 384 bits. -/
def invMod (a m : Nat) : Nat := powModFuel 384 (a % m) (m - 2) m

/-- A curve y² = x³ - 3x + b (FIPS 186-5). -/
structure Curve where
  p : Nat
  n : Nat
  b : Nat
  gx : Nat
  gy : Nat
  oct : Nat

def p256 : Curve :=
  { p := 2 ^ 256 - 2 ^ 224 + 2 ^ 192 + 2 ^ 96 - 1
    n := 0xFFFFFFFF00000000FFFFFFFFFFFFFFFFBCE6FAADA7179E84F3B9CAC2FC632551
    b := 0x5AC635D8AA3A93E7B3EBBD55769886BC651D06B0CC53B0F63BCE3C3E27D2604B
    gx := 0x6B17D1F2E12C4247F8BCE6E563A440F277037D812DEB33A0F4A13945D898C296
    gy := 0x4FE342E2FE1A7F9B8EE7EB4A7C0F9E162BCE33576B315ECECBB6406837BF51F5
    oct := 32 }

def p384 : Curve :=
  { p := 2 ^ 384 - 2 ^ 128 - 2 ^ 96 + 2 ^ 32 - 1
    n := 0xFFFFFFFFFFFFFFFFFFFFFFFFFFFFFFFFFFFFFFFFFFFFFFFFC7634D81F4372DDF581A0DB248B0A77AECEC196ACCC52973
    b := 0xB3312FA7E23EE7E4988E056BE3F82D19181D9C6EFE8141120314088F5013875AC656398D8A2ED19D2A85C8EDD3EC2AEF
    gx := 0xAA87CA22BE8B05378EB1C71EF320AD746E1D3B628BA79B9859F741E082542A385502F25DBF55296C3A545E3872760AB7
    gy := 0x3617DE4A96262C6F5D9E98BF9292DC29F8F41DBD289A147CE9DA3113B5F0B8C00A60B1CE1D7E819D7A431D7C90EA0E5F
    oct := 48 }

/-- Sum of two points; none is the point at infinity. -/
def Curve.add (c : Curve) : Option (Nat × Nat) → Option (Nat × Nat) → Option (Nat × Nat)
  | none, q => q
  | q, none => q
  | some (x1, y1), some (x2, y2) =>
    if x1 = x2 ∧ (y1 + y2) % c.p = 0 then none
    else
      let l := if x1 = x2 then (3 * x1 * x1 + (c.p - 3)) * invMod (2 * y1) c.p % c.p
        else (y2 + c.p - y1) * invMod (x2 + c.p - x1) c.p % c.p
      let x3 := (l * l + 2 * c.p - x1 - x2) % c.p
      some (x3, (l * (x1 + c.p - x3) + c.p - y1) % c.p)

def Curve.mulFuel (c : Curve) : Nat → Nat → Option (Nat × Nat) → Option (Nat × Nat)
  | 0, _, _ => none
  | f + 1, k, q =>
    let r := c.mulFuel f (k / 2) (c.add q q)
    if k % 2 = 1 then c.add q r else r

def Curve.mul (c : Curve) (k : Nat) (q : Option (Nat × Nat)) : Option (Nat × Nat) := c.mulFuel 384 k q

def Curve.valid (c : Curve) (x y : Nat) : Bool :=
  decide (x < c.p) && decide (y < c.p) && decide (y * y % c.p = (x * x * x + (c.p - 3) * x + c.b) % c.p)

/-- ECDSA verification: public key x then y, signature r then s, digest, each big-endian. -/
def Curve.verify (c : Curve) (pub sig digest : List Nat) : Bool :=
  let x := beNum (pub.take c.oct)
  let y := beNum (pub.drop c.oct)
  let r := beNum (sig.take c.oct)
  let s := beNum (sig.drop c.oct)
  if c.valid x y ∧ 1 ≤ r ∧ r < c.n ∧ 1 ≤ s ∧ s < c.n then
    let w := invMod s c.n
    match c.add (c.mul (beNum digest * w % c.n) (some (c.gx, c.gy))) (c.mul (r * w % c.n) (some (x, y))) with
    | some (vx, _) => decide (vx % c.n = r)
    | none => false
  else false

end Sys2Proof.Machine
end

