-- ==== Sys2Proof/Machine/Memory.lean ====
section
/-! DEFINITION. Shared SRAM groups (R573 to R584), the hamper (R585 to R591), the DRAM controller and its PHYs (R592 to R613). -/

namespace Sys2Proof.Machine

def srmPage : Nat := 0x078
def drmPage : Nat := 0x079
def phyPage (c : Nat) : Nat := 0x07A + c

/-! ### Thermos groups -/

def Dev.setGroup (d : Dev) (g st : Nat) : Dev := d.wr srmPage (SRM_GROUP_STAT.STATE g) st
def Dev.groupMode (d : Dev) (g : Nat) : Nat := d.rd srmPage (SRM_THERMOS.MODE g)

/-- The cells of a group hold no data (R581). -/
def Dev.clearGroup (d : Dev) (g : Nat) : Dev := d.freshCells (sramBase + g * 0x200000) (sramBase + (g + 1) * 0x200000)

/-- A wake of a group starts (R580). -/
def Dev.wakeGroup (d : Dev) (g : Nat) : Dev := (d.setGroup g 1).cnt srmPage SRM_CNT_WAKE.COUNT

/-- An access wakes a group: it may stay ON for IDLE_RET although its MODE is RET (R582). -/
def Dev.wakeByAccess (d : Dev) (g : Nat) : Dev :=
  let d := d.wakeGroup g
  { d with ms := { d.ms with woken := d.ms.woken.filter (· ≠ g) ++ [g] } }

/-- MODE of a group becomes or is applied as `m` (R579). -/
def Dev.applyMode (d : Dev) (g m : Nat) : Dev :=
  match d.group g, m with
  | 0, 1 => { d.setGroup g 2 with ms := { d.ms with woken := d.ms.woken.filter (· ≠ g) } }
  | 0, 2 => (d.clearGroup g).setGroup g 3
  | 2, 0 => d.wakeGroup g
  | 2, 2 => (d.clearGroup g).setGroup g 3
  | 3, 0 => d.setGroup g 4
  | 3, 1 => d.setGroup g 4
  | _, _ => d

/-- A write of SRM_THERMOS: 0b11 leaves a field unchanged. A group that an access woke returns to RET also when RET is written
again (R582; DEDUCED, assumption 365). -/
def Dev.thermosWrite (d : Dev) (v : Nat) : Dev :=
  d.each 8 fun g e =>
    let m := bits v (2 * g) 2
    if m = 3 ∨ (m = e.groupMode g ∧ (m ≠ 1 ∨ e.group g ≠ 0)) then e else (e.wr srmPage (SRM_THERMOS.MODE g) m).applyMode g m

def execSrmThermosWrite (value : Nat) (s : State) : Host.Outcome State Fault Refusal :=
  s.onDev fun d => d.regDo srmPage fun d => (d.thermosWrite value).complete .okay

/-! ### Accesses -/

/-- A word access performed on memory; its read data. -/
def Dev.memPerform (d : Dev) (a : Access) : Dev × Nat :=
  match a.write with
  | some v => ((d.st a.addr a.size v).heal a.addr a.size, 0)
  | none => (d, d.ld a.addr a.size)

/-- The answer to an inbound PCI Express request of a fabric completion (R554). -/
def inAnswer : Code → Nat
  | .okay => 0 | .decodeError => 1 | .denied | .unavailable => 2 | .dataError => 3

/-- An inbound request is answered; anything but Successful Completion counts. -/
def Dev.inReply (d : Dev) (c : Code) (data : Nat) (write : Bool) : Dev :=
  let ok := decide (c = .okay) || (decide (c = .dataError) && !write)
  (d.when (!ok) (·.cnt 0x130 PCIE_ERR_CNT.INBOUND_ERR)).emit (.inbound (inAnswer c) (if c = .okay then data else 0))

/-- The completion of an access that was held reaches its initiator. -/
def Dev.memAnswer (d : Dev) (who : Initiator) (a : Access) (c : Code) (data : Nat) : Dev :=
  if who = .pcieHost then d.inReply c data a.write.isSome else d.emit (.memDone who a.addr c data)

/-- An uncorrectable word of shared SRAM or the hamper (R576). -/
def Dev.srmUncorr (d : Dev) (a : Nat) : Dev :=
  let d := (d.cnt srmPage SRM_CNT_UNCORR.COUNT).ev srmPage 8
  let d := d.wr srmPage SRM_ECC_ADDR.OFS (a / 8 * 8)
  (d.wr srmPage SRM_ECC_ADDR.HAMPER (b2n (decide (hamperBase ≤ a)))).wr srmPage SRM_ECC_ADDR.VALID 1

/-- The bytes an access has to read: all of a read, and of a write the first and last word where it covers them in part (R575). -/
def readBytes (a : Access) : List Nat :=
  if a.write.isNone then (List.range a.size).map (a.addr + ·)
  else [a.addr, a.addr + a.size - 1].filter fun b => decide (b / 8 * 8 < a.addr) || decide (a.addr + a.size < b / 8 * 8 + 8)

/-- What ECC finds in the words an access reads: an error it corrects is counted, the word of one it cannot is remembered. -/
def Dev.eccFound (d : Dev) (a : Access) (ecc : EccFact) : Dev :=
  match ecc, readBytes a with
  | .clean, _ | _, [] => d
  | .corrected, _ =>
    if regionOf a.addr = .kov then
      let p := 0x050 + (a.addr - kovBase) / 0x100000
      (d.cnt p KOV_CNT_ECC.COUNT).ev p 10
    else d.cnt srmPage SRM_CNT_CORR.COUNT
  | .uncorrectable o, b :: l =>
    { d with ms := { d.ms with bad := (d.cell ((b :: l)[o]?.getD b) / 8 :: d.ms.bad).eraseDups } }

/-- An access performed on shared SRAM or the hamper: its code and data (R575, R576). -/
def Dev.srmServe (d : Dev) (a : Access) : Dev × Code × Nat :=
  match (readBytes a).find? d.wordBad with
  | some b => (d.srmUncorr b, .dataError, 0)
  | none =>
    let r := d.memPerform a
    (r.1, .okay, r.2)

/-- An access is refused for the state of its group (R579). -/
def Dev.srmRefused (d : Dev) : Dev := (d.cnt srmPage SRM_CNT_REFUSED.COUNT).ev srmPage 9

/-- One held access, when its turn comes: `r.2` lists the initiators whose earlier access is still held, and what stays held
(R13, R579). -/
def heldStep (r : Dev × List Initiator × List HeldAcc) (h : HeldAcc) : Dev × List Initiator × List HeldAcc :=
  let (d, blocked, keep) := r
  let stay (e : Dev) : Dev × List Initiator × List HeldAcc := (e, h.who :: blocked, keep ++ [h])
  if blocked.contains h.who then stay d
  else
    let g := d.groupOf h.acc.addr
    match d.group g with
    | 0 =>
      let s := d.srmServe h.acc
      (s.1.memAnswer h.who h.acc s.2.1 s.2.2, blocked, keep)
    | 1 => stay d
    | 2 =>
      if bit (d.rd srmPage SRM_THERMOS_CFG.AUTOWAKE) g then stay (d.wakeByAccess g)
      else (d.srmRefused.memAnswer h.who h.acc .unavailable 0, blocked, keep)
    | _ => (d.srmRefused.memAnswer h.who h.acc .unavailable 0, blocked, keep)

/-- Held accesses whose turn has come are served, each initiator's in order (R13). -/
def Dev.heldServe (d : Dev) : Dev :=
  let r := d.ms.held.foldl heldStep (d, [], [])
  { r.1 with ms := { r.1.ms with held := r.2.2 } }

/-- Every held access ends BLOCK_UNAVAILABLE (R63). -/
def Dev.heldDrop (d : Dev) : Dev :=
  let l := d.ms.held
  ({ d with ms := { d.ms with held := [] } } : Dev).forAll l fun h e => e.memAnswer h.who h.acc .unavailable 0

/-- A group's wake is done: ON, held accesses served, MODE applied (R579). -/
def Dev.groupWakeDone (d : Dev) (g : Nat) : Dev :=
  if d.group g ≠ 1 then d
  else
    let d := (d.setGroup g 0).heldServe
    -- a group woken by an access stays ON for IDLE_RET (R582)
    if decide (d.groupMode g = 1) && d.ms.woken.contains g then d else d.applyMode g (d.groupMode g)

def execGroupWakeDone (group : Nat) (s : State) : Host.Outcome State Fault Refusal :=
  s.onDev fun d => if group < 8 then d.groupWakeDone group else d

def execGroupZeroingDone (group : Nat) (s : State) : Host.Outcome State Fault Refusal :=
  s.onDev fun d =>
    if group < 8 ∧ d.group group = 4 then ((d.clearGroup group).setGroup group 0).applyMode group (d.groupMode group) else d

def execGroupIdleReturn (group : Nat) (s : State) : Host.Outcome State Fault Refusal :=
  s.onDev fun d =>
    if group < 8 ∧ d.bstate srmPage = .running ∧ d.group group = 0 ∧ d.groupMode group = 1 ∧ d.ms.woken.contains group
        ∧ d.rd srmPage SRM_THERMOS_CFG.IDLE_RET ≠ 0 then d.applyMode group 1
    else d

/-- An access performed at once, and its completion. -/
def Dev.srmDone (d : Dev) (a : Access) : Dev :=
  let r := d.srmServe a
  r.1.complete r.2.1 r.2.2

/-- A fabric access to shared SRAM meets the state of its group (R579): performed, held, or refused. It is held also behind an
earlier access of its initiator that is held (R13). -/
def Dev.sramAccess (d : Dev) (who : Initiator) (a : Access) : Dev :=
  let g := d.groupOf a.addr
  let hold (e : Dev) : Dev := { e with ms := { e.ms with held := e.ms.held ++ [{ who := who, acc := a }] } }
  if d.inReset srmPage then d.complete .unavailable
  else if d.ms.held.any fun h => decide (h.who = who) then hold d
  else match d.group g with
  | 0 => d.srmDone a
  | 1 => hold d
  | 2 => if bit (d.rd srmPage SRM_THERMOS_CFG.AUTOWAKE) g then hold (d.wakeByAccess g) else d.srmRefused.complete .unavailable
  | _ => d.srmRefused.complete .unavailable

/-- A fabric access to the hamper (R588). -/
def Dev.hamperAccess (d : Dev) (a : Access) : Dev :=
  if d.rdB srmPage SRM_HAMPER.WIPING || d.inReset srmPage then d.complete .unavailable else d.srmDone a

/-- Nap begins: a wake or zeroing that runs completes first; then a group goes to RET or OFF as NAP says (R583, R584). -/
def Dev.groupsNap (d : Dev) : Dev :=
  d.each 8 fun g e =>
    let e := (e.when (decide (e.group g = 4)) fun f => (f.clearGroup g).setGroup g 0).groupWakeDone g
    if bit (e.rd srmPage SRM_THERMOS_CFG.NAP) g then e.setGroup g 2 else (e.clearGroup g).setGroup g 3

/-- Nap ends (R583). -/
def Dev.groupsWake (d : Dev) : Dev :=
  d.each 8 fun g e =>
    match e.group g, e.groupMode g with
    | 2, 0 => e.wakeGroup g
    | 3, 0 => e.setGroup g 4
    | 3, 1 => e.setGroup g 4
    | _, _ => e

/-- Hibernate and Off: every group is OFF. -/
def Dev.groupsOff (d : Dev) : Dev := d.each 8 fun g e => (e.clearGroup g).setGroup g 3

/-- The scrubber reads the word at `addr` (R577, R578). -/
def execScrubStep (addr : Nat) (ecc : EccFact) (s : State) : Host.Outcome State Fault Refusal :=
  s.onDev fun d =>
    let inSram := decide (sramBase ≤ addr) && decide (addr < hamperBase) && decide (d.group (d.groupOf addr) = 0)
    let inHamper := decide (hamperBase ≤ addr) && decide (addr < hamperBase + 0x100000) && !d.rdB srmPage SRM_HAMPER.WIPING
    if d.bstate srmPage = .running ∧ d.rdB srmPage SRM_SCRUB.SCRUB_EN ∧ (inSram ∨ inHamper) then
      match ecc with
      | .clean => d
      | .corrected => d.cnt srmPage SRM_CNT_CORR.COUNT
      | .uncorrectable _ => ({ d with ms := { d.ms with bad := (d.cell addr / 8 :: d.ms.bad).eraseDups } } : Dev).srmUncorr addr
    else d

def Dev.srmStartCheck (d : Dev) : Option Nat :=
  let k := d.ilv
  if k = 1 ∨ k = 2 ∨ k = 4 ∨ k = 8 then none else some 0x03

/-! ### Hamper -/

/-- A wipe starts, or merges into the one that runs (R586, R589): from now on nothing written before can be read. -/
def Dev.startWipe (d : Dev) (cause : Nat) : Dev :=
  let d := d.freshCells hamperBase (hamperBase + 0x100000)
  let d : Dev := { d with ms := { d.ms with wipe := cause } }
  d.wr srmPage SRM_HAMPER.WIPING 1

/-- A write of WIPE (R586, R590). -/
def Dev.wipeRequest (d : Dev) (machine : Bool) : Dev :=
  if machine then (d.startWipe 3).complete .okay else d.complete .denied

def execHamperWipeRequest (machine : Bool) (s : State) : Host.Outcome State Fault Refusal := s.onDev (·.regDo 0x078 (·.wipeRequest machine))

def execHamperWipeDone (s : State) : Host.Outcome State Fault Refusal :=
  s.onDev fun d =>
    if d.rdB srmPage SRM_HAMPER.WIPING then
      let d := d.freshCells hamperBase (hamperBase + 0x100000)
      let d : Dev := { (d.wr srmPage SRM_HAMPER.WIPING 0).wr srmPage SRM_HAMPER.CAUSE d.ms.wipe with ms := { d.ms with wipe := 0 } }
      ((d.cnt srmPage SRM_HAMPER.WIPES).cnt srmPage SRM_CNT_WIPE.COUNT).ev srmPage 10
    else d

/-! ### DRAM -/

/-- Channel, bank group, bank and rank of a DRAM offset (R593). -/
def Dev.dramPlace (d : Dev) (o : Nat) : Nat × Nat × Nat × Nat :=
  let x := d.rdB drmPage DRM_GEOM.XOR_EN
  let f (a b : Nat) : Nat := if x then a ^^^ b else a
  (f (f (bits o 6 2) (bits o 17 2)) (bits o 25 2), f (bits o 13 2) (bits o 19 2), f (bits o 15 2) (bits o 21 2),
    if d.dramRanks = 2 then bits o (17 + d.dramR) 1 else 0)

/-- A request reaches channel `c`: it leaves power-down and self-refresh (R601, R602). -/
def Dev.dramTouch (d : Dev) (c : Nat) : Dev :=
  let d := d.wr (phyPage c) DRM_PHY_STAT.POWER_DOWN 0
  if d.rdB (phyPage c) DRM_PHY_STAT.SELF_REFRESH then
    (d.wr (phyPage c) DRM_PHY_STAT.SELF_REFRESH 0).when (decide (d.rd 0x001 PWR_STATE.STATE = 2)) (·.cnt drmPage DRM_CNT_SR_EXIT.COUNT)
  else d

/-- The port of an initiator (R595). -/
def dramPort : Initiator → Nat
  | .hart _ => 0
  | .koveton _ => 1
  | .packetEngine => 2
  | .radio => 3
  | .scheduler => 4
  | .pcieHost => 5
  | .security | .twin => 6
  | .venue | .tagLane | .debugBus => 7

/-- The bank of a DRAM offset, as rows are kept: channel, rank, bank group and bank; and its row (R593). -/
def Dev.dramBank (d : Dev) (o : Nat) : Nat :=
  let p := d.dramPlace o
  p.1 * 32 + p.2.2.2 * 16 + p.2.1 * 4 + p.2.2.1
def Dev.dramRow (d : Dev) (o : Nat) : Nat := bits o 17 d.dramR

/-- TGT of a port in ns. -/
def Dev.dramTgt (d : Dev) (port : Nat) : Nat := max 1 (d.rd drmPage (DRM_PORT.TGT.at port))

/-- URGENT of a port (R595); whether a started frame's transmit FIFO runs low and whether an MPDU read is near its symbol are
given, for the model keeps neither time. -/
def Dev.dramUrgent (d : Dev) (near : NearFact) (port : Nat) : Bool :=
  match port with
  | 1 => d.kov.cores.any fun c => match c.job with
    | some j => (match j.due with | some b => decide (b * 250000 ≤ d.ns + 20000) | none => false)
    | none => false
  | 2 => near.fifoLow
  | 3 => near.mpduNear
  | 4 => decide (210000 ≤ d.ns % 250000) && decide (d.ns % 250000 ≤ 220000)
  | _ => false

/-- The urgency level of a request of age `a` at a port with target `t` (R596). -/
def urgency (a t : Nat) (urgent : Bool) : Nat :=
  let l := if 2 * a < t then 0 else if 4 * a < 3 * t then 1 else if a < t then 2 else 3
  if urgent then max 2 l else l

def Dev.dramLevel (d : Dev) (near : NearFact) (r : DramReq) : Nat :=
  let p := dramPort r.who
  urgency (d.ns - r.atNs) (d.dramTgt p) (d.rdB drmPage (DRM_PORT.URG_EN.at p) && d.dramUrgent near p)

/-- The request goes to a row that is open. -/
def Dev.dramOpen (d : Dev) (r : DramReq) : Bool :=
  let o := r.acc.addr - dramBase
  decide (look d.ms.rows (d.dramBank o) = some (d.dramRow o))

def DramReq.waits (r : DramReq) (c : Nat) : Bool := decide (r.ch = c) && r.issued.isNone && r.answer.isNone

/-- The place of the request channel `c` issues next (R597): of the highest level, then to an open row unless it would be the
fifth to pass an older one, then the oldest. -/
def Dev.dramPick (d : Dev) (near : NearFact) (c : Nat) : Option Nat :=
  let l := (d.ms.dq.zipIdx.filter fun r => r.1.waits c).map fun r => (r.1, r.2, d.dramLevel near r.1)
  let top := (l.map fun r => r.2.2).foldl max 0
  let l := l.filter fun r => decide (r.2.2 = top)
  let free (i : Nat) : Bool := l.all fun r => decide (i ≤ r.2.1) || decide (r.1.passed < 4)
  match l.find? fun r => d.dramOpen r.1 && free r.2.1 with
  | some r => some r.2.1
  | none => l.head?.map fun r => r.2.1

/-- The request at place `i` is issued: a write is done, a read has its data on the way; its row is open; older requests of its
level that it passes to an open row note it. -/
def Dev.dramIssueAt (d : Dev) (near : NearFact) (i : Nat) : Dev :=
  match d.ms.dq[i]? with
  | none => d
  | some r =>
    let o := r.acc.addr - dramBase
    let lev := d.dramLevel near r
    let q := d.ms.dq.zipIdx.map fun e =>
      if e.2 < i ∧ e.1.waits r.ch ∧ d.dramOpen r ∧ d.dramLevel near e.1 = lev then { e.1 with passed := e.1.passed + 1 } else e.1
    let m := d.memPerform r.acc
    let r := if r.acc.write.isSome then { r with issued := some 0, answer := some (.okay, 0) } else { r with issued := some m.2 }
    let d := m.1.when r.acc.write.isSome (·.cnt drmPage DRM_CNT_WR.COUNT)
    { d with ms := { d.ms with dq := setAt q i r, rows := put d.ms.rows (d.dramBank o) (d.dramRow o) } }

/-- Channel `c` issues what it can: until a read is on its way or nothing waits. -/
def Dev.dramIssue (d : Dev) (near : NearFact) (c : Nat) : Nat → Dev
  | 0 => d
  | n + 1 =>
    if d.ms.dq.any fun r => decide (r.ch = c) && r.issued.isSome && r.answer.isNone then d
    else match d.dramPick near c with
      | some i => (d.dramIssueAt near i).dramIssue near c n
      | none => d

/-- Completions whose turn has come reach their initiators, each initiator's in order (R13). -/
def Dev.dramDeliver (d : Dev) : Dev :=
  let step (r : Dev × List Initiator × List DramReq) (q : DramReq) : Dev × List Initiator × List DramReq :=
    match q.answer, r.2.1.contains q.who with
    | some a, false => (r.1.memAnswer q.who q.acc a.1 a.2, r.2.1, r.2.2)
    | _, _ => (r.1, q.who :: r.2.1, r.2.2 ++ [q])
  let r := d.ms.dq.foldl step (d, [], [])
  { r.1 with ms := { r.1.ms with dq := r.2.2 } }

/-- A request enters the controller; in Nap it is held (R604). -/
def Dev.dramEnter (d : Dev) (who : Initiator) (a : Access) : Dev :=
  let c := (d.dramPlace (a.addr - dramBase)).1
  let q : DramReq := { who := who, acc := a, ch := c, atNs := d.ns, passed := 0, issued := none, answer := none }
  let queued (e : Dev) : Dev := { e with ms := { e.ms with dq := e.ms.dq ++ [q] } }
  if d.pstate = 3 then queued d else (queued (d.dramTouch c)).dramIssue ⟨false, false⟩ c (d.ms.dq.length + 1)

/-- A fabric access to DRAM (R594, R597, R602). It completes later, but for a write that its channel takes at once and that no
earlier request of its initiator precedes. -/
def Dev.dramAccess (d : Dev) (who : Initiator) (a : Access) : Dev :=
  if d.dramSize ≤ a.addr - dramBase then (d.cnt drmPage DRM_CNT_DECODE.COUNT).complete .decodeError
  else if d.inService drmPage = false then d.complete .unavailable
  else
    let e := d.dramEnter who a
    let last := e.ms.dq.getLast?
    if (d.ms.dq.any fun r => decide (r.who = who)) = false ∧ (last.bind (·.answer)).isSome then
      ({ e with ms := { e.ms with dq := e.ms.dq.dropLast } } : Dev).complete .okay
    else e

/-- An uncorrectable read of the burst at offset `o` (R611). -/
def Dev.dramUncorr (d : Dev) (o : Nat) : Dev :=
  let p := d.dramPlace o
  let d := (d.cnt drmPage DRM_CNT_UNCORR.COUNT).ev drmPage 8
  let d := d.wr drmPage DRM_ERR_LO.OFS_LO (o % 2 ^ 32)
  { d with ms := { d.ms with errHi := bits o 32 2 + 4 * p.1 + 16 * p.2.2.2 + 32 * p.2.1 + 128 * p.2.2.1 + 2 ^ 31 } }

/-- Latency `ns` of a read of a port (R598). -/
def Dev.dramLatency (d : Dev) (port ns : Nat) : Dev :=
  let d := d.cnt drmPage DRM_CNT_RD.COUNT
  let d := d.when (decide (d.dramTgt port < ns)) fun e =>
    ((e.cnt drmPage (DRM_PORT.OVERDUE.at port)).cnt drmPage DRM_CNT_OVERDUE.COUNT).ev drmPage 9
  d.wr drmPage (DRM_PORT.LAT_MAX.at port) (max (d.rd drmPage (DRM_PORT.LAT_MAX.at port)) (min ns 0xFFFF))

/-- The read at place `i`, `r`, ends with what link ECC found, while LINK_ECC enables it (R611). -/
def Dev.dramReturn (d : Dev) (i : Nat) (r : DramReq) (data : Nat) (ecc : EccFact) : Dev :=
  let ecc := if d.rdB drmPage DRM_GEOM.LINK_ECC then ecc else .clean
  let o := (r.acc.addr - dramBase) / 64 * 64
  let a : Code × Nat := match ecc with | .uncorrectable _ => (.dataError, 0) | _ => (.okay, data)
  let d := match ecc with
    | .clean => d
    | .corrected => d.cnt drmPage DRM_CNT_CORR.COUNT
    | .uncorrectable _ => d.dramUncorr o
  { d with ms := { d.ms with dq := setAt d.ms.dq i { r with answer := some a } } }

/-- The data of channel `c`'s read returns to its port `ns` after the request reached it, and the channel goes on. -/
def Dev.dramReadReturn (d : Dev) (c ns : Nat) (near : NearFact) (ecc : EccFact) : Dev :=
  match d.ms.dq.zipIdx.find? fun r => decide (r.1.ch = c) && r.1.issued.isSome && r.1.answer.isNone with
  | none => d
  | some (r, i) =>
    let d := ((d.reach ((r.atNs + ns) * nsU)).dramLatency (dramPort r.who) ns).dramReturn i r (r.issued.getD 0) ecc
    (d.dramIssue near c d.ms.dq.length).dramDeliver

/-- DRAM_READ_RETURN. -/
def execDramReadReturn (channel ns : Nat) (near : NearFact) (ecc : EccFact) (s : State) : Host.Outcome State Fault Refusal :=
  s.onDev fun d => if d.active drmPage then d.dramReadReturn channel ns near ecc else d

/-- Every request at the controller ends BLOCK_UNAVAILABLE (R612). -/
def Dev.dramDrop (d : Dev) : Dev :=
  let l := d.ms.dq
  ({ d with ms := { d.ms with dq := [], rows := [] } } : Dev).forAll l fun r e => e.memAnswer r.who r.acc .unavailable 0

/-- A read of DRM_ERR_LO captures DRM_ERR_HI. -/
def Dev.drmErrRead (d : Dev) : Dev :=
  (d.wrW drmPage DRM_ERR_HI.VALID.off (BitVec.ofNat 32 d.ms.errHi)).complete .okay (d.rd drmPage DRM_ERR_LO.OFS_LO)

def execDrmErrLoRead (s : State) : Host.Outcome State Fault Refusal := s.onDev (·.regDo 0x079 (·.drmErrRead))

/-- A request of level 3 waits for bank `k` (R599). -/
def Dev.bankUrgent (d : Dev) (k : Nat) : Bool :=
  d.ms.dq.any fun r => r.waits r.ch && decide (d.dramBank (r.acc.addr - dramBase) = k) && decide (d.dramLevel ⟨false, false⟩ r = 3)

/-- A refresh closes the rows it refreshes: bank `k`, or every bank of its rank (R600). -/
def Dev.closeRows (d : Dev) (k : Nat) : Dev :=
  let n := if d.rdB drmPage DRM_REFRESH.PER_BANK then 1 else 16
  { d with ms := { d.ms with rows := d.ms.rows.filter fun r => decide (r.1 / n ≠ k / n) } }

/-- A refresh of a bank falls due (R599, R600). -/
def execDramRefreshDue (channel rank bg ba : Nat) (s : State) : Host.Outcome State Fault Refusal :=
  s.onDev fun d =>
    if d.active drmPage = false then d
    else
      let k := channel * 32 + rank * 16 + bg * 4 + ba
      let n := lookOr 0 d.ms.postponed k
      if d.bankUrgent k ∧ d.rdB drmPage DRM_REFRESH.PER_BANK ∧ n < min 8 (d.rd drmPage DRM_REFRESH.POSTPONE) then
        { d with ms := { d.ms with postponed := put d.ms.postponed k (n + 1) } }.cnt drmPage DRM_CNT_REF_POSTPONE.COUNT
      else ({ d with ms := { d.ms with postponed := del d.ms.postponed k } } : Dev).closeRows k

/-- MR4 of a channel is read: OP[4:0], whether that rate is above the nominal one, whether the die is out of range (R600). -/
def execMr4Poll (channel rate : Nat) (high trip : Bool) (s : State) : Host.Outcome State Fault Refusal :=
  s.onDev fun d =>
    if 4 ≤ channel ∨ d.active drmPage = false then d
    else ((d.wr (phyPage channel) DRM_PHY_STAT.REF_RATE rate).when high (·.ev drmPage 12)).when trip (·.ev drmPage 13)

/-- No request is at channel `c`. -/
def Dev.channelIdle (d : Dev) (c : Nat) : Bool := d.ms.dq.all fun r => decide (r.ch ≠ c) || r.answer.isSome

def execDramPowerDownEntry (channel : Nat) (s : State) : Host.Outcome State Fault Refusal :=
  s.onDev fun d =>
    if channel < 4 ∧ d.active drmPage ∧ d.rd drmPage DRM_SR.PD_IDLE ≠ 0 ∧ d.channelIdle channel then d.wr (phyPage channel) DRM_PHY_STAT.POWER_DOWN 1 else d

/-- In Doze an idle channel enters self-refresh (R602). -/
def execDramSelfRefreshEntry (channel : Nat) (s : State) : Host.Outcome State Fault Refusal :=
  s.onDev fun d =>
    if channel < 4 ∧ d.active drmPage ∧ d.pstate = 2 ∧ d.channelIdle channel then
      let d : Dev := { d with ms := { d.ms with rows := d.ms.rows.filter fun r => decide (r.1 / 32 ≠ channel) } }
      (d.wr (phyPage channel) DRM_PHY_STAT.SELF_REFRESH 1).wr (phyPage channel) DRM_PHY_STAT.POWER_DOWN 0
    else d

/-- A WCK-to-DQ update of a channel, or a ZQ latch (R610). -/
def execDramPeriodicUpdate (channel : Nat) (zq : Bool) (s : State) : Host.Outcome State Fault Refusal :=
  s.onDev fun d => if channel < 4 ∧ d.active drmPage ∧ zq = false then d.cnt drmPage DRM_CNT_RETRAIN.COUNT else d

/-! ### Training -/

def Dev.trained (d : Dev) (c : Nat) : Bool := bit (d.rd drmPage DRM_TRAIN_STAT.TRAINED) c

def Dev.setTrained (d : Dev) (c : Nat) (b : Bool) : Dev :=
  let t := d.rd drmPage DRM_TRAIN_STAT.TRAINED
  (d.wr drmPage DRM_TRAIN_STAT.TRAINED (if b then t ||| 2 ^ c else t &&& (15 - 2 ^ c))).wr (phyPage c) DRM_PHY_STAT.TRAINED (b2n b)

/-- A GO in DRM_TRAIN_CMD (R606). -/
def Dev.trainCmd (d : Dev) (op steps ch : Nat) : Dev :=
  let d := ((d.wr drmPage DRM_TRAIN_CMD.OP op).wr drmPage DRM_TRAIN_CMD.STEPS steps).wr drmPage DRM_TRAIN_CMD.CH ch
  if d.rdB drmPage DRM_TRAIN_STAT.BUSY then d
  else
    let phys := (List.range 4).all fun c => !bit ch c || decide (d.bstate (phyPage c) = .running)
    if op = 3 ∨ d.bstate drmPage ≠ .stopped ∨ phys = false then d.wr drmPage DRM_TRAIN_STAT.REFUSED 1
    else
      let d := (d.wr drmPage DRM_TRAIN_STAT.REFUSED 0).wr drmPage DRM_TRAIN_STAT.BUSY 1
      { d.wr drmPage DRM_TRAIN_CMD.GO 1 with ms := { d.ms with train := some (op, steps % 64, ch % 16) } }

def execDramTrain (steps ch : Nat) (s : State) : Host.Outcome State Fault Refusal := s.onDev (·.regDo 0x079 (·.trainCmd 0 steps ch))
def execDramTrainSave (ch : Nat) (s : State) : Host.Outcome State Fault Refusal := s.onDev (·.regDo 0x079 (·.trainCmd 1 0 ch))
def execDramTrainRestore (ch : Nat) (s : State) : Host.Outcome State Fault Refusal := s.onDev (·.regDo 0x079 (·.trainCmd 2 0 ch))

/-- Result code of the first failed step (R606). -/
def trainCode (step : Nat) : Nat := nth 0 [5, 1, 2, 3, 4, 4] step

/-- The training command ends on every channel with a result and leaves BUSY. -/
def Dev.trainEnd (d : Dev) : Dev :=
  let d := (d.wr drmPage DRM_TRAIN_STAT.BUSY 0).wr drmPage DRM_TRAIN_CMD.GO 0
  { d.ev drmPage 10 with ms := { d.ms with train := none } }

def Dev.trainBlock (d : Dev) (c : Nat) : Nat := d.rd drmPage DRM_TRAIN_BUF.BASE * 64 + 2048 * c

/-- DENSITY, RANKS and RATE as a block records them. -/
def Dev.geom (d : Dev) : Nat := (d.rdW drmPage DRM_GEOM.DENSITY.off).toNat % 128

/-- SAVE of a channel: a block whose layout the spec leaves open (R608). The RESULT of a block that shared SRAM does not take is
a free value (assumption 366). -/
def Dev.trainSave (d : Dev) (c : Nat) : Dev :=
  if d.wrOk (d.trainBlock c) 2048 then
    let b := (List.range 2048).map fun i => Config.freeValue (d.draws + i) % 256
    let d := ({ d with draws := d.draws + 2048 } : Dev).stBytes (d.trainBlock c) b
    { d.wr drmPage (DRM_TRAIN_STAT.RESULT c) 0 with ms := { d.ms with saved := put d.ms.saved c (d.geom, b) } }
  else
    let r := d.draw 4
    r.1.wr drmPage (DRM_TRAIN_STAT.RESULT c) r.2

/-- A block passes the checks of RESTORE: it can be read and still is what SAVE wrote for this geometry (R608). -/
def Dev.trainBlockGood (d : Dev) (c : Nat) : Bool :=
  match look d.ms.saved c with
  | some s => d.rdOk (d.trainBlock c) 2048 && decide (s.1 = d.geom) && decide (s.2 = d.ldBytes (d.trainBlock c) 2048)
  | none => false

/-- A channel's steps are done: `fails` are the step bits that failed (R606 to R608). -/
def Dev.trainChannel (d : Dev) (op steps c fails : Nat) : Dev :=
  let first (m : Nat) : Option Nat := (List.range 6).find? fun i => bit m i && bit fails i
  match op with
  | 0 =>
    match first steps with
    | some i => d.wr drmPage (DRM_TRAIN_STAT.RESULT c) (trainCode i)
    | none =>
      (d.wr drmPage (DRM_TRAIN_STAT.RESULT c) 0).when (decide (steps = 63) && decide (d.bstate (phyPage c) = .running)) (·.setTrained c true)
  | 1 => d.trainSave c
  | _ =>
    if d.trainBlockGood c = false then d.wr drmPage (DRM_TRAIN_STAT.RESULT c) 6
    else match first 9 with
      | some i => d.wr drmPage (DRM_TRAIN_STAT.RESULT c) (trainCode i)
      | none => (d.wr drmPage (DRM_TRAIN_STAT.RESULT c) 0).when (decide (d.bstate (phyPage c) = .running)) (·.setTrained c true)

/-- The training command completes; `fails` gives each channel's failed step bits. -/
def execDramTrainDone (fails : List Nat) (s : State) : Host.Outcome State Fault Refusal :=
  s.onDev fun d => match d.ms.train with
    | none => d
    | some (op, steps, ch) =>
      (d.forAll ((List.range 4).filter (bit ch)) fun c e => e.trainChannel op steps c (nth 0 fails c)).trainEnd

/-- Abort of page 0x079 during a training command. -/
def Dev.trainAbort (d : Dev) : Dev :=
  match d.ms.train with
  | none => d
  | some (_, _, ch) => (d.forAll ((List.range 4).filter (bit ch)) fun c e => e.wr drmPage (DRM_TRAIN_STAT.RESULT c) 7).trainEnd

/-! ### Pages and power states -/

def Dev.drmStartCheck (d : Dev) : Option Nat :=
  if d.rd drmPage DRM_GEOM.DENSITY = 3 ∨ 3 < d.rd drmPage DRM_GEOM.RATE ∨ d.rd drmPage DRM_TRAIN_STAT.TRAINED ≠ 15 then some 0x03
  else none

def Dev.drmOnStart (d : Dev) : Dev := d.each 4 fun c e => e.wr (phyPage c) DRM_PHY_STAT.SELF_REFRESH 0

/-- Page 0x079 reaches STOPPED: every channel is in self-refresh while its PHY runs (R605). -/
def Dev.drmOnLeave (d : Dev) : Dev :=
  let d := ({ d with ms := { d.ms with postponed := [] } } : Dev).dramDrop
  d.each 4 fun c e => e.when (decide (e.bstate (phyPage c) = .running)) fun f =>
    (f.wr (phyPage c) DRM_PHY_STAT.SELF_REFRESH 1).wr (phyPage c) DRM_PHY_STAT.POWER_DOWN 0

def Dev.phyStartCheck (d : Dev) (c : Nat) : Option Nat := if 6 ≤ d.rd (phyPage c) DRM_PHY_DRV.SOC_ODT then some 0x03 else none
def Dev.phyOnStart (d : Dev) (c : Nat) : Dev := d.wr (phyPage c) DRM_PHY_STAT.PLL_LOCK 1
def Dev.phyOnLeave (d : Dev) (c : Nat) : Dev := (d.wr (phyPage c) DRM_PHY_STAT.PLL_LOCK 0).setTrained c false

/-- A segment's content is lost. -/
def Dev.loseSegment (d : Dev) (s : Nat) : Dev := { d with ms := { d.ms with loss := put d.ms.loss s (lookOr 0 d.ms.loss s + 1) } }

/-- Requests that were held in Nap are served (R604). -/
def Dev.dramHeldIssue (d : Dev) : Dev := (d.each 4 fun c e => e.dramIssue ⟨false, false⟩ c (e.ms.dq.length + 1)).dramDeliver

/-- Exit from Nap: segments not kept are lost (R603). -/
def Dev.napSegments (d : Dev) : Dev :=
  if d.rdB drmPage DRM_PASR.PASR_EN then
    let keep := d.rd drmPage DRM_PASR.KEEP0 + 256 * d.rd drmPage DRM_PASR.KEEP1
    let lost := (List.range (8 * d.dramRanks)).filter fun s => !bit keep s
    if lost.isEmpty then d
    else
      (d.forAll lost fun s e =>
        (e.loseSegment s).wr drmPage (DRM_PASR_STAT.LOST0.bitOf s) 1).ev drmPage 11
  else d

/-- Exit from Nap: self-refresh is left, then what was held is served (R603, R604). -/
def Dev.dramNapExit (d : Dev) : Dev := d.drmOnStart.napSegments.dramHeldIssue

/-- Entry to Nap: every channel in self-refresh. -/
def Dev.dramNapEntry (d : Dev) : Dev := d.each 4 fun c e => e.wr (phyPage c) DRM_PHY_STAT.SELF_REFRESH 1

/-- Hibernate and Off: the DRAM contents and TRAINED are lost (R605, R607). -/
def Dev.dramOff (d : Dev) : Dev := (d.each 16 fun s e => e.loseSegment s).each 4 fun c e => e.setTrained c false

end Sys2Proof.Machine
end

