-- ==== Sys2Proof/Machine/Sec.lean ====
section
/-! DEFINITION. The security island: OTP and life cycle (R614 to R620), key store and blobs (R621 to R626), key slots (R627 to
R629), commands (R630 to R632), the service cipher engine (R633 to R639), tamper (R646 to R648) and debug levels (R649 to
R656). -/

namespace Sys2Proof.Machine

def secPage : Nat := 0x004

/-! ### OTP and life cycle -/

def Dev.otpWord (d : Dev) (o : Nat) : Nat := lookOr 0 d.sec.otp (o / 4)
def Dev.otpByte (d : Dev) (o : Nat) : Nat := d.otpWord o / 256 ^ (o % 4) % 256
def Dev.otpBytes (d : Dev) (o n : Nat) : List Nat := (List.range n).map fun i => d.otpByte (o + i)

/-- Program the ones of a word (R620). -/
def Dev.otpSet (d : Dev) (o v : Nat) : Dev :=
  let w := d.otpWord o ||| v % 2 ^ 32
  { d with sec := { d.sec with otp := if w = 0 then d.sec.otp else put d.sec.otp (o / 4) w } }

/-- A flag counts as set when at least two of its copies are (R614). -/
def Dev.lcFlag (d : Dev) (f : Nat) : Bool :=
  decide (2 ≤ ((List.range 3).filter fun k => decide (d.otpByte (3 * f + k) ≠ 0)).length)

/-- The life-cycle state by the OTP flags (R614): 0 Blank to 4 Returned, 5 Scrapped. -/
def Dev.lcOtp (d : Dev) : Nat :=
  if d.lcFlag 4 then 5 else if d.lcFlag 3 then 4 else if d.lcFlag 2 then 3 else if d.lcFlag 1 then 2
  else if d.lcFlag 0 then 1 else 0

/-- The state in force since the last device reset. -/
def Dev.lc (d : Dev) : Nat := d.rd secPage SEC_STATUS.LC

def popCount (l : List Nat) : Nat := (l.map fun b => ((List.range 8).filter (bit b)).length).foldl (· + ·) 0

/-- Fields of R619 that OTP_PROG may name: offset, size, the states it is programmable in, whether it must be blank. -/
def otpFields : List (Nat × Nat × List Nat × Bool) :=
  [(0x040, 8, [0], true), (0x048, 8, [1, 2, 3], false), (0x050, 32, [0, 1, 2, 3, 4], false), (0x080, 32, [0], false),
    (0x100, 48, [1, 2], true), (0x130, 48, [1, 2], true), (0x160, 48, [1, 2], true), (0x190, 48, [1, 2], true),
    (0x1C0, 4, [1, 2, 3], false), (0x200, 48, [1, 2], true), (0x240, 8, [1, 2], true), (0x300, 3328, [1, 2, 3], false),
    (0x1000, 1024, [1, 2, 3], true), (0x1400, 1024, [1, 2, 3], true), (0x1800, 1024, [1, 2, 3], true),
    (0x1C00, 1024, [1, 2, 3], true)]

/-- A secret field reads as zero through the window, and so does what is vendor reserved (R619). -/
def Dev.otpRead (d : Dev) (o : Nat) : Nat :=
  if (0x80 ≤ o ∧ o < 0xA0) ∨ 0x2000 ≤ o then 0 else d.otpWord o

/-! ### Entries, contexts, events -/

def Dev.keyValid (d : Dev) (e : Nat) : Bool := decide (e < 64) && d.rdB secPage (SEC_KEYENT.VALID.at e)
def Dev.keyLen (d : Dev) (e : Nat) : Nat := if d.rdB secPage (SEC_KEYENT.LEN.at e) then 32 else 16
def Dev.keyAttr (d : Dev) (e k : Nat) : Bool := bit (d.rd secPage (SEC_KEYENT.ATTR.at e)) k

/-- The F byte of a derivation (R622). -/
def Dev.kdfF (d : Dev) (epoch : Nat) : Nat := b2n d.sec.lcRet + 2 * epoch

/-- A label in ASCII, padded with zeros (R622). -/
def label16 (l : List Nat) : List Nat := l ++ zeros (16 - l.length)

/-- The key of an entry; entries 0 to 3 are derived from HUK (R621, R622). -/
def Dev.keyOf (d : Dev) (e : Nat) : List Nat :=
  let ep := d.rd secPage SEC_STATUS.KEPOCH
  let root (l : List Nat) (f : Nat) : List Nat := kdf d.sec.huk (label16 l) (zeros 16) f 32
  match e with
  | 0 => root [0x4B, 0x45, 0x4B] (d.kdfF ep)
  | 1 => root [0x52, 0x4F, 0x4F, 0x54] (d.kdfF ep)
  | 2 => root [0x4B, 0x45, 0x4B] (d.kdfF (ep - 1))
  | 3 => kdf (root [0x52, 0x4F, 0x4F, 0x54] (d.kdfF ep)) (label16 [0x4F, 0x57, 0x4E, 0x45, 0x52]) (zeros 16) (d.kdfF ep) 32
  | _ => lookOr [] d.sec.keys e

/-- Write an entry. -/
def Dev.setKey (d : Dev) (e attr : Nat) (key : List Nat) : Dev :=
  let d := ((d.wr secPage (SEC_KEYENT.VALID.at e) 1).wr secPage (SEC_KEYENT.LEN.at e) (b2n (decide (key.length = 32)))).wr
    secPage (SEC_KEYENT.ATTR.at e) attr
  { d with sec := { d.sec with keys := put d.sec.keys e key } }

def Dev.clearKey (d : Dev) (e : Nat) : Dev :=
  let d := d.wrW secPage (SEC_KEYENT.word.at e).off 0
  { d with sec := { d.sec with keys := del d.sec.keys e } }

/-- What the registers show of a context. -/
def Dev.setCtx (d : Dev) (c : Nat) (x : SecCtx) : Dev :=
  let d := ((d.wr secPage (SEC_CTXENT.READY.at c) 1).wr secPage (SEC_CTXENT.MODE.at c) x.mode).wr secPage (SEC_CTXENT.DUAL.at c) (b2n x.dual)
  { d.wr secPage (SEC_CTXENT.IN_MSG.at c) (b2n x.inMsg) with sec := { d.sec with ctx := put d.sec.ctx c x } }

def Dev.clearCtx (d : Dev) (c : Nat) : Dev :=
  let d := d.wrW secPage (SEC_CTXENT.word.at c).off 0
  { d with sec := { d.sec with ctx := del d.sec.ctx c } }

def Dev.clearAllCtx (d : Dev) : Dev := d.forAll (d.sec.ctx.map (·.1)) fun c e => e.clearCtx c

/-- The key of a CMAC context that is READY, for venue coordination (R351, R640). -/
def Dev.svcKey (d : Dev) (c : Nat) : Option (List Nat) :=
  match look d.sec.ctx c with
  | some x => if x.mode = 5 then some x.key else none
  | none => none

/-- A FAULT_CHECK event (R637, R646). -/
def Dev.fcheck (d : Dev) : Dev :=
  let d := (d.cnt secPage SEC_CNT_FCHK.COUNT).ev secPage 11
  { d with sec := { d.sec with fchk := (d.rtc.count / 2 ^ 32) :: d.sec.fchk.take 254 } }

/-- Make a key slot of the WLAN MAC EMPTY. -/
def Dev.emptySlot (d : Dev) (k : Nat) : Dev :=
  let d := (((d.wrW 0x033 (MAC_KEYSLOT.word0.at k).off 0).wrW 0x033 (MAC_KEYSLOT.word1.at k).off 0)).wrW 0x033 (MAC_KEYSLOT.word2.at k).off 0
  { d with mac := { d.mac with keys := del d.mac.keys k } }

/-- Every key slot becomes EMPTY. -/
def Dev.emptySlots (d : Dev) : Dev :=
  let d := d.forAll (d.listed 0x033 0x4000 0xD000) fun o e => e.wrW 0x033 o 0
  { d with mac := { d.mac with keys := [] } }

/-- The level granted changes (R652): below D2 boundary scan gives way to BYPASS and radios started under RF test access fault. -/
def Dev.setLevel (d : Dev) (l : Nat) : Dev :=
  let old := d.rd secPage SEC_STATUS.DBG_LEVEL
  if l = old then d
  else
    let d := (d.wr secPage SEC_STATUS.DBG_LEVEL l).ev secPage 12
    if 2 ≤ old ∧ l < 2 then
      let d := { d with sec := { d.sec with bscan := 0 } }
      if d.lc = 2 ∨ d.lc = 3 then d
      else d.forAll [0x028, 0x029, 0x02A] fun p e => e.when (decide (e.bstate p = .running) || decide (e.bstate p = .draining)) (·.fault p 0x03)
    else d

/-- Radio transmission is possible: the state is Provisioned or Deployed, or RF test access is held (R6, R615, R649). -/
def Dev.mayRadiate (d : Dev) : Bool :=
  decide (d.lc = 2) || decide (d.lc = 3) || decide (2 ≤ d.rd secPage SEC_STATUS.DBG_LEVEL)

/-! ### Ends of commands and jobs -/

/-- A command ends with a result (R632). -/
def Dev.secResult (d : Dev) (code : Nat) : Dev :=
  match d.sec.cmd with
  | none => d
  | some _ =>
    let d := ((d.wr secPage SEC_CMD_STAT.BUSY 0).wr secPage SEC_CMD_STAT.RESULT code).wr secPage SEC_CMD.GO 0
    { (d.cnt secPage SEC_CNT_CMD.COUNT).ev secPage 8 with sec := { d.sec with cmd := none } }

/-- The command ends DISCARDED, a slot it was loading EMPTY (R617, R629, R647, R657). -/
def Dev.secDiscardCmd (d : Dev) : Dev :=
  match d.sec.cmd with
  | none => d
  | some r =>
    let k := bits (nth 0 r.words 4) 0 12
    let d := d.when (decide (r.op = 8) && decide (r.early = none) && decide (d.slotState k = 1)) (·.emptySlot k)
    d.secResult 0x14

/-- STATUS in the descriptor at ring index `i`. -/
def Dev.secJobStatus (d : Dev) (i st : Nat) : Dev :=
  let a := d.rd secPage SEC_JOB_BASE.BASE * 64 + i % 2 ^ d.rd secPage SEC_JOB_CFG.LOG2 * 64
  (d.busWrite a (leBytes 4 (setBits (BitVec.ofNat 32 (d.ld a 4)) 24 4 st).toNat)).1

/-- Jobs from HW to SW. -/
def Dev.secJobs (d : Dev) : Nat := (d.rd secPage SEC_JOB_SW.INDEX + 65536 - d.rd secPage SEC_JOB_HW.INDEX) % 65536

/-- Advance HW past a job (R634). -/
def Dev.secJobStep (d : Dev) : Dev :=
  ((d.bump secPage SEC_JOB_HW.INDEX).cnt secPage SEC_CNT_JOB.COUNT).ev secPage 9

/-- What is written to `n` bytes at `a` is open (R65). -/
def Dev.openBytes (d : Dev) (a n : Nat) : Dev :=
  let p := d.drawOctets n
  (p.1.busWrite a p.2).1

/-- A job descriptor (R634). -/
structure SecJob where
  op : Nat
  ctx : Nat
  first : Bool
  last : Bool
  src : Nat
  dst : Nat
  len : Nat
  aadLen : Nat
  tag : Nat
  tagLen : Nat
  iv : List Nat
  nonceLen : Nat

def secJob (w : List Nat) : SecJob :=
  let f (k lo n : Nat) : Nat := bits (nth 0 w k) lo n
  { op := f 0 0 4, ctx := f 0 8 8, first := bit (nth 0 w 0) 16, last := bit (nth 0 w 0) 17,
    src := f 1 0 32 + f 2 0 4 * 2 ^ 32, dst := f 3 0 32 + f 4 0 4 * 2 ^ 32, len := f 5 0 25, aadLen := f 6 0 25,
    tag := f 7 0 32 + f 8 0 4 * 2 ^ 32, tagLen := f 8 8 5, iv := ((w.drop 9).take 4).flatMap (leBytes 4), nonceLen := f 12 24 4 }

/-- The output of a job that does not complete is open: text for a cipher operation, a tag for one that makes one (R65, R638). -/
def Dev.jobSpoil (d : Dev) (j : SecJob) : Dev :=
  if j.op = 1 ∨ j.op = 2 then
    (d.openBytes j.dst (j.len - j.aadLen)).when (decide (j.op = 1) && j.last && decide (j.tagLen ≠ 0)) (·.openBytes j.tag j.tagLen)
  else d.when ((decide (j.op = 3) || decide (j.op = 5)) && j.last) (·.openBytes j.tag j.tagLen)

/-- The output of the job in flight, when it ends early on a context that is set up, is open. -/
def Dev.jobInFlight (d : Dev) (a : Nat) : Dev :=
  let j := secJob (toWords (d.ldBytes a 64) 16)
  d.when (decide (d.secJobs ≠ 0) && d.rdB secPage (SEC_CTXENT.READY.at j.ctx)) (·.jobSpoil j)

/-- Jobs in flight and queued end DISCARDED (R617, R647). -/
def Dev.secDiscardJobs (d : Dev) (n : Nat) : Dev :=
  let h := d.rd secPage SEC_JOB_HW.INDEX
  let d := d.jobInFlight (d.rd secPage SEC_JOB_BASE.BASE * 64 + h % 2 ^ d.rd secPage SEC_JOB_CFG.LOG2 * 64)
  let d := d.each (min n d.secJobs) fun i e => (e.secJobStatus (h + i) 6).secJobStep
  { d with sec := { d.sec with lastJob := false } }

/-- Keys 4 to 63 and every context are cleared, every MAC slot EMPTY, the hamper wiped, the level D0 (R617, R647). -/
def Dev.secZeroise (d : Dev) (cause : Nat) : Dev :=
  let d := (d.secDiscardCmd).secDiscardJobs 65535
  let d := d.forAll ((List.range 60).map (· + 4)) fun k e => e.clearKey k
  let d := (d.clearAllCtx.emptySlots).startWipe cause
  let d := { d with sec := { d.sec with check := none } }
  ((d.wr secPage SEC_DBG_STAT.CHECKING 0).wr secPage SEC_DBG.GO 0).setLevel 0

/-- The steps of an accepted transition (R617). Which nonzero value a programmed copy holds is open. -/
def Dev.lcTransition (d : Dev) (target : Nat) : Dev :=
  let d := d.secZeroise 2
  let d := d.each 3 fun k e =>
    let p := e.draw 8
    let o := 3 * (target - 1) + k
    p.1.otpSet (o / 4 * 4) ((1 + p.2 % 255) * 256 ^ (o % 4))
  (d.wr secPage SEC_STATUS.LC_PENDING 1).wr secPage SEC_STATUS.LC_TARGET target

/-! ### Memory of commands and jobs -/

/-- The island reads bytes; what the other side of the PCI Express link holds is not known here. -/
def Dev.secRead (d : Dev) (a n : Nat) : Dev × Option (List Nat) :=
  if d.busCode a n = .okay then
    match regionOf a with
    | .pcie => let p := d.drawOctets n; (p.1, some p.2)
    | _ => (d, some (d.ldBytes a n))
  else (d, none)

/-- Wholly inside the hamper (R626). -/
def inHamper (a n : Nat) : Bool := decide (hamperBase ≤ a) && decide (a + n ≤ hamperBase + 0x100000)

/-! ### Key-store commands: fields of the command block (R631) -/

structure SecArgs where
  dst : Nat
  entry : Nat
  parent : Nat
  attr : Nat
  src : Nat
  ctx : Nat
  len : Nat
  slot : Nat
  cipher : Nat
  keyid : Nat
  fromEntry : Bool
  klen : Nat
  mode : Nat
  wrapped : Bool
  dual : Bool
  target : Nat
  param : List Nat
  kctx : List Nat

def secArgs (w : List Nat) : SecArgs :=
  let f (k lo n : Nat) : Nat := bits (nth 0 w k) lo n
  { dst := f 0 0 32 + f 1 0 4 * 2 ^ 32, entry := f 1 8 6, parent := f 1 16 6, attr := f 1 24 7,
    src := f 2 0 32 + f 3 0 4 * 2 ^ 32, ctx := f 3 8 8, len := f 3 16 16, slot := f 4 0 12, cipher := f 4 12 3,
    keyid := f 4 15 3, fromEntry := bit (nth 0 w 4) 18, klen := if bit (nth 0 w 4) 19 then 32 else 16, mode := f 4 20 4,
    wrapped := bit (nth 0 w 4) 24, dual := bit (nth 0 w 4) 25, target := f 4 26 3,
    param := (w.drop 5).take 4, kctx := (w.drop 9).take 4 }

/-- Write the octets of a result, then end. -/
def Dev.secOut (d : Dev) (a : Nat) (l : List Nat) : Dev × Nat :=
  let r := d.busWrite a l
  if r.2 then (r.1, 0) else (d, 0x0A)

/-- A blob under a key (R623): header bytes 0 to 7, IV, payload. -/
def Dev.sealBlob (d : Dev) (key : List Nat) (kek epoch attr len typ : Nat) (payload : List Nat) : Dev × List Nat :=
  let p := d.drawOctets 12
  let hd := [0x4B, 0x42, 0x01, kek, epoch, attr, len, typ]
  let rks := aesKeys (key ++ zeros (32 - key.length))
  let ct := gcmText rks p.2 payload
  (p.1, hd ++ p.2 ++ ct ++ gcmTag rks p.2 hd ct)

/-- The payload of a blob, when its tag is correct. -/
def openBlob (key blob : List Nat) (n : Nat) : Option (List Nat) :=
  let rks := aesKeys (key ++ zeros (32 - key.length))
  let iv := (blob.drop 8).take 12
  let ct := (blob.drop 20).take n
  if gcmTag rks iv (blob.take 8) ct = (blob.drop (20 + n)).take 16 then some (gcmText rks iv ct) else none

/-- The header checks every blob gets (R624, first row). -/
def blobHeadOk (b : List Nat) (typ : Nat) : Bool :=
  decide (nth 0 b 0 = 0x4B) && decide (nth 0 b 1 = 0x42) && decide (nth 0 b 2 = 1) && decide (nth 0 b 3 ≤ 1)
    && decide (nth 0 b 6 ≤ 1) && decide (nth 0 b 7 = typ)

def Dev.authFail (d : Dev) : Dev × Nat := (d.cnt secPage SEC_CNT_AUTHFAIL.COUNT, 0x06)

def Dev.epoch (d : Dev) : Nat := d.rd secPage SEC_STATUS.KEPOCH

/-- RAND: the octets drawn are written to any address. -/
def Dev.cmdRand (d : Dev) (a : SecArgs) : Dev × Nat :=
  if a.len = 0 ∨ 4096 < a.len then (d, 0x02) else let p := d.drawOctets a.len; p.1.secOut a.dst p.2

def Dev.cmdGenKey (d : Dev) (a : SecArgs) : Dev × Nat :=
  if a.entry < 4 then (d, 0x05) else let p := d.drawOctets a.klen; (p.1.setKey a.entry a.attr p.2, 0)

/-- DERIVE (R622): the child's attributes are a subset of its parent's, WRAP and EXPORT excepted. -/
def Dev.cmdDerive (d : Dev) (a : SecArgs) : Dev × Nat :=
  if a.entry < 4 then (d, 0x05)
  else if d.keyValid a.parent = false then (d, 0x04)
  else if d.keyAttr a.parent 3 = false ∨
      ((List.range 7).any fun k => bit a.attr k && !d.keyAttr a.parent k && decide (k ≠ 2) && decide (k ≠ 4)) then (d, 0x03)
  else (d.setKey a.entry a.attr (kdf (d.keyOf a.parent) (a.param.flatMap (leBytes 4)) (a.kctx.flatMap (leBytes 4)) (d.kdfF d.epoch) a.klen), 0)

/-- IMPORT (R624). -/
def Dev.cmdImport (d : Dev) (a : SecArgs) : Dev × Nat :=
  if a.entry < 4 then (d, 0x05)
  else
    match d.secRead a.src 68 with
    | (d, none) => (d, 0x0A)
    | (d, some b) =>
      let kek := nth 0 b 3
      if blobHeadOk b 0 = false then (d, 0x02)
      else if kek = 0 ∧ nth 0 b 4 ≠ d.epoch then (d, if nth 0 b 4 + 1 = d.epoch then 0x08 else 0x07)
      else if kek = 1 ∧ !(d.keyValid a.parent && d.keyAttr a.parent 6) then (d, 0x03)
      else
        match openBlob (d.keyOf (if kek = 0 then 0 else a.parent)) b 32 with
        | none => d.authFail
        | some k => (d.setKey a.entry (nth 0 b 5 % 128) (k.take (if nth 0 b 6 = 1 then 32 else 16)), 0)

/-- WRAP (R621, R623): under DEV_KEK when PARENT is 0, under the PAIR entry it names otherwise. -/
def Dev.cmdWrap (d : Dev) (a : SecArgs) : Dev × Nat :=
  if d.keyValid a.entry = false then (d, 0x04)
  else if d.keyAttr a.entry 4 = false then (d, 0x03)
  else if a.parent ≠ 0 ∧ d.keyValid a.parent = false then (d, 0x04)
  else if a.parent ≠ 0 ∧ d.keyAttr a.parent 6 = false then (d, 0x03)
  else
    let k := d.keyOf a.entry
    let p := d.sealBlob (d.keyOf a.parent) (if a.parent = 0 then 0 else 1) d.epoch (d.rd secPage (SEC_KEYENT.ATTR.at a.entry))
      (b2n (decide (k.length = 32))) 0 (k ++ zeros (32 - k.length))
    p.1.secOut a.dst p.2

def Dev.cmdLoadKey (d : Dev) (a : SecArgs) : Dev × Nat :=
  if a.entry < 4 then (d, 0x05)
  else if inHamper a.src a.klen = false then (d, 0x09)
  else
    match d.secRead a.src a.klen with
    | (d, some k) => (d.setKey a.entry a.attr k, 0)
    | (d, none) => (d, 0x0A)

def Dev.cmdClearEntry (d : Dev) (a : SecArgs) : Dev × Nat := if a.entry < 4 then (d, 0x05) else (d.clearKey a.entry, 0)

/-- The checks of SLOT_LOAD in order (R627), and the key. -/
def Dev.slotLoadCheck (d : Dev) (a : SecArgs) : Dev × Except Nat (List Nat) :=
  if d.inService 0x033 = false then (d, .error 0x0B)
  else if 2304 ≤ a.slot ∨ (a.slot < 2048 ∧ 4 ≤ a.cipher) then (d, .error 0x02)
  else if (if a.fromEntry then d.keyLen a.entry else a.klen) ≠ (if a.cipher % 2 = 0 then 16 else 32) then (d, .error 0x15)
  else if a.fromEntry then
    if d.keyValid a.entry = false then (d, .error 0x04)
    else if d.keyAttr a.entry 0 = false then (d, .error 0x03)
    else (d, .ok (d.keyOf a.entry))
  else if inHamper a.src a.klen = false then (d, .error 0x09)
  else
    match d.secRead a.src a.klen with
    | (d, some k) => (d, .ok k)
    | (d, none) => (d, .error 0x0A)

/-- The public key of a verification context, x then y. -/
def pubLen (mode : Nat) : Nat := if mode = 11 then 64 else 96

/-- CTX_SETUP (R633, R636). -/
def Dev.cmdCtxSetup (d : Dev) (a : SecArgs) : Dev × Nat :=
  let mk (k k2 : List Nat) (cs : Bool) : SecCtx :=
    { mode := a.mode, dual := a.dual, inMsg := false, key := k, key2 := k2, clearSave := cs, iv := [], aad := [], text := [] }
  let usable (e : Nat) : Nat := if d.keyValid e = false then 0x04 else if d.keyAttr e 1 = false then 0x03 else 0
  if 12 < a.mode then (d, 0x02)
  else if a.mode = 7 ∨ a.mode = 8 then (d.setCtx a.ctx (mk [] [] false), 0)
  else if 11 ≤ a.mode then
    match d.secRead a.src (pubLen a.mode) with
    | (d, some k) => (d.setCtx a.ctx (mk k [] false), 0)
    | (d, none) => (d, 0x0A)
  else if usable a.entry ≠ 0 then (d, usable a.entry)
  else if a.mode = 6 then
    if usable (a.entry + 1) ≠ 0 then (d, usable (a.entry + 1))
    else if d.keyLen a.entry ≠ d.keyLen (a.entry + 1) ∨ d.keyOf a.entry = d.keyOf (a.entry + 1) then (d, 0x15)
    else (d.setCtx a.ctx (mk (d.keyOf a.entry) (d.keyOf (a.entry + 1)) (d.keyAttr a.entry 5 && d.keyAttr (a.entry + 1) 5)), 0)
  else (d.setCtx a.ctx (mk (d.keyOf a.entry) [] (d.keyAttr a.entry 5)), 0)

/-- CTX_SAVE (R639): the layout of the 128 bytes is open; what they stand for is kept beside them. -/
def Dev.cmdCtxSave (d : Dev) (a : SecArgs) : Dev × Nat :=
  match look d.sec.ctx a.ctx with
  | none => (d, 0x04)
  | some x =>
    if a.wrapped = false ∧ x.clearSave = false then (d, 0x03)
    else if a.wrapped = false ∧ inHamper a.dst 128 = false then (d, 0x09)
    else
      let p := d.drawOctets 128
      let d : Dev := { p.1 with sec := { p.1.sec with saves := { image := p.2, ctx := x, lc := p.1.lc, epoch := p.1.epoch } :: p.1.sec.saves } }
      if a.wrapped then
        let at' := d.draw 7
        let ln := at'.1.draw 1
        let q := ln.1.sealBlob (d.keyOf 0) 0 d.epoch at'.2 ln.2 1 p.2
        q.1.secOut a.dst q.2
      else d.secOut a.dst p.2

/-- CTX_RESTORE (R639). -/
def Dev.cmdCtxRestore (d : Dev) (a : SecArgs) : Dev × Nat :=
  let take (d : Dev) (img : List Nat) : Dev × Nat :=
    match d.sec.saves.find? fun v => decide (v.image = img) && decide (v.lc = d.lc) && decide (v.epoch = d.epoch) with
    | some v => (d.setCtx a.ctx v.ctx, 0)
    | none => d.authFail
  if a.wrapped then
    match d.secRead a.src 164 with
    | (d, none) => (d, 0x0A)
    | (d, some b) =>
      if blobHeadOk b 1 = false ∨ nth 0 b 3 ≠ 0 then (d, 0x02)
      else if nth 0 b 4 ≠ d.epoch then (d, 0x07)
      else
        match openBlob (d.keyOf 0) b 128 with
        | some img => take d img
        | none => d.authFail
  else if inHamper a.src 128 = false then (d, 0x09)
  else
    match d.secRead a.src 128 with
    | (d, some img) => take d img
    | (d, none) => (d, 0x0A)

/-- FORERUNNER (R625). -/
def Dev.cmdForerunner (d : Dev) (a : SecArgs) : Dev × Nat :=
  match d.secRead a.src 68 with
  | (d, none) => (d, 0x0A)
  | (d, some b) =>
    if blobHeadOk b 0 = false ∨ nth 0 b 3 ≠ 0 then (d, 0x02)
    else if nth 0 b 4 + 1 ≠ d.epoch then (d, 0x07)
    else
      match openBlob (d.keyOf 2) b 32 with
      | none => d.authFail
      | some k =>
        let p := d.sealBlob (d.keyOf 0) 0 d.epoch (nth 0 b 5) (nth 0 b 6) 0 k
        p.1.secOut a.dst p.2

/-- OTP_PROG (R620): `bad` is the first word that lacks a bit on reading back. HUK is drawn inside the island (R619). -/
def Dev.cmdOtpProg (d : Dev) (a : SecArgs) (bad : Option Nat) : Dev × Nat :=
  let o := nth 0 a.param 0
  let n := nth 0 a.param 1
  match otpFields.find? fun f => decide (f.1 ≤ o) && decide (o < f.1 + f.2.1) with
  | none => (d, 0x0C)
  | some (base, size, states, blank) =>
    if states.contains d.lc = false then (d, 0x0C)
    else if o % 4 ≠ 0 ∨ base + size < o + 4 * n then (d, 0x02)
    else if blank ∧ d.otpBytes base size ≠ zeros size then (d, 0x0D)
    else
      match (if base = 0x80 then (let p := d.drawOctets (4 * n); (p.1, some p.2)) else d.secRead a.src (4 * n)) with
      | (d, none) => (d, 0x0A)
      | (d, some l) =>
        let ws := toWords l n
        let good := match bad with | some k => min k n | none => n
        let d := d.each good fun i e => e.otpSet (o + 4 * i) (nth 0 ws i)
        match bad with
        | some k =>
          if k < n then
            -- the word that failed holds some of its bits
            let p := d.draw 32
            (p.1.otpSet (o + 4 * k) (p.2 &&& nth 0 ws k), 0x0E)
          else (d, 0)
        | none => (d, 0)

/-- LC_ADVANCE (R616, R656). -/
def Dev.lcByFirmware (d : Dev) (t : Nat) : Nat :=
  let ownerKey := (List.range 4).any fun i => decide (d.otpBytes (0x100 + 48 * i) 48 ≠ zeros 48)
  if d.rd secPage SEC_STATUS.DBG_LEVEL = 3 ∧ t ≠ 5 then 0x0C
  else if d.lc = 1 ∧ t = 2 then (if ownerKey then 0 else 0x10)
  else if d.lc = 2 ∧ t = 3 then 0
  else if t = 5 ∧ (d.lc = 0 ∨ d.lc = 1 ∨ d.lc = 4) then 0
  else 0x0C

/-! ### Start and completion of a command -/

/-- GO in SEC_CMD (R630): while BUSY is 1 only OP is written. -/
def Dev.secGo (d : Dev) (op : Nat) : Dev :=
  if d.rdB secPage SEC_CMD_STAT.BUSY then d.wr secPage SEC_CMD.OP op
  else
    let d := (((d.wr secPage SEC_CMD.OP op).wr secPage SEC_CMD.GO 1).wr secPage SEC_CMD_STAT.BUSY 1).wr secPage SEC_CMD_STAT.OP op
    let run (e : Dev) (ws : List Nat) (r : Option Nat) : Dev := { e with sec := { e.sec with cmd := some { op := op, words := ws, early := r } } }
    if d.inService secPage = false then run d [] (some 0x0B)
    else if op = 0 ∨ 0x10 < op then run d [] (some 0x01)
    else if op ≠ 1 ∧ d.rdB secPage SEC_STATUS.TAMPERED then run d [] (some 0x12)
    else if op ≠ 1 ∧ d.rdB secPage SEC_STATUS.LC_PENDING then run d [] (some 0x13)
    else
      match d.secRead (d.rd secPage SEC_CMD_ADDR.ADDR * 64) 64 with
      | (d, none) => run d [] (some 0x0A)
      | (d, some l) =>
        let ws := toWords l 16
        if op = 8 then
          let a := secArgs ws
          match d.slotLoadCheck a with
          | (d, .error c) => run d ws (some c)
          | (d, .ok k) =>
            let d := ((d.wr 0x033 (MAC_KEYSLOT.STATE.at a.slot) 1).wr 0x033 (MAC_KEYSLOT.CIPHER.at a.slot) a.cipher).wr 0x033 (MAC_KEYSLOT.KEYID.at a.slot) a.keyid
            run { d with mac := { d.mac with keys := put d.mac.keys a.slot (ofLeBytes k) } } ws none
        else run d ws none

def execRand (s : State) : Host.Outcome State Fault Refusal := s.onDev (·.regDo 0x004 (·.secGo 0x01))
def execGenKey (s : State) : Host.Outcome State Fault Refusal := s.onDev (·.regDo 0x004 (·.secGo 0x02))
def execDerive (s : State) : Host.Outcome State Fault Refusal := s.onDev (·.regDo 0x004 (·.secGo 0x03))
def execImportKey (s : State) : Host.Outcome State Fault Refusal := s.onDev (·.regDo 0x004 (·.secGo 0x04))
def execWrap (s : State) : Host.Outcome State Fault Refusal := s.onDev (·.regDo 0x004 (·.secGo 0x05))
def execLoadKey (s : State) : Host.Outcome State Fault Refusal := s.onDev (·.regDo 0x004 (·.secGo 0x06))
def execClearEntry (s : State) : Host.Outcome State Fault Refusal := s.onDev (·.regDo 0x004 (·.secGo 0x07))
def execSlotLoad (s : State) : Host.Outcome State Fault Refusal := s.onDev (·.regDo 0x004 (·.secGo 0x08))
def execSlotClear (s : State) : Host.Outcome State Fault Refusal := s.onDev (·.regDo 0x004 (·.secGo 0x09))
def execCtxSetup (s : State) : Host.Outcome State Fault Refusal := s.onDev (·.regDo 0x004 (·.secGo 0x0A))
def execCtxSave (s : State) : Host.Outcome State Fault Refusal := s.onDev (·.regDo 0x004 (·.secGo 0x0B))
def execCtxRestore (s : State) : Host.Outcome State Fault Refusal := s.onDev (·.regDo 0x004 (·.secGo 0x0C))
def execForerunner (s : State) : Host.Outcome State Fault Refusal := s.onDev (·.regDo 0x004 (·.secGo 0x0D))
def execOtpProg (s : State) : Host.Outcome State Fault Refusal := s.onDev (·.regDo 0x004 (·.secGo 0x0E))
def execLcAdvance (s : State) : Host.Outcome State Fault Refusal := s.onDev (·.regDo 0x004 (·.secGo 0x0F))
def execCtxClear (s : State) : Host.Outcome State Fault Refusal := s.onDev (·.regDo 0x004 (·.secGo 0x10))

/-- The slot the command loads, while it is LOADING. -/
def Dev.loadingSlot (d : Dev) : Option Nat :=
  match d.sec.cmd with
  | some r =>
    let k := (secArgs r.words).slot
    if r.op = 8 ∧ r.early = none ∧ d.slotState k = 1 then some k else none
  | none => none

/-- MPDUs of stations that use pairwise slot `k` are encrypted again at their next attempt (R265). -/
def Dev.reencrypt (d : Dev) (k : Nat) : Dev :=
  let one (e : QEntry) : QEntry := if e.enc ∧ e.sta ≠ 0x7FF ∧ d.staPair e.sta = k then { e with enc := false } else e
  { d with air := { d.air with queues := d.air.queues.map fun q => (q.1, q.2.map one) } }

/-- The replay counters of each entry that names pairwise slot `k` become 0 (R264). -/
def Dev.replayReset (d : Dev) (k : Nat) : Dev :=
  { d with mac := { d.mac with recs := d.mac.recs.map fun e => if d.staPair (e.1 / 16) = k then (e.1, { e.2 with replay := 0 }) else e } }

/-- A slot becomes READY (R628, R264): PN 1 next, and for a pairwise slot the replay counters of each entry that names it 0; what
awaits retransmission is encrypted again (R265). -/
def Dev.slotToReady (d : Dev) (k : Nat) : Dev :=
  let d := (d.wr 0x033 (MAC_KEYSLOT.STATE.at k) 2).setSlotPn k 1
  if k < 2048 then (d.replayReset k).reencrypt k else d

def execSlotReady (s : State) : Host.Outcome State Fault Refusal :=
  s.onDev fun d => match d.loadingSlot with | some k => d.slotToReady k | none => d

/-- Page 0x033 leaves RUNNING during a load (R629). -/
def Dev.secSlotAbort (d : Dev) : Dev := if d.loadingSlot.isSome then d.secDiscardCmd else d

/-- What a command does at its end, and its result. Double computation covers every key-store command (R637). -/
def Dev.secFinish (d : Dev) (op : Nat) (a : SecArgs) (f : SecFact) : Dev × Nat :=
  if f.mismatch ∧ (op = 2 ∨ op = 3 ∨ op = 4 ∨ op = 5 ∨ op = 6 ∨ op = 7 ∨ (10 ≤ op ∧ op ≤ 13) ∨ op = 16) then (d.fcheck, 0x11)
  else
    match op with
    | 1 => d.cmdRand a
    | 2 => d.cmdGenKey a
    | 3 => d.cmdDerive a
    | 4 => d.cmdImport a
    | 5 => d.cmdWrap a
    | 6 => d.cmdLoadKey a
    | 7 => d.cmdClearEntry a
    | 8 => (d, 0)
    | 9 => if 2304 ≤ a.slot then (d, 0x02) else (d.emptySlot a.slot, 0)
    | 10 => d.cmdCtxSetup a
    | 11 => d.cmdCtxSave a
    | 12 => d.cmdCtxRestore a
    | 13 => d.cmdForerunner a
    | 14 => d.cmdOtpProg a f.progBad
    | 15 => (d, d.lcByFirmware a.target)
    | _ => (d.clearCtx a.ctx, 0)

/-- SEC_CMD_COMPLETE. An accepted LC_ADVANCE ends its own command OK after the others were discarded (R617). -/
def Dev.secComplete (d : Dev) (f : SecFact) : Dev :=
  match d.sec.cmd with
  | none => d
  | some r =>
    if d.loadingSlot.isSome then d
    else
      match r.early with
      | some c => d.secResult c
      | none =>
        let a := secArgs r.words
        let p := d.secFinish r.op a f
        let q := p.1.secResult p.2
        if r.op = 15 ∧ p.2 = 0 then q.lcTransition a.target else q

def execSecCmdComplete (fact : SecFact) (s : State) : Host.Outcome State Fault Refusal := s.onDev (·.secComplete fact)

/-! ### Jobs -/

/-- A write of SEC_JOB_SW (R634, R489). -/
def Dev.secJobPost (d : Dev) (sw : Nat) : Dev :=
  let held := (sw % 65536 + 65536 - d.rd secPage SEC_JOB_HW.INDEX) % 65536
  if 2 ^ d.rd secPage SEC_JOB_CFG.LOG2 < held then d else d.wr secPage SEC_JOB_SW.INDEX sw

def execSecJobPosted (sw : Nat) (s : State) : Host.Outcome State Fault Refusal := s.onDev (·.regDo 0x004 (·.secJobPost sw))

/-- Operations a mode allows (R633). -/
def modeOps (mode : Nat) : List Nat :=
  if mode ≤ 4 ∨ mode = 6 then [1, 2] else if mode = 5 ∨ mode = 9 ∨ mode = 10 then [3, 4] else if mode ≤ 8 then [5] else [6]

/-- Rules of flags and lengths (R634 to R636, R638). -/
def jobOk (x : SecCtx) (j : SecJob) : Bool :=
  let m := x.mode
  decide (1 ≤ j.op) && decide (j.op ≤ 6) && decide (j.len ≤ 2 ^ 24) && (j.first || x.inMsg)
    && (if m = 3 ∨ m = 4 then
          decide (j.aadLen ≤ j.len) && decide (4 ≤ j.tagLen) && decide (j.tagLen ≤ 16) && (decide (j.op ≠ 2) || (j.first && j.last))
            && (decide (m = 3) || (decide (j.tagLen % 2 = 0) && decide (7 ≤ j.nonceLen) && decide (j.nonceLen ≤ 13)))
            && (j.first || decide (j.aadLen = 0) || decide (x.text = []))
        else decide (j.aadLen = 0))
    && (decide (m ≠ 0 ∧ m ≠ 1) || decide (j.len % 16 = 0))
    && (decide (m ≠ 6) || (j.first && j.last && decide (16 ≤ j.len)))
    && (decide (j.op ≠ 3 ∧ j.op ≠ 4) || (decide (4 ≤ j.tagLen) && decide (j.tagLen ≤ 16)))

/-- The context with the job's part of the message added. -/
def SecCtx.extend (x : SecCtx) (j : SecJob) (src : List Nat) : SecCtx :=
  let x : SecCtx := if j.first then { x with iv := j.iv, aad := [], text := [] } else x
  { x with aad := x.aad ++ src.take j.aadLen, text := x.text ++ src.drop j.aadLen, inMsg := !j.last }

/-- The whole text of a cipher mode over the message so far, encrypted or decrypted. -/
def SecCtx.cipher (x : SecCtx) (enc : Bool) (nonceLen : Nat) : List Nat :=
  let rks := aesKeys x.key
  match x.mode with
  | 0 => (chunks 16 x.text).flatMap (if enc then aesEnc rks else aesDec rks)
  | 1 => if enc then cbcEnc rks x.iv (chunks 16 x.text) else cbcDec rks x.iv (chunks 16 x.text)
  | 2 => ctrMode rks 16 x.iv x.text
  | 3 => gcmText rks (x.iv.take 12) x.text
  | 4 => ccmText rks (x.iv.take nonceLen) x.text
  | _ => xts enc x.key x.key2 x.iv x.text

/-- The tag, MAC or digest over the message. -/
def SecCtx.tagOf (x : SecCtx) (enc : Bool) (nonceLen n : Nat) : List Nat :=
  let rks := aesKeys x.key
  let out := x.cipher enc nonceLen
  let full := match x.mode with
    | 3 => gcmTag rks (x.iv.take 12) x.aad (if enc then out else x.text)
    | 4 => ccmTag rks (x.iv.take nonceLen) x.aad (if enc then x.text else out) n
    | 5 => aesCmac x.key x.text
    | 7 => sha256 x.text
    | 8 => sha384 x.text
    | 9 => sha256P.hmac x.key x.text
    | _ => sha384P.hmac x.key x.text
  if n = 0 then full else full.take n

/-- A job carried out on its context: the device after its outputs, the context after, and the status (R638). -/
def Dev.carryJob (d : Dev) (x : SecCtx) (j : SecJob) : Dev × SecCtx × Nat :=
  match d.secRead j.src j.len with
  | (d, none) => (d, x, 5)
  | (d, some src) =>
    let y := x.extend j src
    let aead := decide (x.mode = 3) || decide (x.mode = 4)
    if j.op = 1 ∨ j.op = 2 then
      let enc := decide (j.op = 1)
      let n := j.len - j.aadLen
      let out := (y.cipher enc j.nonceLen).drop (y.text.length - n)
      if aead ∧ enc = false then
        match d.secRead j.tag j.tagLen with
        | (d, none) => (d, y, 5)
        | (d, some t) =>
          let good := decide (y.tagOf false j.nonceLen j.tagLen = t)
          let w := d.busWrite j.dst (if good then out else zeros n)
          (w.1, y, if good then (if w.2 then 0 else 5) else 1)
      else
        let w := d.busWrite j.dst out
        if w.2 = false then (w.1, y, 5)
        else if aead ∧ j.last then
          let t := w.1.busWrite j.tag (y.tagOf true j.nonceLen j.tagLen)
          (t.1, y, if t.2 then 0 else 5)
        else (w.1, y, 0)
    else if j.last = false then (d, y, 0)
    else if j.op = 3 ∨ j.op = 5 then
      let w := d.busWrite j.tag (y.tagOf true 0 j.tagLen)
      (w.1, y, if w.2 then 0 else 5)
    else if j.op = 4 then
      match d.secRead j.tag j.tagLen with
      | (d, none) => (d, y, 5)
      | (d, some t) => (d, y, if y.tagOf true 0 j.tagLen = t then 0 else 1)
    else
      match d.secRead j.tag (pubLen x.mode) with
      | (d, none) => (d, y, 5)
      | (d, some sig) =>
        let ok := if x.mode = 11 then p256.verify x.key sig (sha256 y.text) else p384.verify x.key sig (sha384 y.text)
        (d, y, if ok then 0 else 1)

/-- A job as it ends: the output of one that ends ACCESS is undefined (R638). -/
def Dev.runJob (d : Dev) (x : SecCtx) (j : SecJob) : Dev × SecCtx × Nat :=
  let r := d.carryJob x j
  if r.2.2 = 5 then (r.1.jobSpoil j, r.2) else r

/-- SEC_JOB_DONE: the job at HW ends; `mismatch` tells that its two computations differed (R637). -/
def Dev.jobDone (d : Dev) (mismatch : Bool) : Dev :=
  if d.secJobs = 0 ∨ !(d.inService secPage || (decide (d.bstate secPage = .draining) && d.sec.lastJob && d.active secPage)) then d
  else
    let h := d.rd secPage SEC_JOB_HW.INDEX
    let a := d.rd secPage SEC_JOB_BASE.BASE * 64 + h % 2 ^ d.rd secPage SEC_JOB_CFG.LOG2 * 64
    let finish (e : Dev) (st : Nat) : Dev :=
      let e := e.when (decide (st = 1)) (·.cnt secPage SEC_CNT_AUTHFAIL.COUNT)
      { (e.secJobStatus h st).secJobStep with sec := { e.sec with lastJob := false } }
    match d.secRead a 64 with
    | (d, none) => finish d 5
    | (d, some l) =>
      let j := secJob (toWords l 16)
      match look d.sec.ctx j.ctx with
      | none => finish d (if 1 ≤ j.op ∧ j.op ≤ 6 then 4 else 3)
      | some x =>
        if j.op = 0 ∨ 6 < j.op then finish d 3
        else if (modeOps x.mode).contains j.op = false then finish d 4
        else if jobOk x j = false then finish d 3
        else if mismatch ∧ (x.dual ∨ d.rdB secPage SEC_ACCESS.DCHK_FORCE) then finish d.fcheck 2
        else
          let r := d.runJob x j
          finish (r.1.setCtx j.ctx r.2.1) r.2.2

def execSecJobDone (mismatch : Bool) (s : State) : Host.Outcome State Fault Refusal := s.onDev (·.jobDone mismatch)

/-! ### Tamper -/

def Dev.tamperResp (d : Dev) (s : Nat) : Nat := d.rd secPage (SEC_TAMPER_CFG.RESP s)

/-- Source 5 trips only at FCHK_LIMIT events within one second of RTC time (R646). -/
def Dev.fchkTrips (d : Dev) : Bool :=
  let n := d.rd secPage SEC_FCHK.FCHK_LIMIT
  decide (n ≠ 0) && (match d.sec.fchk.drop (n - 1) with
    | t :: _ => decide (d.sec.fchk.headD 0 < t + 32768)
    | [] => false)

def Dev.zeroiseNow (d : Dev) : Dev := (d.secZeroise 1).wr secPage SEC_STATUS.TAMPERED 1

/-- A source trips (R646 to R648). -/
def Dev.tamperTrip (d : Dev) (src : Nat) : Dev :=
  let asleep := decide (4 ≤ d.pstate)
  if 6 ≤ src ∨ d.tamperResp src = 0 ∨ (2 ≤ src ∧ asleep) ∨ (src = 5 ∧ d.fchkTrips = false) then d
  else
    let d := (((d.wr secPage (SEC_TAMPER_LATCH.LATCH.bitOf src) 1).ev secPage 10)).cnt secPage SEC_CNT_TAMPER.COUNT
    if d.tamperResp src = 1 then d
    else if asleep then { d with sec := { d.sec with owed := true } }
    else d.zeroiseNow

def execTamperTrip (source : Nat) (s : State) : Host.Outcome State Fault Refusal := s.onDev (·.tamperTrip source)

/-- W1C of SEC_TAMPER_LATCH (R647): TAMPERED goes with the last latch bit of a ZEROISE source. -/
def Dev.tamperClear (d : Dev) (mask : Nat) : Dev :=
  let l := d.rd secPage SEC_TAMPER_LATCH.LATCH
  let d := d.wr secPage SEC_TAMPER_LATCH.LATCH (l - (l &&& mask))
  let zs := (List.range 6).any fun s => d.rdB secPage (SEC_TAMPER_LATCH.LATCH.bitOf s) && decide (2 ≤ d.tamperResp s)
  d.when (!zs) (·.wr secPage SEC_STATUS.TAMPERED 0)

def execTamperLatchClear (mask : Nat) (s : State) : Host.Outcome State Fault Refusal := s.onDev fun d => d.regDo 0x004 fun d => (d.tamperClear mask).complete .okay

/-- The known-answer tests end (fault 0x40 of page 0x004). -/
def execSelftestDone (ok : Bool) (s : State) : Host.Outcome State Fault Refusal :=
  s.onDev fun d => if ok then d.wr secPage SEC_STATUS.SELFTEST_OK 1 else d.fault secPage 0x40

/-! ### Debug levels -/

/-- How a level is obtained in a life-cycle state (R650): 0 by request, 1 by an owner token, 2 by a vendor token, 3 never. -/
def levelNeeds (lc level : Nat) : Nat :=
  if lc = 5 then 3
  else if level = 3 then (if lc = 4 then 2 else 3)
  else if lc = 2 then 1
  else if lc = 3 then (if level = 1 then 1 else 3)
  else 0

/-- Signer a life-cycle token needs (R616): 0 owner, 1 vendor; none where no token moves the state so. -/
def lcSigner (lc t : Nat) : Option Nat :=
  if lc = 0 ∧ t = 1 then some 1
  else if (lc = 2 ∨ lc = 3) ∧ (t = 4 ∨ t = 5) then some 0
  else if (lc = 0 ∨ lc = 1 ∨ lc = 4) ∧ t = 5 then some 1
  else none

def Dev.dbgResult (d : Dev) (r : Nat) : Dev := (d.wr secPage SEC_DBG_STAT.RESULT r).wr secPage SEC_DBG.GO 0

/-- READ_NONCE draws a new nonce (R653). -/
def Dev.readNonce (d : Dev) : Dev :=
  let p := d.drawOctets 16
  let d := p.1.each 4 fun k e => e.wr secPage (SEC_DBG_NONCE.NONCE.at k) (ofLeBytes ((p.2.drop (4 * k)).take 4))
  { (d.wr secPage SEC_DBG_STAT.NONCE_VALID 1).dbgResult 0 with sec := { d.sec with nonce := some p.2 } }

def execDbgReadNonce (s : State) : Host.Outcome State Fault Refusal := s.onDev (·.regDo 0x004 (·.readNonce))

def Dev.startCheck (d : Dev) (unlock : Bool) (arg : Nat) (token : List Nat) : Dev :=
  if d.sec.check.isSome then d
  else
    { d.wr secPage SEC_DBG_STAT.CHECKING 1 with
      sec := { d.sec with check := some { unlock := unlock, arg := arg, token := token, nonce := d.sec.nonce } } }

/-- UNLOCK (R650, R652, R653): at once where a request suffices or the level falls, by a token check otherwise. -/
def Dev.dbgUnlock (d : Dev) (level : Nat) (token : List Nat) : Dev :=
  if level ≤ d.rd secPage SEC_STATUS.DBG_LEVEL then (d.setLevel level).dbgResult 0
  else if levelNeeds d.lc level = 0 then (d.setLevel level).dbgResult 0
  else if token = [] then d.dbgResult 0x0C
  else d.startCheck true level token

/-- A hart as it is when the level is below D1: not halted (a halted one resumes at dpc in the privilege of dcsr), nothing of the
debugger's left in it. -/
def Hart.undebug (h : Hart) : Hart :=
  let p := bits (lookOr 0 h.csr 0x7B0).toNat 0 2
  let h := if h.halted then { h with halted := false, pc := lookOr 0 h.csr 0x7B1, priv := if p = 2 then 3 else p } else h
  { h with csr := h.csr.filter fun e => decide (e.1 ≠ 0x7B0) && !(decide (0x17A1 ≤ e.1) && e.2.getLsbD 59) }

/-- When the level falls below D1 every halted hart resumes and the Debug Module is reset (R652); what it set in the cores
(dcsr, triggers held in debug mode) goes with it. -/
def State.afterLevel (s : State) : State :=
  if s.dev.rd secPage SEC_STATUS.DBG_LEVEL = 0 then
    { s with
      dev := { s.dev with ctl := { s.dev.ctl with buffer := List.replicate 8 0 } }
      harts := s.harts.map Hart.undebug }
  else s

def execDbgUnlock (level : Nat) (token : List Nat) (s : State) : Host.Outcome State Fault Refusal :=
  if s.dev.answers secPage then .next { s with dev := s.dev.dbgUnlock (level % 4) token }.afterLevel
  else .next { s with dev := s.dev.complete .unavailable }

def Dev.dbgLower (d : Dev) (level : Nat) : Dev :=
  (if level < d.rd secPage SEC_STATUS.DBG_LEVEL then d.setLevel level else d).dbgResult 0

def execDbgLower (level : Nat) (s : State) : Host.Outcome State Fault Refusal :=
  if s.dev.answers secPage then .next { s with dev := s.dev.dbgLower (level % 4) }.afterLevel
  else .next { s with dev := s.dev.complete .unavailable }

def execDbgLifeCycle (token : List Nat) (s : State) : Host.Outcome State Fault Refusal :=
  s.onDev fun d => d.regDo secPage fun d => d.startCheck false (nth 0 token 2) token

/-- A token is accepted (R655), for the check it was submitted to. -/
def Dev.tokenOk (d : Dev) (c : TokCheck) : Bool :=
  let b (i n : Nat) : List Nat := (c.token.drop i).take n
  let signer := nth 0 c.token 3
  let needs := if c.unlock then (match levelNeeds d.lc c.arg with | 1 => some 0 | 2 => some 1 | _ => none) else lcSigner d.lc c.arg
  let hash := sha384 (b 128 96)
  decide (c.token.length = 224) && decide (b 0 2 = leBytes 2 (if c.unlock then 0x5444 else 0x4C43)) && decide (nth 0 c.token 2 = c.arg)
    && decide (b 4 8 = d.otpBytes 0x40 8) && decide (c.nonce = some (b 12 16)) && decide (needs = some signer)
    && (if signer = 0 then decide (hash = d.otpBytes 0x200 48) else decide (hash = Config.vendorHash 0) || decide (hash = Config.vendorHash 1))
    && p384.verify (b 128 96) (b 32 96) (sha384 (b 0 32))
    && (c.unlock || decide (d.rd secPage SEC_STATUS.DBG_LEVEL ≠ 3) || decide (c.arg = 5))

/-- TOKEN_CHECK_DONE (R655): the nonce is consumed; `mismatch` tells that the two computations differed (R637). -/
def Dev.tokenDone (d : Dev) (mismatch : Bool) : Dev :=
  match d.sec.check with
  | none => d
  | some c =>
    let keep := decide (d.sec.nonce ≠ c.nonce)
    let d : Dev := { d.wr secPage SEC_DBG_STAT.CHECKING 0 with sec := { d.sec with check := none, nonce := if keep then d.sec.nonce else none } }
    let d := d.wr secPage SEC_DBG_STAT.NONCE_VALID (b2n d.sec.nonce.isSome)
    if mismatch then d.fcheck.dbgResult 0x11
    else if d.tokenOk c = false then (d.cnt secPage SEC_CNT_TOKEN_BAD.COUNT).dbgResult 0x0F
    else if c.unlock then (d.setLevel c.arg).dbgResult 0
    else (d.lcTransition c.arg).dbgResult 0

def execTokenCheckDone (mismatch : Bool) (s : State) : Host.Outcome State Fault Refusal :=
  .next { s with dev := s.dev.tokenDone mismatch }.afterLevel

/-! ### The page's hooks -/

def Dev.secStartCheck (d : Dev) : Option Nat :=
  let l := d.rd secPage SEC_JOB_CFG.LOG2
  if l < 4 ∨ 12 < l then some 0x03 else none

def Dev.secOnStart (d : Dev) : Dev := (d.wr secPage SEC_JOB_SW.INDEX 0).wr secPage SEC_JOB_HW.INDEX 0

def Dev.secOnDrain (d : Dev) : Dev := { d with sec := { d.sec with lastJob := decide (d.secJobs ≠ 0) } }

def Dev.secIdle (d : Dev) : Bool := d.sec.cmd.isNone && !d.sec.lastJob

/-- Stop, Abort or fault (R657): the command and the job in flight end DISCARDED, the job's context is not set up. -/
def Dev.secOnLeave (d : Dev) : Dev :=
  let a := d.rd secPage SEC_JOB_BASE.BASE * 64 + d.rd secPage SEC_JOB_HW.INDEX % 2 ^ d.rd secPage SEC_JOB_CFG.LOG2 * 64
  let c := bits (d.ld a 4) 8 8
  let busy := decide (d.secJobs ≠ 0)
  ((d.when busy (·.clearCtx c)).secDiscardCmd).secDiscardJobs 1

/-- What a device reset and a power-up do: the island takes its state from OTP (R615, R617, R621, R622, R648). -/
def Dev.secBoot (d : Dev) : Dev :=
  let lc := d.lcOtp
  let ep := popCount (d.otpBytes 0x48 8)
  let sec : Sec := { Sec.reset with otp := d.sec.otp, saves := d.sec.saves, owed := d.sec.owed, huk := d.otpBytes 0x80 32, lcRet := d.lcFlag 3 }
  let d : Dev := { d with sec := sec }
  let d := ((d.wr secPage SEC_STATUS.LC lc).wr secPage SEC_STATUS.KEPOCH ep).wr secPage SEC_STATUS.DBG_LEVEL (if lc = 0 then 2 else 0)
  let d := (d.wrW secPage (SEC_KEYENT.word.at 0).off 0x13).wrW secPage (SEC_KEYENT.word.at 1).off 0x23
  let d := d.wrW secPage (SEC_KEYENT.word.at 2).off (if ep = 0 then 0 else 0x03)
  let d := d.wrW secPage (SEC_KEYENT.word.at 3).off (if lc = 2 ∨ lc = 3 then 0x23 else 0)
  let d := d.wr secPage SEC_STATUS.TAMPERED
    (b2n ((List.range 6).any fun s => d.rdB secPage (SEC_TAMPER_LATCH.LATCH.bitOf s) && decide (2 ≤ d.tamperResp s)))
  let d := d.when d.sec.owed (·.zeroiseNow)
  { d with sec := { d.sec with owed := false } }

end Sys2Proof.Machine
end

