-- ==== Sys2Proof/Machine/Venue.lean ====
section
/-! DEFINITION. Venue coordination: time (R340 to R342), the plan message (R346 to R353), the neighbour table (R354 to R356),
learning (R357 to R361), nulls (R362, R363), the round map (R345), drain (R366). -/

namespace Sys2Proof.Machine

/-! ### The plan message (R346 to R352) -/

/-- Radio blocks of the radios in service (R348). -/
def Dev.ownBlocks (d : Dev) : List (List Nat) :=
  ([0, 1, 2].filter d.radioInService).map fun x =>
    let p := macPage x
    let k := ((List.range 16).find? fun k => d.bssEnabled x k).getD 0
    let base := leBytes 4 (d.rd p (MAC_BSSID.ADDR_LO.at k)) ++ leBytes 2 (d.rd p (MAC_BSSID.ADDR_HI.at k))
    let last := nth 0 base 5
    [x * 64 + d.width x % 8 * 8, d.rd p MAC_CFG.BSS_COLOR % 64 * 4] ++ beBytes 2 (d.centre x % 8192)
      ++ beBytes 2 (Config.staticPunct x % 2 ^ 16) ++ base.take 5 ++ [last - last % 16] ++ [0, 0, 0, 0]

/-- The own edge list (R349). -/
def Dev.ownEdges (d : Dev) : List (List Nat) :=
  (List.range (min 32 (d.rd venPage VEN_EDGE_BASE.NEDGE))).map fun e => beBytes 4 (d.rd venPage (VEN_EDGE.ENTRY.at e))

/-- Echo entries: the listed neighbours from which a PLAN was accepted in the round just ended (R350). -/
def Dev.ownEchoes (d : Dev) : List (List Nat) :=
  (List.range 32).filterMap fun n =>
    match (d.venNbr n).echo with
    | some (ts, rx, r) =>
      if d.venStatus n ≠ 0 ∧ (r + 1 = d.round ∨ (r = d.round ∧ (d.venNbr n).prevPlan.map (· + 1) = some d.round)) then
        some (beBytes 2 (d.rd venPage (VEN_NBR.AP_ID.at n)) ++ [0, 0] ++ beBytes 4 ts ++ beBytes 4 rx)
      else none
    | none => none


/-- The payload of a message (R347), its TX_TS zero, with AUTH when AUTH_EN is 1 (R351). -/
def Dev.venPayload (d : Dev) (leave : Bool) : Dev × List Nat :=
  let bs := if leave then [] else d.ownBlocks
  let es := if leave then [] else d.ownEdges
  let cs := if leave then [] else d.ownEchoes
  let auth := d.rdB venPage VEN_CFG.AUTH_EN
  let head := beBytes 2 0x4C4D ++ [if leave then 2 else 1, 1] ++ beBytes 2 (d.rd venPage VEN_CFG.DOMAIN)
    ++ beBytes 2 (d.rd venPage VEN_CFG.AP_ID * 32 + b2n d.venTimeOk * 16 + b2n auth * 8)
    ++ beBytes 4 (d.round % 2 ^ 32) ++ [0, 0, 0, 0] ++ beBytes 4 (d.rdW venPage VEN_MAP.word.off).toNat
    ++ beBytes 2 (d.rd venPage VEN_LISTEN.LISTEN) ++ [bs.length * 64 + es.length, cs.length]
  let body := head ++ bs.flatMap id ++ es.flatMap id ++ cs.flatMap id
  if auth then
    match d.svcKey (d.rd venPage VEN_AUTH_CTX.CTX) with
    | some k => (d, body ++ (aesCmac k body).take 8)
    | none => let p := d.drawOctets 8; (p.1, body ++ p.2)
  else (d, body)

/-- The Ethernet frame of a message (R346); the MAC pads it. -/
def Dev.venFrame (d : Dev) (payload : List Nat) : List Nat :=
  let port := 0x068 + d.rd venPage VEN_CFG.PORT
  let da := leBytes 4 (d.rd venPage VEN_DA_LO.DA_LO) ++ leBytes 2 (d.rd venPage VEN_DA_HI.DA_HI)
  let sa := leBytes 4 (d.rd port ETH_ADDR_LO.ADDR) ++ leBytes 2 (d.rd port ETH_ADDR_HI.ADDR)
  let tag := if d.rdB venPage VEN_DA_HI.TAG_EN then
    [0x81, 0x00] ++ beBytes 2 (d.rd venPage VEN_DA_HI.PCP * 8192 + d.rd venPage VEN_DA_HI.VID) else []
  da ++ sa ++ tag ++ [0x88, 0xB5] ++ payload

/-- Queue a message to the configured port at EQ 7 (R352, R514). -/
def Dev.venSend (d : Dev) (leave : Bool) : Dev :=
  let p := d.venPayload leave
  let r := p.1.ethEnqueue (p.1.rd venPage VEN_CFG.PORT) 7
    { octets := p.1.venFrame p.2, basket := none, tsReq := none, ven := true }
  if r.2 then r.1.cnt venPage VEN_CNT_TX.COUNT else (r.1.cnt venPage VEN_CNT_NOTSENT.COUNT).ev venPage 14

/-- PLAN_SEND (R352): one PLAN per round, at SEND_POS plus the stagger. -/
def Dev.planSend (d : Dev) : Dev :=
  if d.inService venPage && decide (d.pos = d.rd venPage VEN_TIMING.SEND_POS)
      && decide (d.ven.sentRound ≠ some d.round) then
    let d := d.reach ((beatNs d.beat + d.rd venPage VEN_CFG.AP_ID % 64 * 2000) * nsU)
    let d := { d with ven := { d.ven with sentRound := some d.round } }
    d.venSend false
  else d

def execPlanSend (s : State) : Host.Outcome State Fault Refusal := s.onDev (·.planSend)

/-! ### The neighbour table (R353 to R356, R359) -/

/-- NCOORD follows the entries. -/
def Dev.venCount (d : Dev) : Dev :=
  d.wr venPage VEN_STAT.NCOORD ((List.range 32).filter fun n => decide (d.venStatus n = 2)).length

/-- An entry takes a status (R354); entering and leaving COORDINATED are events. -/
def Dev.venSetStatus (d : Dev) (n st : Nat) : Dev :=
  let old := d.venStatus n
  let d := d.wr venPage (VEN_NBR.STATUS.at n) st
  let d := d.when (decide (old ≠ 2) && decide (st = 2)) (·.ev venPage 8)
  let d := d.when (decide (old = 2) && decide (st ≠ 2)) (·.ev venPage 9)
  d.venCount

/-- Clear VALID of the records of a foreign slot (R365). -/
def Dev.clearRecords (d : Dev) (i : Nat) : Dev :=
  d.each 3 fun x e =>
    let a := e.chrecAddr x (2048 + i)
    if e.wrOk a 4 then e.stB (a + 2) (BitVec.ofNat 8 (let b := (e.ldB (a + 2)).toNat; b - b % 2)) else e

/-- Free foreign slot 2,048 + `i` (R359, R365): VALID of its records goes at once, or after the last plan whose null list
named it. -/
def Dev.freeSlot (d : Dev) (i : Nat) : Dev :=
  let d := d.wrW venPage (VEN_FSLOT.word.at i).off 0
  let d := { d with ven := { d.ven with meas := delRange d.ven.meas (1024 * i) (1024 * i + 1024) } }
  match look d.ven.given i with
  | some m => if d.beat ≤ m then { d with ven := { d.ven with clears := put d.ven.clears i m } } else d.clearRecords i
  | none => d.clearRecords i

def Dev.slotUsed (d : Dev) (i : Nat) : Bool := d.rdB venPage (VEN_FSLOT.VALID.at i)

/-- The slots of entry `n` after an accepted PLAN: those whose station is no longer listed are freed, REQ of the others
follows the list (R359). -/
def Dev.venSlots (d : Dev) (n : Nat) (edges : List VenEdge) : Dev :=
  d.each 32 fun k e =>
    let i := 32 * n + k
    if e.slotUsed i then
      match edges.find? fun g => decide (g.aid = e.rd venPage (VEN_FSLOT.AID.at i))
          && decide (g.radio = e.rd venPage (VEN_FSLOT.RADIO.at i)) with
      | some g => e.wr venPage (VEN_FSLOT.REQ.at i) (b2n g.req)
      | none => e.freeSlot i
    else e

/-- A number modulo 2^32, as a signed one (R341). -/
def wrap32 (v : Int) : Int := toSigned 32 (v % 2 ^ 32).toNat

/-- The difference of two 32-bit times as a signed number (R341). -/
def diff32 (a b : Nat) : Int := wrap32 ((a : Int) - b)

/-- The sample with the smallest round trip, the newest on a tie; the list is oldest first. -/
def bestSample : List VenSample → Option VenSample
  | [] => none
  | s :: r => match bestSample r with
    | some b => if s.rtd < b.rtd then some s else some b
    | none => some s

/-- A parsed message (R347): whether a LEAVE, domain, AP_ID, TIME_OK, AUTH present, ROUND, TX_TS, MAP, LISTEN, blocks,
edges, echoes (AP_ID, ECHO_TS, RX_TS), and AUTH with the octets it covers. -/
structure VenMsg where
  leave : Bool
  domain : Nat
  apId : Nat
  timeOk : Bool
  auth : Bool
  round : Nat
  txTs : Nat
  map : Nat
  listen : Nat
  blocks : List VenBlock
  edges : List VenEdge
  echoes : List (Nat × Nat × Nat)
  mac : Nat
  covered : List Nat
deriving DecidableEq, Repr

/-- The first check of R353, and the fields. -/
def parseVen (l : List Nat) : Option VenMsg :=
  let nr := ob l 22 / 64
  let ne := ob l 22 % 64
  let nc := ob l 23 % 64
  let auth := bit (ob l 7) 3
  let eAt := 24 + 16 * nr
  let cAt := eAt + 4 * ne
  let aAt := cAt + 12 * nc
  if ob2 l 0 ≠ 0x4C4D ∨ ob l 3 ≠ 1 ∨ (ob l 2 ≠ 1 ∧ ob l 2 ≠ 2) ∨ 32 < ne ∨ 32 < nc
      ∨ l.length < aAt + (if auth then 8 else 0) ∨ l.length < 24 then none
  else
    some
      { leave := decide (ob l 2 = 2), domain := ob2 l 4, apId := ob2 l 6 / 32, timeOk := bit (ob l 7) 4, auth := auth,
        round := obN l 8 4, txTs := obN l 12 4, map := obN l 16 4, listen := ob2 l 20,
        blocks := (List.range nr).map fun i =>
          let b := 24 + 16 * i
          { radio := ob l b / 64, width := ob l b / 8 % 8, colour := ob l (b + 1) / 4, centre := ob2 l (b + 2) % 8192,
            punct := ob2 l (b + 4), base := ofLeBytes ((l.drop (b + 6)).take 6) },
        edges := (List.range ne).map fun i =>
          let b := eAt + 4 * i
          { radio := ob l b / 64, req := bit (ob l b) 5, aid := ob2 l b % 2048, prio := ob l (b + 2) },
        echoes := (List.range nc).map fun i =>
          let b := cAt + 12 * i
          (ob2 l b % 2048, obN l (b + 4) 4, obN l (b + 8) 4),
        mac := obN l aAt 8, covered := patch (l.take aAt) 12 [0, 0, 0, 0] }

/-- The payload of a received frame with EtherType 0x88B5 after at most two tags. -/
def venBody (l : List Nat) : List Nat :=
  let t (i : Nat) := if ob2 l i = 0x8100 ∨ ob2 l i = 0x88A8 then i + 4 else i
  let e := t (t 12)
  if ob2 l e = 0x88B5 then l.drop (e + 2) else []

/-- The time of entry `n` is in agreement (R342). -/
def Dev.venAgrees (d : Dev) (n : Nat) : Bool :=
  (d.venNbr n).timeOk && d.rdB venPage (VEN_NBR.HAS_OFS.at n)
    && decide ((d.rdS venPage (VEN_NBR.OFFSET.at n)).natAbs ≤ 4 * d.rd venPage VEN_TIMING.OFS_LIMIT)

/-- A colour of entry `n` clashes (R355). -/
def Dev.venClash (d : Dev) (n : Nat) : Bool :=
  [0, 1, 2].any fun x => (d.venNbr n).blocks.any fun b =>
    d.blockOverlaps x b &&
      (decide (b.colour = d.rd (macPage x) MAC_CFG.BSS_COLOR) ||
        (List.range 32).any fun k => decide (k ≠ n) && decide (d.venStatus k = 2) &&
          (d.venNbr k).blocks.any fun c => d.blockOverlaps x c && decide (c.colour = b.colour))

/-- NEIGHBOUR_EVALUATE (R355). -/
def Dev.venEvaluate (d : Dev) (n : Nat) : Dev :=
  let st := if d.venAgrees n = false then 4
    else if (d.venNbr n).map ≠ (d.rdW venPage VEN_MAP.word.off).toNat then 5
    else if d.venClash n then 6 else 2
  d.venSetStatus n st

/-- The offset estimate of entry `n` after a PLAN received at `t4` (R341). -/
def Dev.venOffset (d : Dev) (n : Nat) (m : VenMsg) (t4 : Nat) : Dev :=
  let v := d.venNbr n
  let own := d.rd venPage VEN_CFG.AP_ID
  let fresh := match m.echoes.find? fun e => decide (e.1 = own) with
    | some (_, t1, t2) =>
      if d.ven.sent.contains t1 then
        [({ round := d.round, ofs := Int.tdiv (wrap32 (diff32 t2 t1 - diff32 t4 m.txTs)) 2,
            rtd := wrap32 (diff32 t4 t1 - diff32 m.txTs t2) } : VenSample)]
      else []
    | none => []
  let w := (v.window.filter fun s => decide (d.round < s.round + 16)) ++ fresh
  let d := d.setVenNbr n { v with window := w }
  match bestSample w with
  | some b =>
    ((d.wr venPage (VEN_NBR.HAS_OFS.at n) 1).wrS venPage (VEN_NBR.OFFSET.at n) b.ofs).wrS venPage (VEN_NBR.RTD.at n) b.rtd
  | none => d.wr venPage (VEN_NBR.HAS_OFS.at n) 0

/-- An accepted message (R353 to R355). -/
def Dev.venAccept (d : Dev) (n : Nat) (m : VenMsg) (rx : Nat) : Dev :=
  let d := d.cnt venPage VEN_CNT_RX.COUNT
  let d := (d.wr venPage (VEN_NBR.LAST_ROUND.at n) m.round).wr venPage (VEN_NBR.MISS.at n) 0
  let d := d.setVenNbr n { d.venNbr n with accRound := some d.round, any := true }
  if m.leave then (if d.venStatus n = 7 then d else d.venSetStatus n 7)
  else
    let d := (d.wr venPage (VEN_NBR.NRADIO.at n) m.blocks.length).wr venPage (VEN_NBR.NEDGE.at n) m.edges.length
    let d := d.setVenNbr n { d.venNbr n with timeOk := m.timeOk, map := m.map, listen := m.listen, blocks := m.blocks,
                                             edges := m.edges, echo := some (m.txTs, rx % 2 ^ 32, d.round),
                                             prevPlan := (d.venNbr n).echo.map fun e => e.2.2 }
    ((d.venSlots n m.edges).venOffset n m rx).venEvaluate n

/-- The checks of R353 on a message received at `rx` ns. -/
def Dev.venMessage (d : Dev) (l : List Nat) (rx : Nat) : Dev :=
  match parseVen l with
  | none => d.cnt venPage VEN_CNT_BADMSG.COUNT
  | some m =>
    let authOk := match d.svcKey (d.rd venPage VEN_AUTH_CTX.CTX) with
      | some k => m.auth && decide (m.mac = beNum ((aesCmac k m.covered).take 8))
      | none => false
    if m.domain ≠ d.rd venPage VEN_CFG.DOMAIN then d.cnt venPage VEN_CNT_OTHERDOM.COUNT
    else if d.rdB venPage VEN_CFG.AUTH_EN && !authOk then (d.cnt venPage VEN_CNT_AUTHFAIL.COUNT).ev venPage 13
    else if m.apId = d.rd venPage VEN_CFG.AP_ID then (d.cnt venPage VEN_CNT_BADMSG.COUNT).ev venPage 11
    else
      match (List.range 32).find? fun n => decide (d.venStatus n ≠ 0) && decide (d.rd venPage (VEN_NBR.AP_ID.at n) = m.apId) with
      | none =>
        let d := (d.wr venPage VEN_LAST_UNLISTED.AP_ID m.apId).wr venPage VEN_LAST_UNLISTED.ROUND m.round
        (d.cnt venPage VEN_CNT_UNLISTED.COUNT).ev venPage 12
      | some n =>
        if m.round ≠ d.round % 2 ^ 32 ∧ m.round ≠ (d.round + 2 ^ 32 - 1) % 2 ^ 32 then d.cnt venPage VEN_CNT_SKEW.COUNT
        else if (d.venNbr n).any && decide (m.round ≤ d.rd venPage (VEN_NBR.LAST_ROUND.at n)) then
          d.cnt venPage VEN_CNT_STALE.COUNT
        else d.venAccept n m rx

/-- SUBTYPE of the oldest message the packet engine delivered. -/
def Dev.venHead (d : Dev) : Option (List Nat × Nat) := d.ven.inbox.head?.map fun m => (venBody m.1, m.2)

/-- Take the oldest message. -/
def Dev.venTake (d : Dev) (leave : Bool) : Dev :=
  match d.venHead with
  | some (l, rx) =>
    if d.active venPage && decide (decide (ob l 2 = 2) = leave) then
      { d with ven := { d.ven with inbox := d.ven.inbox.drop 1 } }.venMessage l rx
    else d
  | none => d

/-- PLAN_RECEIVED (R353, R355): every message but a LEAVE. -/
def execPlanReceived (s : State) : Host.Outcome State Fault Refusal := s.onDev (·.venTake false)
/-- LEAVE_RECEIVED (R353, R354). -/
def execLeaveReceived (s : State) : Host.Outcome State Fault Refusal := s.onDev (·.venTake true)

/-- TIME_OK falls (R340, R356, R365). -/
def Dev.timeOkExpiry (d : Dev) : Dev :=
  if d.inService venPage && d.venTimeOk && d.rdB 0x008 PTP_SERVO_STAT.HOLDOVER
      && decide (d.rd venPage VEN_TIMING.HOLD_ROUNDS ≤ d.rd venPage VEN_STAT.HOLD_CNT) then
    (d.wr venPage VEN_STAT.TIME_OK 0).ev venPage 10
  else d

def execTimeOkExpiry (s : State) : Host.Outcome State Fault Refusal := s.onDev (·.timeOkExpiry)

/-- Post the result of VEN_NBR_CMD. -/
def Dev.nbrPost (d : Dev) (r : Nat) : Dev :=
  ((d.wr venPage VEN_NBR_STAT.BUSY 0).wr venPage VEN_NBR_STAT.RESULT r).wr venPage VEN_NBR_CMD.GO 0

/-- NBR_ADD (R354). -/
def Dev.nbrAdd (d : Dev) (n ap : Nat) : Dev :=
  let n := n % 32
  let ap := ap % 2048
  let d := ((d.wr venPage VEN_NBR_CMD.INDEX n).wr venPage VEN_NBR_CMD.AP_ID ap).wr venPage VEN_NBR_CMD.OP 1
  if d.venStatus n ≠ 0 then d.nbrPost 1
  else if ap = d.rd venPage VEN_CFG.AP_ID ∨ (List.range 32).any (fun k =>
      decide (d.venStatus k ≠ 0) && decide (d.rd venPage (VEN_NBR.AP_ID.at k) = ap)) then d.nbrPost 2
  else
    let d := (((d.wrW venPage (VEN_NBR.word0.at n).off 0).wrW venPage (VEN_NBR.word1.at n).off 0).wrW venPage
      (VEN_NBR.word2.at n).off 0).wrW venPage (VEN_NBR.word3.at n).off 0
    let d := (d.wr venPage (VEN_NBR.AP_ID.at n) ap).setVenNbr n VenNbr.empty
    (d.venSetStatus n 1).nbrPost 0

def execNbrAdd (index apId : Nat) (s : State) : Host.Outcome State Fault Refusal := s.onDev (·.regDo 0x040 (·.nbrAdd index apId))

/-- NBR_REMOVE (R354, R359). -/
def Dev.nbrRemove (d : Dev) (n : Nat) : Dev :=
  let n := n % 32
  let d := (d.wr venPage VEN_NBR_CMD.INDEX n).wr venPage VEN_NBR_CMD.OP 2
  if d.venStatus n = 0 then d.nbrPost 1
  else
    let d := d.each 32 fun k e => if e.slotUsed (32 * n + k) then e.freeSlot (32 * n + k) else e
    let d := d.setVenNbr n VenNbr.empty
    (d.venSetStatus n 0).nbrPost 0

def execNbrRemove (index : Nat) (s : State) : Host.Outcome State Fault Refusal := s.onDev (·.regDo 0x040 (·.nbrRemove index))

/-! ### Boundaries (R340, R345, R354, R365) -/

/-- A round ends for entry `n` (R354); `r` is the round that ended. -/
def Dev.venRoundEnd (d : Dev) (r n : Nat) : Dev :=
  let st := d.venStatus n
  if st = 0 ∨ (d.venNbr n).accRound = some r then d
  else
    let miss := min 3 (d.rd venPage (VEN_NBR.MISS.at n) + 1)
    let d := (d.cnt venPage VEN_CNT_MISS.COUNT).wr venPage (VEN_NBR.MISS.at n) miss
    if miss = 3 ∧ (st = 2 ∨ st = 4 ∨ st = 5 ∨ st = 6) then d.venSetStatus n 3 else d

/-- VEN_MAP with the listen positions replaced by QUIET, or VEN_SOLO_MAP (R345). -/
def Dev.mapWord (d : Dev) : Nat :=
  if d.inService venPage && d.venTimeOk then
    ((List.range 16).map fun k =>
      (if bit (d.rd venPage VEN_LISTEN.LISTEN) k then 3 else d.rd venPage (VEN_MAP.TYPE k)) * 4 ^ k).foldl (· + ·) 0
  else (d.rdW venPage VEN_SOLO_MAP.word.off).toNat

/-- Venue coordination at boundary `m`, which has just been received. -/
def Dev.venBoundary (d : Dev) (m : Nat) : Dev :=
  let d := { d with ven := { d.ven with matched := [] } }
  let due := d.ven.clears.filter fun c => decide (c.2 < m)
  let d := d.forAll due fun c e => if e.slotUsed c.1 then e else e.clearRecords c.1
  let d := { d with ven := { d.ven with clears := d.ven.clears.filter fun c => decide (m ≤ c.2) } }
  if m % 16 ≠ 0 then d
  else
    let run := d.inService venPage
    let d := if run then
        let d := d.each 32 fun n e => e.venRoundEnd (m / 16 - 1) n
        if d.rdB 0x008 PTP_SERVO_STAT.HOLDOVER then
          -- HOLD_ROUNDS whole rounds have passed at the latest
          let d := d.cnt venPage VEN_STAT.HOLD_CNT
          d.when (d.venTimeOk && decide (d.rd venPage VEN_TIMING.HOLD_ROUNDS < d.rd venPage VEN_STAT.HOLD_CNT)) fun e =>
            (e.wr venPage VEN_STAT.TIME_OK 0).ev venPage 10
        else (d.wr venPage VEN_STAT.TIME_OK 1).wr venPage VEN_STAT.HOLD_CNT 0
      else d
    let w := d.mapWord
    d.each 3 fun x e =>
      if e.rdB (airPage x) AIR_CFG.MAP_SRC then e.wrW (airPage x) AIR_ROUND_MAP.word.off (BitVec.ofNat 32 w) else e

/-! ### Learning (R358 to R361) -/

/-- A trigger received on radio `x` that ended at `endNs` matches (R358): the receive path is set to hear its edge users. -/
def Dev.triggerMatch (d : Dev) (x ta endNs ulLen : Nat) (eht : Bool) (giLtf nltf : Nat)
    (users : List (Nat × Nat × Nat × Nat × Nat)) : Dev :=
  let base := ta % 2 ^ 40 + bits ta 40 8 / 16 * 16 * 2 ^ 40
  match (d.venAsked x).find? fun a => decide (a.2.base = base) with
  | none => d
  | some (n, b) =>
    let edge := users.filter fun u => (d.venNbr n).edges.any fun e => decide (e.radio = b.radio) && decide (e.aid = u.1)
    if edge.isEmpty then d
    else
      let d := d.cnt venPage VEN_CNT_TRIG.COUNT
      let v : VenMatch :=
        { radio := x, entry := n, nradio := b.radio, colour := b.colour,
          users := edge.map fun u => (u.1, u.2.2.2.1) }
      let d := { d with ven := { d.ven with matched := d.ven.matched ++ [v] } }
      d.giveTrigger x
        { expect := endNs + d.sifsNs x, ulLen := ulLen, eht := eht, giLtf := giLtf, nltf := nltf,
          users := edge.map fun u =>
            { sta := 0x7FF, ruSize := u.2.1, ruPos := u.2.2.1, mcs := 0, nss := u.2.2.2.2, ldpc := false, psduLen := 0,
              present := true, timing := 0, cfo := 0, ok := 0, bad := 0 } }

/-- The foreign slot of a station of entry `n`: the one it has, or the lowest free one (R359), one no plan still names before others
(R365). -/
def Dev.slotFor (d : Dev) (n radio aid : Nat) : Option Nat :=
  let mine := (List.range 32).map fun k => 32 * n + k
  match mine.find? fun i => d.slotUsed i && decide (d.rd venPage (VEN_FSLOT.AID.at i) = aid)
      && decide (d.rd venPage (VEN_FSLOT.RADIO.at i) = radio) with
  | some i => some i
  | none => (mine.filter fun i => (look d.ven.clears i).isNone).find? (fun i => !d.slotUsed i) <|> mine.find? fun i => !d.slotUsed i

/-- Key of the last measurement of slot `i` on radio `x`'s subchannel `j`. -/
def measKey (i x j : Nat) : Nat := 1024 * i + 16 * x + j

/-- The matrix of the record to write (R361): measured groups new, groups of subchannels that are not fresh zero, the
others as they stand in the slot. -/
def Dev.foreignMatrix (d : Dev) (x i nch punct : Nat) (groupSub : List Nat) (rows : List (Option Mat)) : Dev × List Nat :=
  let a := d.chrecAddr x (2048 + i) + 64
  groupSub.zipIdx.foldl (fun (acc : Dev × List Nat) s =>
    match nth none rows s.2 with
    | some m => let q := acc.1.fixedAll 13 m.flatten; (q.1, acc.2 ++ q.2)
    | none =>
      if bit punct s.1 then (acc.1, acc.2 ++ List.replicate nch 0)
      else (acc.1, acc.2 ++ (List.range nch).map fun c => d.ld (a + 4 * (s.2 * nch + c)) 4)) (d, [])

/-- FOREIGN_RECORD_WRITE (R360, R361) for one user of a matched trigger, from the estimates `rus` of its PPDU. DESIGN CHOICE (log entry
360): unit norm is averaged over the groups of the new estimate. -/
def Dev.foreignRecord (d : Dev) (x : Nat) (v : VenMatch) (rus : List RxRu) (f : ForeignFact) : Dev :=
  match v.users[f.user]?, rus.find? fun r => r.users.contains f.user with
  | some (aid, first), some ru =>
    match (d.venNbr v.entry).edges.find? fun e => decide (e.radio = v.nradio) && decide (e.aid = aid),
        d.slotFor v.entry v.nradio aid with
    | some edge, some i =>
      let nch := d.radioChains x
      let subs := widthMhz (d.width x) / 20
      let l := (List.range f.groupSub.length).map fun g => ru.groupRows (d.recip x) first 1 nch g
      let snr := ((meanPower l 0).div ru.noise).quarterDb 255
      let seen := (f.groupSub.zip l).filterMap fun g => g.2.map fun _ => g.1
      let meas := (List.range subs).foldl (fun l j => if seen.contains j then put l (measKey i x j) d.beat else l) d.ven.meas
      let age := d.rd venPage VEN_NULL.NULL_AGE
      let punct := ((List.range subs).filter fun j => match look meas (measKey i x j) with
        | some b => decide (age < d.beat - b)
        | none => true).foldl (fun s j => s + 2 ^ j) 0
      let words := [2 * 2 ^ 17 + 1 * 2 ^ 20 + nch * 2 ^ 24 + d.rd venPage VEN_NULL.NG * 2 ^ 29, d.beat % 2 ^ 32,
        d.width x + punct * 8, f.groupSub.length, snr, 0, 0x7FF] ++ List.replicate 9 0
      let mat := d.foreignMatrix x i nch punct f.groupSub (unitRows l 1)
      let d := mat.1
      let m := mat.2
      let a := d.chrecAddr x (2048 + i)
      if d.wrOk a (64 + 4 * m.length) = false then d.enterFault venPage ⟨0x04, 0, a⟩
      else
        let d := d.chrecWrite x (2048 + i) words m
        let d := { d with ven := { d.ven with meas := meas, clears := del d.ven.clears i } }
        let top := if d.slotUsed i then max (d.rd venPage (VEN_FSLOT.SNR.at i)) snr else snr
        let learned := (if d.slotUsed i then d.rd venPage (VEN_FSLOT.LEARNED.at i) else 0) ||| 2 ^ x
        let d := d.wrW venPage (VEN_FSLOT.word.at i).off (BitVec.ofNat 32
          (aid + v.nradio * 2 ^ 11 + b2n edge.req * 2 ^ 13 + 2 ^ 14 + learned * 2 ^ 15 + top * 2 ^ 24))
        d.cnt venPage VEN_CNT_LEARN.COUNT
    | _, _ => d
  | _, _ => d

/-- LTF_END (R151, R166, R360). -/
def Dev.ltfEnd (d : Dev) (x : Nat) (ltf : LtfFact) (foreign : List ForeignFact) : Dev :=
  let r := d.rxAt x
  let want := d.venWants x r.colour
  let heard := r.obss && decide (r.phase = .ltf) && !d.rdB (rxPage x) RXP_CFG.OBSS_DECODE && want
  let m := d.ven.matched.filter fun v => decide (v.radio = x) && decide (v.colour = r.colour)
  let rus := ltf.rus.map (d.ruBegin x r)
  let d := d.rxLtfEnd x ltf want
  match heard, m.getLast? with
  | true, some v => d.forAll foreign fun f e => e.foreignRecord x v rus f
  | _, _ => d

def execLtfEnd (x : Nat) (ltf : LtfFact) (foreign : List ForeignFact) (s : State) : Host.Outcome State Fault Refusal :=
  s.onDev fun d => if x < 4 then d.ltfEnd x ltf foreign else d

/-! ### Null lists (R362, R363) -/

/-- Candidates of a 20 MHz subchannel `j` of radio `x` for beat `m`: slot, whether required, SNR0. -/
def Dev.nullCands (d : Dev) (x m j : Nat) : List (Nat × Bool × Nat) :=
  (List.range 32).flatMap fun n =>
    if d.coordinated n then
      (List.range 32).filterMap fun k =>
        let i := 32 * n + k
        let a := d.chrecAddr x (2048 + i)
        if d.slotUsed i && bit (d.rd venPage (VEN_FSLOT.LEARNED.at i)) x && bit (d.ld a 4) 16 && decide (age32 m (d.ld (a + 4) 4) ≤ d.rd venPage VEN_NULL.NULL_AGE)
            && !bit (d.ld (a + 8) 4) (3 + j) then
          let snr := d.ld (a + 16) 1
          some (i, d.rdB venPage (VEN_FSLOT.REQ.at i) && decide (d.rd venPage VEN_NULL.REQ_SNR ≤ snr), snr)
        else none
    else []

/-- Rank: required first, then SNR0 from the highest, then the lower slot. -/
def nullBefore (a b : Nat × Bool × Nat) : Bool :=
  if a.2.1 ≠ b.2.1 then a.2.1
  else if a.2.2 ≠ b.2.2 then decide (b.2.2 < a.2.2) else decide (a.1 ≤ b.1)

def insertNull (a : Nat × Bool × Nat) : List (Nat × Bool × Nat) → List (Nat × Bool × Nat)
  | [] => [a]
  | b :: r => if nullBefore a b then a :: b :: r else b :: insertNull a r

/-- The null list of a subchannel. -/
def Dev.nullList (d : Dev) (x m j : Nat) : List (Nat × Bool × Nat) :=
  ((d.nullCands x m j).foldl (fun l a => insertNull a l) []).take (d.rd venPage VEN_NULL.NULL_PER_SPAN)

/-- Insert a candidate of a subchannel by rank, behind its equals. -/
def insertRanked (a : (Nat × Bool × Nat) × Nat) : List ((Nat × Bool × Nat) × Nat) → List ((Nat × Bool × Nat) × Nat)
  | [] => [a]
  | b :: r => if nullBefore b.1 a.1 then b :: insertRanked a r else a :: b :: r

/-- The lists given to radio `x`'s scheduler for beat `m`, in rank: subchannel, slot, required. -/
def Dev.nullsFor (d : Dev) (x m : Nat) : List (Nat × Nat × Bool) :=
  let t := d.rd (airPage x) (AIR_ROUND_MAP.TYPE (m % 16))
  if d.inService venPage && (decide (t = 0) || decide (t = 2)) then
    (((List.range (widthMhz (d.width x) / 20)).flatMap fun j => (d.nullList x m j).map fun a => (a, j)).foldl
      (fun l a => insertRanked a l) []).map fun a => (a.2, a.1.1, a.1.2.1)
  else []

/-- The lists given are counted, and their slots noted (R362, R365). -/
def Dev.noteNulls (d : Dev) (x m : Nat) : Dev :=
  match look d.air.snap x with
  | some s =>
    if s.beat = m then
      let lists := ((List.range 16).filter fun j => s.nulls.any fun n => decide (n.1 = j)).length
      let given := s.nulls.foldl (fun g n => put g n.2.1 m) d.ven.given
      { d.cnt venPage VEN_CNT_NULLS.COUNT lists with ven := { (d.cnt venPage VEN_CNT_NULLS.COUNT lists).ven with given := given } }
    else d
  | none => d

/-- QUEUE_SNAPSHOT (R27, R362). -/
def Dev.snapshot (d : Dev) : Dev :=
  let m := d.beat + 3
  let fresh := [0, 1, 2].filter fun x => decide ((d.buf x m).st = .free)
  let e := d.queueSnapshot fun x m => d.nullsFor x m
  e.forAll fresh fun x f => if (f.buf x m).st = .building then f.noteNulls x m else f

def execQueueSnapshot (s : State) : Host.Outcome State Fault Refusal := s.onDev (·.snapshot)

/-! ### Starting and leaving (R365, R366) -/

def Dev.venStartCheck (d : Dev) : Option Nat :=
  let n := d.rd venPage VEN_NULL.NULL_PER_SPAN
  if 4 < d.rd venPage VEN_CFG.PORT ∨ bit (d.rd venPage VEN_DA_LO.DA_LO) 0 = false
    ∨ (List.range 16).any (fun k => bit (d.rd venPage VEN_LISTEN.LISTEN) k && decide (d.rd venPage (VEN_MAP.TYPE k) ≠ 1))
    ∨ d.rd venPage VEN_TIMING.OFS_LIMIT = 0 ∨ n = 0 ∨ 8 < n then some 0x03
  else none

/-- Drain sends one LEAVE (R366). -/
def Dev.venOnDrain (d : Dev) : Dev := d.venSend true

/-- The page discards its work: messages that wait, and its requests of this beat. -/
def Dev.venOnLeave (d : Dev) : Dev := { d with ven := { d.ven with inbox := [], matched := [] } }

end Sys2Proof.Machine
end

