-- ==== Sys2Proof/Machine/MacRx.lean ====
section
/-! DEFINITION. The WLAN MAC on the receive side: NAV (R238), the steps of a received MPDU (R253, R254, R798), reordering
and release (R255 to R260), responses owed (R245, R246), buffer status and power save (R261, R268, R270, R271), the end
of a received PPDU, and the station commands (R223). -/

namespace Sys2Proof.Machine

/-! ### What an MPDU belongs to -/

/-- Record of a frame kind: its TID, 8 for non-QoS data, 9 for management. -/
def recTid : MpduKind → Nat
  | .qos t => t % 8
  | .mgmt _ => 9
  | _ => 8

/-- Record of its replay counter (R257). -/
def replayTid : MpduKind → Nat
  | .qos t => t % 8
  | .mgmt _ => 9
  | _ => 0

/-- Frames that carry an MSDU or a management body, as opposed to control frames. -/
def carries : MpduKind → Bool
  | .qos _ | .data | .mgmt _ => true
  | _ => false

def isMgmt : MpduKind → Bool
  | .mgmt _ => true
  | _ => false

/-- Sequence number distance modulo 4,096. -/
def snDiff (a b : Nat) : Nat := (a % 4096 + 4096 - b % 4096) % 4096

/-- A frame is part of a fragmented MSDU (R259). -/
def fragOf (m : Mpdu) : Bool := m.moreFrag || decide (m.fn ≠ 0)

/-- TID of a QoS frame with a Block Ack agreement at the station. -/
def Dev.baTidOf (d : Dev) (s : Nat) (m : Mpdu) : Option Nat :=
  match m.kind with
  | .qos t => if d.staBaTid s (t % 8) then some (t % 8) else none
  | _ => none

/-! ### Steps of R253 -/

/-- R254: the MPDU repeats one already accepted. -/
def Dev.mpduDup (d : Dev) (s : Nat) (m : Mpdu) : Bool :=
  match d.baTidOf s m with
  | some t =>
    let r := d.tidRec s t
    (match r.win with
      | none => false
      | some w => (r.held.any fun h => decide (h.sn = m.sn)) || (decide (0 < snDiff w m.sn) && decide (snDiff w m.sn ≤ 2048)))
  | none => m.retry && decide ((d.tidRec s (recTid m.kind)).last = some (m.sn, m.fn))

/-- The frame must be protected where the slot is READY (R253 step 4): not EAPOL, and no management frame that is not
robust. -/
def Dev.mustProtect (d : Dev) (s : Nat) (m : Mpdu) : Bool :=
  let o := m.msdus.headD []
  match m.kind with
  | .mgmt _ => d.staPmf s && robustMgmt o
  | _ => !isEapol 1 o

/-- How step 4 of R253 ends an MPDU. -/
inductive Refused where
  | keyMiss
  | unprot
  | micFail
deriving DecidableEq, Repr

/-- Step 4 of R253. -/
def Dev.protection (d : Dev) (x s : Nat) (m : Mpdu) : Option Refused :=
  let slot := if m.mcast then groupSlot (d.rd (macPage x) (MAC_BSSID.GTK_SLOT.at m.bssid))
    else if d.staPair s ≤ 2047 then some (d.staPair s) else none
  let ready := match slot with
    | some k => d.slotReady k
    | none => false
  if m.prot then (if ready = false then some .keyMiss else if m.micOk then none else some .micFail)
  else if ready && d.mustProtect s m then some .unprot else none

/-- The MAC refuses an MPDU at step 4. -/
def Dev.refuseProt (d : Dev) : Refused → Dev
  | .keyMiss => (d.cnt 0x033 MAC_CNT_KEYMISS.COUNT).ev 0x033 10
  | .unprot => d.cnt 0x033 MAC_CNT_UNPROT.COUNT
  | .micFail => (d.cnt 0x033 MAC_CNT_MICFAIL.COUNT).ev 0x033 9

/-! ### Responses owed (R245, R246) -/

/-- What a response names in place of a station entry when the frame's transmitter has none (R224). -/
def noSta : Nat := 0x800

/-- The radio owes a response of a form for a frame of station `s`, unless the cut has passed for it. -/
def Dev.oweResponse (d : Dev) (x form s : Nat) (pm : Bool) : Dev :=
  let r := d.macR x
  let rx := d.rxAt x
  let form := if rx.tbActive then 2 else form
  let tEnd := d.tEndNs x
  let fresh : Resp :=
    { form := form, tEnd := tEnd, cut := false, complete := false, acks := [], leftOut := false, handed := false }
  let p := r.resp.getD fresh
  let late := p.cut || p.handed || decide (p.tEnd + d.sifsNs x - 4000 < d.ns)
  if late then
    if r.resp.isNone ∧ form = 0 then d
    else
      let d := d.when (!p.leftOut) fun e => (e.cnt (macPage x) MAC_CNT_RESPCUT.COUNT).ev (macPage x) 9
      d.setMacR x { r with resp := some { p with leftOut := true } }
  else d.setMacR x { r with resp := some { p with form := max p.form form, acks := (p.acks.filter fun a => decide (a.1 ≠ s)) ++ [(s, pm)] } }

/-- The response an MPDU asks for, and DOZE at once when it asks for none (R268). -/
def Dev.acknowledge (d : Dev) (x s : Nat) (m : Mpdu) : Dev :=
  match m.solicits with
  | some form => d.oweResponse x form s m.pm
  | none => d.dozeUpdate x [(s, m.pm)]

/-! ### Delivery (R257, R260, R288, R289) -/

/-- The MSDU begins with an LLC/SNAP header of RFC 1042. -/
def hasSnap (o : List Nat) : Bool := decide ((o.drop 14).take 6 = [0xAA, 0xAA, 3, 0, 0, 0])

/-- Hand one MSDU to the packet engine (R260): `st` the station entry, `amsdu` and `lastSub` of its subframe. -/
def Dev.giveMsdu (d : Dev) (st : Nat) (h : Held) (flushed lastSub : Bool) (o : List Nat) : Dev :=
  let m := h.mpdu
  let x := h.radio
  let tid := match m.kind with
    | .qos t => t % 8
    | _ => 0
  let conv := d.rdB 0x033 MAC_RX_CFG.CONV_ETH && hasSnap o
  let fmt := if isMgmt m.kind then 2 else if conv then 0 else 1
  let o := if fmt = 0 then o.take 12 ++ o.drop 20 else o
  let eapol := !isMgmt m.kind && isEapol fmt o
  let f : PFrame :=
    { basket := 0, src := 8 + x, dot11 := decide (fmt = 2), info := wlanMeta st tid x m.bssid m.mcast m.prot eapol,
      tsNs := h.startNs % 2 ^ 32, tsFrac := h.startFrac, cookie := 0, tsReq := none, direct := none, menu := 0,
      kt2 := 0xF, inner := false }
  match d.rxDescriptor f o with
  | (d, false) => d.cnt 0x033 MAC_CNT_RXREFUSED.COUNT
  | (d, true) =>
    let b := (d.pkt.inq.getLast?.map fun g => g.basket).getD 0
    d.emit (.rxDescriptor
      [b % 2 ^ 21, o.length % 2 ^ 14 + fmt * 2 ^ 14 + tid * 2 ^ 16 + b2n m.mcast * 2 ^ 19 + st % 2048 * 2 ^ 20,
       x + m.bssid % 16 * 4 + b2n m.prot * 2 ^ 6 + b2n m.amsdu * 2 ^ 7 + b2n (m.amsdu && lastSub) * 2 ^ 8
         + b2n eapol * 2 ^ 9 + b2n flushed * 2 ^ 10 + b2n m.pm * 2 ^ 11 + h.repSeq % 2 ^ 16 * 2 ^ 16,
       h.startNs % 2 ^ 32, h.startFrac % 2 ^ 16 + m.rssi % 256 * 2 ^ 16 + m.snr % 256 * 2 ^ 24,
       m.sn % 4096 + m.fn % 16 * 2 ^ 12 + b2n m.retry * 2 ^ 16, 0, 0])

/-- Every subframe of an MPDU in its own descriptor. -/
def Dev.giveMpdu (d : Dev) (st : Nat) (h : Held) (flushed : Bool) : Dev :=
  d.forAll h.mpdu.msdus.zipIdx fun o e =>
    e.giveMsdu st h (flushed && decide (o.2 = 0)) (decide (o.2 + 1 = h.mpdu.msdus.length)) o.1

/-- Release an accepted MPDU of station `s` (R257, R260): its PN against the replay counter, then delivery. -/
def Dev.release (d : Dev) (s : Nat) (h : Held) (flushed : Bool) : Dev :=
  if h.mpdu.prot then
    let t := replayTid h.mpdu.kind
    let r := d.tidRec s t
    if h.mpdu.pn ≤ r.replay then d.cnt 0x033 MAC_CNT_REPLAY.COUNT
    else (d.setTidRec s t { r with replay := h.mpdu.pn }).giveMpdu s h flushed
  else d.giveMpdu s h flushed

/-- Release several in order; the first may follow a gap. -/
def Dev.releaseEvery (d : Dev) (s : Nat) (flushed : Bool) (l : List Held) : Dev :=
  d.forAll l.zipIdx fun h e => e.release s h.1 (flushed && decide (h.2 = 0))

/-! ### Reordering (R255, R256, R798) -/

/-- Insert by distance from WinStart. -/
def insertHeld (w : Nat) (h : Held) : List Held → List Held
  | [] => [h]
  | g :: r => if snDiff h.sn w < snDiff g.sn w then h :: g :: r else g :: insertHeld w h r

/-- The held MPDUs that follow WinStart `w` without a gap, what stays held, and the new WinStart. The list is in order. -/
def runFrom (w : Nat) : List Held → List Held × List Held × Nat
  | [] => ([], [], w)
  | h :: r =>
    if h.sn = w then
      let t := runFrom ((w + 1) % 4096) r
      (h :: t.1, t.2.1, t.2.2)
    else ([], h :: r, w)

/-- Move WinStart from `w` forward to `n`: held MPDUs before it, then those that follow it without a gap, are released. -/
def TidRec.moveTo (r : TidRec) (w n : Nat) : TidRec × List Held :=
  let before := r.held.filter fun h => decide (snDiff h.sn w < snDiff n w)
  let after := r.held.filter fun h => !decide (snDiff h.sn w < snDiff n w)
  let t := runFrom n after
  ({ r with win := some t.2.2, held := t.2.1 }, before ++ t.1)

/-- An MPDU of TID `t` with a Block Ack agreement accepted at step 6 (R255, R798). -/
def Dev.reorder (d : Dev) (s t : Nat) (h : Held) : Dev :=
  let r := d.tidRec s t
  let w := r.win.getD h.sn
  let n := d.baWindow s t
  let r := { r with last := some (h.sn, h.mpdu.fn), held := insertHeld w h r.held }
  let target := if n ≤ snDiff h.sn w then (h.sn + 4096 + 1 - n) % 4096 else w
  let q := r.moveTo w target
  (d.setTidRec s t q.1).releaseEvery s false q.2

/-- A BlockAckReq (R255, R798). -/
def Dev.barReceived (d : Dev) (s t ssn : Nat) : Dev :=
  let r := d.tidRec s t
  match r.win with
  | none => d.setTidRec s t { r with win := some ssn }
  | some w =>
    if 0 < snDiff ssn w ∧ snDiff ssn w < 2048 then
      let q := r.moveTo w ssn
      (d.setTidRec s t q.1).releaseEvery s false q.2
    else d

/-- Pass one gap (R256). -/
def Dev.passGap (d : Dev) (s t : Nat) : Dev :=
  let r := d.tidRec s t
  match r.held with
  | [] => d
  | h :: _ =>
    let q := r.moveTo (r.win.getD h.sn) h.sn
    ((d.setTidRec s t q.1).cnt 0x033 MAC_CNT_ROFLUSH.COUNT).releaseEvery s true q.2

/-- Release everything a TID holds, gap by gap (R292). -/
def Dev.passGaps (d : Dev) (s t : Nat) : Nat → Dev
  | 0 => d
  | n + 1 => (d.passGap s t).passGaps s t n

/-- REORDER_TIMEOUT (R256). -/
def Dev.reorderTimeout (d : Dev) (s t : Nat) : Dev :=
  match ((d.tidRec s t).held.map fun h => h.atNs) with
  | [] => d
  | a :: l => (d.reach ((l.foldl min a + 1000 * d.rd 0x033 MAC_RX_CFG.REORDER_TO) * nsU)).passGap s t

def execReorderTimeout (sta tid : Nat) (s : State) : Host.Outcome State Fault Refusal :=
  s.onDev fun d => if d.active 0x033 then d.reorderTimeout sta (tid % 8) else d

/-! ### Fragments (R259) -/

/-- The MSDU of a complete run of fragments: octets joined, the last fragment's PN. -/
def joinFrags (l : List Held) : Option Held :=
  match l, l.getLast? with
  | h :: _, some z =>
    if z.mpdu.moreFrag = false ∧ (l.map fun f => f.mpdu.fn) = List.range l.length then
      some { h with mpdu := { z.mpdu with fn := h.mpdu.fn, msdus := [l.flatMap fun f => f.mpdu.msdus.flatten] } }
    else none
  | _, _ => none

/-- Discard an incomplete MSDU. -/
def Dev.dropFrags (d : Dev) (s t : Nat) : Dev :=
  let r := d.tidRec s t
  if r.frags.isEmpty then d else (d.setTidRec s t { r with frags := [] }).cnt 0x033 MAC_CNT_REASM_DROP.COUNT

/-- A fragment accepted at step 6. -/
def Dev.fragment (d : Dev) (s t : Nat) (h : Held) : Dev :=
  let d := d.when ((d.tidRec s t).frags.any fun f => decide (f.sn ≠ h.sn)) (·.dropFrags s t)
  let r := d.tidRec s t
  let l := r.frags ++ [h]
  -- at most 16 fragments (R218)
  if 16 < l.length then d.dropFrags s t else
  match joinFrags l with
  | some j => (d.setTidRec s t { r with frags := [] }).release s j false
  | none => d.setTidRec s t { r with frags := l }

/-- FRAGMENT_TIMEOUT (R259): 10 ms after the first fragment. -/
def execFragmentTimeout (sta tid : Nat) (s : State) : Host.Outcome State Fault Refusal :=
  s.onDev fun d =>
    match (d.tidRec sta tid).frags with
    | [] => d
    | h :: _ => (d.reach ((h.atNs + 10000000) * nsU)).dropFrags sta tid

/-! ### An accepted MPDU (R253 step 6) -/

/-- Octets of a Queue Size octet (R261). PRESUMED (log entry 358): the scale factors of IEEE 802.11, bits 7 and 6. -/
def queueSizeOctets (v : Nat) : Nat :=
  let u := v % 64
  match v / 64 % 4 with
  | 0 => 16 * u
  | 1 => 1024 + 256 * u
  | 2 => 17408 + 2048 * u
  | _ => 148480 + 32768 * u

/-- Octets of the Queue Size All of a BSR (R261). PRESUMED (log entry 358): the scaling factors of IEEE 802.11. -/
def bsrOctets (b : BsrFact) : Nat := b.all % 256 * nth 16 [16, 256, 2048, 32768] (b.scale % 4)

/-- The octets waiting for a TID of a station are known to be `octets`, at the present beat. -/
def Dev.setDemand (d : Dev) (s t octets : Nat) : Dev :=
  { d with mac := { d.mac with demand := put d.mac.demand (8 * s + t) (octets, d.beat) } }

/-- Uplink demand replaced by what an accepted MPDU reports (R261): its Queue Size for its TID, and its BSR for every TID of the
ACs it names, bits BE, BK, VI, VO. -/
def Dev.reportDemand (d : Dev) (s : Nat) (m : Mpdu) : Dev :=
  let d := match m.kind, m.queueSize with
    | .qos t, some v => d.setDemand s (t % 8) (queueSizeOctets v)
    | _, _ => d
  match m.bsr with
  | some b => d.each 8 fun t e => if bit b.acs (acOf t) then e.setDemand s t (bsrOctets b) else e
  | none => d

/-- What the hardware fields of an entry keep of the last accepted MPDU (R221). -/
def Dev.noteRx (d : Dev) (x s : Nat) (m : Mpdu) : Dev :=
  ((((d.setSta s 12 0 32 d.beat).setSta s 13 0 8 m.rssi).setSta s 13 8 8 m.snr).setSta s 13 16 2 x)

/-- A QoS frame of a dozing station on a trigger-enabled AC starts a service period (R271). -/
def Dev.spTrigger (d : Dev) (x s : Nat) (m : Mpdu) : Dev :=
  match m.kind with
  | .qos t =>
    if d.staDozes s x && decide (d.sta s 8 (28 + acOf (t % 8)) 1 = 1) then
      { d with mac := { d.mac with sp := put d.mac.sp (4 * s + x) (2, d.beat) } }
    else d
  | _ => d

/-- UAPSD_SP_EXPIRY (R271): 16 beats without a PPDU that serves the station. -/
def execUapsdSpExpiry (x sta : Nat) (s : State) : Host.Outcome State Fault Refusal :=
  s.onDev fun d =>
    match look d.mac.sp (4 * sta + x) with
    | some (2, b) =>
      let d := d.reach (beatNs (b + 16) * nsU)
      { d with mac := { d.mac with sp := del d.mac.sp (4 * sta + x) } }
    | _ => d

/-- The place in the receive reports of user `u` of the reception in progress: SEQ of its report (R173, R169). -/
def Dev.repSeq (d : Dev) (x u : Nat) : Nat :=
  (d.rd (rxPage x) RXP_REP_WR.WR + (if (d.rxAt x).tbActive then u + 1 else 0)) % 2 ^ 16

/-- What the MAC keeps of an accepted MPDU. -/
def Dev.heldOf (d : Dev) (x u : Nat) (m : Mpdu) : Held :=
  { sn := m.sn % 4096, atNs := d.ns, mpdu := m, radio := x, startNs := (d.rxAt x).startNs,
    startFrac := (d.rxAt x).startFrac, repSeq := d.repSeq x u }

/-- An MPDU of station `s` accepted at step 6: recorded, acknowledged, released or held. -/
def Dev.acceptMpdu (d : Dev) (x u s : Nat) (m : Mpdu) : Dev :=
  let h := d.heldOf x u m
  let d := (d.cnt (macPage x) MAC_CNT_MPDU_RX.COUNT).noteRx x s m
  let d := ((d.reportDemand s m).spTrigger x s m).acknowledge x s m
  let t := recTid m.kind
  if fragOf m then (d.setTidRec s t { d.tidRec s t with last := some (m.sn, m.fn) }).fragment s t h
  else match d.baTidOf s m with
    | some t => d.reorder s t h
    | none => (d.setTidRec s t { d.tidRec s t with last := some (m.sn, m.fn) }).release s h false

/-- An MPDU addressed to the radio goes through the steps of R253. -/
def Dev.mpduSteps (d : Dev) (x u : Nat) (m : Mpdu) : Dev :=
  match d.staOf x m.ta with
  | none =>
    if isMgmt m.kind && !m.prot then
      let d := d.cnt (macPage x) MAC_CNT_MPDU_RX.COUNT
      let d := match m.solicits with
        | some form => d.oweResponse x form noSta false
        | none => d
      d.giveMpdu 0x7FF (d.heldOf x u m) false
    else
      (d.cnt 0x033 MAC_CNT_NOSTA.COUNT).when (carries m.kind && !isMgmt m.kind) (·.ev 0x033 14)
  | some s =>
    if (d.rdOk (d.staAddr s) 64 && d.wrOk (d.staAddr s) 64) = false then d.enterFault 0x033 ⟨0x04, 0, d.staAddr s⟩
    else if d.staSuspended s then d.cnt 0x033 MAC_CNT_SUSPDROP.COUNT
    else if d.mpduDup s m then
      let d := d.cnt 0x033 MAC_CNT_DUP.COUNT
      match m.solicits with
      | some form => d.oweResponse x form s m.pm
      | none => d
    else match d.protection x s m with
      | some r => d.refuseProt r
      | none =>
        if ((d.baTidOf s m).isSome || fragOf m) && decide (d.rd 0x033 MAC_RO_CFG.ENTRIES ≤ d.roUsed) then
          (d.cnt 0x033 MAC_CNT_ROFULL.COUNT).ev 0x033 11
        else d.acceptMpdu x u s m

/-- A control frame of a station passes the lookup and the test for suspension; `f` is what it does then. -/
def Dev.controlFrom (d : Dev) (x : Nat) (m : Mpdu) (f : Nat → Dev → Dev) : Dev :=
  match d.staOf x m.ta with
  | none => d.cnt 0x033 MAC_CNT_NOSTA.COUNT
  | some s => if d.staSuspended s then d.cnt 0x033 MAC_CNT_SUSPDROP.COUNT else f s d

/-! ### NAV (R238) -/

/-- The address is that of an enabled BSSID of the radio. -/
def Dev.ownBssid (d : Dev) (x a : Nat) : Bool :=
  (List.range 16).any fun k => d.bssEnabled x k
    && decide (d.rd (macPage x) (MAC_BSSID.ADDR_LO.at k) + d.rd (macPage x) (MAC_BSSID.ADDR_HI.at k) * 2 ^ 32 = a)

/-- A frame addressed elsewhere sets the NAV from its Duration, unless its PPDU is ignored (R237). -/
def Dev.setNav (d : Dev) (x : Nat) (m : Mpdu) : Dev :=
  let r := d.rxAt x
  let c := d.ccaOf x r.startNs
  if m.toUs ∨ 2 ≤ c ∨ 32768 ≤ m.duration then d
  else
    let fin := (match r.cca with | some c => c.untilNs | none => d.ns) + 1000 * m.duration
    let q := d.macR x
    d.setMacR x { q with nav := max q.nav fin }

/-! ### MPDU_DECODED -/

/-- The station's report answers a beamforming report poll of the radio (R186, R188): a trigger of that type whose feedback the
radio awaits, with the station among its users. -/
def Dev.polled (d : Dev) (x s : Nat) : Bool :=
  match (d.macR x).onAir, look d.air.exec x with
  | some o, some e =>
    o.awaiting && decide (o.kind = 2) && decide (o.trig = 1)
      && (match e.plan.ppdus[o.index]? with | some p => p.users.any fun u => decide (u.sta = s) | none => false)
  | _, _ => false

/-- A good MPDU reaches the MAC of radio `x`. -/
def Dev.macMpdu (d : Dev) (x u : Nat) (m : Mpdu) : Dev :=
  let d := d.setNav x m
  match m.kind with
  | .cfEnd => if d.ownBssid x m.ta then d.setMacR x { d.macR x with nav := 0 } else d
  | .trigger ul eht gi nltf users =>
    if m.toUs then d else d.triggerMatch x m.ta (d.tEndNs x) ul eht gi nltf users
  | .ack => if m.toUs then d.ackReceived x else d
  | .cts =>
    match (d.macR x).onAir with
    | some o => if m.toUs && o.awaiting && !o.muRtsTo.isEmpty then d.exchangeEnd x o.ac true else d
    | none => d
  | .blockAck acks => if m.toUs then d.controlFrom x m fun s e => e.blockAckReceived x s acks else d
  | .bar t ssn =>
    if m.toUs then d.controlFrom x m fun s e =>
      (((e.cnt (macPage x) MAC_CNT_MPDU_RX.COUNT).noteRx x s m).acknowledge x s m).barReceived s (t % 8) (ssn % 4096)
    else d
  | .psPoll =>
    if m.toUs then d.controlFrom x m fun s e =>
      let e := ((e.cnt (macPage x) MAC_CNT_MPDU_RX.COUNT).noteRx x s m).oweResponse x 0 s m.pm
      { e with mac := { e.mac with sp := put e.mac.sp (4 * s + x) (1, e.beat) } }
    else d
  | .rts =>
    if m.toUs then d.controlFrom x m fun s e => if e.ns < (e.macR x).nav then e else e.oweResponse x 3 s m.pm else d
  | .bfReport f => if m.toUs then d.controlFrom x m fun s e => if e.polled x s then e.bfReport x s f else e else d
  | .qos _ | .data | .mgmt _ => if m.toUs || m.mcast then d.mpduSteps x u m else d

/-- An MPDU found in the A-MPDU is counted by its FCS, and a good one reaches the MAC (R160). -/
def Dev.rxDelivers (d : Dev) (x u : Nat) (fcs : Option Bool) (m : Mpdu) : Dev :=
  match fcs with
  | none => d
  | some ok =>
    let d := d.rxMpdu x u ok
    if ok && decide (x < 3) && d.active (macPage x) && d.active 0x033 then d.macMpdu x u m else d

/-- MPDU_DECODED (R144, R153 to R160, R253). -/
def execMpduDecoded (x user : Nat) (data : DataFact) (mpdu : Mpdu) (s : State) : Host.Outcome State Fault Refusal :=
  s.onDev fun d => if d.rxDecoding x user then ((d.rxSymbols x data.syms).rxCodewords x user data.cws).rxDelivers x user (dataCheck data) mpdu else d

/-! ### End of a received PPDU (R161, R190, R249, R321) -/

/-- Planned uplink users whose report ends NO_SIGNAL get their octets back (R321). -/
def Dev.ulNoSignal (d : Dev) (x : Nat) (stas : List Nat) : Dev :=
  match look d.air.exec x with
  | none => d
  | some e =>
    let users := (e.plan.ppdus.filter fun p => decide (p.kind = 2)).flatMap fun p => p.users.filter fun u => u.ul
    d.forAll stas fun st f =>
      match users.find? fun u => decide (u.sta = st) with
      | none => f
      | some u =>
        let k := 8 * u.sta + u.tid
        let dm := lookOr (0, 0) f.mac.demand k
        let f := f.cnt (airPage x) AIR_CNT_UL_NOSIG.COUNT
        { f with mac := { f.mac with demand := put f.mac.demand k (dm.1 + u.octets, dm.2) } }

/-- The MAC learns that the last MPDU of the PPDU arrived; an uplink exchange ends with its trigger-based PPDU. -/
def Dev.macRxEnd (d : Dev) (x : Nat) (tb anyOk : Bool) : Dev :=
  let r := d.macR x
  let d := d.setMacR x { r with resp := r.resp.map fun p => { p with complete := true } }
  match (d.macR x).onAir with
  | some o => if tb && o.awaiting && decide (o.kind = 2) then d.exchangeEnd x o.ac anyOk else d
  | none => d

def Dev.ppduRxEnd (d : Dev) (x endNs lastNs : Nat) (meas : List RxMeas) (rise : Option (Rise × Bool)) : Dev :=
  let r := d.rxAt x
  if r.phase = .data then
    let users : List TbUser := match r.tbActive, r.tb with
      | true, some t => t.users
      | _, _ => []
    let d := (d.implicitRecords x users meas).rxPpduEnd x endNs lastNs meas rise
    if x < 3 then
      (d.ulNoSignal x ((users.filter fun u => !u.present).map fun u => u.sta)).macRxEnd x r.tbActive
        (users.any fun u => decide (u.ok ≠ 0))
    else d
  else d

def execPpduRxEnd (x endNs lastNs : Nat) (meas : List RxMeas) (rise : Option (Rise × Bool)) (s : State) :
    Host.Outcome State Fault Refusal := s.onDev (·.ppduRxEnd x endNs lastNs meas rise)

/-- TB_WINDOW_EXPIRY (R164, R169, R321): every user ends NO_SIGNAL, and the exchange of the trigger fails. -/
def execTbWindowExpiry (x : Nat) (s : State) : Host.Outcome State Fault Refusal :=
  s.onDev fun d =>
    let r := d.rxAt x
    match r.tb with
    | some t =>
      if r.tbActive then d
      else
        let d := d.tbWindowExpiry x
        if x < 3 then (d.ulNoSignal x (t.users.map fun u => u.sta)).macRxEnd x true false else d
    | none => d

/-! ### Station commands (R222, R223, R798) -/

/-- Post the result of a station command. -/
def Dev.staPost (d : Dev) (s result : Nat) : Dev :=
  let d := (d.wr 0x033 MAC_STA_STAT.BUSY 0).wr 0x033 MAC_STA_STAT.RESULT result
  let d := (d.wr 0x033 MAC_STA_STAT.STA s).wr 0x033 MAC_STA_CMD.GO 0
  { d.ev 0x033 8 with mac := { d.mac with cmd := none } }

/-- A station command is taken: not while another runs, and only on a RUNNING page. -/
def Dev.staCommand (d : Dev) (s : Nat) (f : Dev → Dev) : Dev :=
  if d.rdB 0x033 MAC_STA_STAT.BUSY then d
  else if d.bstate 0x033 ≠ .running ∨ d.inService 0x033 = false then d.staPost s 4
  else if 2048 ≤ s then d.staPost s 1
  else if (d.rdOk (d.staAddr s) 64 && d.wrOk (d.staAddr s) 64) = false then (d.staPost s 1).enterFault 0x033 ⟨0x04, 0, d.staAddr s⟩
  else f d

/-- ADD. -/
def Dev.staAdd (d : Dev) (s : Nat) : Dev := d.staCommand s fun d =>
  if d.staValid s then d.staPost s 1
  else if d.staFieldsOk s = false then d.staPost s 3
  else if d.staAddrsFree s = false then d.staPost s 2
  else (((d.lookupEnter s).dropRecs s).setSta s 0 0 1 1).staPost s 0

/-- A frozen or executing plan, a PPDU in progress or an owed response names the entry (R223). -/
def Dev.staNamed (d : Dev) (s : Nat) : Bool :=
  (d.air.bufs.any fun b => decide (b.2.st = .frozen ∨ b.2.st = .executing)
      && (match b.2.plan with | some p => (p.ppdus.flatMap PlanPpdu.users).any (fun u => decide (u.sta = s)) | none => false))
    || (d.air.exec.any fun e => ((e.2.plan.ppdus.drop e.2.next).flatMap PlanPpdu.users).any fun u => decide (u.sta = s))
    || (d.mac.radio.any fun r =>
      (match r.onAir with | some o => o.users.any (fun u => decide (u.sta = s)) | none => false)
        || (match r.resp with | some p => p.acks.any (fun a => decide (a.1 = s)) | none => false))

/-- SUSPEND is taken: the entry is left out of every plan frozen from now on. -/
def Dev.staSuspend (d : Dev) (s : Nat) : Dev := d.staCommand s fun d =>
  if d.staValid s = false ∨ d.staSuspended s then d.staPost s 1
  else
    let d := (d.wr 0x033 MAC_STA_STAT.BUSY 1).wr 0x033 MAC_STA_STAT.STA s
    { d with mac := { d.mac with cmd := some { sta := s, op := 2 } } }

/-- SUSPEND is done once nothing names the entry. -/
def Dev.staSuspendDone (d : Dev) : Dev :=
  match d.mac.cmd with
  | some c => if d.staNamed c.sta then d else (d.setSta c.sta 0 1 1 1).staPost c.sta 0
  | none => d

/-- A TID that lost its Block Ack agreement releases what it holds and discards its scoreboard (R798). -/
def Dev.endBa (d : Dev) (s t : Nat) : Dev :=
  let r := d.tidRec s t
  if d.staBaTid s t then d
  else (d.setTidRec s t { r with win := none, held := [] }).releaseEvery s false r.held

/-- RESUME. -/
def Dev.staResume (d : Dev) (s : Nat) : Dev := d.staCommand s fun d =>
  if d.staSuspended s = false then d.staPost s 1
  else if d.staFieldsOk s = false then d.staPost s 3
  else if d.staAddrsFree s = false then d.staPost s 2
  else (((d.lookupEnter s).each 8 fun t e => e.endBa s t).setSta s 0 1 1 0).staPost s 0

/-- Queued entries of some TIDs of a station complete with a status, their sequence numbers finally completed. -/
def Dev.staPurge (d : Dev) (s tids status : Nat) : Dev :=
  d.each 8 fun t e => if bit tids t then e.forAll (e.queue (8 * s + t)) fun q f => f.finish q status q.lastOut else e

/-- REMOVE. -/
def Dev.staRemove (d : Dev) (s : Nat) : Dev := d.staCommand s fun d =>
  if d.staSuspended s = false then d.staPost s 1
  else ((((d.staPurge s 0xFF 3).dropRecs s).lookupDrop s).setSta s 0 0 2 0).staPost s 0

/-- FLUSH. -/
def Dev.staFlush (d : Dev) (s tids : Nat) : Dev := d.staCommand s fun d =>
  if d.staSuspended s = false then d.staPost s 1 else (d.staPurge s tids 4).staPost s 0

/-! ### Shared page hooks -/

/-- Checks of the shared page's Start (register tables). -/
def Dev.macSharedStartCheck (d : Dev) : Option Nat :=
  let n := d.rd 0x033 MAC_RO_CFG.ENTRIES
  if n < 1024 ∨ 262144 < n ∨ d.rd 0x033 MAC_RX_CFG.REORDER_TO = 0 then some 0x03 else none

/-- A Start that follows a reset or moves a base rebuilds the tables (R799). -/
def Dev.macRebuild (d : Dev) : Dev :=
  let bases := [d.rd 0x033 MAC_STA_BASE.BASE, d.rd 0x033 MAC_SEQ_BASE.BASE, d.rd 0x033 MAC_RO_BASE.BASE]
  let again := d.mac.lost || decide (d.mac.bases ≠ bases)
  let d := { d with mac := { d.mac with lost := false, bases := bases } }
  if again = false then d
  else if d.wrOk (d.staAddr 0) 131072 = false then d.enterFault 0x033 ⟨0x04, 0, d.staAddr 0⟩
  else
    let d := d.each 2048 fun s e =>
      let w := e.ld (e.staAddr s) 4
      let w' := w - w % 4 - bits w 10 3 * 2 ^ 10
      if w' = w then e else e.st (e.staAddr s) 4 w'
    { d with mac := { d.mac with recs := [], lookup := [], cmd := none, demand := [], sp := [], emlsr := [], twtShort := [] } }

/-- A release while draining (R292): every held MPDU, in sequence order. -/
def Dev.macSharedDrained (d : Dev) : Dev :=
  d.forAll d.mac.recs fun r e => e.passGaps (r.1 / 16) (r.1 % 16) r.2.held.length

/-- Stop, Abort or fault of the shared page: held MPDUs and fragments are discarded (R292), a station command ends. -/
def Dev.macSharedOnLeave (d : Dev) : Dev :=
  let d := { d with mac := { d.mac with recs := d.mac.recs.map fun (r : Nat × TidRec) => (r.1, { r.2 with held := [], frags := [] }) } }
  match d.mac.cmd with
  | some c => d.staPost c.sta 4
  | none => d

/-- Reset of the shared page (R799). -/
def Dev.macSharedReset (d : Dev) : Dev :=
  { d with mac := { Mac.reset with radio := d.mac.radio, recs := d.mac.recs, ftm := d.mac.ftm } }

end Sys2Proof.Machine
end

