-- ==== Sys2Proof/Machine/Dispatcher.lean ====
section
/-! DEFINITION. The thread dispatcher of page 0x070 (R560 to R572). -/

namespace Sys2Proof.Machine

def dspPage : Nat := 0x070

def Dev.thread (d : Dev) (h : Nat) : Thread := lookOr Thread.none d.dsp.threads h
def Dev.setThread (d : Dev) (h : Nat) (t : Thread) : Dev := { d with dsp := { d.dsp with threads := put d.dsp.threads h t } }
def Dev.port (d : Dev) (c : Nat) : Port := nth Port.reset d.dsp.ports c
def Dev.setPort (d : Dev) (c : Nat) (p : Port) : Dev := { d with dsp := { d.dsp with ports := setAt d.dsp.ports c p } }

def Dev.portEn (d : Dev) (c : Nat) : Bool := d.rdB dspPage (DSP_CORE_CTL.EN.at c)
def Dev.floor (d : Dev) : Nat := d.rd dspPage DSP_FLOOR.FLOOR

/-- Core `c` may take thread `h`. -/
def Dev.mayTake (d : Dev) (c h : Nat) : Bool :=
  d.portEn c && (decide ((d.thread h).aff = 0) || bit (d.thread h).aff c)

/-- A core is idle (R565). -/
def Dev.coreIsIdle (d : Dev) (c : Nat) : Bool :=
  d.portEn c && (d.port c).cur.isNone && (d.port c).wait.isNone

/-- DSP_READY, DSP_TRAIL_CNT, DSP_NUDGE and DSP_CUR follow the dispatcher. -/
def Dev.dspSync (d : Dev) : Dev :=
  let mask (f : Nat → Bool) : Nat := (((List.range 8).filter f).map (2 ^ ·)).foldl (· + ·) 0
  let d := d.wr dspPage DSP_READY.ON_CHIP (d.dsp.ready.length - d.dsp.trail.length)
  let d := d.wr dspPage DSP_READY.TOP ((d.dsp.ready.map fun h => (d.thread h).level).foldl max 0)
  let d := d.wr dspPage DSP_READY.ANY (b2n (!d.dsp.ready.isEmpty))
  let d := d.wr dspPage DSP_TRAIL_CNT.COUNT d.dsp.trail.length
  let d := d.wr dspPage DSP_NUDGE.NUDGED (mask fun c => (d.port c).nudged)
  let d := d.wr dspPage DSP_NUDGE.WAITING (mask fun c => (d.port c).wait.isSome)
  let d := d.wr dspPage DSP_NUDGE.IDLE (mask d.coreIsIdle)
  d.each 8 fun c e => match (e.port c).cur with
    | some h => ((e.wr dspPage (DSP_CUR.HANDLE.at c) h).wr dspPage (DSP_CUR.LEVEL.at c) (e.thread h).level).wr dspPage (DSP_CUR.VALID.at c) 1
    | none => e.wrW dspPage (DSP_CUR.VALID.at c).off 0

/-- Youngest ready entry on chip of the lowest level present. -/
def Dev.spillVictim (d : Dev) : Option Nat :=
  let on := d.dsp.ready.filter fun h => !d.dsp.trail.contains h
  let low := (on.map fun h => (d.thread h).level).foldl min 63
  (on.filter fun h => (d.thread h).level = low).getLast?

/-- Entry `k` of the trail is accessed; what is not OKAY is a fault (R572). -/
def Dev.trailUse (d : Dev) (k : Nat) : Dev :=
  let a := d.rd dspPage DSP_TRAIL_BASE.BASE * 4096 + 8 * k
  if d.wrOk a 8 && d.rdOk a 8 then d else d.enterFault dspPage ⟨0x04, 0, a⟩

/-- A thread becomes READY at the tail of its level; a full store spills (R568). -/
def Dev.readyAdd (d : Dev) (h level aff : Nat) : Dev :=
  let d := d.setThread h { d.thread h with st := .ready, level := level, aff := aff }
  let d := { d with dsp := { d.dsp with ready := d.dsp.ready ++ [h] } }
  if 4096 < d.dsp.ready.length - d.dsp.trail.length then
    match d.spillVictim with
    | some v =>
      let d := d.trailUse d.dsp.trail.length
      ({ d with dsp := { d.dsp with trail := d.dsp.trail ++ [v] } }.cnt dspPage DSP_CNT_SPILL.COUNT).ev dspPage 9
    | none => d
  else d

/-- A ready entry leaves; the oldest trail entry of the highest level in the trail moves on chip (R568). -/
def Dev.readyDel (d : Dev) (h : Nat) : Dev :=
  let inTrail := d.dsp.trail.contains h
  let ready := d.dsp.ready.filter (· ≠ h)
  let trail := d.dsp.trail.filter (· ≠ h)
  let top := (trail.map fun t => (d.thread t).level).foldl max 0
  let up := ready.find? fun t => trail.contains t && decide ((d.thread t).level = top)
  let d := d.when (inTrail || up.isSome) (·.trailUse (d.dsp.trail.length - 1))
  let trail := match inTrail, up with
    | false, some u => trail.filter (· ≠ u)
    | _, _ => trail
  { d with dsp := { d.dsp with ready := ready, trail := trail } }

/-- The thread an ask of core `c` selects (R562): highest level at or above the floor, oldest first. -/
def Dev.select (d : Dev) (c : Nat) : Option Nat :=
  d.dsp.ready.foldl (fun (b : Option Nat) h =>
    if d.mayTake c h && decide (d.floor ≤ (d.thread h).level) then
      match b with
      | some g => if (d.thread g).level < (d.thread h).level then some h else b
      | none => some h
    else b) none

/-- The word a returned thread reads as. -/
def Dev.askWord (d : Dev) (h : Nat) : Nat := h + 65536 * (d.thread h).level + 2 ^ 31

/-- Thread `h` is given to core `c`. -/
def Dev.dispatchTo (d : Dev) (c h : Nat) : Dev :=
  let d := d.readyDel h
  let d := d.setThread h { d.thread h with st := .running, last := some c }
  (d.setPort c { d.port c with cur := some h }).cnt dspPage DSP_CNT_DISPATCH.COUNT

/-- The wait of core `c` ends with a word, or unavailable. -/
def Dev.endWait (d : Dev) (c : Nat) (word : Option Nat) : Dev :=
  (d.setPort c { d.port c with wait := none, answer := word }).emit (.askEnds c word)

/-- The wait of core `c` ends empty. -/
def Dev.endWaitEmpty (d : Dev) (c : Nat) : Dev :=
  if (d.port c).wait.isSome then ((d.endWait c (some 0)).cnt dspPage DSP_CNT_EMPTY.COUNT).dspSync else d

/-- Assert a nudge (R565, R566). -/
def Dev.nudge (d : Dev) (c : Nat) : Dev :=
  if (d.port c).nudged then d else (d.setPort c { d.port c with nudged := true }).cnt dspPage DSP_CNT_NUDGE.COUNT

/-- Level of the thread core `c` runs. -/
def Dev.runLevel (d : Dev) (c : Nat) : Nat := match (d.port c).cur with | some h => (d.thread h).level | none => 64

/-- The core a thread newly eligible nudges (R565). -/
def Dev.nudgeFor (d : Dev) (h : Nat) : Option Nat :=
  let free (c : Nat) : Bool := d.mayTake c h && d.coreIsIdle c && !(d.port c).nudged
  match (match (d.thread h).last with | some c => if free c then some c else none | none => none) with
  | some c => some c
  | none =>
    match (List.range 8).find? free with
    | some c => some c
    | none =>
      if d.rdB dspPage DSP_CFG.PREEMPT_EN ∧ d.rd dspPage DSP_CFG.PREEMPT_LVL ≤ (d.thread h).level then
        ((List.range 8).filter fun c => d.mayTake c h && decide (d.runLevel c < (d.thread h).level)).foldl
          (fun (b : Option Nat) c => match b with
            | some e => if d.runLevel c < d.runLevel e then some c else b
            | none => some c) none
      else none

/-- Thread `h` is READY at a level not below the floor. -/
def Dev.isEligible (d : Dev) (h : Nat) : Bool := decide ((d.thread h).st = .ready) && decide (d.floor ≤ (d.thread h).level)

/-- A thread that became READY goes to a waiting core (R564): its last core, or the lowest-numbered. -/
def Dev.toWaiter (d : Dev) (h : Nat) : Dev :=
  if d.isEligible h = false then d
  else
    let waits (c : Nat) : Bool := (d.port c).wait.isSome && d.mayTake c h
    let pick := match (match (d.thread h).last with | some c => if waits c then some c else none | none => none) with
      | some c => some c
      | none => (List.range 8).find? waits
    match pick with
    | some c => let d := d.dispatchTo c h; d.endWait c (some (d.askWord h))
    | none => d

/-- A thread that became eligible by a post or a fall of the floor and that no waiting core took nudges a core (R565). -/
def Dev.nudgeOne (d : Dev) (h : Nat) : Dev :=
  if d.isEligible h = false then d else match d.nudgeFor h with | some c => d.nudge c | none => d

/-- A thread becomes eligible (R564, R565): a waiting core takes it, or a core is nudged. -/
def Dev.eligible (d : Dev) (h : Nat) : Dev := (d.toWaiter h).nudgeOne h

/-- A refused write of DSP_POST (R561). -/
def Dev.postRefused (d : Dev) (value : Nat) : Dev :=
  ((d.wr dspPage DSP_POST_REJ.VALUE value).cnt dspPage DSP_CNT_REFUSED.COUNT).ev dspPage 8

/-- A handle the configuration names. -/
def Dev.handleOk (d : Dev) (h : Nat) : Bool := decide (h < 2 ^ d.rd dspPage DSP_CFG.THREADS_LOG2)

/-- POST of a thread (R560). -/
def Dev.threadPost (d : Dev) (h level aff : Nat) : Dev :=
  let t := d.thread h
  let d := d.cnt dspPage DSP_CNT_POST.COUNT
  (match t.st with
  | .idle => (d.readyAdd h level aff).eligible h
  | .ready => d.cnt dspPage DSP_CNT_COALESCE.COUNT
  | .running => d.setThread h { t with st := .repost, heldLevel := level, heldAff := aff }
  | .repost => (d.setThread h { t with heldLevel := level, heldAff := aff }).cnt dspPage DSP_CNT_COALESCE.COUNT).dspSync

/-- CANCEL of a thread (R560). -/
def Dev.threadCancel (d : Dev) (h : Nat) : Dev :=
  let t := d.thread h
  (match t.st with
  | .ready => ((d.readyDel h).setThread h { t with st := .idle }).cnt dspPage DSP_CNT_CANCEL.COUNT
  | .repost => (d.setThread h { t with st := .running }).cnt dspPage DSP_CNT_CANCEL.COUNT
  | _ => d).dspSync

/-- A write of DSP_POST. -/
def Dev.dspPost (d : Dev) (value : Nat) : Dev :=
  let h := bits value 0 16
  if d.inService dspPage = false then d.complete .unavailable
  else
    (if d.handleOk h = false ∨ 2 ≤ bits value 30 2 then d.postRefused value
     else if bits value 30 2 = 1 then d.threadCancel h
     else d.threadPost h (bits value 16 6) (bits value 22 8)).complete .okay

def execThreadPost (handle level aff : Nat) (s : State) : Host.Outcome State Fault Refusal :=
  s.onDev fun d => d.dspPost (handle % 65536 + 65536 * (level % 64) + 2 ^ 22 * (aff % 256))

def execThreadCancel (handle : Nat) (s : State) : Host.Outcome State Fault Refusal :=
  s.onDev fun d => d.dspPost (handle % 65536 + 2 ^ 30)

/-- The current thread of core `c` ends: by an ask IDLE, by a yield READY again (R560). -/
def Dev.endCurrent (d : Dev) (c : Nat) (yields : Bool) : Dev :=
  match (d.port c).cur with
  | none => d
  | some h =>
    let t := d.thread h
    let d := d.setPort c { d.port c with cur := none }
    match t.st, yields with
    | .repost, _ => (d.readyAdd h t.heldLevel t.heldAff)
    | .running, true => d.readyAdd h t.level t.aff
    | _, _ => d.setThread h { t with st := .idle }

/-- Some thread core `c` may take is READY below the floor. -/
def Dev.floorHolds (d : Dev) (c : Nat) : Bool := d.dsp.ready.any fun h => d.mayTake c h && decide ((d.thread h).level < d.floor)

/-- The read of a core that finds no thread (R563, R570): empty at once while EN or ASK_WAIT is 0, else the core waits. -/
def Dev.askEmpty (d : Dev) (c : Nat) : Dev × Option Nat :=
  if d.portEn c = false then ((d.cnt dspPage DSP_CNT_EMPTY.COUNT).dspSync, some 0)
  else if d.rd dspPage DSP_CFG.ASK_WAIT = 0 then
    (((d.when (d.floorHolds c) (·.cnt dspPage DSP_CNT_FLOOR_HELD.COUNT)).cnt dspPage DSP_CNT_EMPTY.COUNT).dspSync, some 0)
  else ((d.setPort c { d.port c with wait := some d.ns }).dspSync, none)

/-- The thread a core gives up (R560, R564): READY again it goes to a waiting core. Answers the thread where a post made it so,
which may then nudge a core (R565). -/
def Dev.giveUp (d : Dev) (c : Nat) (yields : Bool) : Dev × Option Nat :=
  match (d.port c).cur with
  | none => (d, none)
  | some g => ((d.endCurrent c yields).toWaiter g, if (d.thread g).st = .repost then some g else none)

/-- An ask or a yield of core `c` (R562, R563, R570). Answers the word when the read completes at once. -/
def Dev.ask (d : Dev) (c : Nat) (yields : Bool) : Dev × Option Nat :=
  let d := d.setPort c { d.port c with nudged := false }
  let g := d.giveUp c yields
  let d := g.1
  match d.select c with
  | some h =>
    let d := d.dispatchTo c h
    let d := match g.2 with | some t => d.nudgeOne t | none => d
    (d.dspSync, some (d.askWord h))
  | none =>
    let d := match g.2 with | some t => d.nudgeOne t | none => d
    d.askEmpty c

/-- A read of DSP_ASK or DSP_YIELD by the port's own core. -/
def Dev.askRead (d : Dev) (c : Nat) (yields : Bool) : Dev :=
  if d.active dspPage = false then d.complete .unavailable
  else if (d.port c).wait.isSome then d
  else
    let r := d.ask c yields
    match r.2 with
    | some w => r.1.complete .okay w
    | none => r.1

def execDspAsk (core : Nat) (s : State) : Host.Outcome State Fault Refusal :=
  s.onDev fun d => if core < 8 then d.askRead core false else d
def execDspYield (core : Nat) (s : State) : Host.Outcome State Fault Refusal :=
  s.onDev fun d => if core < 8 then d.askRead core true else d

/-- A wait reaches ASK_WAIT µs (R563). -/
def execAskTimeout (core : Nat) (s : State) : Host.Outcome State Fault Refusal :=
  s.onDev fun d =>
    if 8 ≤ core then d
    else match (d.port core).wait with
    | none => d
    | some t =>
      let d := d.reach ((t + 1000 * d.rd dspPage DSP_CFG.ASK_WAIT) * nsU)
      (d.when (d.floorHolds core) (·.cnt dspPage DSP_CNT_FLOOR_HELD.COUNT)).endWaitEmpty core

/-- An interrupt or a debug halt for a waiting core (R563). -/
def execAskInterrupted (core : Nat) (s : State) : Host.Outcome State Fault Refusal :=
  s.onDev fun d => if core < 8 then d.endWaitEmpty core else d

/-- The floor in force follows its two sources (R565 to R567); the threads a fall frees are taken highest level first, oldest
first, as an ask takes them (R562). -/
def Dev.setFloor (d : Dev) (gov fw : Nat) : Dev :=
  let old := d.floor
  let new := max gov fw
  let d := (d.wr dspPage DSP_FLOOR.GOV_FLOOR gov).wr dspPage DSP_FLOOR.FW_FLOOR fw
  let d := (d.wr dspPage DSP_FLOOR.FLOOR new).wr dspPage DSP_FLOOR.THROTTLE (b2n (decide (gov ≠ 0)))
  if new = old then d
  else
    let d := d.ev dspPage 10
    (if old < new then
      if d.rdB dspPage DSP_CFG.PREEMPT_EN then
        d.each 8 fun c e => e.when (decide (old ≤ e.runLevel c) && decide (e.runLevel c < new)) (·.nudge c)
      else d
    else d.forAll (((List.range 64).reverse.flatMap fun l => d.dsp.ready.filter fun h => decide ((d.thread h).level = l)).filter fun h =>
        decide (new ≤ (d.thread h).level) && decide ((d.thread h).level < old)) fun h e => e.eligible h).dspSync

/-- GOV_FLOOR arrives from the governor (R567). -/
def Dev.govFloor (d : Dev) (v : Nat) : Dev := d.setFloor v (d.rd dspPage DSP_FLOOR.FW_FLOOR)

def Dev.fwFloor (d : Dev) (v : Nat) : Dev := d.setFloor (d.rd dspPage DSP_FLOOR.GOV_FLOOR) (v % 64)

def execDspFloorWrite (value : Nat) (s : State) : Host.Outcome State Fault Refusal :=
  s.onDev fun d => d.regDo 0x070 fun d =>
    if d.inReset dspPage ∨ d.unpowered dspPage then d.complete .unavailable else (d.fwFloor value).complete .okay

/-- A write of a port's EN; clearing it ends a wait (R570). -/
def Dev.portEnable (d : Dev) (c : Nat) (en : Bool) : Dev :=
  let d := d.when (!en) (·.endWaitEmpty c)
  (d.wr dspPage (DSP_CORE_CTL.EN.at c) (b2n en)).dspSync

/-- By the port's own core only (R570). -/
def execDspCoreEnWrite (core by' : Nat) (en : Bool) (s : State) : Host.Outcome State Fault Refusal :=
  s.onDev fun d => d.regDo 0x070 fun d =>
    if 8 ≤ core then d
    else if d.inReset dspPage ∨ d.unpowered dspPage then d.complete .unavailable
    else if by' ≠ core then d.complete .denied
    else (d.portEnable core en).complete .okay

def Dev.dspStartCheck (d : Dev) : Option Nat :=
  let l := d.rd dspPage DSP_CFG.THREADS_LOG2
  if 8 ≤ l ∧ l ≤ 16 then none else some 0x03

/-- Start makes every thread IDLE (R571). -/
def Dev.dspOnStart (d : Dev) : Dev :=
  let idle (e : Nat × Thread) : Nat × Thread := (e.1, { e.2 with st := .idle })
  { d with dsp := { d.dsp with threads := d.dsp.threads.map idle, ready := [], trail := [] } }.dspSync

/-- Every ready entry and every record of a running thread is discarded, and waiting reads end (R571). -/
def Dev.dspOnLeave (d : Dev) : Dev :=
  let d := d.each 8 fun c e => e.when (e.port c).wait.isSome (·.endWait c none)
  let d := d.dspOnStart
  (d.each 8 fun c e => e.setPort c { e.port c with cur := none, nudged := false }).dspSync

/-- A draining page has finished when no thread is READY (R571). -/
def Dev.dspIdle (d : Dev) : Bool := d.dsp.ready.isEmpty

end Sys2Proof.Machine
end

