-- ==== Sys2Proof/Machine/Plic.lean ====
section
/-! DEFINITION. Interrupt and timer registers of the control cluster: PLIC (R41, R48, R546, R547) and ACLINT (R548, R549). -/

namespace Sys2Proof.Machine

/-! ### PLIC -/

/-- The line of a page with the common header (R48). -/
def Dev.pageLine (d : Dev) (p : Nat) : Bool :=
  (pageKind p).isSome && decide (p < 0x100) && !d.inReset p && !d.unpowered p
    && decide (d.rdW p INT_RAW.word.off &&& d.rdW p INT_EN.word.off ≠ 0)

/-- Level of a PLIC source (R547). -/
def Dev.plicLevel (d : Dev) (s : Nat) : Bool :=
  if s = 131 then decide (d.rdW 0x130 PCIE_INT.LINK_UP.off &&& d.rdW 0x130 PCIE_INT_EN.LINK_UP.off ≠ 0)
  else if 1 ≤ s ∧ s ≤ 256 then d.pageLine (s - 1)
  else if 512 ≤ s ∧ s < 768 then d.rdB 0x062 (PKT_RING_STAT.IRQ.at (s - 512))
  else if 768 ≤ s ∧ s < 776 then (d.port (s - 768)).nudged
  else if 808 ≤ s ∧ s < 812 then bit d.ctl.intx (s - 808)
  else false

/-- The line of a source stands: its level, or an edge not yet claimed. -/
def Dev.plicRaised (d : Dev) (s : Nat) : Bool := d.ctl.edge.contains s || d.plicLevel s

/-- A source is pending: an edge not yet claimed, or a level whose claim has completed. -/
def Dev.plicPending (d : Dev) (s : Nat) : Bool :=
  d.ctl.edge.contains s || (d.plicLevel s && !d.ctl.claimed.contains s)

/-- Priority of a source, enable of a source for a context, threshold of a context. -/
def Dev.plicPrio (d : Dev) (s : Nat) : Nat := (d.rdW 0x100 (4 * s)).toNat % 8
def Dev.plicEnabled (d : Dev) (x s : Nat) : Bool := (d.rdW 0x100 (0x2000 + 0x80 * x + s / 32 * 4)).getLsbD (s % 32)
def Dev.plicThreshold (d : Dev) (x : Nat) : Nat := (d.rdW 0x120 (0x1000 * x)).toNat % 8

/-- The sources enabled for a context in rising order: bit `i` of enable word `k` is source 32 k + i. -/
def Dev.plicSources (d : Dev) (x : Nat) : List Nat :=
  (List.range 32).flatMap fun k =>
    let w := d.rdW 0x100 (0x2000 + 0x80 * x + 4 * k)
    if w = 0 then [] else ((List.range 32).filter fun i => w.getLsbD i).map (32 * k + ·)

/-- The highest pending source enabled for a context, lowest number first; priority 0 never interrupts. -/
def Dev.plicBest (d : Dev) (x : Nat) : Option Nat :=
  (d.plicSources x).foldl (fun (b : Option Nat) s =>
    if s ≠ 0 ∧ d.plicPrio s ≠ 0 ∧ d.plicPending s then
      match b with
      | some e => if d.plicPrio e < d.plicPrio s then some s else b
      | none => some s
    else b) none

/-- The external interrupt of a context. -/
def Dev.plicLine (d : Dev) (x : Nat) : Bool :=
  match d.plicBest x with | some s => decide (d.plicThreshold x < d.plicPrio s) | none => false

/-- An edge source receives a message. -/
def Dev.plicEdge (d : Dev) (s : Nat) : Dev :=
  if d.ctl.edge.contains s then d else { d with ctl := { d.ctl with edge := d.ctl.edge ++ [s] } }

/-- A read of a context's claim register. -/
def Dev.plicClaim (d : Dev) (x : Nat) : Dev :=
  match d.plicBest x with
  | some s =>
    { d with ctl := { d.ctl with edge := d.ctl.edge.filter (· ≠ s),
                                 claimed := if s < 776 ∨ 808 ≤ s then d.ctl.claimed ++ [s] else d.ctl.claimed } }.complete .okay s
  | none => d.complete .okay 0

/-- A write of a context's complete register: ignored for a source not enabled for it. -/
def Dev.plicComplete (d : Dev) (x s : Nat) : Dev :=
  (if d.plicEnabled x (s % 1024) ∧ s < 1024 then
    { d with ctl := { d.ctl with claimed := d.ctl.claimed.filter (· ≠ s) } }
   else d).complete .okay

def execPlicClaim (context : Nat) (s : State) : Host.Outcome State Fault Refusal :=
  s.onDev fun d => if context < 16 then d.plicClaim context else d
def execPlicComplete (context source : Nat) (s : State) : Host.Outcome State Fault Refusal :=
  s.onDev fun d => if context < 16 then d.plicComplete context source else d

/-- Word `k` of the pending bits. -/
def Dev.plicPendingWord (d : Dev) (k : Nat) : Nat :=
  (((List.range 32).filter fun i => decide (32 * k + i ≠ 0) && d.plicPending (32 * k + i)).map (2 ^ ·)).foldl (· + ·) 0

/-- A read at offset `o` of the PLIC (R546). -/
def Dev.plicRead (d : Dev) (o : Nat) : Dev :=
  if o < 0x1000 then d.complete .okay (if o = 0 then 0 else d.plicPrio (o / 4))
  else if o < 0x1080 then d.complete .okay (d.plicPendingWord ((o - 0x1000) / 4))
  else if 0x2000 ≤ o ∧ o < 0x2800 then d.complete .okay (d.rdW 0x100 o).toNat
  else if 0x200000 ≤ o ∧ o < 0x210000 then
    if o % 0x1000 = 0 then d.complete .okay (d.plicThreshold ((o - 0x200000) / 0x1000))
    else if o % 0x1000 = 4 then d.plicClaim ((o - 0x200000) / 0x1000)
    else d.complete .okay 0
  else d.complete .okay 0

/-- A write at offset `o` of the PLIC. -/
def Dev.plicWrite (d : Dev) (o v : Nat) : Dev :=
  if o < 0x1000 then (if o = 0 then d else d.wrW 0x100 o (BitVec.ofNat 32 (v % 8))).complete .okay
  else if 0x2000 ≤ o ∧ o < 0x2800 then (d.wrW 0x100 o (BitVec.ofNat 32 (if o % 0x80 = 0 then v / 2 * 2 else v))).complete .okay
  else if 0x200000 ≤ o ∧ o < 0x210000 then
    if o % 0x1000 = 0 then (d.wrW 0x120 (o - 0x200000) (BitVec.ofNat 32 (v % 8))).complete .okay
    else if o % 0x1000 = 4 then d.plicComplete ((o - 0x200000) / 0x1000) v
    else d.complete .okay
  else d.complete .okay

/-! ### ACLINT -/

/-- MTIME (R549). -/
def Dev.mtime (d : Dev) : Nat := d.ctl.refNs / 100 % 2 ^ 64

/-- MTIP of hart `h`. -/
def Dev.mtip (d : Dev) (h : Nat) : Bool := decide (nth (2 ^ 64 - 1) d.ctl.cmp h ≤ d.mtime)

/-- A read of the low half of MTIME captures the high half. -/
def Dev.mtimeLo (d : Dev) : Dev :=
  { d with ctl := { d.ctl with mtimeHi := d.mtime / 2 ^ 32 } }.complete .okay (d.mtime % 2 ^ 32)

def execMtimeLoRead (s : State) : Host.Outcome State Fault Refusal := s.onDev (·.mtimeLo)

/-- MTIME reaches MTIMECMP of a hart: REFCLK has run so long. -/
def execMtimerCompare (hart : Nat) (s : State) : Host.Outcome State Fault Refusal :=
  s.onDev fun d =>
    if hart < 8 then { d with ctl := { d.ctl with refNs := max d.ctl.refNs (100 * nth 0 d.ctl.cmp hart) } } else d

/-- Set or clear MSIP of a hart. -/
def Dev.setMsip (d : Dev) (h : Nat) (b : Bool) : Dev :=
  let m := d.ctl.msip
  { d with ctl := { d.ctl with msip := if b then m ||| 2 ^ h else m &&& (255 - 2 ^ h) } }

/-- Half `hi` of MTIMECMP of hart `h`. -/
def Dev.setCmp (d : Dev) (h : Nat) (hi : Bool) (v : Nat) : Dev :=
  let c := nth 0 d.ctl.cmp h
  { d with ctl := { d.ctl with cmp := setAt d.ctl.cmp h (if hi then c % 2 ^ 32 + 2 ^ 32 * v else c / 2 ^ 32 * 2 ^ 32 + v) } }

/-- A read of the ACLINT page (R548). -/
def Dev.aclintRead (d : Dev) (o : Nat) : Dev :=
  if o < 0x20 then d.complete .okay (b2n (bit d.ctl.msip (o / 4)))
  else if 0x4000 ≤ o ∧ o < 0x4040 then
    d.complete .okay (nth 0 d.ctl.cmp ((o - 0x4000) / 8) / (if o % 8 = 0 then 1 else 2 ^ 32) % 2 ^ 32)
  else if o = 0xBFF8 then d.mtimeLo
  else if o = 0xBFFC then d.complete .okay d.ctl.mtimeHi
  else d.complete .okay 0

end Sys2Proof.Machine
end

