-- ==== Sys2Proof/Machine/Claims.lean ====
section
/-! DEFINITION. Ownership of balls, event timers, capture buffers and the PMBus master (R67 to R72, R752, R753, R789). -/

namespace Sys2Proof.Machine

/-- The OWNER field of a resource: kind 0 ball, 1 event timer, 2 capture buffer, 3 PMBus master. -/
def ownerFld (kind index : Nat) : Fld :=
  if kind = 0 then PIN_OWN_BALL.OWNER.at index
  else if kind = 1 then PIN_OWN_TMR.OWNER.at index
  else if kind = 2 then PIN_OWN_CAP.OWNER.at index
  else PIN_OWN_PMB.OWNER

/-- Ball index `k` names GPIOb_n with k = 64b + n and n below 24 (R751). -/
def ballExists (k : Nat) : Bool := decide (k < 256) && decide (k % 64 < 24)

/-- FUNC values a ball offers (R752): 0 to 20 on every ball, MDC and MDIO on GPIO0_0 and GPIO0_1. -/
def funcAvailable (k func : Nat) : Bool :=
  decide (func ≤ 20) || (decide (func = 21) && decide (k = 0)) || (decide (func = 22) && decide (k = 1))

/-- The ownership register exists in the page. -/
def resourceExists (kind index : Nat) : Bool :=
  (decide (kind = 0) && decide (index < 512)) || (decide (kind = 1) && decide (index < 16))
    || (decide (kind = 2) && decide (index < 8)) || (decide (kind = 3) && decide (index = 0))

/-- The present owner of a resource; a ball index that names no ball reads 0 (R753). -/
def Dev.owner (d : Dev) (kind index : Nat) : Nat := d.rd 0x000 (ownerFld kind index)

/-- A refused claim or release (R70). -/
def Dev.refuseClaim (d : Dev) (kind index requester : Nat) : Dev :=
  let own := if kind = 0 ∧ ballExists index = false then 0 else d.owner kind index
  let d := d.wr 0x000 PIN_CLAIM_REJ_RES.INDEX index
  let d := d.wr 0x000 PIN_CLAIM_REJ_RES.KIND kind
  let d := d.wr 0x000 PIN_CLAIM_REJ_RES.REQUESTER requester
  let d := { d with rejOwn := own }
  (d.cnt 0x000 PIN_CLAIM_REJ_CNT.COUNT).ev 0x000 8

/-- Whether a claim with owner `x` is accepted (R68, R753). DESIGN CHOICE (log entry 320): a claim with owner code 0 of a free
resource is accepted as any claim of a free resource is, and sets FUNC; the spec does not speak of it. -/
def Dev.claimable (d : Dev) (kind index x func : Nat) : Bool :=
  (decide (kind ≠ 0) || (ballExists index && funcAvailable index func))
    && (decide (d.owner kind index = 0) || decide (d.owner kind index = x))

/-- Give a resource to owner `x`; a ball also takes its function select. -/
def Dev.giveTo (d : Dev) (kind index x func : Nat) : Dev :=
  let d := d.wr 0x000 (ownerFld kind index) x
  d.when (decide (kind = 0)) (·.wr 0x000 (PIN_OWN_BALL.FUNC.at index) func)

/-- A claim (R68). -/
def Dev.claim (d : Dev) (kind index x func : Nat) : Dev :=
  if d.claimable kind index x func then d.giveTo kind index x func else d.refuseClaim kind index x

/-- The resource becomes free and its output inert. -/
def Dev.freeOwner (d : Dev) (kind index : Nat) : Dev := d.giveTo kind index 0 0

/-- Release every claim an owner holds (R58, R789). -/
def Dev.releaseAll (d : Dev) (x : Nat) : Dev :=
  if x = 0 then d else
  let d := d.each 256 fun k e => e.when (decide (e.owner 0 k = x)) (·.freeOwner 0 k)
  let d := d.each 16 fun k e => e.when (decide (e.owner 1 k = x)) (·.freeOwner 1 k)
  let d := d.each 8 fun k e => e.when (decide (e.owner 2 k = x)) (·.freeOwner 2 k)
  d.when (decide (d.owner 3 0 = x)) (·.freeOwner 3 0)

/-- The owner code of a page's block (R67). -/
def ownerCode (p : Nat) : Nat := 256 * blockCode ((pageKind p).getD .hdr) + instanceOf p

/-- A level change ends without success (R664, R692): the domain stays at its old clock and voltage. -/
def Dev.levelFails (d : Dev) (dom : Nat) : Dev :=
  match look d.gov.change dom with
  | none => d
  | some c =>
    let d := (d.wr 0x001 (PWR_PL_STAT.LEVEL dom) c.old).wr 0x001 (PWR_PL_STAT.BUSY.bitOf dom) 0
    { d.wr 0x001 (PWR_PL_STAT.ERR.bitOf dom) 1 with gov := { d.gov with change := del d.gov.change dom } }

/-- Every level change in flight ends with ERR (R692). -/
def Dev.levelsFail (d : Dev) : Dev := d.each 4 fun k e => e.levelFails k

/-- OWNER_CLAIM: a write of an owner code with RELEASE 0 (R68, R69). -/
def execOwnerClaim (kind index owner func : Nat) (s : State) : Host.Outcome State Fault Refusal :=
  s.onDev fun d => d.regDo 0x000 fun d =>
    (if resourceExists kind index then d.claim kind index (owner % 0x10000) (func % 64) else d).complete .okay

/-- OWNER_RELEASE: a write with RELEASE 1 and FORCE 0 (R68). DESIGN CHOICE (log entry 321): a release with an owner code other
than 0 of a resource that is free has no effect and is not refused; the table of R68 has no row for it. -/
def execOwnerRelease (kind index owner : Nat) (s : State) : Host.Outcome State Fault Refusal :=
  s.onDev fun d => d.regDo 0x000 fun d =>
    let x := owner % 0x10000
    (if resourceExists kind index = false then d
     else if kind = 0 ∧ ballExists index = false then d.refuseClaim kind index x
     else if d.owner kind index = x then d.freeOwner kind index
     else if d.owner kind index = 0 then d
     else d.refuseClaim kind index x).complete .okay

/-- FORCED_RELEASE: a write with RELEASE 1 and FORCE 1, from machine mode only (R68, R69). DESIGN CHOICE (log entry 322): a
ball index that names no ball is refused, with requester 0; the spec does not speak of it. -/
def execForcedRelease (kind index : Nat) (machine : Bool) (s : State) : Host.Outcome State Fault Refusal :=
  s.onDev fun d => d.regDo 0x000 fun d =>
    if machine = false then d.complete .denied
    else if resourceExists kind index = false then d.complete .okay
    else if kind = 0 ∧ ballExists index = false then (d.refuseClaim kind index 0).complete .okay
    else
      let d := (d.freeOwner kind index).cnt 0x000 PIN_CLAIM_FORCED.COUNT
      -- the PMBus master lost during a level change ends it (R692)
      (d.when (decide (kind = 3)) (·.levelsFail)).complete .okay

/-- PIN_CLAIM_REJ_RES_READ: the read captures PIN_CLAIM_REJ_OWN (R70). -/
def execPinClaimRejResRead (s : State) : Host.Outcome State Fault Refusal :=
  s.onDev fun d => d.regDo 0x000 fun d =>
    (d.wr 0x000 PIN_CLAIM_REJ_OWN.OWNER d.rejOwn).complete .okay (d.rdW 0x000 PIN_CLAIM_REJ_RES.word.off).toNat

end Sys2Proof.Machine
end

