-- ==== Sys2Proof/Machine/Time.lean ====
section
/-! DEFINITION. Device time (R520 to R523), the servo (R525 to R528), event timers and inputs (R536, R537). What a step of device
time does to the beat stands in TimeCmd. -/

namespace Sys2Proof.Machine

def ptpPage : Nat := 0x008

/-- 2^-16 ns in units of `now`. -/
def fracU : Nat := 2 ^ 32

/-- Seconds in units of `now`. -/
def secU : Nat := 1000000000 * nsU

/-- Device time from seconds, nanoseconds and fraction. -/
def timeOf (sec ns frac : Nat) : Nat := sec * secU + ns * nsU + frac * fracU

/-- Seconds, nanoseconds and fraction of a device time. -/
def secOf (t : Nat) : Nat := t / secU % 2 ^ 48
def nsOf (t : Nat) : Nat := t % secU / nsU
def fracOf (t : Nat) : Nat := t % nsU / fracU

/-- A read of PTP_TIME_NS (R523). -/
def Dev.timeRead (d : Dev) : Dev :=
  let d := d.wr ptpPage PTP_TIME_NS.NS (nsOf d.now)
  let d := d.wr ptpPage PTP_TIME_SEC_LO.VALUE (secOf d.now)
  let d := d.wr ptpPage PTP_TIME_SEC_HI.VALUE (secOf d.now / 2 ^ 32)
  let d := d.wr ptpPage PTP_TIME_FRAC.VALUE (fracOf d.now)
  let d := d.wr ptpPage PTP_TIME_NS32.VALUE (d.ns % 2 ^ 32)
  d.complete .okay (nsOf d.now)

def execPtpTimeNsRead (s : State) : Host.Outcome State Fault Refusal := s.onDev (·.regDo ptpPage (·.timeRead))

/-! ### Servo -/

/-- FREQ_MAX and SLEW_MAX in 2^-8 ppb. -/
def Dev.freqMax (d : Dev) : Int := d.rd ptpPage PTP_SERVO_LIMIT.FREQ_MAX * 10 * 256
def Dev.slewMax (d : Dev) : Int := d.rd ptpPage PTP_SERVO_LIMIT.SLEW_MAX * 256

/-- ADJ in force in 2^-8 ppb: FREQ_TRIM plus the servo's output, limited (R522). -/
def Dev.adj (d : Dev) : Int :=
  clampInt (-d.freqMax) d.freqMax (d.rdS ptpPage PTP_FREQ_TRIM.PPB + d.time.integ + d.time.slew)

/-- PTP_FREQ_ADJ and PTP_SERVO_INTEG follow. -/
def Dev.adjSync (d : Dev) : Dev := (d.wrS ptpPage PTP_FREQ_ADJ.PPB d.adj).wrS ptpPage PTP_SERVO_INTEG.VALUE d.time.integ

/-- One TCLK cycle (R522). -/
def Dev.tclk (d : Dev) : Dev :=
  -- 2 ns × (1 + ADJ × 10^-9), ADJ in 2^-8 ppb
  { d with now := d.now + (2 * nsU * ((256000000000 : Int) + d.adj) / 256000000000).toNat }

/-- The device-time holdover flag, in all its places (R525); the rounds of a new holdover are counted from 0 (R340). -/
def Dev.holdover (d : Dev) (b : Bool) : Dev :=
  let d := d.when (b && !d.rdB ptpPage PTP_SERVO_STAT.HOLDOVER) (·.wr 0x040 VEN_STAT.HOLD_CNT 0)
  ((d.wr ptpPage PTP_SERVO_STAT.HOLDOVER (b2n b)).wr ptpPage PTP_BEAT_CTL.HOLDOVER (b2n b)).wr 0x040 VEN_STAT.HOLDOVER (b2n b)

def Dev.sstate (d : Dev) : Nat := d.rd ptpPage PTP_SERVO_STAT.SSTATE

/-- The servo enters a state: its flag, events and counters (R525). -/
def Dev.servoEnter (d : Dev) (st : Nat) : Dev :=
  let old := d.sstate
  if old = st then d
  else
    let d := d.wr ptpPage PTP_SERVO_STAT.SSTATE st
    let d := d.when (decide (old = 2)) fun e =>
      { (e.cnt ptpPage PTP_CNT_UNLOCK.COUNT).ev ptpPage 10 with rtc := { e.rtc with spoilt := true } }
    match st with
    | 1 => d.holdover true
    | 2 => ({ d with time := { d.time with sticky := false } }.holdover false).ev ptpPage 9
    | 3 => ((d.holdover true).cnt ptpPage PTP_CNT_HOLDOVER.COUNT).ev ptpPage 11
    | _ => d.holdover d.time.sticky

/-- The servo runs: it is in a state other than FREE. -/
def Dev.servoOn (d : Dev) : Bool := decide (d.sstate ≠ 0)

/-- A sample of `e` in 2^-16 ns that makes no step (R526). -/
def Dev.servoTrack (d : Dev) (e : Int) : Dev :=
  let gain (g : Nat) : Int := roundDiv ((g : Int) * e) 65536
  let integ := clampInt (-d.freqMax) d.freqMax (d.time.integ - gain (d.rd ptpPage PTP_SERVO_GAIN.KI))
  let slew := clampInt (-d.slewMax) d.slewMax (-(gain (d.rd ptpPage PTP_SERVO_GAIN.KP)))
  let d := { d with time := { d.time with integ := integ, slew := slew } }
  let within (thr : Nat) : Bool := decide (e.natAbs ≤ thr * 65536)
  let cnt := if within (d.rd ptpPage PTP_SERVO_THR.LOCK_THR) then min 255 (d.rd ptpPage PTP_SERVO_STAT.LOCK_CNT + 1) else 0
  let d := d.wr ptpPage PTP_SERVO_STAT.LOCK_CNT cnt
  let d := d.when (decide (d.sstate = 3)) (·.servoEnter 1)
  let d :=
    if d.sstate = 2 then d.when (!within (d.rd ptpPage PTP_SERVO_THR.UNLOCK_THR)) (·.servoEnter 1)
    else d.when (decide (max 1 (d.rd ptpPage PTP_SERVO_CFG.LOCK_N) ≤ cnt)) (·.servoEnter 2)
  d.adjSync

/-- The sample makes a step (R526). -/
def Dev.servoSteps (d : Dev) (e : Int) : Bool :=
  d.rdB ptpPage PTP_SERVO_CFG.STEP_EN && decide (d.sstate ≠ 2)
    && decide (d.rd ptpPage PTP_SERVO_THR.STEP_THR * 1000 * 65536 < e.natAbs)

/-- What every sample does first: the count, PTP_SERVO_LAST, and when it came. -/
def Dev.servoNote (d : Dev) (e : Int) : Dev :=
  let d := d.cnt ptpPage PTP_CNT_SAMPLES.COUNT
  let d := d.wrS ptpPage PTP_SERVO_LAST.VALUE (clampInt (-(2 ^ 31)) (2 ^ 31 - 1) (e / 65536))
  { d with time := { d.time with lastSample := d.now } }

/-- Instant at which HOLD_TO ms have passed without a sample (R527). -/
def Dev.holdAt (d : Dev) : Nat := d.time.lastSample + d.rd ptpPage PTP_SERVO_CFG.HOLD_TO * 1000 * usU

def execServoHoldoverTimeout (s : State) : Host.Outcome State Fault Refusal :=
  s.onDev fun d =>
    if d.sstate = 1 ∨ d.sstate = 2 then
      let d := (d.reach d.holdAt).servoEnter 3
      { d with time := { d.time with slew := 0 } }.adjSync
    else d

/-- Page 0x008 starts: with SERVO_EN the servo acquires (R525). -/
def Dev.ptpOnStart (d : Dev) : Dev :=
  if d.rdB ptpPage PTP_SERVO_CFG.SERVO_EN then
    let d := (d.wr ptpPage PTP_SERVO_STAT.LOCK_CNT 0).servoEnter 1
    { d with time := { d.time with lastSample := d.now } }
  else d.holdover d.time.sticky

/-- Page 0x008 leaves RUNNING (R528): the servo is FREE with INTEG kept. -/
def Dev.servoFree (d : Dev) : Dev :=
  let d := d.servoEnter 0
  let d := { d with time := { d.time with slew := 0 } }
  (d.when (d.rdB ptpPage PTP_SERVO_CFG.SERVO_EN) (·.holdover true)).adjSync

/-- Page 0x008 goes out of service (R538): the servo is FREE, timers' pulses and a time command in progress end. -/
def Dev.ptpOnLeave (d : Dev) : Dev :=
  let d := d.servoFree
  ({ d with time := { d.time with pulses := [] } } : Dev).wr ptpPage PTP_TIME_CMD.BUSY 0

/-- The holdover flag while the page does not run: 1 while SERVO_EN is, else what keeps it set (R525, R528). -/
def Dev.flagSync (d : Dev) : Dev :=
  if d.sstate = 0 ∧ d.bstate ptpPage ≠ .running then d.holdover (d.rdB ptpPage PTP_SERVO_CFG.SERVO_EN || d.time.sticky) else d

def Dev.ptpStartCheck (d : Dev) : Option Nat :=
  if d.rd ptpPage PTP_SERVO_THR.UNLOCK_THR < d.rd ptpPage PTP_SERVO_THR.LOCK_THR then some 0x03 else none

/-- Reset of page 0x008 alone (R790): the holdover flag stays set, INTEG and device time stand. -/
def Dev.ptpOnReset (d : Dev) : Dev :=
  ({ d with time := { TimeUnit.reset with integ := d.time.integ, sticky := true, lastSample := d.now } }.adjSync).holdover true

/-! ### Event timers and inputs -/

/-- Compare value of a timer on the device's seconds, whose upper bits are those of now (only 32 bits of seconds stand in the
register). -/
def Dev.tmrAt (d : Dev) (t : Nat) : Nat :=
  timeOf (secOf d.now / 2 ^ 32 * 2 ^ 32 + d.rd ptpPage (PTP_TMR.CMP_SEC.at t)) (d.rd ptpPage (PTP_TMR.CMP_NS.at t)) 0

/-- The compare value after `now`, advanced by the period. -/
def nextCompare (at' now period : Nat) : Nat := if now < at' then at' else at' + ((now - at') / period + 1) * period

/-- Timer `t` fires (R536); `stepped` when a step moved device time past it. -/
def Dev.tmrFire (d : Dev) (t : Nat) (stepped : Bool) : Dev :=
  let period := d.rd ptpPage (PTP_TMR.PERIOD_NS.at t) * nsU
  let c := d.tmrAt t
  let d := (d.wr ptpPage (PTP_TMR.FIRED.at t) 1).ev ptpPage 12
  let d := d.when stepped (·.wr ptpPage (PTP_TMR.STEPPED.at t) 1)
  let d := d.when (d.rdB ptpPage (PTP_TMR.OUT.at t)) fun e =>
    { e with time := { e.time with pulses := put e.time.pulses t (e.now + e.rd ptpPage (PTP_TMR.WIDTH.at t) * usU) } }.emit (.timerOut t true)
  if period = 0 then d.wr ptpPage (PTP_TMR.EN.at t) 0
  else
    let n := nextCompare c d.now period
    (d.wr ptpPage (PTP_TMR.CMP_SEC.at t) (secOf n)).wr ptpPage (PTP_TMR.CMP_NS.at t) (nsOf n)

/-- Every armed timer whose compare value a step of device time out of `old` reached or passed fires (R536, R538). -/
def Dev.tmrStepped (d : Dev) (old : Nat) : Dev :=
  if d.bstate ptpPage ≠ .running then d
  else d.each 16 fun t e =>
    e.when (e.rdB ptpPage (PTP_TMR.EN.at t) && decide (old ≤ e.tmrAt t) && decide (e.tmrAt t ≤ e.now)) (·.tmrFire t true)

def execEventTimerFire (timer : Nat) (s : State) : Host.Outcome State Fault Refusal :=
  s.onDev fun d =>
    if timer < 16 ∧ d.bstate ptpPage = .running ∧ d.rdB ptpPage (PTP_TMR.EN.at timer) then
      (d.reach (d.tmrAt timer)).tmrFire timer false
    else d

def execEventTimerPulseEnd (timer : Nat) (s : State) : Host.Outcome State Fault Refusal :=
  s.onDev fun d => match look d.time.pulses timer with
    | some t =>
      let d := d.reach t
      { d with time := { d.time with pulses := del d.time.pulses timer } }.emit (.timerOut timer false)
    | none => d

/-- The ball that event input `e` samples: the claimed ball of lowest index with its function (R752, R754). -/
def Dev.eviBall (d : Dev) (e : Nat) : Option Nat :=
  (List.range 256).find? fun k => ballExists k && decide (d.owner 0 k ≠ 0) && decide (d.rd 0x000 (PIN_OWN_BALL.FUNC.at k) = 18 + e)

/-- An edge at ball `k` at device time `t` is one that event input `e` captures (R537). -/
def Dev.eviTakes (d : Dev) (e k : Nat) (falling : Bool) (t : Nat) : Bool :=
  decide (e < 2) && decide (d.bstate ptpPage = .running) && decide (d.eviBall e = some k)
    && bit (d.rdW ptpPage PTP_EVI_CFG.EN0.off).toNat e && (bit (d.rdW ptpPage PTP_EVI_CFG.EN0.off).toNat (2 + e) == falling)
    && (match nth none d.time.eviEdge e with | some l => decide (t < l) || decide (l + usU ≤ t) | none => true)

/-- The capture of an edge at device time `t`. -/
def Dev.eviCapture (d : Dev) (e t : Nat) : Dev :=
  let d := (d.wr ptpPage (PTP_EVI.NS.at e) (nsOf t)).wr ptpPage (PTP_EVI.VALID.at e) 1
  let tu := d.time
  ({ d with time := { tu with
      eviNew := setAt tu.eviNew e (fracOf t + 2 ^ 16 * (secOf t % 2 ^ 16)), eviEdge := setAt tu.eviEdge e (some t) } }).ev ptpPage 13

/-- The sample that a capture on event input 0 gives (R525), in 2^-16 ns. -/
def eviSample (t : Nat) : Int :=
  let v : Int := nsOf t * 65536 + fracOf t
  if nsOf t < 500000000 then v else v - 1000000000 * 65536

/-- A read of word 0 of an event input: word 1 is captured, VALID clears. -/
def Dev.eviRead (d : Dev) (e : Nat) : Dev :=
  let w := (d.rdW ptpPage (PTP_EVI.NS.at e).off).toNat
  let d := d.wrW ptpPage (PTP_EVI.FRAC.at e).off (BitVec.ofNat 32 (nth 0 d.time.eviNew e))
  (d.wr ptpPage (PTP_EVI.VALID.at e) 0).complete .okay w

def execPtpEviRead (input : Nat) (s : State) : Host.Outcome State Fault Refusal :=
  s.onDev fun d => if input < 2 then d.regDo ptpPage (·.eviRead input) else d

end Sys2Proof.Machine
end

