-- ==== Sys2Proof/Machine/Rtc.lean ====
section
/-! DEFINITION. The real-time clock (R694 to R716) and the ageing monitors (R717 to R723). -/

namespace Sys2Proof.Machine

def rtcPage : Nat := 0x002
def agePage : Nat := 0x003

/-! ### Wake sources (R672) -/

/-- A source works in a power state. -/
def wakeWorks (src st : Nat) : Bool :=
  if st = 1 ∨ st = 2 then decide (1 ≤ src) && decide (src ≤ 10)
  else if st = 3 then [1, 2, 3, 6, 7, 8, 9].contains src
  else if st = 4 then [1, 2, 3, 8, 9].contains src
  else false

/-- The state a sleep request enters, or the state held. -/
def Dev.sleepState (d : Dev) : Nat :=
  if d.rd 0x001 PWR_STATE.PHASE = 1 then d.gov.target else d.rd 0x001 PWR_STATE.STATE

/-- A wake event of a source: it counts while the device enters or holds a state in which the source is enabled and works. -/
def Dev.raiseWake (d : Dev) (src : Nat) : Dev :=
  if d.sleepState ≠ 0 ∧ d.rd 0x001 PWR_STATE.PHASE ≠ 2 ∧ bit (d.rd 0x001 PWR_WAKE_EN.EN) src ∧ wakeWorks src d.sleepState then
    { d with gov := { d.gov with seen := d.gov.seen ||| 2 ^ src } }
  else d

/-! ### The count -/

/-- What a crystal edge adds, in 2^-32 tick (R694). -/
def Dev.rtcInc (d : Dev) : Nat :=
  ((2 ^ 32 : Int) + clampInt (-128000000) 128000000 (d.rdS rtcPage RTC_TRIM.TRIM) * 2 ^ 24 / 1000000000).toNat

def Dev.setCount (d : Dev) (c : Nat) : Dev := { d with rtc := { d.rtc with count := c % 2 ^ 96 } }

/-- `n` crystal edges. -/
def Dev.crystal (d : Dev) (n : Nat) : Dev :=
  if d.rtc.edges && d.rtc.powered then d.setCount (d.rtc.count + n * d.rtcInc) else d

/-- Whole ticks. -/
def Dev.ticks (d : Dev) : Nat := d.rtc.count / 2 ^ 32

/-- The interface to the always-on domain is locked out (R707): the access completes BLOCK_UNAVAILABLE. -/
def Dev.aonAccess (d : Dev) (f : Dev → Dev) : Dev := if d.rtc.lockout then d.complete .unavailable else (f d).complete .okay

/-- A read of RTC_CNT_LO (R698). -/
def Dev.rtcRead (d : Dev) : Dev :=
  if d.rtc.lockout then d.complete .unavailable
  else
    let d := (d.wr rtcPage RTC_CNT_HI.VALUE (d.ticks / 2 ^ 32)).wr rtcPage RTC_CNT_FRAC.VALUE (d.rtc.count / 2 ^ 16 % 2 ^ 16)
    (d.wr rtcPage RTC_CNT_LO.TICKS_LO d.ticks).complete .okay (d.ticks % 2 ^ 32)

def execRtcCntLoRead (s : State) : Host.Outcome State Fault Refusal := s.onDev (·.regDo 0x002 (·.rtcRead))

/-- A command ends with a result (R700). -/
def Dev.rtcEnd (d : Dev) (r : Nat) : Dev :=
  let d := ((d.wr rtcPage RTC_SET_CMD.RESULT r).wr rtcPage RTC_SET_CMD.BUSY 0).ev rtcPage 13
  { d with rtc := { d.rtc with staged := none } }

/-- GO in RTC_SET_CMD (R699, R700). -/
def Dev.rtcGo (d : Dev) (op : Nat) : Dev :=
  d.aonAccess fun d =>
    if d.rtc.staged.isSome then d
    else
      let d := d.wr rtcPage RTC_SET_CMD.OP op
      if op = 1 ∨ op = 2 then { d.wr rtcPage RTC_SET_CMD.BUSY 1 with rtc := { d.rtc with staged := some op } }
      else d.rtcEnd 4

def execRtcSet (s : State) : Host.Outcome State Fault Refusal := s.onDev (·.regDo 0x002 (·.rtcGo 1))
def execRtcAdd (s : State) : Host.Outcome State Fault Refusal := s.onDev (·.regDo 0x002 (·.rtcGo 2))

def Dev.rtcCancel (d : Dev) : Dev := d.aonAccess fun d => if d.rtc.staged.isSome then d.rtcEnd 2 else d

def execRtcCancel (s : State) : Host.Outcome State Fault Refusal := s.onDev (·.regDo 0x002 (·.rtcCancel))

/-! ### Alarms -/

def Dev.alarmCmp (d : Dev) (k : Nat) : Nat := d.rd rtcPage (RTC_ALARM.CMP_LO.at k) + 2 ^ 32 * d.rd rtcPage (RTC_ALARM.CMP_HI.at k)
def Dev.setCmp64 (d : Dev) (k c : Nat) : Dev := (d.wr rtcPage (RTC_ALARM.CMP_LO.at k) c).wr rtcPage (RTC_ALARM.CMP_HI.at k) (c / 2 ^ 32)

/-- Alarm `k` is due at the count as it stands (R701). -/
def Dev.alarmDue (d : Dev) (k : Nat) : Bool :=
  d.rdB rtcPage (RTC_ALARM.EN.at k) && d.rdB rtcPage (RTC_ALARM.ARMED.at k) && decide (d.alarmCmp k ≤ d.ticks)

/-- Alarm `k` fires (R701, R703). -/
def Dev.alarmFires (d : Dev) (k : Nat) (byWrite : Bool) : Dev :=
  let c := d.alarmCmp k
  let p := d.rd rtcPage (RTC_ALARM.PERIOD.at k)
  let d := (d.wr rtcPage (RTC_ALARM.FIRED.at k) 1).ev rtcPage 8
  let d := d.when byWrite (·.wr rtcPage (RTC_ALARM.BY_WRITE.at k) 1)
  let d := d.when (d.rdB rtcPage (RTC_ALARM.WAKE.at k)) (·.raiseWake 1)
  if p = 0 then d.wr rtcPage (RTC_ALARM.ARMED.at k) 0
  else
    let n := (d.ticks - c) / p + 1
    (d.setCmp64 k (c + n * p)).cnt rtcPage (RTC_ALARM.MISSED.at k) (n - 1)

def Dev.alarmsDue (d : Dev) (byWrite : Bool) : Dev := d.each 4 fun k e => e.when (e.alarmDue k) (·.alarmFires k byWrite)

/-- A count write moved the count backward (R704). -/
def Dev.alarmsBack (d : Dev) : Dev :=
  d.each 4 fun k e =>
    if e.rdB rtcPage (RTC_ALARM.EN.at k) = false then e
    else
      let c := e.alarmCmp k
      let p := e.rd rtcPage (RTC_ALARM.PERIOD.at k)
      if p = 0 then e.when (decide (e.ticks < c)) (·.wr rtcPage (RTC_ALARM.ARMED.at k) 1)
      else if e.ticks < c then (e.setCmp64 k (c - (c - e.ticks - 1) / p * p)).wr rtcPage (RTC_ALARM.ARMED.at k) 1
      else e

/-- The count staged in the set registers, in units of 2^-32 ticks (R699). -/
def Dev.rtcStagedCount (d : Dev) : Nat :=
  (d.rd rtcPage RTC_SET_LO.VALUE + 2 ^ 32 * d.rd rtcPage RTC_SET_HI.VALUE) * 2 ^ 32 + d.rd rtcPage RTC_SET_FRAC.VALUE % 2 ^ 16 * 2 ^ 16

/-- The count at the next edge with the staged signed amount added (R699). -/
def Dev.rtcSum (d : Dev) : Int :=
  ((d.rtc.count + d.rtcInc : Nat) : Int)
    + toSigned 64 (d.rd rtcPage RTC_SET_LO.VALUE + 2 ^ 32 * d.rd rtcPage RTC_SET_HI.VALUE) * 4294967296
    + ((d.rd rtcPage RTC_SET_FRAC.VALUE % 2 ^ 16 * 2 ^ 16 : Nat) : Int)

/-- The count becomes `c` at the edge, with result `r` (R700, R703 to R705). -/
def Dev.rtcTake (d : Dev) (c r : Nat) : Dev :=
  let e := (d.setCount c).rtcEnd r
  let f := { e with rtc := { e.rtc with spoilt := true } }
  (f.when (decide (f.rtc.count < d.rtc.count)) (·.alarmsBack)).alarmsDue true

/-- RTC_CMD_APPLY: the first crystal edge after the write (R699, R701 to R705). -/
def Dev.rtcApply (d : Dev) : Dev :=
  match d.rtc.staged with
  | none => d
  | some op =>
    if (d.rtc.edges && d.rtc.powered) = false then d
    else if op = 1 then d.rtcTake d.rtcStagedCount 0
    else d.rtcTake d.rtcSum.toNat (b2n (decide (op = 2) && decide (d.rtcSum < 0)))

def execRtcCmdApply (s : State) : Host.Outcome State Fault Refusal := s.onDev (·.rtcApply)

/-- ALARM_FIRE: the count advances, edge by edge, to the alarm's CMP, or past it by one edge when it stands there already
(R701, R702); every alarm that is due there fires. While a count command is staged the next edge is that command's. -/
def execAlarmFire (alarm : Nat) (s : State) : Host.Outcome State Fault Refusal :=
  s.onDev fun d =>
    if 4 ≤ alarm ∨ d.rtc.staged.isSome ∨ (d.rtc.edges && d.rtc.powered) = false ∨ d.rdB rtcPage (RTC_ALARM.EN.at alarm) = false
        ∨ d.rdB rtcPage (RTC_ALARM.ARMED.at alarm) = false then d
    else
      let gap := d.alarmCmp alarm * 2 ^ 32 - d.rtc.count
      (d.crystal (max 1 (ceilDiv gap d.rtcInc))).alarmsDue false

/-- A write of a word of an alarm (R702). -/
def Dev.alarmWrite (d : Dev) (k w v : Nat) : Dev :=
  d.aonAccess fun d =>
    match w with
    | 0 => ((d.wr rtcPage (RTC_ALARM.CMP_LO.at k) v).wr rtcPage (RTC_ALARM.ARMED.at k) 1).wr rtcPage (RTC_ALARM.MISSED.at k) 0
    | 1 => ((d.wr rtcPage (RTC_ALARM.CMP_HI.at k) v).wr rtcPage (RTC_ALARM.ARMED.at k) 1).wr rtcPage (RTC_ALARM.MISSED.at k) 0
    | 2 => d.wr rtcPage (RTC_ALARM.PERIOD.at k) v
    | 3 =>
      let d := (d.wr rtcPage (RTC_ALARM.EN.at k) v).wr rtcPage (RTC_ALARM.WAKE.at k) (v / 2)
      let d := (d.when (bit v 3) (·.wr rtcPage (RTC_ALARM.FIRED.at k) 0)).when (bit v 4) (·.wr rtcPage (RTC_ALARM.BY_WRITE.at k) 0)
      d.when (bit v 0) (·.wr rtcPage (RTC_ALARM.ARMED.at k) 1)
    | _ => d

def execAlarmArm (alarm word value : Nat) (s : State) : Host.Outcome State Fault Refusal :=
  s.onDev fun d => if alarm < 4 ∧ word < 4 then d.alarmWrite alarm word value else d

/-! ### Oscillator and supply -/

/-- No crystal edge for 122 µs (R697). -/
def execOscStopDetect (s : State) : Host.Outcome State Fault Refusal :=
  s.onDev fun d =>
    { (d.wr rtcPage RTC_STAT.OSC_STOP 1).ev rtcPage 9 with rtc := { d.rtc with edges := false, spoilt := true, stopSince := true } }

def execCrystalEdgesResume (s : State) : Host.Outcome State Fault Refusal :=
  s.onDev fun d => { d with rtc := { d.rtc with edges := true } }

/-- A write of 1 to OSC_STOP (R697). -/
def Dev.oscClear (d : Dev) : Dev := d.aonAccess fun d => d.when d.rtc.edges (·.wr rtcPage RTC_STAT.OSC_STOP 0)

def execOscStopClear (s : State) : Host.Outcome State Fault Refusal := s.onDev (·.regDo 0x002 (·.oscClear))

/-- Each change of ON_BATT or BATT_LOW sets BATT (R708). -/
def Dev.battFlag (d : Dev) (f : Fld) (b : Bool) : Dev := if d.rdB rtcPage f = b then d else (d.wr rtcPage f (b2n b)).ev rtcPage 10

def execVbatSwitch (s : State) : Host.Outcome State Fault Refusal :=
  s.onDev fun d => (d.battFlag RTC_STAT.ON_BATT true).wr rtcPage RTC_STAT.BATT_USED 1

def execVaonReturn (s : State) : Host.Outcome State Fault Refusal := s.onDev fun d => d.battFlag RTC_STAT.ON_BATT false

/-- The lockout begins (R707). -/
def execAonLockoutBegin (s : State) : Host.Outcome State Fault Refusal :=
  s.onDev fun d =>
    let d := if d.rtc.staged.isSome then d.rtcEnd 3 else d
    { d with rtc := { d.rtc with lockout := true } }

def execAonLockoutEnd (s : State) : Host.Outcome State Fault Refusal :=
  s.onDev fun d => { d with rtc := { d.rtc with lockout := false } }

def execVbatMeasure (low : Bool) (s : State) : Host.Outcome State Fault Refusal :=
  s.onDev fun d => d.battFlag RTC_STAT.BATT_LOW low

/-! ### Trimming -/

/-- A trim window ends (R709, R710): the count advanced by `dc` 2^-16 ticks while device time advanced by `dd` ns. -/
def Dev.trimEnd (d : Dev) (dc dd : Nat) : Dev :=
  if d.bstate rtcPage ≠ .running ∨ d.rdB rtcPage RTC_TRIM_CFG.AUTO_TRIM = false ∨ dd = 0 then d
  else
    let d := (d.setCount (d.rtc.count + dc * 2 ^ 16)).reach (d.now + dd * nsU)
    let bad := d.rtc.spoilt || decide (d.sstate ≠ 2) || d.rdB rtcPage RTC_STAT.OSC_STOP
    let d := { d with rtc := { d.rtc with spoilt := false } }
    if bad then d.cnt rtcPage RTC_TRIM_MEAS.SKIPPED
    else
      let e := roundDiv (((dc : Int) * 1000000000 - (dd : Int) * 2 ^ 31) * 1000000000) (2 ^ 31 * dd)
      let t := clampInt (-128000000) 128000000 (d.rdS rtcPage RTC_TRIM.TRIM - roundDiv (e * 256) (2 ^ d.rd rtcPage RTC_TRIM_CFG.ALPHA))
      ((d.wrS rtcPage RTC_TRIM.TRIM t).wrS rtcPage RTC_TRIM_MEAS.ERROR (clampInt (-(2 ^ 23)) (2 ^ 23 - 1) e)).ev rtcPage 12

def execTrimWindowEnd (dc dd : Nat) (s : State) : Host.Outcome State Fault Refusal := s.onDev (·.trimEnd dc dd)

/-! ### Time after a sleep -/

/-- The snapshot at entry to Nap or Hibernate, at the last crystal edge (R711). -/
def Dev.sleepSnapshot (d : Dev) : Dev :=
  let ago := d.rtc.phase / 32768
  let snap : RtcSnap := { dt := d.now - ago * nsU, mt := d.ctl.refNs - ago, c := d.rtc.count }
  { d.wr rtcPage RTC_STAT.SNAP_VALID 1 with rtc := { d.rtc with snap := some snap, stopSince := d.rdB rtcPage RTC_STAT.OSC_STOP } }

/-- The re-derivation at the return (R712 to R715), `tau` ns of REFCLK after the reference edge. -/
def Dev.rederive (d : Dev) (fromHib : Bool) (tau : Nat) : Dev :=
  let d := d.wr rtcPage RTC_DERIVE.FROM_HIB (b2n fromHib)
  match d.rdB rtcPage RTC_STAT.SNAP_VALID, d.rtc.snap with
  | true, some s =>
    let span : Int := (d.rtc.count / 2 ^ 16 : Nat) - (s.c / 2 ^ 16 : Nat)
    let stopped := d.rtc.stopSince
    let dns16 : Int := if stopped then 0 else span * 1000000000 / 2 ^ 15 + tau * 2 ^ 16
    let now := ((s.dt / 2 ^ 32 : Nat) + dns16).toNat * 2 ^ 32
    let mt := (((s.mt : Int) + dns16 / 2 ^ 16) / 100 * 100).toNat
    let d : Dev := { d with now := now, ctl := { d.ctl with refNs := max mt s.mt }, rtc := { d.rtc with snap := none } }
    let d := (d.wr rtcPage RTC_STAT.SNAP_VALID 0).wr rtcPage RTC_DERIVE.DSTATUS (if stopped then 2 else 1)
    let d := (d.wr rtcPage RTC_DERIVE_TICKS.TICKS (min (2 ^ 32 - 1) (span / 2 ^ 16).toNat)).ev rtcPage 11
    ({ d with time := { d.time with sticky := true } }).holdover true
  | _, _ => d.wr rtcPage RTC_DERIVE.DSTATUS 3

/-! ### Ageing -/

/-- 2^(num/den) in 2^-32, rounded down. -/
def exp2 (num : Int) (den : Nat) : Nat :=
  let e := num + 32 * (den : Int)
  if e < 0 then 0 else rootFuel den (2 ^ e.toNat) (e.toNat / den + 1) 0

/-- VNOM of a level in mV (R659). -/
def vnom (level : Nat) : Nat := nth 620 [850, 800, 760, 720, 690, 660, 640, 620] level

/-- Voltage in force of a domain in mV. -/
def Dev.domMv (d : Dev) (dom : Nat) : Int :=
  (vnom (d.rd 0x001 (PWR_PL_STAT.LEVEL dom)) : Int) + d.rdS 0x001 (PWR_AVS_TRIM.TRIM dom)

/-- A domain is powered. -/
def Dev.domPowered (d : Dev) (dom : Nat) : Bool :=
  if dom = 1 then d.rdB 0x001 PWR_DOM_STAT.KOV else if dom = 3 then d.rdB 0x001 PWR_DOM_STAT.BB else true

/-- Add to a CONSUMED register and the fraction kept under it, in 2^-32 ppm. -/
def Dev.consume (d : Dev) (place : Nat) (f : Fld) (q : Nat) : Dev :=
  let t := lookOr 0 d.age.part place + q
  { d.cnt agePage f (t / 2 ^ 32) with age := { d.age with part := put d.age.part place (t % 2 ^ 32) } }

/-- AF_AVG takes an acceleration factor in 2^-32 (R717). -/
def Dev.afAverage (d : Dev) (place : Nat) (f : Fld) (af : Nat) : Dev :=
  let a := lookOr 0 d.age.af place
  let a := a + ((af : Int) - a) / 2 ^ d.rd agePage AGE_CFG.ALPHA
  { d.wr agePage f (min 65535 (a / 2 ^ 24).toNat) with age := { d.age with af := put d.age.af place a } }

/-- The model's days (R722). -/
def modelDays (consumed life af : Nat) : Nat :=
  if af = 0 ∨ life = 0 then 65535 else min 65535 ((1000000 - consumed) * life * 256 / (1000000 * 24 * af))

/-- The drift's days (R722). -/
def driftDays (hours drift eol : Int) : Nat :=
  if drift ≤ 0 then 65535 else min 65535 (hours * (eol - drift) / (24 * drift)).toNat

/-- DAYS_LEFT, SOURCE and EOL of a part (R722). -/
def Dev.daysLeft (d : Dev) (place m r : Nat) (days src eol : Fld) : Dev :=
  let v := min m r
  let d := (d.wr agePage days v).wr agePage src (b2n (decide (r < m)))
  let low := decide (v < d.rd agePage AGE_CFG.EOL_WARN)
  if low = false then { d with age := { d.age with warned := d.age.warned.filter (· ≠ place) } }
  else if d.age.warned.contains place then d
  else { (d.wr agePage eol 1).ev agePage 8 with age := { d.age with warned := d.age.warned ++ [place] } }

def Dev.tRef (d : Dev) : Nat := d.rd agePage AGE_PROFILE.T_REF
def Dev.lRef (d : Dev) : Nat := d.rd agePage AGE_PROFILE.L_REF

/-- A domain's part of an update: its hottest sensor in °C, its measured drift in ppm (R717, R719). -/
def Dev.ageDomain (d : Dev) (dom period : Nat) (temp : Int) (drift : Nat) : Dev :=
  let af := if d.domPowered dom then exp2 (5 * (temp - d.tRef) + (d.domMv dom - 850)) 50 else 0
  let d := d.consume dom (AGE_DOM.CONSUMED.at dom) (period * af * 1000000 / (3600 * max 1 d.lRef))
  let d := d.afAverage dom (AGE_DOM.AF_AVG.at dom) af
  let d := d.wr agePage (AGE_DOM.DRIFT.at dom) (min 65535 drift)
  d.daysLeft dom (modelDays (d.rd agePage (AGE_DOM.CONSUMED.at dom)) d.lRef (d.rd agePage (AGE_DOM.AF_AVG.at dom)))
    (driftDays (d.rd agePage AGE_HOURS.HOURS) drift 40000) (AGE_DOM.DAYS_LEFT.at dom) (AGE_DOM.SOURCE.at dom) (AGE_DOM.EOL.at dom)

/-- CONSUMED of a PA with its fraction. -/
def Dev.paTotal (d : Dev) (n : Nat) : Nat := d.rd agePage (AGE_PA.CONSUMED.at n) * 2 ^ 32 + lookOr 0 d.age.part (4 + n)

/-- A PA's part of an update: its AF is its stress of the period over a full period at reference. -/
def Dev.agePa (d : Dev) (n period : Nat) : Dev :=
  let life := d.rd agePage AGE_PA_CFG0.PA_LIFE
  let gain := d.paTotal n - lookOr 0 d.age.mark n
  let d := { d with age := { d.age with mark := put d.age.mark n (d.paTotal n) } }
  let d := d.afAverage (4 + n) (AGE_PA.AF_AVG.at n) (gain * life * 3600 / (1000000 * max 1 period))
  let eol := d.rd agePage AGE_PA_CFG1.DROP_EOL
  d.daysLeft (4 + n) (modelDays (d.rd agePage (AGE_PA.CONSUMED.at n)) life (d.rd agePage (AGE_PA.AF_AVG.at n)))
    (driftDays (d.rd agePage (AGE_PA.BASE_HOURS.at n)) (d.rdS agePage (AGE_PA.DROP.at n)) (if eol = 0 then 100 else eol))
    (AGE_PA.DAYS_LEFT.at n) (AGE_PA.SOURCE.at n) (AGE_PA.EOL.at n)

/-- AGE_SECS and the hours (R717). -/
def Dev.ageClock (d : Dev) (period : Nat) : Dev :=
  let t := d.rd agePage AGE_SECS.SECS + period
  let h := t / 3600
  let d := (d.wr agePage AGE_SECS.SECS (t % 3600)).cnt agePage AGE_HOURS.HOURS h
  d.each 24 fun n e => e.when (e.rdB agePage (AGE_PA.BASE_VALID.at n)) (·.cnt agePage (AGE_PA.BASE_HOURS.at n) h)

def execAgeUpdate (temps : List Int) (drifts : List Nat) (s : State) : Host.Outcome State Fault Refusal :=
  s.onDev fun d =>
    if d.bstate agePage ≠ .running then d
    else
      let period := max 1 (d.rd agePage AGE_CFG.AGE_PERIOD)
      let d := d.ageClock period
      let d := d.each 4 fun k e => e.ageDomain k period (nth 0 temps k) (nth 0 drifts k)
      d.each 24 fun n e => e.agePa n period

/-- A PPDU's stress on the PA of chain `n` (R720): ball power in 0.25 dBm, quad temperature, airtime in ns. -/
def Dev.paStress (d : Dev) (n : Nat) (p : Int) (temp : Int) (ns : Nat) : Dev :=
  let life := d.rd agePage AGE_PA_CFG0.PA_LIFE
  if d.bstate agePage ≠ .running ∨ life = 0 then d
  else
    let dbl := max 1 (d.rd agePage AGE_PA_CFG1.PA_PDBL)
    let num := 10 * (p - d.rdS agePage AGE_PA_CFG1.PA_PREF) + (dbl : Int) * (temp - d.rd agePage AGE_PA_CFG1.PA_TREF)
    d.consume (4 + n) (AGE_PA.CONSUMED.at n) (ns * exp2 num (10 * dbl) * 1000000 / (3600000000000 * life))

/-- A gain error of the PA of chain `n`, in 0.01 dB (R721). -/
def Dev.paGain (d : Dev) (n : Nat) (g : Int) : Dev :=
  if d.bstate agePage ≠ .running then d
  else if d.rdB agePage (AGE_PA.BASE_VALID.at n) = false then
    let f := lookOr ((0 : Int), 0) d.age.first n
    let f : Int × Nat := (f.1 + g, f.2 + 1)
    let d := { d with age := { d.age with first := put d.age.first n f } }
    if f.2 < 1024 then d
    else
      let d := ((d.wrS agePage (AGE_PA.BASE.at n) (roundDiv f.1 1024)).wr agePage (AGE_PA.BASE_VALID.at n) 1).wr agePage (AGE_PA.BASE_HOURS.at n) 0
      { d with age := { d.age with first := del d.age.first n, avg := put d.age.avg n f.1 } }
  else
    let base := d.rdS agePage (AGE_PA.BASE.at n)
    let a := lookOr (1024 * base) d.age.avg n
    let a := a + (g * 1024 - a) / 1024
    { d.wrS agePage (AGE_PA.DROP.at n) (base - roundDiv a 1024) with age := { d.age with avg := put d.age.avg n a } }

/-- Page 0x003 starts from what firmware restored (R723). -/
def Dev.ageOnStart (d : Dev) : Dev :=
  let af (k : Nat) (f : Fld) : Nat × Int := (k, (d.rd agePage f * 2 ^ 24 : Nat))
  { d with age := { Age.reset with
      af := (List.range 4).map (fun k => af k (AGE_DOM.AF_AVG.at k)) ++ (List.range 24).map fun n => af (4 + n) (AGE_PA.AF_AVG.at n),
      mark := (List.range 24).map fun n => (n, d.rd agePage (AGE_PA.CONSUMED.at n) * 2 ^ 32) } }

end Sys2Proof.Machine
end

