-- ==== Sys2Proof/Machine/Tag.lean ====
section
/-! DEFINITION. The tag lane (R368 to R402): its receiver, Imm-Acks, listen-before-talk, tag clocks and wake trains,
beacons, and its request and event rings. -/

namespace Sys2Proof.Machine

def tagPage : Nat := 0x041

def Dev.setTag (d : Dev) (t : Tag) : Dev := { d with tag := t }

/-- Airtime in ns of `n` octets: the PSDU with FCS for O-QPSK, the payload for GFSK (R369). -/
def tagAir (mod n : Nat) : Nat :=
  match mod with
  | 0 => (6 + n) * 32000
  | 1 => (14 + n) * 8000
  | _ => (15 + n) * 4000

def Dev.fcsLen (d : Dev) : Nat := if d.rdB tagPage TAG_CFG.FCS32 then 4 else 2

/-- Airtime of a request's frame: its data octets are the MHR and payload, or KIND, TAG_ID and payload (R400). -/
def Dev.frameAir (d : Dev) (mod len : Nat) : Nat := if mod = 0 then tagAir 0 (len + d.fcsLen) else tagAir mod (len - 5)

/-- Rounded to an integer, up or down as the spec leaves open. -/
def Dev.roundFree (d : Dev) (num : Int) (den : Nat) : Dev × Int :=
  let v := d.draw 1
  let q := num / (den : Int)
  (v.1, if num % (den : Int) = 0 then q else q + (v.2 : Int))

/-- The lane transmits or waits for an Imm-Ack until then; between, it does not receive. -/
def Dev.tagSending (d : Dev) (t : Nat) : Bool := decide (t < d.tag.txEnd)

/-! ### Events (R399, R401, R402) -/

def Dev.tagRoom (d : Dev) : Bool :=
  decide ((d.rd tagPage TAG_EVT_WR.INDEX + 0x10000 - d.rd tagPage TAG_EVT_RD.INDEX) % 0x10000
    < 2 ^ d.rd tagPage TAG_RING_CFG.EVT_LOG2)

/-- Write one event: words 0 (without SEQ) to 5 and data octets; what the spec gives no value is free. -/
def Dev.tagWrite (d : Dev) (words : List Nat) (octets : List Nat) : Dev :=
  let wr := d.rd tagPage TAG_EVT_WR.INDEX
  let a := d.rd tagPage TAG_EVT_BASE.BASE * 32 + wr % 2 ^ d.rd tagPage TAG_RING_CFG.EVT_LOG2 * 160
  if d.wrOk a 160 = false then d.enterFault tagPage ⟨0x04, 0, a⟩
  else
    let f := d.drawOctets (128 - octets.length)
    let d := f.1.stWords a ((nth 0 words 0 + wr) :: words.drop 1 ++ [0, 0])
    let d := d.stBytes (a + 32) (octets.take 128 ++ f.2)
    (d.bump tagPage TAG_EVT_WR.INDEX).ev tagPage 8

/-- An RX or BCN event: dropped when the ring has no room. -/
def Dev.tagEvent (d : Dev) (words : List Nat) (octets : List Nat) : Dev :=
  if d.tagRoom then d.tagWrite words octets
  else (d.cnt tagPage TAG_CNT_EVT_DROP.COUNT).ev tagPage 9

/-- A waiting TX_DONE event is written when there is room, and TAG_TXQ_RD advances. -/
def Dev.tagFlush (d : Dev) : Dev :=
  match d.tag.event with
  | some w =>
    if d.tagRoom then
      let d := (d.setTag { d.tag with event := none }).tagWrite w []
      d.bump tagPage TAG_TXQ_RD.INDEX
    else d
  | none => d

/-- Go back to the receive channel when nothing is left to send (R368). -/
def Dev.tagReturn (d : Dev) : Dev :=
  let t := d.tag
  let rx := d.rd tagPage TAG_RX_CHAN.CENTRE
  if t.req.isNone && t.beacon.isNone && t.occ.isNone && t.retune.isNone && decide (t.tuned ≠ rx) then
    d.setTag { t with retune := some (rx, max t.txEnd d.ns + 40000), rxChan := none }
  else d

/-- The request in progress completes (R399, R402): its TX_DONE event waits for room. -/
def Dev.tagDone (d : Dev) (status : Nat) : Dev :=
  match d.tag.req with
  | none => d
  | some r =>
    let v := d.draw 64
    let d := v.1
    let time := match r.first with
      | some n => n % 2 ^ 32
      | none => bits v.2 0 32
    let w := [2 * 2 ^ 16 + status * 2 ^ 20, time, r.chan % 2 ^ 12 + r.mod % 4 * 2 ^ 12 + bits v.2 32 8 * 2 ^ 24,
      bits v.2 40 16, nth 0 r.words 3, r.used % 256 + r.bursts % 2 ^ 16 * 2 ^ 16]
    let d := d.setTag { d.tag with req := none, event := some w, ecca := none }
    let d := d.when (decide (status = 1)) (·.cnt tagPage TAG_CNT_NOACK.COUNT)
    let d := d.when (decide (status = 2)) fun e => (e.cnt tagPage TAG_CNT_GIVEUP.COUNT).ev tagPage 12
    d.tagFlush.tagReturn

/-- A beacon event (R393, R394). -/
def Dev.tagBcnEvent (d : Dev) (b status chan : Nat) : Dev :=
  let v := d.draw 64
  let time := beatNs b + 1000 * d.rd tagPage TAG_BCN_WIN.BCN_OFS
  v.1.tagEvent [3 * 2 ^ 16 + status * 2 ^ 20, time % 2 ^ 32,
    chan % 2 ^ 12 + (1 + d.rd tagPage TAG_BCN.BCN_RATE) * 2 ^ 12 + bits v.2 0 8 * 2 ^ 24, bits v.2 8 16, bits v.2 24 32,
    0] []

/-! ### Power and permission (R379, R380) -/

/-- The highest ball power of a frame at a centre, in 0.25 dBm (R380). -/
def Dev.tagLimit (d : Dev) (c : Nat) : Int :=
  let es := d.limitEntries (c - 1) (c + 1)
  let g := d.rdS tagPage TAG_GAIN.GAIN
  let lim := es.foldl (fun (acc : Int) e => match e.psd with
    | none => min acc (e.eirp - g)
    | some p => min (min acc (e.eirp - g)) (p - g + log40Floor 2 1)) 40
  min lim (d.rdS tagPage TAG_TXPWR.TX_PWR)

/-- Why a frame of `dur` ns at `t` may not be sent, as a TX_DONE status. -/
def Dev.tagRefusal (d : Dev) (c t dur : Nat) : Option Nat :=
  if d.radioSilent then some 4
  else if d.fenced then some 3
  else if d.spanMayTx (c - 1) (c + 1) = false ∨ d.tagLimit c < -104 then some 5
  else if (dutyOf (d.limitEntries (c - 1) (c + 1))).all (fun e => decide (d.airtime 4 (t / 1000000) e.1 + dur ≤ e.2)) then none
  else some 6

/-- Send a frame at `t`. -/
def Dev.tagSend (d : Dev) (mod c t dur : Nat) (octets : List Nat) : Dev :=
  let d := (d.addAirtime 4 t dur).emit (.tagSent mod c (d.tagLimit c) t octets)
  (d.setTag { d.tag with txStart := t, txEnd := t + dur }).cnt tagPage TAG_CNT_TX.COUNT

/-! ### The tag table (R385, R386) -/

def Dev.tagAddr (d : Dev) (i : Nat) : Nat := d.rd tagPage TAG_TABLE_BASE.BASE * 32 + 32 * i
def Dev.tagW (d : Dev) (i k : Nat) : Nat := d.ld (d.tagAddr i + 4 * k) 4

/-- The tag is known: its entry is VALID and carries its TAG_ID. -/
def Dev.tagKnown (d : Dev) (id : Nat) : Bool :=
  bit (d.tagW (id % 8192) 1) 13 && decide (d.tagW (id % 8192) 0 = id)

/-- A check-in of a known tag that ended at `t` µs (R386). -/
def Dev.tagCheckin (d : Dev) (i t rssi : Nat) : Dev :=
  let a := d.tagAddr i
  let w1 := d.tagW i 1
  let nObs := bits w1 16 16
  let last : Nat := d.tagW i 4 + bits (d.tagW i 5) 0 16 * 2 ^ 32
  let ci : Nat := d.tagW i 2
  let setLast (e : Dev) : Dev := (e.st (a + 16) 4 (t % 2 ^ 32)).st (a + 20) 2 (bits t 32 16)
  let setObs (e : Dev) (n : Nat) : Dev :=
    (e.st (a + 4) 4 ((w1 - bits w1 14 1 * 2 ^ 14) % 2 ^ 16 + (if 3 ≤ n then 2 ^ 14 else 0) + n * 2 ^ 16))
  let d := d.st (a + 28) 1 rssi
  if nObs = 0 then setObs (setLast d) 1
  else
    let dt : Int := (t : Int) - last
    let n := if ci = 0 then 0 else roundDiv dt ci
    if n < 1 ∨ 4096 < n then setLast d
    else
      let den : Nat := n.toNat * ci
      let num := (dt - (den : Int)) * 1000000000
      let err := toSigned 32 (d.tagW i 6)
      let al : Nat := 2 ^ d.rd tagPage TAG_WAKE.ALPHA
      let r := if nObs = 1 then d.roundFree num den
        else d.roundFree (err * ((al : Int) - 1) * (den : Int) + num) (den * al)
      setObs (setLast (r.1.st (a + 24) 4 (ofSigned 32 r.2))) (min 0xFFFF (nObs + 1))

/-! ### Reception (R371 to R377) -/

/-- The format of a MOD is enabled. -/
def Dev.tagModOn (d : Dev) (mod : Nat) : Bool :=
  match mod with
  | 0 => d.rdB tagPage TAG_CFG.OQPSK_EN
  | 1 => d.rdB tagPage TAG_CFG.G1M_EN
  | _ => d.rdB tagPage TAG_CFG.G2M_EN && decide (mod = 2)

/-- The equaliser's taps at a detection (R375): all 0, as the spec names no value (log entry 361). -/
def Dev.dfeReset (d : Dev) : TagDfe :=
  ⟨List.replicate (d.rd tagPage TAG_DFE.FF_TAPS) Fr.zero, List.replicate (d.rd tagPage TAG_DFE.FB_TAPS) Fr.zero⟩

/-- TAG_FRAME_DETECTED (R374): the lane listens on its channel and receives nothing else. -/
def execTagFrameDetected (mod startNs : Nat) (s : State) : Host.Outcome State Fault Refusal :=
  s.onDev fun d =>
    let t := d.tag
    let waits := match t.req with | some r => decide (r.phase = .ackWait) | none => false
    if d.active tagPage && d.tagModOn mod && t.rx.isNone && t.retune.isNone && t.ack.isNone
        && (t.occ.isNone || waits) && !d.tagSending startNs then
      (d.reach (startNs * nsU)).setTag { t with rx := some (mod, startNs), dfe := d.dfeReset }
    else d

/-! ### The equaliser (R375) and the checks (R370 to R372) -/

def Fr.dot (a b : List Fr) : Fr := Fr.sum (List.zipWith Fr.mul a b)

def signOf (b : Bool) : Fr := if b then Fr.one else Fr.one.neg

/-- One bit: taps and past decisions, newest first, after the bit whose samples are `x`, newest first; `known` in training.
A `y` of 0 has no sign: it takes `tie`. -/
def dfeBit (mu : Nat) (x : List Fr) (known : Option Bool) (tie : Bool) (s : TagDfe × List Bool) : TagDfe × List Bool :=
  let past := s.2.map signOf
  let y := (Fr.dot s.1.ff x).sub (Fr.dot s.1.fb past)
  let dec := known.getD (if y.num = 0 then tie else decide (0 < y.num))
  let g := ((signOf dec).sub y).mul ⟨1, 2 ^ mu⟩
  (⟨List.zipWith (fun f v => f.add (g.mul v)) s.1.ff x,
    (s.1.fb.zipIdx).map fun q => match past[q.2]? with | some v => q.1.sub (g.mul v) | none => q.1⟩, dec :: s.2)

/-- The burst's bits as the equaliser decides them, and its taps after them; `ties` has a bit for each bit of the burst. -/
def dfeRun (mu nf ties : Nat) (known : List Bool) (taps : TagDfe) (samples : List Int) : TagDfe × List Bool :=
  let xs := samples.map fun v => Fr.of v (2 ^ 15)
  let r := (List.range ((samples.length + 2 - nf) / 2)).foldl (fun s n =>
    dfeBit mu ((xs.drop (2 * n)).take nf).reverse known[n]? (bit ties n) s) (taps, [])
  (r.1, r.2.reverse)

def bitsOf (l : List Nat) : List Bool := l.flatMap fun o => (List.range 8).map (bit o)
def octetsOf (l : List Bool) : List Nat :=
  (List.range (l.length / 8)).map fun i => (((l.drop (8 * i)).take 8).zipIdx).foldl (fun a q => a + b2n q.1 * 2 ^ q.2) 0

/-- Preamble and sync word in the order of sending (R369, R370). -/
def Dev.training (d : Dev) (mod : Nat) : List Bool :=
  let sync := d.rd tagPage TAG_SYNC.SYNC
  ((List.range (8 * mod)).map fun i => decide (i % 2 ≠ bits sync 0 1)) ++ (List.range 32).map (bit sync)

def crc24 (l : List Bool) : Nat :=
  l.foldl (fun c b => if bit c 23 = b then c * 2 % 2 ^ 24 else (c * 2 % 2 ^ 24) ^^^ 0x800063) 0xFFFFFF

/-- Header and payload of a burst's bits from its header on, and whether LEN and the CRC are right (R370, R372). -/
def gfskFrame (l : List Bool) : List Nat × Bool :=
  let len := nth 0 (octetsOf (l.take 8)) 0
  let body := l.take (8 * (6 + len))
  let crc := (l.drop (8 * (6 + len))).take 24
  (octetsOf body, decide (len ≤ 64) && decide (crc.length = 24) && decide (crc.foldl (fun a b => 2 * a + b2n b) 0 = crc24 body))

/-- Bit errors of the sync word that a burst was detected by. -/
def Dev.syncErrors (d : Dev) (f : TagFrame) : Nat :=
  ((List.range 32).filter fun i => decide (bit f.sync i ≠ bit (d.rd tagPage TAG_SYNC.SYNC) i)).length

/-- The burst as received: through the equaliser when DFE_EN is 1 (R375). -/
def Dev.gfskReceive (d : Dev) (mod : Nat) (f : TagFrame) : Dev × List Nat × Bool :=
  if d.rdB tagPage TAG_DFE.DFE_EN then
    let v := d.draw 1024
    let r := dfeRun (d.rd tagPage TAG_DFE.MU_SHIFT) (d.rd tagPage TAG_DFE.FF_TAPS) v.2 (d.training mod) d.tag.dfe f.samples
    (v.1.setTag { d.tag with dfe := r.1 }, gfskFrame (r.2.drop (8 * mod + 32)))
  else (d, gfskFrame (bitsOf f.octets))

/-- The 16-bit FCS of IEEE 802.15.4. -/
def fcs16 (l : List Nat) : Nat :=
  (bitsOf l).foldl (fun c b => if bit c 0 = b then c / 2 else (c / 2) ^^^ 0x8408) 0

/-- An O-QPSK frame without its FCS, and whether length and FCS are right (R369, R371). -/
def Dev.psduOf (d : Dev) (o : List Nat) : List Nat × Bool :=
  let n := o.length - d.fcsLen
  let fcs := ofLeBytes (o.drop n)
  (o.take n, decide (5 ≤ o.length) && decide (o.length ≤ 127)
    && decide (fcs = if d.fcsLen = 4 then crc32 (o.take n) else fcs16 (o.take n)))

/-- What an O-QPSK frame's header says (IEEE 802.15.4): type, AR, version, sequence number, destination PAN, destination
address (length in octets, value). -/
structure Mhr where
  typ : Nat
  ar : Bool
  ver : Nat
  seq : Option Nat
  pan : Option Nat
  addrLen : Nat
  addr : Nat

def parseMhr (o : List Nat) : Mhr :=
  let fc := ofLeBytes (o.take 2)
  let ver := bits fc 12 2
  let hasSeq := !(decide (ver = 2) && bit fc 8)
  let i := 2 + b2n hasSeq
  let dm := bits fc 10 2
  let sm := bits fc 14 2
  let comp := bit fc 6
  let hasPan := if ver < 2 then decide (2 ≤ dm)
    else if dm = 0 then decide (sm = 0) && comp
    else if sm = 0 ∨ (dm = 3 ∧ sm = 3) then !comp else true
  let n := if dm = 2 then 2 else if dm = 3 then 8 else 0
  let j := i + (if hasPan then 2 else 0)
  { typ := bits fc 0 3, ar := bit fc 5, ver := ver, seq := if hasSeq then o[2]? else none,
    pan := if hasPan then some (ofLeBytes ((o.drop i).take 2)) else none, addrLen := n,
    addr := ofLeBytes ((o.drop j).take n) }

/-- The frame's destination is the lane's own PAN (or all) and address, broadcast apart. -/
def Dev.tagOwn (d : Dev) (m : Mhr) : Bool :=
  let panOk := match m.pan with
    | some p => decide (p = d.rd tagPage TAG_PAN.PAN_ID) || decide (p = 0xFFFF)
    | none => false
  let ext := d.rd tagPage TAG_EXT_LO.EXT + d.rd tagPage TAG_EXT_HI.EXT * 2 ^ 32
  panOk && ((decide (m.addrLen = 2) && decide (m.addr = d.rd tagPage TAG_PAN.SHORT) && decide (m.addr ≠ 0xFFFF))
    || (decide (m.addrLen = 8) && decide (m.addr = ext)))

/-- The address filter of R371. -/
def Dev.tagForUs (d : Dev) (m : Mhr) : Bool :=
  let panOk := match m.pan with
    | some p => decide (p = d.rd tagPage TAG_PAN.PAN_ID) || decide (p = 0xFFFF)
    | none => false
  d.rdB tagPage TAG_CFG.PROMISC || decide (m.typ = 0) || d.tagOwn m
    || (panOk && decide (m.addrLen = 2) && decide (m.addr = 0xFFFF))

/-- The Imm-Ack the request in progress waits for, ended in its wait (R378). -/
def Dev.tagAwaited (d : Dev) (m : Mhr) (endNs : Nat) : Bool :=
  match d.tag.req with
  | some r => decide (r.phase = .ackWait) && decide (endNs ≤ d.tag.txEnd + 864000) && decide (m.typ = 2) && decide (m.seq = r.octets[2]?)
  | none => false

/-- An RX event with the octets `o` (R402). -/
def Dev.tagRxEvent (d : Dev) (event mod startNs cookie : Nat) (f : TagFrame) (o : List Nat) : Dev :=
  d.tagEvent [event * 2 ^ 16, startNs % 2 ^ 32,
    d.tag.tuned % 2 ^ 12 + mod % 4 * 2 ^ 12 + o.length % 256 * 2 ^ 16 + f.rssi % 256 * 2 ^ 24,
    f.snr % 256 + f.cfo % 256 * 2 ^ 8, cookie, 0] o

/-- A TAG_RX_CHAN value that waited takes effect (R397). -/
def Dev.tagApplyRx (d : Dev) : Dev :=
  match d.tag.rxChan with
  | some c =>
    if d.tag.rx.isNone && d.tag.occ.isNone && d.tag.retune.isNone && d.tag.ack.isNone then
      if d.tag.req.isNone && d.tag.beacon.isNone then
        d.setTag { d.tag with rxChan := none, retune := some (c, max d.tag.txEnd d.ns + 40000) }
      else d.setTag { d.tag with rxChan := none }
    else d
  | none => d

/-- The frame in progress ends. -/
def Dev.tagFrameEnd (d : Dev) (mod startNs : Nat) (f : TagFrame) : Dev :=
  -- a CCA starts or resumes when the reception ends (R392, R397)
  let d := (d.reach (f.endNs * nsU)).setTag { d.tag with rx := none, slotEnd := max d.tag.slotEnd f.endNs }
  let bad := d.cnt tagPage TAG_CNT_FCS_BAD.COUNT
  if mod = 0 then
    let o := d.psduOf f.octets
    let m := parseMhr o.1
    if o.2 = false then bad
    else if d.tagAwaited m f.endNs then
      match d.tag.req with
      | some r => d.setTag { d.tag with req := some { r with phase := .sent } }
      | none => d
    else if d.tagForUs m = false then bad
    else
      let v := d.draw 32
      let d := (v.1.cnt tagPage TAG_CNT_RX154.COUNT).tagRxEvent 0 mod startNs v.2 f o.1
      if d.rdB tagPage TAG_CFG.AUTO_ACK && (decide (m.typ = 1) || decide (m.typ = 3)) && m.ar && decide (m.ver < 2)
          && d.tagOwn m then
        d.setTag { d.tag with ack := some (m.seq.getD 0, f.endNs + 192000) }
      else d
  else
    let g := d.gfskReceive mod f
    let d := g.1
    let o := g.2.1
    if g.2.2 = false ∨ d.rd tagPage TAG_CFG.SYNC_ERR < d.syncErrors f then d.cnt tagPage TAG_CNT_FCS_BAD.COUNT
    else
      let id := ofLeBytes ((o.drop 2).take 4)
      if d.rdOk (d.tagAddr (id % 8192)) 32 = false then d.enterFault tagPage ⟨0x04, 0, d.tagAddr (id % 8192)⟩
      else
        let known := d.tagKnown id
        let checkin := known && decide (nth 0 o 1 = 1)
        if checkin && !d.wrOk (d.tagAddr (id % 8192)) 32 then d.enterFault tagPage ⟨0x04, 0, d.tagAddr (id % 8192)⟩
        else
          let d := d.when checkin (·.tagCheckin (id % 8192) (f.endNs / 1000) f.rssi)
          (d.cnt tagPage TAG_CNT_RXGFSK.COUNT).tagRxEvent 1 mod startNs (id % 8192 + b2n known * 2 ^ 13) f o

/-- TAG_FRAME_END (R371 to R377, R386). -/
def execTagFrameEnd (frame : TagFrame) (s : State) : Host.Outcome State Fault Refusal :=
  s.onDev fun d =>
    match d.tag.rx with
    | some r => (d.tagFrameEnd r.1 r.2 frame).tagApplyRx
    | none => d

/-- TAG_IMM_ACK_SEND (R377, R384). -/
def execTagImmAckSend (s : State) : Host.Outcome State Fault Refusal :=
  s.onDev fun d =>
    match d.tag.ack with
    | some (seq, due) =>
      let d := (d.reach (due * nsU)).setTag { d.tag with ack := none }
      let dur := tagAir 0 (3 + d.fcsLen)
      match d.tagRefusal d.tag.tuned due dur with
      | some _ => d.tagApplyRx
      | none => ((d.tagSend 0 d.tag.tuned due dur [2, 0, seq]).cnt tagPage TAG_CNT_ACK.COUNT).tagApplyRx
    | none => d

/-! ### Requests (R387, R399, R400) -/

/-- The planned train of tag entry `i` for its first window at or after `ready` ns, or its window `k` (R387). -/
def Dev.tagPlan (d : Dev) (i ready : Nat) (k : Option Nat) (r : TagReq) : TagReq :=
  let w1 := d.tagW i 1
  let learned := bit w1 14
  let ci := d.tagW i 2
  let listen := bits (d.tagW i 3) 0 16
  let last := (d.tagW i 4 + bits (d.tagW i 5) 0 16 * 2 ^ 32) * 1000
  let err : Int := if learned then toSigned 32 (d.tagW i 6) else 0
  -- p in 10^-6 ns
  let p := (ci * (1000000000 + err)).toNat
  let k := k.getD (if p = 0 then 0 else ceilDiv ((ready - last) * 1000000) p)
  let kp := k * p / 1000000
  let tc := last + kp
  let u := if learned then 1000 * (ceilDiv (kp * d.rd tagPage TAG_WAKE.ERR_TOL) (1000 * 1000000000) + d.rd tagPage TAG_WAKE.JITTER)
    else 1000 * ci
  { r with k := k, start := tc - u, fin := tc + 1000 * listen + u, next := tc - u }

def wakeAir (mod : Nat) : Nat := tagAir mod 2
def Dev.burstPer (d : Dev) (mod : Nat) : Nat := wakeAir mod + 1000 * d.rd tagPage TAG_WAKE2.BURST_GAP

/-- TAG_TX_REQUEST (R379, R380, R399, R400). -/
def Dev.tagTake (d : Dev) : Dev :=
  let t := d.tag
  let rdI := d.rd tagPage TAG_TXQ_RD.INDEX
  if d.inService tagPage = false ∨ t.req.isSome ∨ t.event.isSome ∨ rdI = d.rd tagPage TAG_TXQ_WR.INDEX then d
  else
    let a := d.rd tagPage TAG_TXQ_BASE.BASE * 32 + rdI % 2 ^ d.rd tagPage TAG_RING_CFG.TXQ_LOG2 * 160
    if d.rdOk a 160 = false then d.enterFault tagPage ⟨0x04, 0, a⟩
    else
      let w := toWords (d.ldBytes a 32) 8
      let w0 := nth 0 w 0
      let kind := bits w0 0 2
      let idx := bits (nth 0 w 1) 0 13
      let len := bits (nth 0 w 1) 16 8
      let octets := d.ldBytes (a + 32) (min len 128)
      if kind = 2 ∧ d.rdOk (d.tagAddr idx) 32 = false then d.enterFault tagPage ⟨0x04, 0, d.tagAddr idx⟩
      else
        let chan := if kind = 2 then bits (d.tagW idx 1) 0 12 else bits w0 8 12
        let rate := if kind = 2 then bits (d.tagW idx 1) 12 1 else bits w0 2 1
        let mod := if kind = 0 then 0 else 1 + rate
        let rt := bits w0 4 4
        let retry := if rt ≠ 0 then rt else if kind = 2 then d.rd tagPage TAG_WAKE.RETRY else 1
        let us := d.ns / 1000
        let ahead := (nth 0 w 2 + 2 ^ 32 - us % 2 ^ 32) % 2 ^ 32
        let atNs := if bit w0 3 && decide (ahead ≠ 0) && decide (ahead < 2 ^ 31) then 1000 * (us + ahead) else 0
        let r : TagReq :=
          { words := w, octets := octets, kind := kind, chan := chan, mod := mod, retry := retry, used := 0,
            phase := if kind < 2 ∧ d.ns < atNs then .waitAt else .cca, atNs := atNs, from_ := max d.ns atNs, k := 0,
            start := 0, fin := 0, next := 0, bursts := 0, first := none }
        let r := if kind = 2 then d.tagPlan idx (max (d.ns + 60000) atNs) none r else r
        let badLen := if kind = 0 then decide (127 < len + d.fcsLen) || decide (len + d.fcsLen < 5)
          else decide (len < 5) || decide (69 < len)
        let known := bit (d.tagW idx 1) 13 && decide (d.tagW idx 0 % 8192 = idx)
        let d := d.setTag { t with req := some r, ecca := none }
        if kind = 3 ∨ badLen ∨ chan < 2402 ∨ 2480 < chan ∨ (kind = 2 ∧ known = false) then d.tagDone 7
        else match d.tagRefusal chan d.ns (d.frameAir mod len) with
          | some st => d.tagDone st
          | none => d

def execTagTxRequest (s : State) : Host.Outcome State Fault Refusal := s.onDev fun d => d.tagFlush.tagTake

/-- TAG_AT_REACHED (R400). -/
def execTagAtReached (s : State) : Host.Outcome State Fault Refusal :=
  s.onDev fun d =>
    match d.tag.req with
    | some r =>
      if r.phase = .waitAt then
        (d.reach (r.atNs * nsU)).setTag { d.tag with req := some { r with phase := .cca, from_ := r.atNs } }
      else d
    | none => d

/-! ### Listen-before-talk (R381 to R383, R389, R390) -/

/-- Opening and end in ns of the window of the beacon slot in beat `b` (R391). -/
def Dev.bcnOpen (d : Dev) (b : Nat) : Nat := beatNs b + 1000 * d.rd tagPage TAG_BCN_WIN.BCN_OFS
def Dev.bcnEnd (d : Dev) (b : Nat) : Nat := d.bcnOpen b + 1000 * d.rd tagPage TAG_BCN_WIN.BCN_WIN

/-- A beat is a beacon slot. -/
def Dev.bcnSlot (d : Dev) (b : Nat) : Bool :=
  let n := d.rd tagPage TAG_BCN.BCN_BEATS
  decide (n ≠ 0) && decide (b % n = d.rd tagPage TAG_BCN.BCN_PHASE)

/-- The slot whose window opens in the present beat, BCN_OFS after its own boundary. -/
def Dev.bcnDue (d : Dev) : Option Nat :=
  let k := d.rd tagPage TAG_BCN_WIN.BCN_OFS / 250
  if k ≤ d.beat && d.bcnSlot (d.beat - k) then some (d.beat - k) else none

/-- Beacon slots are sent and counted only in Run and not in Listen (R395). -/
def Dev.bcnLive (d : Dev) : Bool := !d.radioSilent && decide (d.rd 0x001 PWR_STATE.STATE = 0)

/-- The beacon slot in progress is over: a request it suspended goes on with the slots it still needed. -/
def Dev.bcnOver (d : Dev) : Dev := d.setTag { d.tag with beacon := none, ecca := d.tag.eccaHeld, eccaHeld := none }

/-- The opening of the first beacon window after `t` ns, if beacons are sent. -/
def Dev.bcnNext (d : Dev) (t : Nat) : Option Nat :=
  let n := d.rd tagPage TAG_BCN.BCN_BEATS
  if n = 0 then none
  else
    let ph := d.rd tagPage TAG_BCN.BCN_PHASE
    let b0 := (t / 250000 - d.rd tagPage TAG_BCN_WIN.BCN_OFS / 250) / n * n + ph
    (([b0, b0 + n, b0 + 2 * n, b0 + 3 * n].map d.bcnOpen).filter fun o => decide (t < o)).head?

/-- What begins at `t` ends inside the occupancy begun at `o` and before the first beacon window after its start (R390). -/
def Dev.tagFits (d : Dev) (o t dur : Nat) : Bool :=
  decide (t + dur ≤ o + 1000000 * d.rd tagPage TAG_LBT.COT_MAX)
    && (match d.bcnNext o with | some b => decide (t + dur ≤ b) | none => true)

/-- Octets of the beacon of a slot (R396). -/
def Dev.bcnOctets (d : Dev) (b : Nat) : List Nat :=
  [8, 3, 0xFF, 0xFF, 0xFF, 0xFF] ++ leBytes 4 b
    ++ [(d.rd tagPage TAG_BCN_CHAN.PRI + 256 - 2400 % 256) % 256, (d.rd tagPage TAG_BCN_CHAN.ALT + 256 - 2400 % 256) % 256]
    ++ leBytes 2 (d.rd tagPage TAG_BCN.BCN_BEATS)

/-- The occupancy of the request in progress begins at `t` on a clear channel. -/
def Dev.tagBegin (d : Dev) (r : TagReq) (t : Nat) : Dev :=
  let dur := d.frameAir r.mod r.octets.length
  match d.tagRefusal r.chan t dur with
  | some st => d.tagDone st
  | none =>
    if r.kind = 2 then
      d.setTag { d.tag with occ := some (t, false), req := some { r with phase := .train, next := max r.next t } }
    else
      let m := parseMhr r.octets
      let octets := if r.kind = 0 then r.octets else (r.octets.length - 5) :: r.octets
      let d := d.tagSend r.mod r.chan t dur octets
      let r := { r with used := r.used + 1, first := some (r.first.getD t),
                        phase := if r.kind = 0 ∧ m.ar then .ackWait else .sent }
      d.setTag { d.tag with occ := some (t, false), req := some r }

/-- The beacon of slot `b` is sent at `t` (R393, R396). -/
def Dev.tagBeaconBegin (d : Dev) (b t : Nat) : Dev :=
  let c := d.rd tagPage TAG_BCN_CHAN.PRI
  let mod := 1 + d.rd tagPage TAG_BCN.BCN_RATE
  let dur := tagAir mod 8
  match d.tagRefusal c t dur with
  | some _ => d.bcnOver.tagReturn
  | none =>
    let d := d.tagSend mod c t dur (d.bcnOctets b)
    let d := (d.setTag { d.tag with occ := some (t, true) }).cnt tagPage TAG_CNT_BCN.COUNT
    d.wr tagPage TAG_BCN_STAT.LOST_RUN 0

/-- Judge one slot (R381, R382): busy, clear but not yet the last, or clear for the occupancy. -/
def Dev.tagJudge (d : Dev) (energy : Int) : Dev × Bool :=
  let t := d.tag
  if d.rdS tagPage TAG_LBT.TL ≤ energy ∨ t.rx.isSome ∨ t.ack.isSome then
    let d := d.cnt tagPage TAG_CNT_LBT_BUSY.COUNT
    match t.ecca with
    | some _ => (d, false)
    | none =>
      let v := d.draw 32
      (v.1.setTag { t with ecca := some (1 + v.2 % d.rd tagPage TAG_LBT.ECCA_MAX) }, false)
  else match t.ecca with
    | none => (d, true)
    | some n => if n ≤ 1 then (d.setTag { t with ecca := none }, true) else (d.setTag { t with ecca := some (n - 1) }, false)

/-- TAG_CCA_SLOT (R381, R382, R392): a slot that ended at `endNs`, for the beacon when a window is open, else for the
request. A centre other than the present one takes 40 µs before the slot begins (R368). -/
def Dev.tagCcaSlot (d : Dev) (endNs : Nat) (energy : Int) : Dev :=
  let t := d.tag
  let begin := endNs - 1000 * d.rd tagPage TAG_LBT.CCA_SLOT
  if d.active tagPage = false ∨ t.retune.isSome ∨ t.occ.isSome ∨ begin < t.slotEnd then d
  else match t.beacon with
    | some b =>
      let c := d.rd tagPage TAG_BCN_CHAN.PRI
      let open' := max (d.bcnOpen b) t.txEnd + (if t.tuned = c then 0 else 40000)
      -- a reception in progress as the window opens is heard out before the CCA starts (R392)
      if begin < open' ∨ d.bcnEnd b < endNs ∨ (t.rx.isSome ∧ t.slotEnd < d.bcnOpen b) then d
      else
        let d := d.reach (endNs * nsU)
        let d := d.setTag { d.tag with slotEnd := endNs, tuned := if t.rx.isSome then t.tuned else c }
        let j := d.tagJudge energy
        if d.bcnLive = false then d.bcnOver.tagReturn else if j.2 then j.1.tagBeaconBegin b endNs else j.1
    | none =>
      match t.req with
      | some r =>
        let from' := max (max r.from_ t.txEnd) (max t.quiet 0) + (if t.tuned = r.chan then 0 else 40000)
        if r.phase ≠ .cca ∨ begin < from' ∨ (r.kind = 2 ∧ endNs < r.start) then d
        else
          let d := d.reach (endNs * nsU)
          let d := d.setTag { d.tag with slotEnd := endNs, tuned := if t.rx.isSome then t.tuned else r.chan }
          let j := d.tagJudge energy
          if j.2 then j.1.tagBegin r endNs else j.1
      | none => d

def execTagCcaSlot (endNs : Nat) (energy : Int) (s : State) : Host.Outcome State Fault Refusal :=
  s.onDev (·.tagCcaSlot endNs energy)

/-- Bursts of a train beside the one at `t`, from `t` on. -/
def Dev.burstsAfter (d : Dev) (r : TagReq) (t : Nat) : Nat := if r.fin < t then 0 else (r.fin - t) / d.burstPer r.mod

/-- COUNTDOWN of the burst at `t` (R387), where the rest of the train stays in this occupancy; free otherwise. -/
def Dev.countdown (d : Dev) (r : TagReq) (o t : Nat) : Dev × Nat :=
  let data := t + d.burstsAfter r t * d.burstPer r.mod + wakeAir r.mod + 1000 * d.rd tagPage TAG_WAKE2.DATA_GAP
  let c := (data - (t + wakeAir r.mod)) / 1000
  if d.tagFits o data (d.frameAir r.mod r.octets.length) && decide (c < 2 ^ 16) then (d, c) else d.draw 16

/-- TAG_WAKE_BURST (R387, R390). -/
def execTagWakeBurst (s : State) : Host.Outcome State Fault Refusal :=
  s.onDev fun d =>
    match d.tag.req, d.tag.occ with
    | some r, some (o, false) =>
      if r.phase = .train ∧ r.next ≤ r.fin ∧ d.tagFits o r.next (wakeAir r.mod) then
        match d.tagRefusal r.chan r.next (wakeAir r.mod) with
        | some st => ({ d with tag := { d.tag with occ := none } }).tagDone st
        | none =>
          let c := d.countdown r o r.next
          let d := c.1.reach (r.next * nsU)
          let d := d.tagSend r.mod r.chan r.next (wakeAir r.mod)
            ([2, 2] ++ leBytes 4 (d.tagW (bits (nth 0 r.words 1) 0 13) 0) ++ leBytes 2 c.2)
          d.setTag { d.tag with req := some { r with bursts := r.bursts + 1, first := some (r.first.getD r.next),
                                                     next := r.next + d.burstPer r.mod } }
      else d
    | _, _ => d

/-- When the DATA frame of a train may start: DATA_GAP after its last burst, or at once in a segment of its own. -/
def Dev.dataStart (d : Dev) (o : Nat) : Nat :=
  if d.tag.txEnd < o then o else d.tag.txEnd + 1000 * d.rd tagPage TAG_WAKE2.DATA_GAP

/-- TAG_TRAIN_DATA_FRAME (R387). -/
def execTagTrainDataFrame (s : State) : Host.Outcome State Fault Refusal :=
  s.onDev fun d =>
    match d.tag.req, d.tag.occ with
    | some r, some (o, false) =>
      let t := d.dataStart o
      let dur := d.frameAir r.mod r.octets.length
      if r.phase = .train ∧ r.fin < r.next ∧ d.tagFits o t dur then
        match d.tagRefusal r.chan t dur with
        | some st => ({ d with tag := { d.tag with occ := none } }).tagDone st
        | none =>
          let d := (d.reach (t * nsU)).tagSend r.mod r.chan t dur ((r.octets.length - 5) :: r.octets)
          let r := { r with phase := .data, first := some (r.first.getD t) }
          (d.setTag { d.tag with req := some r }).cnt tagPage TAG_CNT_TRAINS.COUNT
      else d
    | _, _ => d

/-- TAG_TRAIN_MOVE (R389): the train goes to the tag's next window, or gives up after RETRY moves. -/
def execTagTrainMove (s : State) : Host.Outcome State Fault Refusal :=
  s.onDev fun d =>
    match d.tag.req with
    | some r =>
      if r.phase = .cca ∧ r.kind = 2 ∧ r.bursts = 0 then
        let i := bits (nth 0 r.words 1) 0 13
        let lim := r.start + 1000 * bits (d.tagW i 3) 0 16 - d.burstPer r.mod - wakeAir r.mod
        let d := d.reach (lim * nsU)
        if r.retry ≤ r.used then d.tagDone 2
        else
          let r := d.tagPlan i 0 (some (r.k + 1)) { r with used := r.used + 1 }
          d.setTag { d.tag with req := some r, ecca := none }
      else d
    | none => d

/-! ### Ends (R378, R383, R397) -/

/-- An occupancy that began at `o` ends at `t`: the idle time of R383. -/
def Dev.tagQuiet (d : Dev) (o t : Nat) : Dev :=
  d.setTag { d.tag with occ := none, quiet := t + 1000 * max (ceilDiv (ceilDiv (t - o) 1000) 20) 100 }

/-- TAG_OCCUPANCY_END (R383, R393, R397, R399, R401). -/
def Dev.tagOccupancyEnd (d : Dev) : Dev :=
  match d.tag.occ with
  | none => d
  | some (o, true) =>
    let d := (d.reach (d.tag.txEnd * nsU)).tagQuiet o d.tag.txEnd
    match d.tag.beacon with
    | some b => ((d.bcnOver.tagBcnEvent b 0 (d.rd tagPage TAG_BCN_CHAN.PRI)).tagReturn).tagApplyRx
    | none => d
  | some (o, false) =>
    match d.tag.req with
    | none => d.tagQuiet o d.tag.txEnd
    | some (r : TagReq) =>
      let dur := d.frameAir r.mod r.octets.length
      let full := decide (r.phase = .train) && (if r.next ≤ r.fin then !d.tagFits o r.next (wakeAir r.mod)
        else !d.tagFits o (d.dataStart o) dur)
      if r.phase = .sent ∨ r.phase = .data then
        (((d.reach (d.tag.txEnd * nsU)).tagQuiet o d.tag.txEnd).tagDone 0).tagApplyRx
      else if full then
        let d := (d.reach (d.tag.txEnd * nsU)).tagQuiet o d.tag.txEnd
        if d.bstate tagPage = .draining then d.tagDone 8
        else (d.setTag { d.tag with req := some { r with phase := .cca }, ecca := none }).tagApplyRx
      else d

def execTagOccupancyEnd (s : State) : Host.Outcome State Fault Refusal := s.onDev (·.tagOccupancyEnd)

/-- TAG_ACK_TIMEOUT (R378). -/
def execTagAckTimeout (s : State) : Host.Outcome State Fault Refusal :=
  s.onDev fun d =>
    match d.tag.req, d.tag.occ with
    | some r, some (o, false) =>
      if r.phase = .ackWait then
        let t := d.tag.txEnd + 864000
        let d := (d.reach (t * nsU)).tagQuiet o t
        let d := d.setTag { d.tag with slotEnd := max d.tag.slotEnd t }
        if r.retry ≤ r.used then d.tagDone 1
        else if d.bstate tagPage = .draining then d.tagDone 8
        else d.setTag { d.tag with req := some { r with phase := .cca }, ecca := none }
      else d
    | _, _ => d

/-- TAG_IDLE_PERIOD_END (R383, R390). -/
def execTagIdlePeriodEnd (s : State) : Host.Outcome State Fault Refusal :=
  s.onDev fun d =>
    if d.tag.occ.isNone ∧ d.tag.quiet ≠ 0 then (d.reach (d.tag.quiet * nsU)).setTag { d.tag with quiet := 0 } else d

/-! ### Beacons (R391 to R396) -/

/-- TAG_BEACON_SLOT (R391, R392, R395): a slot's window opens in the present beat. -/
def execTagBeaconSlot (s : State) : Host.Outcome State Fault Refusal :=
  s.onDev fun d =>
    match d.bcnDue with
    | some b =>
      if d.inService tagPage && d.bcnLive && decide (d.tag.lastSlot ≠ some b) && d.tag.beacon.isNone then
        (d.reach (d.bcnOpen b * nsU)).setTag
          { d.tag with beacon := some b, lastSlot := some b, ecca := none, eccaHeld := d.tag.ecca }
      else d
    | none => d

/-- TAG_BEACON_LOST (R393, R394). -/
def execTagBeaconLost (s : State) : Host.Outcome State Fault Refusal :=
  s.onDev fun d =>
    match d.tag.beacon, d.tag.occ with
    | some _, some (_, true) => d
    | some b, occ =>
      let fin := d.bcnEnd b
      let pri := d.rd tagPage TAG_BCN_CHAN.PRI
      let alt := d.rd tagPage TAG_BCN_CHAN.ALT
      let own := match occ with
        | some (o, _) => decide (o ≤ d.bcnOpen b) && decide (fin ≤ d.tag.txEnd)
        | none => false
      let live := d.bcnLive
      let d := (d.reach (fin * nsU)).bcnOver
      if live = false then d.tagReturn
      else if own then (d.tagBcnEvent b 2 pri).tagReturn
      else
        let run := d.rd tagPage TAG_BCN_STAT.LOST_RUN + 1
        let d := (d.cnt tagPage TAG_CNT_BCN_LOST.COUNT).ev tagPage 10
        let d := (d.wr tagPage TAG_BCN_STAT.LOST_RUN run).tagBcnEvent b 1 pri
        let d := if run = 3 then
            let d := (d.wr tagPage TAG_BCN_CHAN.PRI alt).wr tagPage TAG_BCN_CHAN.ALT pri
            let d := (d.wr tagPage TAG_BCN_STAT.LOST_RUN 0).cnt tagPage TAG_BCN_STAT.MOVES
            (d.ev tagPage 11).tagBcnEvent b 3 pri
          else d
        d.tagReturn
    | none, _ => d

/-! ### The receive channel (R368, R397) -/

/-- TAG_RX_CHAN_WRITE. -/
def Dev.tagRxChan (d : Dev) (c : Nat) : Dev :=
  if c < 2402 ∨ 2480 < c then d
  else
    let d := d.wr tagPage TAG_RX_CHAN.CENTRE c
    if d.active tagPage = false then d.setTag { d.tag with tuned := c }
    else (d.setTag { d.tag with rxChan := some c }).tagApplyRx

def execTagRxChanWrite (centre : Nat) (s : State) : Host.Outcome State Fault Refusal :=
  s.onDev fun d => d.regDo tagPage fun e => (e.tagRxChan (centre % 4096)).complete .okay

/-- TAG_RETUNE_DONE (R368). -/
def execTagRetuneDone (s : State) : Host.Outcome State Fault Refusal :=
  s.onDev fun d =>
    match d.tag.retune with
    | some (c, t) => ((d.reach (t * nsU)).setTag { d.tag with tuned := c, retune := none }).tagApplyRx
    | none => d

/-! ### Page hooks -/

/-- First failed check of the page's Start, as a fault code. -/
def Dev.tagStartCheck (d : Dev) : Option Nat :=
  let g (f : Fld) := d.rd tagPage f
  let out (v lo hi : Nat) := decide (v < lo) || decide (hi < v)
  if decide (g TAG_LBT.CCA_SLOT < 18) || out (g TAG_LBT.ECCA_MAX) 1 32 || out (g TAG_LBT.COT_MAX) 1 10
      || (decide (g TAG_BCN.BCN_BEATS ≠ 0) && decide (g TAG_BCN.BCN_BEATS ≤ g TAG_BCN.BCN_PHASE))
      || out (g TAG_DFE.FF_TAPS) 2 12 || out (g TAG_DFE.FB_TAPS) 0 8 || out (g TAG_DFE.MU_SHIFT) 2 12
      || out (g TAG_RING_CFG.EVT_LOG2) 4 12 || out (g TAG_RING_CFG.TXQ_LOG2) 4 12 then some 0x03
  else if d.rdB tagPage TAG_CFG.ANTSW_EN && !d.claimable 0 (g TAG_CFG.ANTSW_BALL) (ownerCode tagPage) 20 then some 0x07
  else none

/-- Start: the antenna-switch ball is claimed, the event indices are 0, the lane tunes to its receive channel. -/
def Dev.tagOnStart (d : Dev) : Dev :=
  let d := d.when (d.rdB tagPage TAG_CFG.ANTSW_EN) (·.claim 0 (d.rd tagPage TAG_CFG.ANTSW_BALL) (ownerCode tagPage) 20)
  let d := (d.wr tagPage TAG_EVT_WR.INDEX 0).wr tagPage TAG_EVT_RD.INDEX 0
  d.setTag { Tag.reset with tuned := d.rd tagPage TAG_RX_CHAN.CENTRE }

/-- Drain (R397): a request that has no occupancy ends at once. -/
def Dev.tagOnDrain (d : Dev) : Dev :=
  match d.tag.req with
  | some (r : TagReq) => if d.tag.occ.isNone ∧ r.phase ≠ .sent then d.tagDone 8 else d
  | none => d

/-- The page holds nothing that its Drain must wait for. -/
def Dev.tagIdle (d : Dev) : Bool :=
  d.tag.req.isNone && d.tag.event.isNone && d.tag.occ.isNone && d.tag.rx.isNone && d.tag.ack.isNone

/-- Stop, Abort or fault (R397): the request goes without an event. -/
def Dev.tagOnLeave (d : Dev) : Dev := d.setTag { Tag.reset with tuned := d.tag.tuned }

/-- What is on the air ends now; its airtime counts only up to here (R380). -/
def Dev.tagAirCut (d : Dev) : Dev :=
  if d.ns < d.tag.txEnd then
    let ms := d.tag.txStart / 1000000
    let bins := lookOr [] d.pool.bins 4
    let d := { d with pool := { d.pool with bins := put d.pool.bins 4 (put bins ms (lookOr 0 bins ms - (d.tag.txEnd - d.ns))) } }
    d.setTag { d.tag with txEnd := d.ns }
  else d

/-- The fence line is asserted, or the mode becomes Listen, during a frame or train (R379, R397). -/
def Dev.tagCut (d : Dev) (status : Nat) : Dev :=
  let air := decide (d.ns < d.tag.txEnd)
  let train := match d.tag.req with | some (r : TagReq) => decide (r.phase = .train) | none => false
  match d.tag.occ with
  | none => d.tagAirCut
  | some (o, true) => if air then ((d.tagAirCut.tagQuiet o d.ns).bcnOver).tagReturn else d
  | some (o, false) => if air || train then ((d.tagAirCut.tagQuiet o d.ns).tagDone status) else d

end Sys2Proof.Machine
end

