-- ==== Sys2Proof/Machine/Power.lean ====
section
/-! DEFINITION. Performance levels (R659 to R665), sleep requests and wakes (R667 to R675), the PoE budget, sensing and the
allowance (R676 to R686), service modes (R687 to R690), calibration records (R691). -/

namespace Sys2Proof.Machine

def pwrPage : Nat := 0x001

/-! ### Performance levels -/

/-- Pages of the chain pool, the receive and transmit paths, the WLAN MAC and the tag lane (R661, R667). -/
def bbPages : List Nat :=
  [0x010, 0x011, 0x012, 0x013, 0x014, 0x015, 0x016, 0x017, 0x020, 0x021, 0x022, 0x023, 0x028, 0x029, 0x02A, 0x030, 0x031, 0x032,
    0x033, 0x041]

def Dev.allStopped (d : Dev) (l : List Nat) : Bool := l.all fun p => decide (d.bstate p = .stopped)

/-- The level a domain is to run at (R660, R661). -/
def Dev.levelWanted (d : Dev) (dom : Nat) : Nat :=
  let req := d.rd pwrPage (PWR_PL_REQ.LEVEL dom)
  let cap := if dom < 3 then d.rd pwrPage (PWR_PL_CAP.LEVEL dom) else 0
  if dom = 3 ∧ d.allStopped bbPages = false then 0 else max (max req cap) (nth 0 d.gov.imposed dom)

/-- A change ends well (R663). -/
def Dev.levelDone (d : Dev) (dom target : Nat) : Dev :=
  let d := ((d.wr pwrPage (PWR_PL_STAT.LEVEL dom) target).wr pwrPage (PWR_PL_STAT.BUSY.bitOf dom) 0).wr pwrPage (PWR_PL_STAT.ERR.bitOf dom) 0
  { d.ev pwrPage 13 with gov := { d.gov with change := del d.gov.change dom } }

/-- LINEAR16 word of a rail's voltage in mV (R665). -/
def Dev.voutWord (d : Dev) (dom : Nat) (mv : Int) : Nat :=
  let e := d.rdS pwrPage (PWR_RAIL.EXP.at dom)
  if e ≤ 0 then (roundDiv (mv * 2 ^ (-e).toNat) 1000).toNat else (roundDiv mv (1000 * 2 ^ e.toNat)).toNat

/-- A change begins (R663): upward the voltage leads, downward the clock. -/
def Dev.levelBegin (d : Dev) (dom target : Nat) : Dev :=
  let old := d.rd pwrPage (PWR_PL_STAT.LEVEL dom)
  let d := d.wr pwrPage (PWR_PL_STAT.BUSY.bitOf dom) 1
  if d.rdB pwrPage (PWR_RAIL.EN.at dom) = false then d.levelDone dom target
  else
    let d := { d with gov := { d.gov with change := put d.gov.change dom { target := target, old := old, acked := false } } }
    let d := d.when (decide (old < target)) (·.wr pwrPage (PWR_PL_STAT.LEVEL dom) target)
    d.emit (.vout dom (d.voutWord dom ((vnom target : Int) + d.rdS pwrPage (PWR_AVS_TRIM.TRIM dom))))

/-- A change of the domain needs the PMBus master, and the governor has lost it (R69, R665). -/
def Dev.busLost (d : Dev) (dom : Nat) : Bool :=
  d.rdB pwrPage (PWR_RAIL.EN.at dom) && decide (d.owner 3 0 ≠ ownerCode pwrPage)

/-- Follow the wanted level of a domain: at once, for the Koveton cluster at the next boundary (R663); a change that runs
completes first (R692). -/
def Dev.levelUpdate (d : Dev) (dom : Nat) : Dev :=
  let t := d.levelWanted dom
  if d.inService pwrPage = false ∨ (look d.gov.change dom).isSome ∨ t = d.rd pwrPage (PWR_PL_STAT.LEVEL dom) ∨ 2 ≤ d.pstate
    ∨ d.busLost dom then d
  else if dom = 1 then { d.wr pwrPage (PWR_PL_STAT.BUSY.bitOf 1) 1 with gov := { d.gov with kovWait := true } }
  else d.levelBegin dom t

def Dev.levelsUpdate (d : Dev) : Dev := d.each 4 fun k e => e.levelUpdate k

/-- The boundary at which a change of the Koveton cluster begins. -/
def Dev.kovLevel (d : Dev) : Dev :=
  if d.gov.kovWait = false then d
  else
    let d : Dev := { d.wr pwrPage (PWR_PL_STAT.BUSY.bitOf 1) 0 with gov := { d.gov with kovWait := false } }
    let t := d.levelWanted 1
    if d.inService pwrPage = false ∨ t = d.rd pwrPage (PWR_PL_STAT.LEVEL 1) ∨ d.busLost 1 ∨ (look d.gov.change 1).isSome then d
    else d.levelBegin 1 t

/-- An emergency voltage command takes a domain to PL7 at the next transaction boundary (R73, R686): past the settling of a change
whose transaction has ended, before any beat boundary, and whoever owns the master. -/
def Dev.emergencyLevel (d : Dev) (dom : Nat) : Dev :=
  match look d.gov.change dom with
  | some c =>
    if c.acked ∧ c.target ≠ 7 then ({ d with gov := { d.gov with change := del d.gov.change dom } } : Dev).levelBegin dom 7 else d
  | none => if d.rd pwrPage (PWR_PL_STAT.LEVEL dom) = 7 then d else d.levelBegin dom 7

/-- A write of PWR_PL_REQ. -/
def Dev.plReq (d : Dev) (v : Nat) : Dev := (d.each 4 fun k e => e.wr pwrPage (PWR_PL_REQ.LEVEL k) (bits v (3 * k) 3)).levelsUpdate

def execPlReqWrite (value : Nat) (s : State) : Host.Outcome State Fault Refusal := s.onDev fun d => d.regDo 0x001 fun d => (d.plReq value).complete .okay

/-- The VOUT_COMMAND of a change ends (R663, R664). -/
def execPmbusTxnDone (dom : Nat) (ack : Bool) (s : State) : Host.Outcome State Fault Refusal :=
  s.onDev fun d => match look d.gov.change dom with
    | none => d
    | some c =>
      if c.acked then d
      else
        let d := if ack then { d with gov := { d.gov with change := put d.gov.change dom { c with acked := true } } }
          else ((d.levelFails dom).cnt pwrPage PWR_CNT_PMB_ERR.COUNT).ev pwrPage 14
        d.when (d.gov.trip && decide (dom < 3) && d.inService pwrPage) (·.emergencyLevel dom)

def execVsettleDone (dom : Nat) (s : State) : Host.Outcome State Fault Refusal :=
  s.onDev fun d => match look d.gov.change dom with
    | some c => if c.acked then (d.levelDone dom c.target).levelUpdate dom else d
    | none => d

/-! ### Sleep requests -/

/-- Pages of the page table from 0x008 to 0x0FF. -/
def upperPages : List Nat := (List.range 0xF8).map (· + 8) |>.filter fun p => (pageKind p).isSome

def dramPages : List Nat := [0x079, 0x07A, 0x07B, 0x07C, 0x07D]

/-- The first page that keeps a state from being entered (R667); some none for PCI Express. -/
def Dev.notQuiet (d : Dev) (target : Nat) : Option (Option Nat) :=
  let busy (l : List Nat) : Option Nat := l.find? fun p => decide (d.bstate p ≠ .stopped)
  let ltssm := d.rdB 0x130 PCIE_CTL.LTSSM_EN
  let idle := bbPages.filter (· ≠ 0x033)
  if d.discarding pwrPage then some (some pwrPage)
  else if target = 1 then (busy idle).map some
  else if target = 2 then (busy ((idle.filter (· < 0x041)) ++ [0x041, 0x048] ++ (List.range 16).map (· + 0x050))).map some
  else
    let dramOn := dramPages.all fun p => decide (d.bstate p = .running)
    let pages := if target = 3 ∧ dramOn then upperPages.filter fun p => !dramPages.contains p else upperPages
    match busy pages with
    | some p => some (some p)
    | none => if ltssm then some none else none

/-- Levels of the wake sources that have one (R672). -/
def Dev.wakeLevels (d : Dev) : Nat :=
  let alarm := (List.range 4).any fun k => d.rdB rtcPage (RTC_ALARM.WAKE.at k) && d.rdB rtcPage (RTC_ALARM.FIRED.at k)
  let plic := (List.range 8).any fun h => d.plicLine (2 * h)
  2 * b2n alarm + 4 * bits d.balls.wakeLow 0 1 + 8 * bits d.balls.wakeLow 1 1 + 16 * b2n plic
    + 256 * b2n (decide (d.rd secPage SEC_TAMPER_LATCH.LATCH ≠ 0))

/-- The part of a bitmap of sources that is enabled and works in a state. -/
def Dev.wakeMask (d : Dev) (m st : Nat) : Nat :=
  (((List.range 16).filter fun k => bit m k && bit (d.rd pwrPage PWR_WAKE_EN.EN) k && wakeWorks k st).map (2 ^ ·)).foldl (· + ·) 0

/-- A write of TARGET and GO to PWR_SLEEP (R667, R668). -/
def Dev.sleepReq (d : Dev) (target : Nat) (machine xoOff : Bool) : Dev :=
  if machine = false then d.complete .denied
  else if d.dark then d.complete .unavailable
  else
    let d := (d.wr pwrPage PWR_SLEEP.TARGET target).wr pwrPage PWR_SLEEP.NAP_XO_OFF (b2n xoOff)
    if d.rd pwrPage PWR_STATE.PHASE ≠ 0 then d.complete .okay else
    let refuse (e : Dev) (r : Nat) : Dev := ((e.wr pwrPage PWR_STATE.RESULT r).ev pwrPage 9).complete .okay
    if target = 0 ∨ 5 < target then refuse d 1
    else
      match d.notQuiet target with
      | some (some p) => refuse (d.wr pwrPage PWR_STATE.BLOCKER p) 2
      | some none => refuse (d.wrFree pwrPage PWR_STATE.BLOCKER) 2
      | none =>
        if (target = 3 ∨ target = 4) ∧ d.wakeMask 0xFFFF target = 0 then refuse d 3
        else
          let d := ((d.wr pwrPage PWR_STATE.RESULT 0).wr pwrPage PWR_STATE.PHASE 1).cnt pwrPage PWR_CNT_SLEEP.COUNT
          { d.complete .okay with gov := { d.gov with target := target, xoOff := xoOff, seen := d.wakeMask d.wakeLevels target } }

def execSleepIdle (machine : Bool) (s : State) : Host.Outcome State Fault Refusal := s.onDev (·.regDo 0x001 (·.sleepReq 1 machine false))
def execSleepDoze (machine : Bool) (s : State) : Host.Outcome State Fault Refusal := s.onDev (·.regDo 0x001 (·.sleepReq 2 machine false))
def execSleepNap (machine xoOff : Bool) (s : State) : Host.Outcome State Fault Refusal := s.onDev (·.regDo 0x001 (·.sleepReq 3 machine xoOff))
def execSleepHibernate (machine : Bool) (s : State) : Host.Outcome State Fault Refusal := s.onDev (·.regDo 0x001 (·.sleepReq 4 machine false))
def execSleepOff (machine : Bool) (s : State) : Host.Outcome State Fault Refusal := s.onDev (·.regDo 0x001 (·.sleepReq 5 machine false))

/-- PWR_WAKE0_N or PWR_WAKE1_N goes low. -/
def execWakePin (pin : Nat) (s : State) : Host.Outcome State Fault Refusal :=
  s.onDev fun d =>
    if pin < 2 then { d with balls := { d.balls with wakeLow := d.balls.wakeLow ||| 2 ^ pin } }.raiseWake (2 + pin) else d

/-- A write of PWR_HOST_WAKE: a wake source in Idle and Doze. -/
def Dev.hostWake (d : Dev) : Dev := d.raiseWake 10

def execHostWakeWrite (s : State) : Host.Outcome State Fault Refusal := s.onDev fun d => d.regDo 0x001 fun d => d.hostWake.complete .okay

/-- A wake is detected (R673, R674): the record is written and the return starts. -/
def Dev.wakeDetect (d : Dev) (during : Bool) : Dev :=
  let st := d.pstate
  let m := d.gov.seen ||| d.wakeMask d.wakeLevels st
  if st = 0 ∨ st = 5 ∨ d.rd pwrPage PWR_STATE.PHASE ≠ 0 ∨ m = 0 then d
  else
    let src := ((List.range 16).find? (bit m)).getD 0
    let d := ((d.wr pwrPage PWR_WAKE_REC0.SOURCE src).wr pwrPage PWR_WAKE_REC0.FROM st).wr pwrPage PWR_WAKE_REC0.DURING_ENTRY (b2n during)
    let d := d.wr pwrPage PWR_WAKE_REC0.ASSERTED m
    let d := (d.wr pwrPage PWR_WAKE_REC1.TICKS d.ticks).wr pwrPage PWR_WAKE_REC2.TICKS (d.ticks / 2 ^ 32)
    let d := (d.wr pwrPage PWR_STATE.PHASE 2).when (decide (3 ≤ st)) (·.wr pwrPage PWR_STATE.STATE 0)
    -- the rails that the state had off come back with the return (R760)
    { d with gov := { d.gov with seen := 0, rails := [0, 1, 2, 3], xo := true } }

def execWakeDetected (s : State) : Host.Outcome State Fault Refusal := s.onDev (·.wakeDetect false)

/-! ### The budget -/

/-- Class power in mW (R676). -/
def classMw (code : Nat) : Nat := nth 71300 [3840, 6490, 13000, 25500, 40000, 51000, 62000, 71300] code

/-- PWR_BUDGET follows (R677). -/
def Dev.budgetSync (d : Dev) : Dev :=
  let base := if d.rdB pwrPage PWR_LLDP.VALID then min 71300 (d.rd pwrPage PWR_LLDP.MW) else d.rd pwrPage PWR_CLASS.CLASS_MW
  d.wr pwrPage PWR_BUDGET.MW (base + (if d.rdB pwrPage PWR_AUX.VALID then min 71300 (d.rd pwrPage PWR_AUX.MW) else 0))

def Dev.bank (d : Dev) : Int := d.rdS pwrPage PWR_BANK.VALUE
def Dev.eBase (d : Dev) : Int := d.rdS pwrPage PWR_BASE.VALUE

/-- Energy of a beat in µJ (R682). -/
def Dev.eBeat (d : Dev) : Nat := d.rd pwrPage PWR_BUDGET.MW * 250 * (1000 - d.rd pwrPage PWR_GOV_CFG.MARGIN) / 1000 / 1000

def Dev.govShare (d : Dev) (x : Nat) : Nat :=
  d.rd pwrPage (if x = 0 then PWR_SHARE.SHARE_A else if x = 1 then PWR_SHARE.SHARE_B else PWR_SHARE.SHARE_C)

/-- The floors of R682 for the three radios, with a given bank. -/
def Dev.floorsWith (d : Dev) (bank : Int) : List Nat :=
  let term : Int := if 0 ≤ bank then min bank (d.rd pwrPage PWR_BANK_CFG0.BANK_SPEND : Int)
    else max bank (-(d.rd pwrPage PWR_BANK_CFG1.BANK_REPAY : Int))
  let avail := ((d.eBeat : Int) - d.eBase - d.rd pwrPage PWR_GOV_CFG.RESERVE + term).toNat
  let w := (((List.range 3).filter d.radioInService).map d.govShare).foldl (· + ·) 0
  (List.range 3).map fun x => if d.radioInService x && decide (0 < w) then avail * d.govShare x / w else 0

/-- Undervoltage or a thermal trip stands (R683). -/
def Dev.powerOut (d : Dev) : Bool := d.gov.uv || d.gov.trip

/-- Listen gives every radio nothing (R690). -/
def Dev.listening (d : Dev) : Bool := decide (d.rd pwrPage PWR_MODE.MODE = 5)

/-! ### Throttling (R685) -/

def Dev.tTrip (d : Dev) : Int := min 112 (d.rd pwrPage PWR_THERM.T_TRIP)
def Dev.tempNow (d : Dev) : Int := d.rdS pwrPage PWR_TEMP.TEMP
def Dev.chipOver (d : Dev) : Bool :=
  decide (d.rd pwrPage PWR_MODE.MODE = 4) && decide (10 * d.rd pwrPage PWR_THROT.CHIP_CAP < d.rd pwrPage PWR_CHIP.MW)

/-- THROTTLE, its cause and the dispatcher's floor. -/
def Dev.throttleSync (d : Dev) : Dev :=
  let run := d.inService pwrPage
  let bank := decide (d.bank < -(d.rd pwrPage PWR_BANK_CFG1.BANK_THROT : Int))
  let hot := decide ((d.rd pwrPage PWR_THERM.T_THROT : Int) ≤ d.tempNow)
  let em := decide (d.gov.emRound = some d.round)
  let any := bank || hot || em || d.chipOver
  let d := if any then { d with gov := { d.gov with throtRound := some d.round } } else d
  let on := run && (any || (match d.gov.throtRound with | some r => decide (d.round ≤ r + 1) | none => false))
  let old := d.rdB pwrPage PWR_THROT.THROTTLE
  let d := d.wr pwrPage PWR_THROT.CAUSE (b2n bank + 2 * b2n hot + 4 * b2n (em || d.chipOver))
  let d := (d.wr pwrPage PWR_THROT.THROTTLE (b2n on)).when (on != old) (·.ev pwrPage 11)
  let f := if on = false then 0 else if d.tTrip ≤ d.tempNow then 63 else d.rd pwrPage PWR_THROT.FLOOR_THROT
  if f = d.rd 0x070 DSP_FLOOR.GOV_FLOOR then d else d.govFloor f

/-! ### Emergencies (R33, R678, R683) -/

/-- The allowance of radio `x` for beat `m`: an emergency's, else SAFE_FLOOR while the governor is not in service, else the one
issued, else the floor published (R29, R684, R690). -/
def Dev.allowanceOf (d : Dev) (x m : Nat) : Nat :=
  if d.listening then 0 else match look d.gov.emergency (4 * m + x) with
  | some a => a
  | none => if d.inService pwrPage then lookOr (d.floorFor x m) d.gov.allow (4 * m + x) else d.floorFor x m

/-- An emergency is declared: new allowances for every beat that is frozen and has not begun. -/
def Dev.emergency (d : Dev) (allow : List Nat) : Dev :=
  let d := { ((d.cnt pwrPage PWR_CNT_EMERG.COUNT).ev pwrPage 10) with gov := { d.gov with emRound := some d.round } }
  let d := d.each 3 fun x e => e.each 2 fun i f =>
    let m := f.beat + 1 + i
    if (f.buf x m).st = .frozen ∨ (look f.gov.allow (4 * m + x)).isSome then
      { f with gov := { f.gov with emergency := put f.gov.emergency (4 * m + x) (nth 0 allow x) } }
    else f
  d.throttleSync

/-- What an emergency gives after a lower class, or nothing while the page is not RUNNING or the supply is out (R683, R684). -/
def Dev.emergencyFloors (d : Dev) : List Nat :=
  if d.powerOut || !d.inService pwrPage || d.listening then [0, 0, 0] else d.floorsWith (min d.bank 0)

/-- The class code is sampled (R676 to R678). -/
def Dev.classSample (d : Dev) (code : Nat) : Dev :=
  let old := d.rd pwrPage PWR_CLASS.CODE
  let d := (d.wr pwrPage PWR_CLASS.CODE code).wr pwrPage PWR_CLASS.CLASS_MW (classMw (code % 8))
  if code % 8 = old then d.budgetSync
  else if code % 8 < old then
    let d := ((d.wr pwrPage PWR_LLDP.VALID 0).wr pwrPage PWR_AUX.VALID 0).ev pwrPage 12
    let d := d.budgetSync
    d.emergency d.emergencyFloors
  else (d.ev pwrPage 12).budgetSync

/-- A PWR_ACLS edge (R678); in Nap and Hibernate the code is sampled at the return (R692). -/
def execClassStrobe (code : Nat) (s : State) : Host.Outcome State Fault Refusal :=
  s.onDev fun d =>
    let d := { d with balls := { d.balls with cls := code % 8 } }
    let d := d.raiseWake 9
    if d.dark then d else d.classSample (code % 8)

/-- PWR_UV_N goes low, or high again. -/
def execUndervoltage (low : Bool) (s : State) : Host.Outcome State Fault Refusal :=
  s.onDev fun d =>
    if low then { d with gov := { d.gov with uv := true } }.emergency [0, 0, 0] else { d with gov := { d.gov with uv := false } }

/-! ### Temperature (R686, R689) -/

/-- Impose levels on the control, Koveton and fabric domains. -/
def Dev.impose (d : Dev) (f : Nat → Nat → Nat) : Dev :=
  let im := (List.range 4).map fun k => if k < 3 then f k (nth 0 d.gov.imposed k) else 0
  { d with gov := { d.gov with imposed := im } }.levelsUpdate

/-- The hottest sensor is read (R686). -/
def Dev.tempRead (d : Dev) (temps : List Int) : Dev :=
  let hot := temps.zipIdx.foldl (fun (b : Int × Nat) c => if b.1 < c.1 then c else b) (nth 0 temps 0, 0)
  let d := (d.wrS pwrPage PWR_TEMP.TEMP (clampInt (-128) 127 hot.1)).wr pwrPage PWR_TEMP.SENSOR hot.2
  let d := d.when (decide ((d.rd pwrPage PWR_THERM.T_WARN : Int) ≤ hot.1)) (·.ev pwrPage 15)
  if d.tTrip ≤ hot.1 then
    if d.gov.trip then d
    else
      let d := { d with gov := { d.gov with trip := true, kovWait := false, imposed := [7, 7, 7, 0] } }.emergency [0, 0, 0]
      d.each 3 fun k e => e.emergencyLevel k
  else if hot.1 < d.rd pwrPage PWR_THERM.T_THROT then { d with gov := { d.gov with trip := false } }
  else d

/-- At a round boundary the levels follow the temperature and, in Lean, the chip power. -/
def Dev.thermalRound (d : Dev) : Dev :=
  let level (k : Nat) : Nat := d.rd pwrPage (PWR_PL_STAT.LEVEL k)
  if d.gov.trip then d
  else if d.chipOver then d.impose fun k _ => min 7 (level k + 1)
  else if (d.rd pwrPage PWR_THERM.T_THROT : Int) ≤ d.tempNow then d.impose fun k i => if level k < 5 then level k + 1 else i
  else if d.tempNow < (d.rd pwrPage PWR_THERM.T_THROT : Int) - 3 then d.impose fun _ i => i - 1
  else d

/-! ### Service modes (R687) -/

/-- Presets of a mode: SHARE A, B, C, MARGIN, FLOOR_THROT, caps, CHIP_CAP. -/
def pwrPreset (m : Nat) : List Nat :=
  match m with
  | 0 => [96, 96, 64, 30, 16, 0, 0, 0, 3400]
  | 1 => [86, 85, 85, 30, 16, 0, 0, 0, 3400]
  | 2 => [128, 64, 64, 30, 24, 0, 0, 0, 3400]
  | 3 => [160, 96, 0, 30, 24, 0, 0, 0, 3400]
  | 4 => [128, 128, 0, 50, 32, 3, 2, 2, 1100]
  | _ => [0, 0, 0, 30, 8, 2, 4, 1, 3400]

/-- Listen ends what is on the air or waits for it (R8, R397). No status names it: log entry 345. -/
def Dev.silence (d : Dev) : Dev := ((d.each 3 fun x e => (e.cutTx x 6).dropTx x 6).tagCut 4).takeDone

def Dev.modeSelect (d : Dev) (m : Nat) : Dev :=
  if 5 < m then d
  else
    let v (i : Nat) : Nat := nth 0 (pwrPreset m) i
    let d := d.wr pwrPage PWR_MODE.MODE m
    let d := ((d.wr pwrPage PWR_SHARE.SHARE_A (v 0)).wr pwrPage PWR_SHARE.SHARE_B (v 1)).wr pwrPage PWR_SHARE.SHARE_C (v 2)
    let d := ((d.wr pwrPage PWR_GOV_CFG.MARGIN (v 3)).wr pwrPage PWR_THROT.FLOOR_THROT (v 4)).wr pwrPage PWR_THROT.CHIP_CAP (v 8)
    let d := d.when (decide (m = 5)) (·.silence)
    (d.each 3 fun k e => e.wr pwrPage (PWR_PL_CAP.LEVEL k) (v (5 + k))).levelsUpdate

def execModeSelect (mode : Nat) (s : State) : Host.Outcome State Fault Refusal := s.onDev fun d => d.regDo 0x001 fun d => (d.modeSelect (mode % 8)).complete .okay

/-! ### The governor at a boundary (R679 to R682, R684, R685) -/

/-- E_MEAS in µJ from the sum of voltage code times current code over the beat's samples (R679). -/
def Dev.eMeasOf (d : Dev) (sum : Nat) : Int :=
  roundDiv (sum * d.rd pwrPage PWR_SENSE.VSCALE * d.rd pwrPage PWR_SENSE.ISCALE : Nat) 1000000000

/-- Bank and base from the beat ended (R682). -/
def Dev.bankUpdate (d : Dev) (sum cost : Nat) : Dev :=
  let sense := d.rdB pwrPage PWR_GOV_CFG.SENSE_EN
  let meas := if sense then d.eMeasOf sum else d.eBase + cost
  let bm : Int := d.rd pwrPage PWR_BANK_CFG0.BANK_MAX
  let bank := if sense then clampInt (-bm) bm (d.bank + d.eBeat - meas) else 0
  let base := d.eBase + (meas - cost - d.eBase) / 2 ^ d.rd pwrPage PWR_GOV_CFG.BASE_ALPHA
  ((d.wrS pwrPage PWR_MEAS.VALUE meas).wrS pwrPage PWR_BANK.VALUE bank).wrS pwrPage PWR_BASE.VALUE base

/-- Publish floors for a beat. -/
def Dev.publishFloors (d : Dev) (m : Nat) (fl : List Nat) : Dev :=
  d.each 3 fun x e =>
    let f := nth 0 fl x
    let e := e.wr pwrPage (PWR_FLOOR.VALUE.at x) f
    { e with gov := { e.gov with floors := put e.gov.floors (4 * m + x) f }, air := { e.air with lastFloor := put e.air.lastFloor x f } }

/-- Issue the allowances of a beat at its floors; nothing in Listen, an emergency's value where one stands. -/
def Dev.issueAllowances (d : Dev) (m : Nat) : Dev :=
  let d := d.each 3 fun x e =>
    let a := if e.listening || e.powerOut then 0 else e.floorFor x m
    { e with gov := { e.gov with allow := put e.gov.allow (4 * m + x) a } }
  d.wr 0x008 PTP_BEAT_STAGE.ALLOW_ISSUED 1

/-- Forget beats that are over. -/
def Dev.govForget (d : Dev) (n : Nat) : Dev :=
  let keep (l : List (Nat × Nat)) : List (Nat × Nat) := l.filter fun e => decide (4 * n ≤ e.1)
  { d with gov := { d.gov with floors := keep d.gov.floors, allow := keep d.gov.allow, emergency := keep d.gov.emergency } }

/-- What the governor does at boundary `n`: `cost` of the plans executed in the beat ended, its samples, and whether its work
is on time. -/
def Dev.govBoundary (d : Dev) (n cost sum : Nat) (onTime : Bool) : Dev :=
  let d := d.govForget n
  if d.inService pwrPage then
    let d := d.bankUpdate sum cost
    let fl := if d.powerOut then [0, 0, 0] else d.floorsWith d.bank
    let d := d.publishFloors (n + 3) fl
    let d := if onTime then d.issueAllowances (n + 2) else d
    let d := d.throttleSync
    d.when (d.rdB pwrPage PWR_THROT.THROTTLE) (·.cnt pwrPage PWR_CNT_THROT.COUNT)
  else
    let f := d.rd pwrPage PWR_SAFE_FLOOR.SAFE_FLOOR
    let d := (d.publishFloors (n + 3) [f, f, f]).issueAllowances (n + 2)
    d.throttleSync

/-- ALLOWANCE_MISSED (R29): the floor stands, and the lateness is recorded. -/
def execAllowanceMissed (s : State) : Host.Outcome State Fault Refusal :=
  s.onDev fun d =>
    if d.rdB 0x008 PTP_BEAT_CTL.BEAT_EN = false ∨ d.rdB 0x008 PTP_BEAT_STAGE.ALLOW_ISSUED then d
    else
      let m := d.beat + 2
      let d := d.each 3 fun x e => { e with gov := { e.gov with allow := put e.gov.allow (4 * m + x) (e.floorFor x m) } }
      ((d.wr 0x008 PTP_BEAT_LATE.ALLOW_LATE 1).ev 0x008 8).cnt pwrPage PWR_CNT_ALLOW_LATE.COUNT

/-! ### Calibration records (R691) -/

/-- A PPDU's share of the sums of its radio, exact: chains times duration, power sum in 2^-64 mW times duration, duration, stream
tones times duration, chains times response, each time in 0.1 µs. -/
def Dev.calSum (d : Dev) (x : Nat) (v : List Nat) : Dev :=
  let o := lookOr [0, 0, 0, 0, 0] d.gov.sums x
  { d with gov := { d.gov with sums := put d.gov.sums x (List.zipWith (· + ·) o v) } }

/-- The sums of a radio in the units of a record. -/
def calWords (v : List Nat) : List Nat :=
  [nth 0 v 0 / 10, nth 0 v 1 / (10 * 2 ^ 64), nth 0 v 2, (nth 0 v 3 + 5000) / 10000, nth 0 v 4 / 10]

/-- The record of the beat ended. -/
def Dev.calRecord (d : Dev) (n skipped : Nat) : Dev :=
  let sums := d.gov.sums
  let d := { d with gov := { d.gov with sums := [] } }
  if d.inService pwrPage = false ∨ d.rdB pwrPage PWR_CAL_CFG.CAL_EN = false then d
  else
    let l := d.rd pwrPage PWR_CAL_CFG.LOG2
    let lg := if l < 4 ∨ 12 < l then 12 else l
    let i := d.rd pwrPage PWR_CAL_WR.INDEX
    let words := [(n - 1) % 2 ^ 32, d.rd pwrPage PWR_MEAS.VALUE % 2 ^ 24, d.rd pwrPage PWR_TEMP.TEMP + 256 * skipped, 0]
      ++ (List.range 3).flatMap (fun x => calWords (lookOr [0, 0, 0, 0, 0] sums x)) ++ zeros 13
    let a := d.rd pwrPage PWR_CAL_BASE.BASE * 128 + i % 2 ^ lg * 128
    let w := d.busWrite a (words.flatMap (leBytes 4))
    if w.2 then w.1.bump pwrPage PWR_CAL_WR.INDEX else w.1.enterFault pwrPage ⟨0x04, 0, a⟩

/-! ### Power domains (R59) -/

/-- Pages of a switchable domain: Koveton, basebands, PCI Express. -/
def domPages (k : Nat) : List Nat :=
  if k = 0 then 0x048 :: (List.range 16).map (· + 0x050)
  else if k = 1 then bbPages ++ [0x038, 0x039, 0x03A, 0x03B]
  else []

/-! ### The page's hooks -/

/-- The governor claims the PMBus master (R665). -/
def Dev.govStartCheck (d : Dev) : Option Nat :=
  if d.owner 3 0 = 0 ∨ d.owner 3 0 = ownerCode pwrPage then none else some 0x07

/-- Page 0x001 becomes RUNNING. -/
def Dev.govOnRun (d : Dev) : Dev := (d.giveTo 3 0 (ownerCode pwrPage) 0).levelsUpdate

/-- Page 0x001 leaves service (R684, R692). -/
def Dev.govOnLeave (d : Dev) : Dev :=
  let d := d.levelsFail
  let d : Dev := { d.wr pwrPage (PWR_PL_STAT.BUSY.bitOf 1) 0 with gov := { d.gov with kovWait := false, imposed := [0, 0, 0, 0] } }
  let d := d.govFloor 0
  d.when (d.rdB pwrPage PWR_THROT.THROTTLE) fun e => (e.wr pwrPage PWR_THROT.THROTTLE 0).ev pwrPage 11

/-- Nothing runs but level changes (R693). -/
def Dev.govIdle (d : Dev) : Bool := d.gov.change.isEmpty

end Sys2Proof.Machine
end

