-- ==== Sys2Proof/Machine/Twin.lean ====
section
/-! DEFINITION. The twin pair (R724 to R748): frames of the Tuibivy link, pairing and roles, the fence, heartbeats, the mirror
streams, takeover. -/

namespace Sys2Proof.Machine

def twnPage : Nat := 0x080

def Dev.setTwin (d : Dev) (f : Twin → Twin) : Dev := { d with twin := f d.twin }

/-! ### Roles and the fence (R736 to R738) -/

/-- Role codes of TWN_ROLE. -/
def roleNone : Nat := 0
def rolePairing : Nat := 1
def roleShadow : Nat := 2
def roleActive : Nat := 3
def roleDeposed : Nat := 4

def Dev.role (d : Dev) : Nat := d.rd twnPage TWN_ROLE.ROLE
def Dev.paired (d : Dev) : Bool := d.rdB twnPage TWN_ROLE.PAIRED

/-- The fence line becomes asserted: every transmission in progress ends ABORT_FENCED, and commands that have not started are
dropped (R36, R97, R100, R737). -/
def Dev.fenceCut (d : Dev) : Dev := ((d.each 3 fun x e => (e.cutTx x 8).dropTx x 5).tagCut 3).takeDone

/-- What the role and the fence balls lead to; a newly asserted line cuts what is on the air. -/
def Dev.fenceFollow (d : Dev) : Dev :=
  let was := d.fenced
  let act := decide (d.role = roleActive)
  let d := (d.wr twnPage TWN_ROLE.FENCE_OUT (b2n act)).wr twnPage TWN_ROLE.SELF_FENCE (b2n (d.twin.started && !act))
  let d := d.wr twnPage TWN_ROLE.FENCE_IN (b2n d.balls.fenceLow)
  d.when (d.fenced && !was) (·.fenceCut)

/-- ROLE changes; entering PAIRING restarts the solo wait, becoming Active the KICK rule. -/
def Dev.setRole (d : Dev) (r : Nat) : Dev :=
  let old := d.role
  let d := d.wr twnPage TWN_ROLE.ROLE r
  let d := d.when (decide (r = roleDeposed) && decide (old ≠ roleDeposed)) (·.ev twnPage 14)
  let d := d.when (decide (r = roleActive)) (·.setTwin fun t => { t with kicked := d.beat })
  let d := d.when (decide (r = rolePairing)) (·.setTwin fun t => { t with since := d.beat })
  d.fenceFollow

/-- FENCE_IN_CHANGE. -/
def execFenceInChange (low : Bool) (s : State) : Host.Outcome State Fault Refusal :=
  s.onDev fun d => ({ d with balls := { d.balls with fenceLow := low } } : Dev).fenceFollow

/-- TWN_LANE_CHANGE (R724). -/
def execTwnLaneChange (lane : Nat) (up : Bool) (s : State) : Host.Outcome State Fault Refusal :=
  s.onDev fun d =>
    let f := TWN_ROLE.LANE_UP.bitOf lane
    if 2 ≤ lane ∨ d.rdB twnPage f = up then d else (d.wr twnPage f (b2n up)).ev twnPage 15

/-! ### Frames (R725 to R728) -/

/-- The device's UID (R619). -/
def Dev.uid (d : Dev) : Nat := ofLeBytes (d.otpBytes 0x40 8)

/-- The 16 octets before a frame under AUTH (R727). -/
def Dev.twinPrefix (d : Dev) (typ : Nat) : Option (List Nat) :=
  if typ = 1 then some (zeros 16)
  else
    d.twin.hello.map fun h =>
      if d.uid < h.uid then beBytes 8 d.twin.nonce ++ beBytes 8 h.nonce else beBytes 8 h.nonce ++ beBytes 8 d.twin.nonce

/-- AUTH of octets 0 to 11 + LEN; none when the computation cannot run. -/
def Dev.twinAuth (d : Dev) (pre body : List Nat) : Option (List Nat) :=
  if d.active secPage then
    (d.svcKey (d.rd twnPage TWN_CFG.AUTH_CTX)).map fun k => (aesCmac k (pre ++ body)).take 8
  else none

/-- Send a frame on every enabled lane. An AUTH computation that cannot run is fault 0x40. -/
def Dev.twinSend (d : Dev) (typ seq : Nat) (payload : List Nat) : Dev :=
  let body := beBytes 2 0x5442 ++ [typ, 1] ++ beBytes 4 seq ++ beBytes 2 payload.length ++ [0, 0] ++ payload
  match d.twinPrefix typ with
  | none => d
  | some pre =>
    match d.twinAuth pre body with
    | none => d.fault twnPage 0x40
    | some a =>
      let f := body ++ a
      d.emit (.twinFrame (d.rd twnPage TWN_CFG.LANE0_EN + 2 * d.rd twnPage TWN_CFG.LANE1_EN) (f ++ beBytes 4 (crc32 f)))

/-- A frame as its fields. -/
structure TwinFrame where
  typ : Nat
  seq : Nat
  payload : List Nat
  auth : List Nat
  body : List Nat
deriving DecidableEq, Repr

/-- LEN fits the type (R730). -/
def twinLenOk (typ len : Nat) : Bool :=
  match typ with
  | 1 => decide (len = 20)
  | 2 => decide (len = 16)
  | 3 => decide (len = 68)
  | 4 => decide (len = 72)
  | 5 => decide (len % 12 = 0) && decide (12 ≤ len) && decide (len ≤ 960)
  | 6 => decide (1 ≤ len) && decide (len ≤ 1008)
  | _ => false

/-- The form of a frame; none when it is malformed. -/
def twinParse (o : List Nat) : Option TwinFrame :=
  let len := beNum ((o.drop 8).take 2)
  if 24 ≤ o.length ∧ o.take 2 = [0x54, 0x42] ∧ nth 0 o 3 = 1 ∧ twinLenOk (nth 0 o 2) len ∧ 24 + len ≤ o.length ∧ len ≤ 1008 then
    some { typ := nth 0 o 2, seq := beNum ((o.drop 4).take 4), payload := (o.drop 12).take len,
           auth := (o.drop (12 + len)).take 8, body := o.take (12 + len) }
  else none

def TwinFrame.nonce (f : TwinFrame) : Nat := if f.typ = 1 then beNum ((f.payload.drop 8).take 8) else 0

/-- A later copy of a frame taken on the other lane (R725). -/
def Dev.twinCopy (d : Dev) (f : TwinFrame) (lane ns : Nat) : Bool :=
  d.twin.seen.any fun s => decide (s.typ = f.typ) && decide (s.seq = f.seq) && decide (s.nonce = f.nonce) && decide (s.lane ≠ lane)
    && decide (ns ≤ s.atNs + 10000)

/-- SEQ is the one expected (R728, last check). -/
def Dev.twinSeqOk (d : Dev) (f : TwinFrame) : Bool :=
  if f.typ = 1 then true
  else if f.typ = 2 then decide (f.seq = d.beat % 2 ^ 32)
  else decide (f.seq = (d.twin.rxSeq + 1) % 2 ^ 32)

/-- The checks of R728 on a frame of type `typ` that arrives on a lane: what they count, and the frame when it passes all of them. -/
def Dev.twinCheck (d : Dev) (typ lane atNs : Nat) (o : List Nat) : Dev × Option TwinFrame :=
  if d.active twnPage = false ∨ 2 ≤ lane ∨ d.rdB twnPage (if lane = 0 then TWN_CFG.LANE0_EN else TWN_CFG.LANE1_EN) = false then (d, none)
  else
    let d := d.reach (atNs * nsU)
    if o.length < 4 ∨ o.drop (o.length - 4) ≠ beBytes 4 (crc32 (o.take (o.length - 4))) then (d.cnt twnPage TWN_CNT_CRC.COUNT, none)
    else
      match twinParse o with
      | none => (d.cnt twnPage TWN_CNT_BADFRM.COUNT, none)
      | some fr =>
        if fr.typ ≠ typ ∨ d.twinCopy fr lane atNs then (d, none)
        else
          let pre := (d.twinPrefix typ).getD []
          match d.twinAuth pre fr.body with
          | none => (d.fault twnPage 0x40, none)
          | some a =>
            if a ≠ fr.auth ∨ d.twinPrefix typ = none then (d.cnt twnPage TWN_CNT_AUTH.COUNT, none)
            else if d.twinSeqOk fr = false then (d.cnt twnPage TWN_CNT_STALE.COUNT, none)
            else
              let s : TwinSeen := { typ := typ, seq := fr.seq, nonce := fr.nonce, lane := lane, atNs := atNs }
              (d.setTwin fun t => { t with seen := s :: t.seen.filter fun e => decide (atNs ≤ e.atNs + 10000) }, some fr)

/-- A frame of type `typ` arrives on a lane: the checks, then `f` on a frame that passes. -/
def Dev.twinReceive (d : Dev) (typ lane atNs : Nat) (o : List Nat) (f : Dev → TwinFrame → Dev) : Dev :=
  match d.twinCheck typ lane atNs o with
  | (e, some g) => f e g
  | (e, none) => e

/-! ### Streams (R743, R744) -/

/-- TWN_TXQ_RD follows the oldest request not acknowledged. -/
def Dev.twinRingRd (d : Dev) : Dev := d.wr twnPage TWN_TXQ_RD.INDEX (d.twin.reqs.headD d.twin.ringNext)

/-- Send queued records while fewer than 64 are unacknowledged (R743). -/
def Dev.twinPush (d : Dev) : Dev :=
  if d.active twnPage = false ∨ d.paired = false then d
  else
    let go := d.twin.queue.take (64 - d.twin.win.length)
    let d := d.setTwin fun t => { t with queue := t.queue.drop go.length, ackBeat := if t.win.isEmpty then d.beat else t.ackBeat }
    d.forAll go fun r e =>
      let n := (e.twin.txSeq + 1) % 2 ^ 32
      (e.setTwin fun t => { t with txSeq := n, win := t.win ++ [{ r with seq := n }] }).twinSend r.typ n r.payload

/-- The 64 octets of ENTRY: the words of the entry with the hardware fields zero, but for SUSPENDED in a snapshot. -/
def Dev.twinEntry (d : Dev) (s : Nat) (snap : Bool) : List Nat :=
  (List.range 16).flatMap fun k =>
    let w := d.ld (d.staAddr s + 4 * k) 4
    leBytes 4 (if k = 0 then w - w % 4 - bits w 10 3 * 2 ^ 10 + (if snap then 2 * bits w 1 1 else 0)
      else if k = 12 then 0 else if k = 13 then w / 2 ^ 18 * 2 ^ 18 else w)

def staRec (s op : Nat) (entry : List Nat) (snap : Bool) : TwinRec :=
  { typ := 3, payload := beBytes 2 s ++ [op, 0] ++ entry ++ zeros (64 - entry.length), snap := snap, req := none, seq := 0 }

/-- One mark (R730). -/
def markOctets (kind index v : Nat) : List Nat := beBytes 2 index ++ [kind, 0] ++ beBytes 6 v ++ [0, 0]

/-- MARK frames of a list of marks, at most 80 in each. -/
def markRecs (snap : Bool) : Nat → List (List Nat) → List TwinRec
  | 0, _ => []
  | _, [] => []
  | n + 1, l =>
    { typ := 5, payload := (l.take 80).flatMap id, snap := snap, req := none, seq := 0 } :: markRecs snap n (l.drop 80)

/-- The record that holds the sequence number of queue `q`. -/
def snKey (q : Nat) : Nat × Nat := if q < 16384 then (q / 8, q % 8) else (2048 + (q - 16384), 0)

/-- The queue of a record with a sequence number, if it is one's. -/
def snQueue (k : Nat) : Option Nat :=
  if k / 16 < 2048 then (if k % 16 < 8 then some (8 * (k / 16) + k % 16) else none)
  else if k % 16 = 0 then some (16384 + (k / 16 - 2048)) else none

/-- Current marks of every READY slot and every queue whose sequence number is not 0. -/
def Dev.twinMarksNow (d : Dev) : List (List Nat) :=
  ((List.range 2304).filter d.slotReady).map (fun k => markOctets 0 k (d.slotPn k))
    ++ d.mac.recs.filterMap fun r => if r.2.txNext = 0 then none else (snQueue r.1).map fun q => markOctets 1 q r.2.txNext

/-- The Active starts a snapshot (R744). -/
def Dev.twinSnapshot (d : Dev) : Dev :=
  let l := [staRec 0 6 [] true]
    ++ ((List.range 2048).filter d.staValid).map (fun s => staRec s 5 (d.twinEntry s true) true)
    ++ markRecs true 1000 d.twinMarksNow ++ [staRec 0 7 [] true]
  ((d.setTwin fun t => { t with queue := (t.queue.filter fun r => decide (r.typ = 4 ∨ r.typ = 6)) ++ l }).ev twnPage 12).twinPush

/-- Queue a record; a queue of 4,096 that overflows starts a snapshot (R744). -/
def Dev.twinQueue (d : Dev) (r : TwinRec) : Dev :=
  if 4096 ≤ d.twin.queue.length then d.twinSnapshot
  else (d.setTwin fun t => { t with queue := t.queue ++ [r] }).twinPush

/-- The mirror runs: an Active with a partner. -/
def Dev.mirrors (d : Dev) : Bool := d.inService twnPage && decide (d.role = roleActive) && d.paired

/-- Marks of numbers that crossed their strides (R741). -/
def Dev.twinMarks (d : Dev) : Dev :=
  let l := d.marks
  let d := { d with marks := [] }
  if d.mirrors = false then d
  else d.forAll l fun m e =>
    if m.kind = 0 then
      if m.new % 2 ^ e.rd twnPage TWN_MARK_CFG.PN_LOG2 = 0 then
        e.twinQueue { typ := 5, payload := markOctets 0 m.index m.new, snap := false, req := none, seq := 0 }
      else e
    else if m.old % 256 = 0 then
      e.twinQueue { typ := 5, payload := markOctets 1 m.index m.old, snap := false, req := none, seq := 0 }
    else e

/-- A station command that ended OK on the Active is mirrored (R741). -/
def Dev.twinSta (d : Dev) (op s : Nat) : Dev :=
  if d.mirrors then d.twinQueue (staRec s op (if op = 1 ∨ op = 3 then d.twinEntry s false else []) false) else d

/-- A resend is due: ACK has not advanced for RETX_BEATS beats (R743). -/
def Dev.retx (d : Dev) : Dev :=
  let n := max 1 (d.rd twnPage TWN_TIMING.RETX_BEATS)
  if d.active twnPage && d.paired && !d.twin.win.isEmpty && decide (d.twin.ackBeat + n ≤ d.beat) then
    let d := (d.cnt twnPage TWN_CNT_RETX.COUNT).setTwin fun t => { t with ackBeat := d.beat }
    d.forAll d.twin.win fun r e => e.twinSend r.typ r.seq r.payload
  else d

def execRetxTimeout (s : State) : Host.Outcome State Fault Refusal := s.onDev (·.retx)

/-- ACK of a heartbeat: records up to it are acknowledged, and more are sent (R743). -/
def Dev.twinAck (d : Dev) (ack : Nat) : Dev :=
  match d.twin.win with
  | [] => d
  | r :: _ =>
    let n := (ack + 2 ^ 32 - r.seq) % 2 ^ 32 + 1
    if d.twin.win.length < n then d
    else
      let gone := (d.twin.win.take n).filterMap (·.req)
      ((d.setTwin fun t => { t with win := t.win.drop n, ackBeat := d.beat,
                                    reqs := t.reqs.filter fun i => !gone.contains i }).twinRingRd).twinPush

/-- A transmit request of type `typ` heads the ring (R741). Requests of another type, and a KEY request of a device that is not
Active, are skipped. -/
def Dev.twinRequest (d : Dev) (typ : Nat) : Dev :=
  let i := d.twin.ringNext
  if d.active twnPage = false ∨ i = d.rd twnPage TWN_TXQ_WR.INDEX then d
  else
    let a := d.rd twnPage TWN_TXQ_BASE.BASE * 4096 + i % 2 ^ d.rd twnPage TWN_RING_CFG.TXQ_LOG2 * 16
    if d.rdOk a 16 = false then d.enterFault twnPage ⟨0x04, 0, a⟩
    else
      let w0 := d.ld a 4
      let t := w0 % 256
      let len := bits w0 16 10
      let next := (i + 1) % 65536
      if (t ≠ 4 ∧ t ≠ 6) ∨ (t = 4 ∧ d.role ≠ roleActive) ∨ twinLenOk t len = false then
        ((d.cnt twnPage TWN_CNT_BADREQ.COUNT).setTwin fun t => { t with ringNext := next }).twinRingRd
      else if t ≠ typ ∨ d.paired = false ∨ 4096 ≤ d.twin.queue.length then d
      else
        let p := d.ld (a + 4) 4 + d.ld (a + 8) 4 % 16 * 2 ^ 32
        if d.rdOk p len = false then d.enterFault twnPage ⟨0x04, 0, p⟩
        else
          ((d.setTwin fun t => { t with ringNext := next, reqs := t.reqs ++ [i],
                                        queue := t.queue ++ [{ typ := typ, payload := d.ldBytes p len, snap := false,
                                                               req := some i, seq := 0 }] }).twinRingRd).twinPush

def execTwinKeyRequest (s : State) : Host.Outcome State Fault Refusal := s.onDev (·.twinRequest 4)
def execTwinUserRequest (s : State) : Host.Outcome State Fault Refusal := s.onDev (·.twinRequest 6)

/-! ### Station commands at the Shadow (R741, R742) -/

/-- What follows a station command of the controller that ended. -/
def Dev.twinResult (d : Dev) : Dev :=
  if d.rd 0x033 MAC_STA_STAT.RESULT = 0 then d
  else
    ((d.wr twnPage TWN_ROLE.MIR_OK 0).cnt twnPage TWN_CNT_MIR_ERR.COUNT).setTwin fun t => { t with resync := true }

/-- Issue a station command; it has ended unless BUSY. -/
def Dev.twinIssue (d : Dev) (f : Dev → Dev) : Dev :=
  let d := f (d.cnt twnPage TWN_CNT_MIR_APPLIED.COUNT)
  if d.rdB 0x033 MAC_STA_STAT.BUSY then d.setTwin fun t => { t with own := true } else d.twinResult

/-- Write ENTRY, then issue. -/
def Dev.twinWrite (d : Dev) (o : TwinOp) (f : Dev → Dev) : Dev :=
  let a := d.staAddr o.sta
  if d.wrOk a 64 = false then d.enterFault twnPage ⟨0x04, 0, a⟩
  else
    let e := o.entry
    -- SUSPENDED of a snapshot's ENTRY is not written: SUSPEND sets it
    f (if o.op = 3 then d.stBytes a ((nth 0 e 0 - nth 0 e 0 % 4 + (d.ldB a).toNat % 4) :: e.drop 1)
      else d.stBytes a ((nth 0 e 0 - nth 0 e 0 % 4) :: e.drop 1))

/-- The next command of the list is issued (op 8: REMOVE alone). -/
def Dev.twinDo (d : Dev) (o : TwinOp) : Dev :=
  let next (l : List TwinOp) (e : Dev) : Dev := e.setTwin fun t => { t with todo := l ++ t.todo }
  match o.op with
  | 1 => d.twinWrite o fun e => e.twinIssue (·.staAdd o.sta)
  | 2 => d.twinIssue (·.staSuspend o.sta)
  | 3 => d.twinWrite o fun e => e.twinIssue (·.staResume o.sta)
  | 4 => if d.staValid o.sta && !d.staSuspended o.sta then (next [{ o with op := 8 }] d).twinIssue (·.staSuspend o.sta)
      else d.twinIssue (·.staRemove o.sta)
  | 5 =>
    let d := if bit (nth 0 o.entry 0) 1 then next [{ o with op := 2 }] d else d
    d.twinWrite o fun e => e.twinIssue (·.staAdd o.sta)
  | 6 =>
    next (((List.range 2048).filter d.staValid).map fun s => { op := 4, sta := s, entry := [] }) (d.wr twnPage TWN_ROLE.MIR_OK 0)
  | 7 => d.wr twnPage TWN_ROLE.MIR_OK 1
  | _ => d.twinIssue (·.staRemove o.sta)

/-- Issue station commands while none runs. -/
def Dev.twinPump (d : Dev) : Nat → Dev
  | 0 => d
  | n + 1 =>
    match d.twin.todo with
    | [] => d
    | o :: r =>
      if d.rdB 0x033 MAC_STA_STAT.BUSY ∨ d.active twnPage = false then d
      else ((d.setTwin fun t => { t with todo := r }).twinDo o).twinPump n

/-- Bound on the commands one frame leads to. -/
def twinFuel (d : Dev) : Nat := 4 * d.twin.todo.length + 8200

/-- A SUSPEND of the controller is done: its result, and the commands behind it. -/
def Dev.twinSuspendDone (d : Dev) : Dev :=
  if d.twin.own && !d.rdB 0x033 MAC_STA_STAT.BUSY then
    let d := (d.setTwin fun t => { t with own := false }).twinResult
    d.twinPump (twinFuel d)
  else d

/-! ### Pairing (R733 to R735) -/

/-- HELLO_SEND: once per beat at boundary + HB_OFS while PAIRING, and while an Active has no partner in the exchange
(ACTIVE_NOW of R730 and R734). -/
def Dev.helloSend (d : Dev) : Dev :=
  if d.inService twnPage && (decide (d.role = rolePairing) || (decide (d.role = roleActive) && !d.paired))
      && decide (d.twin.helloBeat ≠ some d.beat) then
    let d := d.reach (d.beat * beatU + d.rd twnPage TWN_CFG.HB_OFS * usU)
    let d := d.setTwin fun t => { t with helloBeat := some d.beat, helloSent := true }
    d.twinSend 1 0 (beBytes 8 d.uid ++ beBytes 8 d.twin.nonce
      ++ [d.rd twnPage TWN_CFG.PREF_ACTIVE + 2 * b2n (decide (d.role = roleActive)), 0, 0, 0])
  else d

def execHelloSend (s : State) : Host.Outcome State Fault Refusal := s.onDev (·.helloSend)

/-- A HELLO is accepted: UID and nonce are kept; a new nonce begins a new exchange and new streams. -/
def Dev.helloTaken (d : Dev) (f : TwinFrame) : Dev :=
  let h : TwinHello := { uid := beNum (f.payload.take 8), nonce := f.nonce, flags := nth 0 f.payload 16 }
  let again := match d.twin.hello with | some k => decide (k.nonce = h.nonce) && decide (k.uid = h.uid) | none => false
  let d := (d.wr twnPage TWN_PARTNER_LO.UID (h.uid % 2 ^ 32)).wr twnPage TWN_PARTNER_HI.UID (h.uid / 2 ^ 32)
  let d := d.setTwin fun t => { t with hello := some h }
  if again then d
  else
    (d.wr twnPage TWN_ROLE.PAIRED 0).setTwin fun t =>
      { t with hbFrom := some (d.beat + 1), ready := false, txSeq := 0, rxSeq := 0, win := [],
               queue := [], reqs := [], todo := [], late := [], pn := [], sn := [] }

def execHelloReceived (lane atNs : Nat) (octets : List Nat) (s : State) : Host.Outcome State Fault Refusal :=
  s.onDev fun d => d.twinReceive 1 lane atNs octets Dev.helloTaken

/-! ### Heartbeats (R739, R744) -/

/-- HEARTBEAT_SEND: once per beat at boundary + HB_OFS; an Active whose YIELD it carries becomes DEPOSED (R738). -/
def Dev.heartbeatSend (d : Dev) : Dev :=
  let due := match d.twin.hbFrom with | some b => decide (b ≤ d.beat) | none => false
  if d.active twnPage && due && decide (d.role ≠ roleNone) && decide (d.role ≠ roleDeposed) && decide (d.twin.hbBeat ≠ some d.beat) then
    let d := d.reach (d.beat * beatU + d.rd twnPage TWN_CFG.HB_OFS * usU)
    let t := d.twin
    let snap := (t.win ++ t.queue).any (·.snap)
    let flags := d.rd twnPage TWN_ROLE.MIR_OK + 2 * b2n t.resync + 4 * b2n t.yieldOut + 8 * b2n snap
    let d := d.setTwin fun t => { t with hbBeat := some d.beat, resync := false, yieldOut := false }
    let d := (d.cnt twnPage TWN_CNT_HB_TX.COUNT).twinSend 2 (d.beat % 2 ^ 32)
      (beBytes 4 t.rxSeq ++ [d.rd 0x001 PWR_MODE.MODE, flags] ++ beBytes 2 (t.win.length + t.queue.length) ++ zeros 8)
    d.when t.yieldOut (·.setRole roleDeposed)
  else d

def execHeartbeatSend (s : State) : Host.Outcome State Fault Refusal := s.onDev (·.heartbeatSend)

/-- A heartbeat is accepted. -/
def Dev.heartbeatTaken (d : Dev) (f : TwinFrame) : Dev :=
  let flags := nth 0 f.payload 5
  let d := (d.cnt twnPage TWN_CNT_HB_RX.COUNT).wr twnPage TWN_ROLE.PMODE (nth 0 f.payload 4)
  let d := d.setTwin fun t =>
    { t with hbGot := true, ready := t.ready || (t.helloSent && !d.paired),
             yieldIn := t.yieldIn || (bit flags 2 && decide (d.role = roleShadow)) }
  let d := d.twinAck (beNum (f.payload.take 4))
  d.when (bit flags 1 && d.mirrors) (·.twinSnapshot)

def execHeartbeatReceived (lane atNs : Nat) (octets : List Nat) (s : State) : Host.Outcome State Fault Refusal :=
  s.onDev fun d => d.twinReceive 2 lane atNs octets Dev.heartbeatTaken

/-! ### Stream frames received (R741 to R744) -/

/-- The frame is the next of its stream. -/
def Dev.twinStep (d : Dev) (f : TwinFrame) : Dev := d.setTwin fun t => { t with rxSeq := f.seq }

/-- STA: the Shadow issues the command. -/
def Dev.staTaken (d : Dev) (f : TwinFrame) : Dev :=
  let d := d.twinStep f
  if d.role ≠ roleShadow then d
  else
    let o : TwinOp := { op := min 7 (nth 0 f.payload 2), sta := beNum (f.payload.take 2) % 2048, entry := f.payload.drop 4 }
    if nth 0 f.payload 2 = 0 ∨ 7 < nth 0 f.payload 2 then d
    else
      let d := d.setTwin fun t => { t with todo := t.todo ++ [o] }
      d.twinPump (twinFuel d)

/-- KEY and USER: a record of the receive ring; a full ring discards the frame (R743). -/
def Dev.ringTaken (d : Dev) (f : TwinFrame) : Dev :=
  let i := d.rd twnPage TWN_RXQ_WR.INDEX
  let n := 2 ^ d.rd twnPage TWN_RING_CFG.RXQ_LOG2
  if n ≤ (i + 65536 - d.rd twnPage TWN_RXQ_RD.INDEX) % 65536 then d
  else
    let a := d.rd twnPage TWN_RXQ_BASE.BASE * 4096 + i % n * 1024
    if d.wrOk a 1024 = false then d.enterFault twnPage ⟨0x04, 0, a⟩
    else
      let d := (d.stWords a [f.typ + f.payload.length * 2 ^ 16, f.seq, 0, 0]).stBytes (a + 16) f.payload
      ((d.bump twnPage TWN_RXQ_WR.INDEX).ev twnPage 13).twinStep f

/-- MARK: held per slot and queue until a takeover. -/
def Dev.markTaken (d : Dev) (f : TwinFrame) : Dev :=
  let d := d.twinStep f
  if d.role ≠ roleShadow then d
  else d.each (f.payload.length / 12) fun m e =>
    let o := (f.payload.drop (12 * m)).take 12
    let i := beNum (o.take 2)
    let v := beNum ((o.drop 4).take 6)
    e.setTwin fun t => if nth 0 o 2 = 0 then { t with pn := put t.pn i v } else { t with sn := put t.sn i (v % 4096) }

/-- A frame of the stream is taken by its type. -/
def Dev.streamApply (d : Dev) (f : TwinFrame) : Dev :=
  if f.typ = 3 then d.staTaken f else if f.typ = 5 then d.markTaken f else d.ringTaken f

/-- A frame of the stream is accepted; a Shadow keeps one of the cycle of a boundary until that boundary (R745, R747). -/
def Dev.streamTaken (d : Dev) (f : TwinFrame) : Dev :=
  if d.role = roleShadow ∧ d.now = (d.beat + 1) * beatU then
    d.setTwin fun t => { t with late := t.late ++ [{ typ := f.typ, payload := f.payload, snap := false, req := none, seq := f.seq }] }
  else d.streamApply f

/-- The frames of the boundary's cycle, when no takeover discarded them. -/
def Dev.lateTaken (d : Dev) : Dev :=
  let l := d.twin.late
  (d.setTwin fun t => { t with late := [] }).forAll l fun r e =>
    e.streamApply { typ := r.typ, seq := r.seq, payload := r.payload, auth := [], body := [] }

def execStaFrameReceived (lane atNs : Nat) (octets : List Nat) (s : State) : Host.Outcome State Fault Refusal :=
  s.onDev fun d => d.twinReceive 3 lane atNs octets Dev.streamTaken
def execKeyFrameReceived (lane atNs : Nat) (octets : List Nat) (s : State) : Host.Outcome State Fault Refusal :=
  s.onDev fun d => d.twinReceive 4 lane atNs octets Dev.streamTaken
def execMarkFrameReceived (lane atNs : Nat) (octets : List Nat) (s : State) : Host.Outcome State Fault Refusal :=
  s.onDev fun d => d.twinReceive 5 lane atNs octets Dev.streamTaken
def execUserFrameReceived (lane atNs : Nat) (octets : List Nat) (s : State) : Host.Outcome State Fault Refusal :=
  s.onDev fun d => d.twinReceive 6 lane atNs octets Dev.streamTaken

/-! ### Takeover (R745) -/

/-- The transmit PN a READY slot takes at a takeover (step 2). -/
def Dev.leapPn (d : Dev) (k : Nat) : Nat :=
  let two := 2 * 2 ^ d.rd twnPage TWN_MARK_CFG.PN_LOG2
  min (2 ^ 48 - 1) (max (d.slotPn k) (lookOr 0 d.twin.pn k + two))

/-- Steps 2 to 5 of a takeover. -/
def Dev.leap (d : Dev) (mirOk : Bool) : Dev :=
  let d := d.forAll ((List.range 2304).filter d.slotReady) fun k e => e.setSlotPn k (e.leapPn k)
  let d := d.forAll d.twin.sn fun m e =>
    let k := snKey m.1
    let r := e.tidRec k.1 k.2
    e.setTidRec k.1 k.2 { r with txNext := (m.2 + 512) % 4096,
                                 oweBar := r.oweBar || (decide (k.1 < 2048) && e.staBaTid k.1 k.2) }
  (d.wr twnPage TWN_ROLE.ADJ_DONE 1).when (!mirOk) (·.wr twnPage TWN_ROLE.PN_UNSAFE 1)

/-- A Shadow becomes Active and adjusts packet and sequence numbers. -/
def Dev.takeover (d : Dev) : Dev :=
  let ok := d.rdB twnPage TWN_ROLE.MIR_OK
  let d := ((d.cnt twnPage TWN_CNT_TAKEOVER.COUNT).ev twnPage 9).setRole roleActive
  let d := d.twinPump (twinFuel d)
  let d := if d.twin.own then d.staSuspendDone.twinSuspendDone else d
  (d.leap ok).setTwin fun t => { t with todo := [], late := [], yieldIn := false }

/-! ### The boundary (R734, R735, R738, R739) -/

/-- The Active of a pairing is this device (R734). -/
def Dev.twinActive (d : Dev) (h : TwinHello) : Bool :=
  let own := decide (d.role = roleActive)
  let pref := d.rdB twnPage TWN_CFG.PREF_ACTIVE
  if own ≠ bit h.flags 1 then own
  else if pref ≠ bit h.flags 0 then pref
  else decide (d.uid < h.uid)

/-- MISS counts a beat without heartbeat of a paired device. -/
def Dev.missUpdate (d : Dev) : Dev :=
  let miss := d.rd twnPage TWN_ROLE.MISS
  let got := d.twin.hbGot
  let d := d.setTwin fun t => { t with hbGot := false }
  if d.paired = false then d
  else if got then d.wr twnPage TWN_ROLE.MISS 0
  else if 3 ≤ miss then d
  else
    ((d.wr twnPage TWN_ROLE.MISS (miss + 1)).cnt twnPage TWN_CNT_MISS.COUNT).when (decide (miss = 2)) (·.ev twnPage 10)

/-- A device whose exchange is complete sets PAIRED and takes its role. -/
def Dev.pairUp (d : Dev) : Dev :=
  match d.twin.hello with
  | some h =>
    if d.twin.ready then
      let d := (d.setTwin fun t => { t with ready := false, hbGot := false }).wr twnPage TWN_ROLE.PAIRED 1
      let d := ((d.wr twnPage TWN_ROLE.MISS 0).wr twnPage TWN_ROLE.MIR_OK 0).ev twnPage 8
      if d.role = rolePairing then d.setRole (if d.twinActive h then roleActive else roleShadow)
      else d.wr twnPage TWN_ROLE.SOLO 0
    else d
  | none => d

/-- What a boundary does to the twin controller, after the beat index moved. -/
def Dev.twinBoundary (d : Dev) : Dev :=
  let d := d.fenceFollow
  if d.inService twnPage = false then d
  else
    let low := d.balls.fenceLow
    let d := d.missUpdate
    let miss := decide (d.rd twnPage TWN_ROLE.MISS = 3)
    Dev.lateTaken <| if d.role = roleActive ∧ low then
      ((d.wr twnPage TWN_ROLE.SOLO 0).wr twnPage TWN_ROLE.PAIRED 0).setTwin (fun t =>
        { t with hello := none, helloSent := false, hbFrom := none, ready := false, yieldOut := false }) |>.setRole rolePairing
    else if d.role = roleShadow ∧ (d.twin.yieldIn ∨ (miss ∧ low = false)) then d.takeover
    else
      let d := d.when (decide (d.role = roleShadow) && miss && !d.rdB twnPage TWN_ROLE.FENCE_HELD)
        fun e => (e.wr twnPage TWN_ROLE.FENCE_HELD 1).ev twnPage 11
      d.pairUp

/-- The solo wait in beats (R738). -/
def Dev.soloWait (d : Dev) : Nat :=
  let n := d.rd twnPage TWN_TIMING.SOLO_BEATS
  if d.rdB twnPage TWN_CFG.PREF_ACTIVE then n else 2 * n + d.uid % 64

/-- SOLO_WAIT_EXPIRY: a device that accepted no HELLO serves alone, unless it is fenced. -/
def Dev.soloExpiry (d : Dev) : Dev :=
  if d.inService twnPage && decide (d.role = rolePairing) && d.twin.hello.isNone && decide (d.twin.since + d.soloWait ≤ d.beat)
      && !d.balls.fenceLow then (d.wr twnPage TWN_ROLE.SOLO 1).setRole roleActive
  else d

def execSoloWaitExpiry (s : State) : Host.Outcome State Fault Refusal := s.onDev (·.soloExpiry)

/-- KICK_TIMEOUT: an Active without a KICK for KICK_BEATS beats is DEPOSED; a HANDOVER whose YIELD heartbeat goes out comes first
(R747). -/
def Dev.kickTimeout (d : Dev) : Dev :=
  let n := d.rd twnPage TWN_TIMING.KICK_BEATS
  if d.inService twnPage && decide (d.role = roleActive) && decide (n ≠ 0) && decide (d.twin.kicked + n ≤ d.beat)
      && !(d.twin.yieldOut && d.twin.hbFrom.isSome) then d.setRole roleDeposed
  else d

def execKickTimeout (s : State) : Host.Outcome State Fault Refusal := s.onDev (·.kickTimeout)

/-- TWN_CMD KICK. -/
def Dev.kick (d : Dev) : Dev :=
  if d.inService twnPage && decide (d.role = roleActive) then d.setTwin fun t => { t with kicked := d.beat } else d

/-- TWN_CMD HANDOVER. -/
def Dev.handover (d : Dev) : Dev :=
  if d.inService twnPage && decide (d.role = roleActive) then d.setTwin fun t => { t with yieldOut := true } else d

/-- TWN_CMD RESYNC. -/
def Dev.resync (d : Dev) : Dev :=
  if d.inService twnPage && decide (d.role = roleShadow) then d.setTwin fun t => { t with resync := true } else d

def execKick (s : State) : Host.Outcome State Fault Refusal := s.onDev fun d => d.regDo 0x080 fun d => d.kick.complete .okay
def execHandover (s : State) : Host.Outcome State Fault Refusal := s.onDev fun d => d.regDo 0x080 fun d => d.handover.complete .okay
def execResync (s : State) : Host.Outcome State Fault Refusal := s.onDev fun d => d.regDo 0x080 fun d => d.resync.complete .okay

/-! ### Page hooks -/

/-- Checks of a Start (R732 and the register tables). -/
def Dev.twinStartCheck (d : Dev) : Option Nat :=
  let ofs := d.rd twnPage TWN_CFG.HB_OFS
  let pn := d.rd twnPage TWN_MARK_CFG.PN_LOG2
  let ring (f : Fld) := decide (4 ≤ d.rd twnPage f) && decide (d.rd twnPage f ≤ 12)
  let taps := [0, 1].all fun l => decide (d.rd twnPage (TWN_LANE.TX_PRE.at l) ≤ 31) && decide (d.rd twnPage (TWN_LANE.TX_POST.at l) ≤ 31)
  if (d.svcKey (d.rd twnPage TWN_CFG.AUTH_CTX)).isNone ∨ (d.rdB twnPage TWN_CFG.LANE0_EN = false ∧ d.rdB twnPage TWN_CFG.LANE1_EN = false)
      ∨ ofs = 0 ∨ 200 < ofs ∨ pn < 8 ∨ 20 < pn ∨ ring TWN_RING_CFG.TXQ_LOG2 = false ∨ ring TWN_RING_CFG.RXQ_LOG2 = false
      ∨ taps = false then some 0x03
  else none

/-- What a Start does: ring indices, a fresh nonce, PAIRING unless DEPOSED (R733, R738). -/
def Dev.twinOnStart (d : Dev) : Dev :=
  let d := ((d.wr twnPage TWN_TXQ_WR.INDEX 0).wr twnPage TWN_TXQ_RD.INDEX 0)
  let d := (d.wr twnPage TWN_RXQ_WR.INDEX 0).wr twnPage TWN_RXQ_RD.INDEX 0
  let (d, n) := d.draw 64
  let role := d.role
  let lanes := d.rd twnPage TWN_ROLE.LANE_UP
  let d := (d.wrW twnPage TWN_ROLE.word.off 0).wr twnPage TWN_ROLE.LANE_UP lanes
  let d := { d with twin := { Twin.reset with started := true, nonce := n } }
  (d.wr twnPage TWN_ROLE.ROLE role).setRole (if role = roleDeposed then roleDeposed else rolePairing)

/-- The page leaves RUNNING: an Active becomes DEPOSED, others but a DEPOSED become NONE (R738). -/
def Dev.twinOffDuty (d : Dev) : Dev :=
  if d.role = roleActive then d.setRole roleDeposed else if d.role = roleDeposed then d else d.setRole roleNone

/-- Drain (R748). -/
def Dev.twinOnDrain (d : Dev) : Dev := (d.setTwin fun t => { t with drainAt := d.now }).twinOffDuty

/-- Drain is complete: every stream frame is acknowledged, or 2 ms have passed (R748). -/
def Dev.twinIdle (d : Dev) : Bool :=
  (d.twin.win.isEmpty && d.twin.queue.isEmpty) || decide (d.twin.drainAt + 2000 * usU ≤ d.now)

/-- Stop, Abort or fault: frames and records in flight are discarded (R747). -/
def Dev.twinOnLeave (d : Dev) : Dev :=
  (d.setTwin fun t => { t with win := [], queue := [], todo := [], reqs := [], late := [] }).twinOffDuty

/-- Block reset: DEPOSED and the fence of a started controller stay (R737, R738). -/
def Dev.twinOnReset (d : Dev) : Dev :=
  { d with twin := { Twin.reset with started := d.twin.started } }

/-! ### Station commands of the firmware (R223, R741) -/

/-- A station command runs, and is mirrored when it ends OK at once. -/
def Dev.staRun (d : Dev) (op s : Nat) (f : Dev → Dev) : Dev :=
  let busy := d.rdB 0x033 MAC_STA_STAT.BUSY
  let d := f d
  if busy || d.rdB 0x033 MAC_STA_STAT.BUSY || decide (d.rd 0x033 MAC_STA_STAT.RESULT ≠ 0) then d else d.twinSta op s

def execStaAdd (sta : Nat) (s : State) : Host.Outcome State Fault Refusal := s.onDev fun d => d.regDo 0x033 fun d => (d.staRun 1 sta (·.staAdd sta)).complete .okay
def execStaSuspend (sta : Nat) (s : State) : Host.Outcome State Fault Refusal := s.onDev fun d => d.regDo 0x033 fun d => (d.staSuspend sta).complete .okay
def execStaResume (sta : Nat) (s : State) : Host.Outcome State Fault Refusal := s.onDev fun d => d.regDo 0x033 fun d => (d.staRun 3 sta (·.staResume sta)).complete .okay
def execStaRemove (sta : Nat) (s : State) : Host.Outcome State Fault Refusal := s.onDev fun d => d.regDo 0x033 fun d => (d.staRun 4 sta (·.staRemove sta)).complete .okay
def execStaFlush (sta tids : Nat) (s : State) : Host.Outcome State Fault Refusal := s.onDev fun d => d.regDo 0x033 fun d => (d.staFlush sta tids).complete .okay

/-- A SUSPEND is done: the Active mirrors it, the Shadow goes on with its list. -/
def Dev.suspendDone (d : Dev) : Dev :=
  match d.mac.cmd with
  | some c =>
    let d := d.staSuspendDone
    if d.rdB 0x033 MAC_STA_STAT.BUSY then d
    else if d.twin.own then d.twinSuspendDone
    else if d.rd 0x033 MAC_STA_STAT.RESULT = 0 then d.twinSta 2 c.sta else d
  | none => d

def execStaSuspendDone (s : State) : Host.Outcome State Fault Refusal := s.onDev (·.suspendDone)

end Sys2Proof.Machine
end

