-- ==== Sys2Proof/Machine/Beat.lean ====
section
/-! DEFINITION. The beat sequencer (R16 to R26, R791) and what every block does at a boundary. -/

namespace Sys2Proof.Machine

/-- A write refused because of the block's activity (R20, R47). -/
def Dev.cfgReject (d : Dev) (p cause off v : Nat) : Dev :=
  (d.wrW p CFG_REJECT.word.off (BitVec.ofNat 32 (1 + 2 * (cause % 2) + off % 2 ^ 16 / 4 * 4 + v % 2 ^ 16 * 2 ^ 16))).ev p 1

/-- Subchannels whose posted mean is at least NF_CAND above the lowest posted one (MAC_PUNCT_CAND). Codes count 0.5 dB. -/
def Dev.punctCand (d : Dev) (x : Nat) : Dev :=
  if 3 ≤ x then d
  else
    let p := 0x020 + x
    let ks := (List.range (widthMhz (d.width x) / 20)).filter fun k => d.rdB p (RXP_NF.VALID.at k)
    let mean (k : Nat) : Nat := d.rd p (RXP_NF.MEAN.at k)
    let low := (ks.map mean).foldl min 255
    d.wr (0x030 + x) MAC_PUNCT_CAND.CAND
      ((ks.filter fun k => decide (low + 2 * d.rd (0x030 + x) MAC_CFG.NF_CAND ≤ mean k)).foldl (fun a k => a + 2 ^ k) 0)

/-- The code P = -128 + 0.5 code dBm nearest to a power in mW times 2^64 (R171). -/
def nfCode (p : Nat) : Nat := (clampInt 0 255 ((dbmFloor p + 513) / 2)).toNat

/-- A block of samples qualifies (R170): armed, not transmitting, and no more than 6 dB above the subchannel's last posted mean. DESIGN
CHOICE (log entry 343): before any mean is posted, every level does. -/
def Dev.nfQualifies (d : Dev) (i k : Nat) (b : NfBlock) : Bool :=
  let w := RXP_NF.word.at k
  b.armed && !b.transmitting
    && (decide (d.rdW (0x020 + i) w.off = 0) || decide (b.recent ≤ mwQ (2 * (d.rd (0x020 + i) (RXP_NF.MEAN.at k) : Int) - 488)))

/-- Post the noise floor of subchannel `k` of instance `i`: linear averages over the qualifying samples of each chain (R170 to
R172). -/
def Dev.postFloor (d : Dev) (i k : Nat) (l : List NfFact) : Dev :=
  let p := 0x020 + i
  let bs := (l.flatMap (·.blocks)).filter (d.nfQualifies i k)
  let us := (bs.map (·.us)).foldl (· + ·) 0
  if us = 0 ∨ us < d.rd p RXP_NF_CFG.MIN_IDLE then d.wr p (RXP_NF.VALID.at k) 0
  else
    let n := (bs.map fun b => b.chains.length).foldl max 0
    let ch := (List.range n).map fun c => ((bs.map fun b => nth 0 b.chains c * b.us).foldl (· + ·) 0) / us
    let top := ch.foldl max 0
    d.wrW p (RXP_NF.word.at k).off
      (BitVec.ofNat 32 (nfCode (ch.foldl (· + ·) 0 / max 1 n) + nfCode top * 2 ^ 8 + nfCode (ch.foldl min top) * 2 ^ 16
        + ch.idxOf top % 16 * 2 ^ 24 + 2 ^ 31))

/-- Post the noise floors of the round ended (R171, R172). -/
def Dev.postFloors (d : Dev) (l : List NfFact) : Dev :=
  d.each 4 fun i e =>
    let p := 0x020 + i
    -- a receiver posts as part of its beats, which it executes in Run alone (R6)
    if e.inService p = false ∨ e.inRun = false then e
    else ((e.each (widthMhz (e.width i) / 20) fun k g => g.postFloor i k (l.filter fun f => decide (f.inst = i) && decide (f.sub = k))).ev
      p 10).punctCand i

/-- Radios that skip the beat just begun: they execute no plan. -/
def Dev.skipMask (d : Dev) : Nat :=
  (((List.range 3).filter fun x => (look d.air.exec x).isNone).map (2 ^ ·)).foldl (· + ·) 0

/-- COST of the plans executed in the beat that ends. -/
def Dev.beatCost (d : Dev) : Nat := (d.air.exec.map fun e => e.2.plan.cost).foldl (· + ·) 0

/-- The quads' junction temperatures are read (CHP_QUAD_STAT.TEMP). DESIGN CHOICE (log entry 334): once per beat, as R686 says
of the chip's sensors. -/
def Dev.quadTempRead (d : Dev) (temps : List Int) : Dev :=
  d.each 6 fun q e =>
    let p := quadPage q
    if e.inReset p || e.unpowered p then e else e.wrS p CHP_QUAD_STAT.TEMP (clampInt (-128) 127 (nth 0 temps q))

/-- A boundary reaches every block: `n` its index. -/
def Dev.boundary (d : Dev) (n : Nat) (f : BeatFact) : Dev :=
  let cost := d.beatCost
  let skipped := d.gov.skipped
  let d := { d with beat := n, time := { d.time with hold := false } }
  let d := (d.wr 0x008 PTP_BEAT_STAGE.PLAN_FROZEN 0).wr 0x008 PTP_BEAT_STAGE.ALLOW_ISSUED 0
  let d := d.when (decide (n % 16 = 0)) fun e => (e.flowsBoundary n).postFloors f.floors
  let d := d.each 3 fun x e =>
    let e := e.banksAtBoundary x n
    let e := e.airBoundary x n (look e.gov.emergency (4 * n + x))
    (e.publishTbtt x n).publishDuty x
  let d := d.takeDone
  let d := d.each 3 fun x e => e.setMacR x { e.macR x with noCts := [] }
  let d := { d with gov := { d.gov with skipped := d.skipMask } }
  let d := d.venBoundary n
  let d := (d.quadTempRead f.quadTemps).when (d.inService pwrPage) (·.tempRead f.temps)
  let d := d.when (decide (n % 16 = 0) && d.inService pwrPage) (·.wr pwrPage PWR_CHIP.MW (min 65535 f.chipMw))
  let d := d.govBoundary n cost f.viSum f.onTime
  let d := d.kovLevel
  let d := d.when (decide (n % 16 = 0) && d.inService pwrPage) (·.thermalRound)
  (d.calRecord n skipped).twinBoundary

/-- The index of the next boundary: the one device time stands in when it was not issued, else the next above every index
issued (R17, R19, R22, R24). -/
def State.nextBoundary (s : State) : Nat :=
  let now := s.dev.now / beatU
  let n := max s.seq.first (match s.seq.last with | some l => l + 1 | none => 0)
  max n (if s.seq.first ≤ now then now else 0)

/-- BEAT_BOUNDARY. While the device is dark its fast counters stand, and no boundary comes (R666). -/
def execBeatBoundary (fact : BeatFact) (s : State) : Host.Outcome State Fault Refusal :=
  if s.dev.rdB 0x008 PTP_BEAT_CTL.BEAT_EN && !s.dev.dark then
    let n := s.nextBoundary
    .next { s with dev := (s.dev.reach (n * beatU)).boundary n fact, seq := { s.seq with last := some n } }
  else .next s

/-- BEAT_EN_SET (R19). -/
def execBeatEnSet (s : State) : Host.Outcome State Fault Refusal :=
  if s.dev.answers 0x008 = false then .next { s with dev := s.dev.complete .unavailable }
  else if s.dev.rdB 0x008 PTP_BEAT_CTL.BEAT_EN then .next { s with dev := s.dev.complete .okay }
  else
    .next { s with dev := (s.dev.wr 0x008 PTP_BEAT_CTL.BEAT_EN 1).complete .okay,
                   seq := { s.seq with first := ceilDiv s.dev.now beatU } }

/-- The beat-driven radio pages (R20). -/
def beatPages : List Nat := [0x020, 0x021, 0x022, 0x023, 0x028, 0x029, 0x02A, 0x030, 0x031, 0x032, 0x038, 0x039, 0x03A, 0x041]

/-- BEAT_EN_CLEAR: refused while a beat-driven radio page is not STOPPED (R20). -/
def Dev.beatEnClear (d : Dev) (value : Nat) : Dev :=
  if beatPages.all fun p => decide (d.bstate p = .stopped) then d.wr 0x008 PTP_BEAT_CTL.BEAT_EN 0
  else if d.rdB 0x008 PTP_BEAT_CTL.BEAT_EN then d.cfgReject 0x008 0 0x408 value
  else d

def execBeatEnClear (value : Nat) (s : State) : Host.Outcome State Fault Refusal :=
  s.onDev fun d => d.regDo 0x008 fun e => (e.beatEnClear (value / 2 * 2)).complete .okay

/-- PTP_BEAT_LO_READ (R791). -/
def Dev.beatLoRead (d : Dev) : Dev :=
  ((d.wr 0x008 PTP_BEAT_HI.BEAT_HI (d.beat / 2 ^ 32)).wr 0x008 PTP_BEAT_STAGE.POS d.pos).complete .okay (d.beat % 2 ^ 32)

def execPtpBeatLoRead (s : State) : Host.Outcome State Fault Refusal := s.onDev (·.regDo 0x008 (·.beatLoRead))

/-- The descriptor of a new precoder job of the plan for beat `m` (R198, R314). -/
def Dev.jobWords (d : Dev) (x m : Nat) (nulls : List Nat) (f : RuFact) (r : PlanRu) : List Nat :=
  let users := r.users.map fun u => u.sta % 4096 + (u.nss - 1) % 8 * 4096
  let half (l : List Nat) (n : Nat) : List Nat := (List.range n).map fun i => nth 0 l (2 * i) + nth 0 l (2 * i + 1) * 2 ^ 16
  [1 + x * 2 ^ 8 + f.method % 4 * 2 ^ 10 + r.precId % 512 * 2 ^ 12 + f.ng % 2 * 2 ^ 21, m % 2 ^ 32,
    r.size % 32 + r.pos % 512 * 2 ^ 5 + d.radioChains x % 32 * 2 ^ 16
      + (r.users.map fun u => u.nss).foldl (· + ·) 0 % 16 * 2 ^ 21 + r.users.length % 16 * 2 ^ 25,
    nulls.length + d.rd (airPage x) AIR_PREC_REG.REG * 2 ^ 16, f.lineBase % 2 ^ 15 + r.userSum * 2 ^ 16]
    ++ half users 4 ++ half nulls 4 ++ [0, 0, 0]

/-- Post the job of an RU whose group needs a new precoder; a post that cannot complete is fault 0x04 of the page. -/
def Dev.postJob (d : Dev) (x m : Nat) (s : Snap) (bw : Nat) (f : RuFact) (r : PlanRu) : Dev :=
  if r.precId = 0x1FF ∨ r.precBeat ≠ m then d
  else if d.inService kclPage = false then d.fault (airPage x) 0x04
  else
    let nulls := (d.ruNulls s (r.subs bw)).map fun n => 2048 + n.1
    let (d, a) := d.draw 30
    (d.cnt (airPage x) AIR_CNT_JOB_POST.COUNT).kovPost (a * 64) (d.jobWords x m (nulls.take (min 8 r.nnull)) f r)

/-- The frozen plan's precoder jobs go to the Koveton cluster (R314). -/
def Dev.postJobs (d : Dev) (x : Nat) (s : Snap) (draft : List PpduFact) : Dev :=
  match (d.buf x s.beat).plan with
  | some p => d.forAll p.ppdus fun q e => e.forAll q.rus fun r g =>
      match (draft.flatMap fun f => f.rus).find? fun f => decide (f.precId = r.precId) with
      | some f => g.postJob x s.beat s q.bw f r
      | none => g
  | none => d

/-- PLAN_FREEZE (R305). -/
def execPlanFreeze (x : Nat) (draft : List PpduFact) (left : List (Nat × Nat)) (noLine : Nat) (s : State) : Host.Outcome State Fault Refusal :=
  s.onDev fun d =>
    match look d.air.snap x with
    | some sn =>
      let e := d.planFreeze x draft left noLine
      if x < 3 ∧ (look e.air.snap x).isNone ∧ (e.buf x sn.beat).st = .frozen then e.postJobs x sn draft else e
    | none => d

end Sys2Proof.Machine
end

