-- ==== Sys2Proof/Machine/Ether.lean ====
section
/-! DEFINITION. The Ethernet MACs: lanes and links (R504 to R508), receiving (R509 to R513), transmitting (R514 to R517),
counters (R518), MDIO (R519), timestamps and crumbs (R529 to R535). -/

namespace Sys2Proof.Machine

def ethPage (m : Nat) : Nat := 0x068 + m
def Dev.ethM (d : Dev) (m : Nat) : EthMac := nth EthMac.reset d.eth m
def Dev.setEth (d : Dev) (m : Nat) (e : EthMac) : Dev := { d with eth := setAt d.eth m e }

/-- Add to the counter in slot `i`, which wraps; a change of its most significant bit is a half-range event (R518). -/
def Dev.ethCnt (d : Dev) (m i : Nat) (n : Nat := 1) : Dev :=
  let p := ethPage m
  let f : Fld := ⟨0x100 + 4 * i, 0, 0, 32⟩
  let c := d.rd p f
  let d := d.wr p f ((c + n) % 2 ^ 32)
  d.when (decide ((c + n) % 2 ^ 32 / 2 ^ 31 ≠ c / 2 ^ 31)) fun e => (e.wr p (ETH_CNT_HALF.word.bitOf i) 1).ev p 8

/-- Add to an octet counter: 64 bits, its low word in slot `i` (R518). -/
def Dev.ethOct (d : Dev) (m : Nat) (tx : Bool) (n : Nat) : Dev :=
  let p := ethPage m
  let i := if tx then 13 else 1
  let e := d.ethM m
  let c := if tx then e.txOct else e.rxOct
  let c' := (c + n) % 2 ^ 64
  let d := d.setEth m (if tx then { e with txOct := c' } else { e with rxOct := c' })
  let d := d.wr p ⟨0x100 + 4 * i, 0, 0, 32⟩ (c' % 2 ^ 32)
  d.when (decide (c' / 2 ^ 63 ≠ c / 2 ^ 63)) fun f => (f.wr p (ETH_CNT_HALF.word.bitOf i) 1).ev p 8

/-- ETH_OCT_LO_READ: the read returns the low word and captures the high word. -/
def Dev.ethOctLoRead (d : Dev) (m : Nat) (tx : Bool) : Dev :=
  if m < 5 then
    let e := d.ethM m
    let c := if tx then e.txOct else e.rxOct
    (d.wr (ethPage m) ⟨if tx then 0x138 else 0x108, 0, 0, 32⟩ (c / 2 ^ 32)).complete .okay (c % 2 ^ 32)
  else d

def execEthOctLoRead (m : Nat) (tx : Bool) (s : State) : Host.Outcome State Fault Refusal := s.onDev (·.regDo (0x068 + m) (·.ethOctLoRead m tx))

/-- The port's RS-FEC is on (R504). -/
def Dev.fecOn (d : Dev) (m : Nat) : Bool :=
  if d.rdB 0x06D ETH_SERDES_MODE.R4 then decide (m = 0)
  else decide (m < 4) && !d.rdB 0x06D (ETH_LANE.SPEED.at m) && d.rdB 0x06D (ETH_LANE.RSFEC.at m)

/-- Line rate of a port in Mb/s (R504, R507). -/
def Dev.ethRate (d : Dev) (m : Nat) : Nat :=
  if m = 4 then
    (if d.rdB 0x06D ETH_SERDES_MODE.E4_SGMII then
      (match d.rd (ethPage 4) ETH_LINK.SPEED with | 0 => 10 | 1 => 100 | _ => 1000) else 1000)
  else if d.rdB 0x06D ETH_SERDES_MODE.R4 then 100000
  else if d.rdB 0x06D (ETH_LANE.SPEED.at m) then 10000 else 25000

/-- A pause time in quanta of 512 bit times, in units of device time. -/
def Dev.quantaU (d : Dev) (m q : Nat) : Nat := q * 512 * 1000 * nsU / d.ethRate m

/-- The link condition of a port's mode (R508); `deskewed` tells whether the lanes of 100GBASE-R4 are. -/
def Dev.linkCond (d : Dev) (m : Nat) (deskewed : Bool) : Bool :=
  let lock (l : Nat) := d.rdB 0x06D (ETH_SERDES_STAT.BLOCK_LOCK l)
  let ber (l : Nat) := d.rdB 0x06D (ETH_SERDES_STAT.HI_BER l)
  if m = 4 then lock 4 && d.rdB 0x06D (ETH_SERDES_STAT.AN_DONE 4)
  else if d.rdB 0x06D ETH_SERDES_MODE.R4 then
    deskewed && decide (m = 0) && (List.range 4).all fun l => lock l && d.rdB 0x06D (ETH_SERDES_STAT.AM_LOCK l) && !ber l
  else lock m && !ber m

def Dev.ethLink (d : Dev) (m : Nat) : Bool := d.rdB (ethPage m) ETH_LINK.LINK

/-! ### Timestamps and crumbs -/

/-- Where a PTP message stands in a frame (R532, R534): its offset, whether it is UDP over IPv4 with the UDP offset, whether
over IPv6, and whether an event message. -/
def ptpAt (l : List Nat) : Option (Nat × Option Nat × Bool × Bool) :=
  let t (i : Nat) := if ob2 l i = 0x8100 ∨ ob2 l i = 0x88A8 then i + 4 else i
  let e := t (t 12)
  if ob2 l e = 0x88F7 then some (e + 2, none, false, decide (ob l (e + 2) % 16 < 4))
  else
    let y := (parseFrame l false).outer
    let port := ob2 l (y.l4At + 2)
    if y.l4 = 17 ∧ (port = 319 ∨ port = 320) ∧ (y.ip = 4 ∨ y.ip = 6) then
      some (y.l4At + 8, if y.ip = 4 then some y.l4At else none, decide (y.ip = 6),
        decide (port = 319) && decide (ob l (y.l4At + 8) % 16 < 4))
    else none

/-- The one-step update of a Sync (R532): none where it does not apply. `ts` in 0.25 ns. -/
def oneStep (l : List Nat) (ts : Nat) : Option (List Nat) :=
  match ptpAt l with
  | some (i, udp, v6, true) =>
    if ob l i % 16 = 0 ∧ v6 = false ∧ bit (ob l (i + 6)) 1 = false then
      let ns := ts / 4
      let l := patch l (i + 34) (beBytes 6 (ns / 1000000000) ++ beBytes 4 (ns % 1000000000))
      let l := patch l (i + 8) (beBytes 8 ((obN l (i + 8) 8 + ts % 4 * 0x4000) % 2 ^ 64))
      some (match udp with | some u => patch l (u + 6) [0, 0] | none => l)
    else none
  | _ => none

/-- Write a crumb (R534, R535): head word 0 without VALID and GAP, and the timestamp. -/
def Dev.crumb (d : Dev) (m : Nat) (t : EthTx) (ts : Nat) (oneStep underrun discard : Bool) : Dev :=
  match t.tsReq with
  | none => d
  | some (ring, desc) =>
    let p := ethPage m
    let e := d.ethM m
    if 64 ≤ e.crumbs.length then
      ((d.setEth m { e with gap := true }).ethCnt m 21).ev p 12
    else
      let q := ptpAt t.octets
      let w0 := 1 + b2n e.gap * 2 + b2n q.isSome * 4 + b2n oneStep * 8 + b2n underrun * 16 + b2n discard * 32
        + (match q with
            | some (i, _) => ob t.octets i % 16 * 2 ^ 8 + ob2 t.octets (i + 30) * 2 ^ 16
            | none => 0)
      let ns := ts / 4
      let c := [w0, ns % 2 ^ 32, ts % 4 * 0x4000 + ns / 1000000000 % 2 ^ 16 * 2 ^ 16, ring % 256 + desc % 131072 * 2 ^ 8]
      ((d.setEth m { e with crumbs := e.crumbs ++ [c], gap := false }).wr p ETH_CRUMB_STAT.COUNT (e.crumbs.length + 1)).ev
        p 11

/-- ETH_CRUMB0_READ (R535). -/
def Dev.ethCrumb0Read (d : Dev) (m : Nat) : Dev :=
  if m < 5 then
    let p := ethPage m
    let e := d.ethM m
    let c := nth [0, 0, 0, 0] e.crumbs 0
    let d := (d.setEth m { e with crumbs := e.crumbs.drop 1 }).wr p ETH_CRUMB_STAT.COUNT (e.crumbs.length - 1)
    let d := ((d.wrW p ETH_CRUMB0.word.off (BitVec.ofNat 32 (nth 0 c 0))).wrW p ETH_CRUMB1.word.off
      (BitVec.ofNat 32 (nth 0 c 1))).wrW p ETH_CRUMB2.word.off (BitVec.ofNat 32 (nth 0 c 2))
    (d.wrW p ETH_CRUMB3.word.off (BitVec.ofNat 32 (nth 0 c 3))).complete .okay (nth 0 c 0)
  else d

def execEthCrumb0Read (m : Nat) (s : State) : Host.Outcome State Fault Refusal := s.onDev (·.regDo (0x068 + m) (·.ethCrumb0Read m))

/-! ### Transmitting (R514 to R517) -/

def isBroadcast (l : List Nat) : Bool := decide (l.take 6 = List.replicate 6 0xFF)
def isGroup (l : List Nat) : Bool := bit (ob l 0) 0

/-- Tag handling at transmission (R515). -/
def Dev.txTag (d : Dev) (m : Nat) (l : List Nat) : List Nat :=
  let p := ethPage m
  let pvid := d.rd p ETH_CFG.PVID
  if outerTagged l then
    if d.rdB p ETH_CFG.TX_STRIP && decide (ob2 l 14 % 4096 = pvid) then l.take 12 ++ l.drop 16 else l
  else if d.rdB p ETH_CFG.TX_INSERT then
    l.take 12 ++ [0x81, 0] ++ beBytes 2 (d.rd p ETH_CFG.DEF_PCP * 8192 + pvid) ++ l.drop 12
  else l

/-- Padding to the minimum frame without FCS. -/
def padTo60 (l : List Nat) : List Nat := l ++ List.replicate (60 - l.length) 0

/-- A frame's baskets are free once its transmission ends. -/
def Dev.txFree (d : Dev) (t : EthTx) : Dev := match t.basket with | some b => d.freeFrame b | none => d

/-- Control frames that waited for the line go out (R513), and are lost while the link is down. -/
def Dev.ctlOut (d : Dev) (m : Nat) : Dev :=
  let e := d.ethM m
  if e.line.isSome then d
  else
    let d := d.setEth m { e with ctl := [] }
    if d.ethLink m then d.forAll e.ctl fun l f => (f.emit (.ethSent m (padTo60 l) true)).ethCnt m 17 else d

/-- ETH_LINK shows the received pauses in force. -/
def Dev.showPause (d : Dev) (m : Nat) : Dev :=
  let e := d.ethM m
  let d := d.wr (ethPage m) ETH_LINK.PAUSED (b2n (look e.pause 8).isSome)
  d.wr (ethPage m) ETH_LINK.PFC_PAUSED (((List.range 8).filter fun q => (look e.pause q).isSome).foldl (fun a q => a + 2 ^ q) 0)

/-- A queue (8: all) is stopped for `quanta`, or resumes. -/
def Dev.pauseNow (d : Dev) (m q quanta : Nat) : Dev :=
  let e := d.ethM m
  let l := if quanta = 0 then del e.pause q else put e.pause q (d.now + d.quantaU m quanta)
  (d.setEth m { e with pause := l }).showPause m

/-- A received pause acts at once, or at the boundary of the frame on the line (R512, R538). -/
def Dev.pauseFor (d : Dev) (m q quanta : Nat) : Dev :=
  let e := d.ethM m
  if e.line.isSome then d.setEth m { e with pauseHeld := put e.pauseHeld q quanta } else d.pauseNow m q quanta

/-- A frame boundary: pauses received during the frame begin, and waiting control frames go out. -/
def Dev.lineFree (d : Dev) (m : Nat) : Dev :=
  let l := (d.ethM m).pauseHeld
  ((d.setEth m { d.ethM m with pauseHeld := [] }).forAll l fun q f => f.pauseNow m q.1 q.2).ctlOut m

/-- A queue is stopped by a received pause (R512). -/
def EthMac.stopped (e : EthMac) (q : Nat) : Bool := (look e.pause 8).isSome || (look e.pause q).isSome

/-- The next frame a MAC serves: the head of the highest queue that is not stopped (R514); while the link is down pauses
do not hold (R517). -/
def EthMac.next (e : EthMac) (up : Bool) : Option (Nat × EthTx) :=
  [7, 6, 5, 4, 3, 2, 1, 0].findSome? fun q =>
    if up && e.stopped q then none else ((lookOr [] e.queues q).head?).map fun t => (q, t)

def EthMac.pop (e : EthMac) (q : Nat) : EthMac := { e with queues := put e.queues q ((lookOr [] e.queues q).drop 1) }

/-- ETH_TX_START (R514 to R517). -/
def Dev.ethTxStart (d : Dev) (m ballQ : Nat) : Dev :=
  let p := ethPage m
  let e := d.ethM m
  let up := d.ethLink m
  if 5 ≤ m ∨ d.active p = false ∨ e.line.isSome then d
  else
    match e.next up with
    | none => d
    | some (q, t) =>
      if (match t.basket with | some b => (look d.pkt.chains b).isNone | none => false) then
        d.enterFault p ⟨0x04, 0, 0⟩
      else if let some u := t.basket.bind d.frameBad then d.enterFault 0x063 ⟨0x04, 0, d.unitAddr u⟩
      else
        let d := d.setEth m (e.pop q)
        let ts := ballQ + d.rd p ETH_TS_ASYM.EGR_DLY
        if up = false then ((d.txFree t).ethCnt m 19).crumb m t ts false false true
        else
          let l := padTo60 (d.txTag m t.octets)
          let one := if d.rdB p ETH_CFG.ONE_STEP then oneStep l ts else none
          let l := one.getD l
          -- TX_TS of a message of venue coordination (R533); the payload begins after its EtherType
          let pay := if outerTagged l then 18 else 14
          let l := if t.ven then patch l (pay + 12) (beBytes 4 (ts / 4 % 2 ^ 32)) else l
          let whole := decide (l.length ≤ d.rd p ETH_TX_THR.START_THR)
          d.setEth m
            { e.pop q with line := some { tx := { t with octets := l }, ts := ts, oneStep := one.isSome, whole := whole } }

def execEthTxStart (m ballQ : Nat) (s : State) : Host.Outcome State Fault Refusal := s.onDev (·.ethTxStart m ballQ)

/-- ETH_TX_UNDERRUN (R516): `sent` octets had left. A frame that was whole in the FIFO at its start cannot underrun. -/
def Dev.ethTxUnderrun (d : Dev) (m sent : Nat) : Dev :=
  let p := ethPage m
  let e := d.ethM m
  match e.line with
  | none => d
  | some f =>
    if f.whole ∨ f.tx.octets.length ≤ sent then d else
    let d := (d.setEth m { e with line := none }).emit (.ethSent m (padTo60 (f.tx.octets.take sent)) false)
    let d := (d.ethCnt m 18).ev p 10
    let thr := min 9732 (d.rd p ETH_TX_THR.START_THR + d.rd p ETH_TX_THR.THR_STEP * 64)
    let d := (d.wr p ETH_TX_THR.START_THR thr).txFree f.tx
    (d.crumb m f.tx f.ts f.oneStep true false).lineFree m

def execEthTxUnderrun (m sent : Nat) (s : State) : Host.Outcome State Fault Refusal := s.onDev (·.ethTxUnderrun m sent)

/-- ETH_TX_DONE (R514, R533, R534). -/
def Dev.ethTxDone (d : Dev) (m : Nat) : Dev :=
  let e := d.ethM m
  match e.line with
  | none => d
  | some f =>
    let l := f.tx.octets
    let d := (d.setEth m { e with line := none }).emit (.ethSent m l true)
    let d := (d.ethCnt m 12).ethOct m true (l.length + 4)
    let d := if isBroadcast l then d.ethCnt m 16 else if isGroup l then d.ethCnt m 15 else d
    -- a LEAVE is no PLAN (R341)
    let plan := f.tx.ven && decide (nth 0 l ((if outerTagged l then 18 else 14) + 2) = 1)
    let d := if plan then { d with ven := { d.ven with sent := (f.ts / 4 % 2 ^ 32 :: d.ven.sent).take 4 } } else d
    ((d.txFree f.tx).crumb m f.tx f.ts f.oneStep false false).lineFree m

def execEthTxDone (m : Nat) (s : State) : Host.Outcome State Fault Refusal := s.onDev (·.ethTxDone m)

/-! ### Links -/

/-- SERDES_LANE_STATUS_CHANGE: the six status bits of a lane. -/
def Dev.serdesLaneStatusChange (d : Dev) (lane status : Nat) : Dev :=
  let f : Fld := ⟨0x98, 0, 6 * lane, 6⟩
  if lane < 5 ∧ d.active 0x06D ∧ d.rd 0x06D f ≠ status % 64 then (d.wr 0x06D f status).ev 0x06D 8 else d

def execSerdesLaneStatusChange (lane status : Nat) (s : State) : Host.Outcome State Fault Refusal :=
  s.onDev (·.serdesLaneStatusChange lane status)

/-- The frame on the line when its link is lost (R517). -/
def Dev.lineLost (d : Dev) (m : Nat) : Dev :=
  let e := d.ethM m
  match e.line with
  | none => d
  | some f => ((((d.setEth m { e with line := none }).txFree f.tx).ethCnt m 19).crumb m f.tx f.ts f.oneStep false true).lineFree m

/-- ETH_LINK_CHANGE (R508). -/
def Dev.ethLinkChange (d : Dev) (m : Nat) (deskewed : Bool) (speed : Nat) : Dev :=
  let p := ethPage m
  let up := d.linkCond m deskewed
  if 5 ≤ m ∨ d.inReset p ∨ up = d.ethLink m then d
  else
    let d := ((d.wr p ETH_LINK.LINK (b2n up)).wr p ETH_LINK.SPEED
      (if m = 4 ∧ d.rdB 0x06D ETH_SERDES_MODE.E4_SGMII then min 2 speed else 2)).ev p 9
    if up then d else d.lineLost m

def execEthLinkChange (m : Nat) (deskewed : Bool) (speed : Nat) (s : State) : Host.Outcome State Fault Refusal :=
  s.onDev (·.ethLinkChange m deskewed speed)

/-! ### Pauses (R512, R513) -/

/-- A received MAC Control frame acts (R512). -/
def Dev.macControl (d : Dev) (m : Nat) (l : List Nat) : Dev :=
  let p := ethPage m
  let op := ob2 l 14
  let d := d.when (decide (op = 0x0001) || decide (op = 0x0101)) (·.ethCnt m 11)
  if d.rdB p ETH_CFG.RX_PAUSE_EN = false then d
  else if op = 0x0001 ∧ d.rdB p ETH_CFG.PFC_EN = false then d.pauseFor m 8 (ob2 l 16)
  else if op = 0x0101 ∧ d.rdB p ETH_CFG.PFC_EN then
    d.each 8 fun q e => if bit (ob2 l 16) q then e.pauseFor m q (ob2 l (18 + 2 * q)) else e
  else d

/-- PAUSE_TIME_EXPIRY (R512); queue 8 stands for all of them. -/
def Dev.pauseTimeExpiry (d : Dev) (m q : Nat) : Dev :=
  match look (d.ethM m).pause q with
  | some t =>
    let d := d.reach t
    (d.setEth m { d.ethM m with pause := del (d.ethM m).pause q }).showPause m
  | none => d

def execPauseTimeExpiry (m queue : Nat) (s : State) : Host.Outcome State Fault Refusal := s.onDev (·.pauseTimeExpiry m queue)

/-- Send a generated PAUSE or PFC frame of time `t` at the next frame boundary (R513). -/
def Dev.sendPause (d : Dev) (m t : Nat) : Dev :=
  let p := ethPage m
  let sa := leBytes 4 (d.rd p ETH_ADDR_LO.ADDR) ++ leBytes 2 (d.rd p ETH_ADDR_HI.ADDR)
  let mask := d.rd p ETH_PAUSE.PFC_TX_MASK
  let body := if d.rdB p ETH_CFG.PFC_EN then
      beBytes 2 0x0101 ++ beBytes 2 mask ++ (List.range 8).flatMap fun q => beBytes 2 (if bit mask q then t else 0)
    else beBytes 2 0x0001 ++ beBytes 2 t
  let e := d.ethM m
  (d.setEth m { e with ctl := e.ctl ++ [[0x01, 0x80, 0xC2, 0, 0, 0x01] ++ sa ++ [0x88, 0x08] ++ body] }).ctlOut m

/-- The FIFO fill reached XOFF (R513). -/
def Dev.fillCheck (d : Dev) (m : Nat) : Dev :=
  let p := ethPage m
  if d.rdB p ETH_CFG.TX_PAUSE_EN && decide ((d.ethM m).gen = none)
      && decide (256 * d.rd p ETH_FIFO_THR.XOFF ≤ d.rxFill m) then
    (d.setEth m { d.ethM m with gen := some d.now }).sendPause m (d.rd p ETH_PAUSE.QUANTA)
  else d

/-- PAUSE_REPEAT (R513). -/
def Dev.pauseRepeat (d : Dev) (m : Nat) : Dev :=
  let p := ethPage m
  match (d.ethM m).gen with
  | some t =>
    if 256 * d.rd p ETH_FIFO_THR.XON ≤ d.rxFill m ∧ d.active p then
      let d := d.reach (t + d.quantaU m (d.rd p ETH_PAUSE.QUANTA) / 2)
      (d.setEth m { d.ethM m with gen := some d.now }).sendPause m (d.rd p ETH_PAUSE.QUANTA)
    else d
  | none => d

def execPauseRepeat (m : Nat) (s : State) : Host.Outcome State Fault Refusal := s.onDev (·.pauseRepeat m)

/-- FIFO_BELOW_XON (R513). -/
def Dev.fifoBelowXon (d : Dev) (m : Nat) : Dev :=
  if (d.ethM m).gen.isSome ∧ d.rxFill m < 256 * d.rd (ethPage m) ETH_FIFO_THR.XON ∧ d.active (ethPage m) then
    (d.setEth m { d.ethM m with gen := none }).sendPause m 0
  else d

def execFifoBelowXon (m : Nat) (s : State) : Host.Outcome State Fault Refusal := s.onDev (·.fifoBelowXon m)

/-! ### Receiving (R509 to R511) -/

/-- Step 4: the address filter (R509, R510). -/
def Dev.ethFilter (d : Dev) (m : Nat) (l : List Nat) : Bool :=
  let p := ethPage m
  let da := ofLeBytes (l.take 6)
  let own := d.rd p ETH_ADDR_LO.ADDR + d.rd p ETH_ADDR_HI.ADDR % 2 ^ 16 * 2 ^ 32
  let h := crc32 (l.take 6) / 2 ^ 23
  if d.rdB p ETH_CFG.PROMISC then true
  else if isBroadcast l then !d.rdB p ETH_CFG.BCAST_DROP
  else decide (da = own)
    || (List.range 8).any (fun k => d.rdB p (ETH_PADDR.EN.at k)
        && decide (d.rd p (ETH_PADDR.ADDR_LO.at k) + d.rd p (ETH_PADDR.ADDR_HI.at k) * 2 ^ 32 = da))
    || (isGroup l && (d.rdB p ETH_CFG.PASS_ALL_MCAST || bit (d.rd p (ETH_MC_HASH.BITS.at (h / 32))) (h % 32)))

/-- Step 5: tag insertion (R511). -/
def Dev.rxTag (d : Dev) (m : Nat) (l : List Nat) : List Nat :=
  let p := ethPage m
  let mode := d.rd p ETH_CFG.RX_TAG
  let pvid := d.rd p ETH_CFG.PVID
  if mode ≠ 1 ∧ mode ≠ 2 then l
  else if outerTagged l = false then
    l.take 12 ++ [0x81, 0] ++ beBytes 2 (d.rd p ETH_CFG.DEF_PCP * 8192 + pvid) ++ l.drop 12
  else if mode = 2 ∧ ob2 l 14 % 4096 = 0 then patch l 14 (beBytes 2 (ob2 l 14 + pvid))
  else l

/-- The FCS of IEEE 802.3 at a frame's end is right. -/
def ethFcsOk (l : List Nat) : Bool :=
  decide (4 ≤ l.length) && decide (ofLeBytes (l.drop (l.length - 4)) = crc32 (l.take (l.length - 4)))

/-- ETH_FRAME_RECEIVED: octets with their FCS, whether the PCS saw an error inside the frame, the time of its timestamp point
at the ball in 0.25 ns, and the codewords of RS-FEC that were corrected and that could not be, in the frame. -/
def Dev.ethFrameReceived (d : Dev) (m : Nat) (l : List Nat) (codeErr : Bool) (ballQ corr uncorr : Nat) : Dev :=
  let p := ethPage m
  if 5 ≤ m ∨ d.inService p = false ∨ d.ethLink m = false then d
  else
    let fec := d.fecOn m
    let d := d.when fec fun e => (e.ethCnt m 22 corr).ethCnt m 23 uncorr
    let len := l.length
    let good := ethFcsOk l
    let l := l.take (len - 4)
    if codeErr || fec && decide (uncorr ≠ 0) then d.ethCnt m 6
    else if good = false then d.ethCnt m 5
    else if len < 64 then d.ethCnt m 7
    else if d.rd p ETH_MAX_LEN.MAX_LEN < len then d.ethCnt m 8
    else if ob2 l 12 = 0x8808 then d.macControl m l
    else if d.ethFilter m l = false then d.ethCnt m 9
    else
      let t := d.rxTag m l
      if 131072 < d.rxFill m + t.length then d.ethCnt m 10
      else
        let ts := ballQ - d.rd p ETH_TS_ASYM.ING_DLY
        let d := (d.ethCnt m 0).ethOct m false len
        let d := if isBroadcast l then d.ethCnt m 4 else if isGroup l then d.ethCnt m 3 else d
        let f : PFrame :=
          { basket := 0, src := m, dot11 := false, info := 0, tsNs := ts / 4 % 2 ^ 32, tsFrac := ts % 4 * 0x4000,
            cookie := 0, tsReq := none, direct := none, menu := 0, kt2 := 0xF, inner := false }
        (d.pktIn f t).1.fillCheck m

def execEthFrameReceived (m : Nat) (octets : List Nat) (codeErr : Bool) (ballNs ballFrac fecCorr fecUncorr : Nat)
    (s : State) : Host.Outcome State Fault Refusal :=
  s.onDev (·.ethFrameReceived m octets codeErr (ballNs * 4 + ballFrac % 4) fecCorr fecUncorr)

/-! ### MDIO (R519) -/

/-- Page 0x06C owns the MDC and MDIO balls with their functions (R519, R752). -/
def Dev.mdioOwned (d : Dev) : Bool :=
  (List.range 2).all fun k =>
    decide (d.owner 0 k = ownerCode 0x06C) && decide (d.rd 0x000 (PIN_OWN_BALL.FUNC.at k) = 21 + k)

/-- A command goes to the bus of the MDIO master, where it owns the balls. -/
def Dev.mdioSent (d : Dev) (op : Nat) (c45 : Bool) (phyad reg data : Nat) : Dev :=
  let p := 0x06C
  let d := (d.wr p ETH_MDIO_CMD.DATA data).wr p ETH_MDIO_CMD.REG reg
  let d := ((d.wr p ETH_MDIO_CMD.PHYAD phyad).wr p ETH_MDIO_CMD.OP op).wr p ETH_MDIO_CMD.C45 (b2n c45)
  let d := (d.wr p ETH_MDIO_CMD.GO 1).wr p ETH_MDIO_STAT.BUSY 1
  (d.setEth 4 { d.ethM 4 with mdio := some op }).when d.mdioOwned (·.emit (.mdio op c45 (phyad % 32) (reg % 32) (data % 2 ^ 16)))

/-- A command of the MDIO master: nothing while it is busy or its page takes no work. -/
def Dev.mdioGo (d : Dev) (op : Nat) (c45 : Bool) (phyad reg data : Nat) : Dev :=
  if d.rdB 0x06C ETH_MDIO_STAT.BUSY ∨ d.inService 0x06C = false then d else d.mdioSent op c45 phyad reg data

/-- The data word staged for a read; a read sends none. -/
def Dev.mdioData (d : Dev) : Nat := d.rd 0x06C ETH_MDIO_CMD.DATA

def execMdioAddress (c45 : Bool) (phyad reg data : Nat) (s : State) : Host.Outcome State Fault Refusal :=
  s.onDev (·.regDo 0x06C (·.mdioGo 0 c45 phyad reg data))
def execMdioWrite (c45 : Bool) (phyad reg data : Nat) (s : State) : Host.Outcome State Fault Refusal :=
  s.onDev (·.regDo 0x06C (·.mdioGo 1 c45 phyad reg data))
def execMdioReadInc (c45 : Bool) (phyad reg : Nat) (s : State) : Host.Outcome State Fault Refusal :=
  s.onDev fun d => d.regDo 0x06C fun d => d.mdioGo 2 c45 phyad reg d.mdioData
def execMdioRead (c45 : Bool) (phyad reg : Nat) (s : State) : Host.Outcome State Fault Refusal :=
  s.onDev fun d => d.regDo 0x06C fun d => d.mdioGo 3 c45 phyad reg d.mdioData

/-- MDIO_DONE; what a read of balls that the page does not own returns is free. -/
def Dev.mdioDone (d : Dev) (rdata : Nat) : Dev :=
  match (d.ethM 4).mdio with
  | none => d
  | some op =>
    let d := d.setEth 4 { d.ethM 4 with mdio := none }
    let d := d.when (decide (2 ≤ op)) fun e =>
      if e.mdioOwned then e.wr 0x06C ETH_MDIO_STAT.RDATA rdata else e.wrFree 0x06C ETH_MDIO_STAT.RDATA
    ((d.wr 0x06C ETH_MDIO_STAT.BUSY 0).wr 0x06C ETH_MDIO_CMD.GO 0).ev 0x06C 13

def execMdioDone (rdata : Nat) (s : State) : Host.Outcome State Fault Refusal := s.onDev (·.mdioDone rdata)

/-! ### Starting and leaving -/

/-- First failed check of a Start of MAC page `m` (R505, R506, the register tables). -/
def Dev.ethStartCheck (d : Dev) (m : Nat) : Option Nat :=
  let p := ethPage m
  let ml := d.rd p ETH_MAX_LEN.MAX_LEN
  if (d.rdB 0x06D ETH_SERDES_MODE.R4 ∧ 1 ≤ m ∧ m ≤ 3) ∨ d.bstate 0x06D ≠ .running
    ∨ d.rd p ETH_FIFO_THR.XOFF ≤ d.rd p ETH_FIFO_THR.XON ∨ ml < 64 ∨ 9732 < ml then some 0x03
  else none

/-- First failed check of a Start of the SerDes page. -/
def Dev.serdesStartCheck (d : Dev) : Option Nat :=
  if (List.range 5).any fun l => decide (31 < d.rd 0x06D (ETH_LANE.TX_PRE.at l)) || decide (31 < d.rd 0x06D (ETH_LANE.TX_POST.at l))
  then some 0x03 else none

/-- A MAC page discards its work (R538, R539): queued frames and their baskets go; the frame on the line ends with a
complemented FCS, and had started, so that its crumb is written (R534). -/
def Dev.ethOnLeave (d : Dev) (m : Nat) : Dev :=
  let e := d.ethM m
  let d := match e.line with
    | some f => ((d.emit (.ethSent m (padTo60 f.tx.octets) false)).txFree f.tx).crumb m f.tx f.ts f.oneStep false false
    | none => d
  let d := d.forAll (e.queues.flatMap (·.2)) fun t f => f.txFree t
  let d := d.setEth m { d.ethM m with queues := [], line := none, ctl := [], pause := [], pauseHeld := [], gen := none, mdio := none }
  (d.when (decide (m = 4)) fun f => (f.wr 0x06C ETH_MDIO_STAT.BUSY 0).wr 0x06C ETH_MDIO_CMD.GO 0).showPause m

/-- Every frame of a draining MAC is gone, and its MDIO command has ended (R54, R539). -/
def Dev.ethDrained (d : Dev) (m : Nat) : Bool :=
  (d.ethM m).line.isNone && (d.ethM m).mdio.isNone && (d.ethM m).queues.all fun q => q.2.isEmpty

end Sys2Proof.Machine
end

