-- ==== Sys2Proof/Machine/Koveton.lean ====
section
/-! DEFINITION. The instruction set of a Koveton core (R415 to R426, R430 to R436, R445): one operation per mnemonic of R420,
and the command that issues the bundle a core stands at. -/

namespace Sys2Proof.Machine

/-! ### Vector and accumulator operations -/

def opCmul (d : Dev) (_ : Nat) (c : KCore) (o : Nat) : KRes := kPutA d c (kD o) (kSat o) (cprod (c.vR (kA o)) (c.vR (kB o)) false)
def opCmulj (d : Dev) (_ : Nat) (c : KCore) (o : Nat) : KRes := kPutA d c (kD o) (kSat o) (cprod (c.vR (kA o)) (c.vR (kB o)) true)

/-- Add (`sub` false) or subtract exact products to or from an accumulator. -/
def kAcc (d : Dev) (c : KCore) (o : Nat) (sub : Bool) (p : List Int) : KRes :=
  kPutA d c (kD o) (kSat o) (zipInt (fun a b => if sub then a - b else a + b) (aInts (c.aR (kD o))) p)

def opCmac (d : Dev) (_ : Nat) (c : KCore) (o : Nat) : KRes := kAcc d c o false (cprod (c.vR (kA o)) (c.vR (kB o)) false)
def opCmacj (d : Dev) (_ : Nat) (c : KCore) (o : Nat) : KRes := kAcc d c o false (cprod (c.vR (kA o)) (c.vR (kB o)) true)
def opCmsu (d : Dev) (_ : Nat) (c : KCore) (o : Nat) : KRes := kAcc d c o true (cprod (c.vR (kA o)) (c.vR (kB o)) false)
def opCmsuj (d : Dev) (_ : Nat) (c : KCore) (o : Nat) : KRes := kAcc d c o true (cprod (c.vR (kA o)) (c.vR (kB o)) true)
def opRmul (d : Dev) (_ : Nat) (c : KCore) (o : Nat) : KRes := kPutA d c (kD o) (kSat o) (rprod (c.vR (kA o)) (c.vR (kB o)))
def opRmac (d : Dev) (_ : Nat) (c : KCore) (o : Nat) : KRes := kAcc d c o false (rprod (c.vR (kA o)) (c.vR (kB o)))
def opRdmac (d : Dev) (_ : Nat) (c : KCore) (o : Nat) : KRes :=
  kAcc d c o false (zipInt (· + ·) (rprod (c.vR (kA o)) (c.vR (kB o))) (rprod (c.vR (kA o + 1)) (c.vR (kB o + 1))))

def opAext (d : Dev) (_ : Nat) (c : KCore) (o : Nat) : KRes :=
  if 39 < kSh o then kFreeV d c (kD o)
  else kPutV d c (kD o) ((aInts (c.aR (kA o))).map fun x => narrow16 (kSat o) (shrSat (kSat o) x (kSh o)))

def opAld (d : Dev) (_ : Nat) (c : KCore) (o : Nat) : KRes :=
  if 24 < kSh o then kFreeA d c (kD o)
  else kPutA d c (kD o) (kSat o) ((vInts (c.vR (kA o))).map fun x => x * (2 ^ kSh o : Nat))

def opAadd (d : Dev) (_ : Nat) (c : KCore) (o : Nat) : KRes :=
  kPutA d c (kD o) (kSat o) (zipInt (· + ·) (aInts (c.aR (kA o))) (aInts (c.aR (kB o))))
def opAsub (d : Dev) (_ : Nat) (c : KCore) (o : Nat) : KRes :=
  kPutA d c (kD o) (kSat o) (zipInt (· - ·) (aInts (c.aR (kA o))) (aInts (c.aR (kB o))))

def opAred (d : Dev) (_ : Nat) (c : KCore) (o : Nat) : KRes :=
  let a := aInts (c.aR (kA o))
  let sum (odd : Nat) : Int := ((List.range 8).map fun l => nth 0 a (2 * l + odd)).foldl (· + ·) 0
  kPutA d c (kD o) (kSat o) ([sum 0, sum 1] ++ List.replicate 14 0)

def opAexp (d : Dev) (_ : Nat) (c : KCore) (o : Nat) : KRes :=
  kPutS d c (kD o) (BitVec.ofInt 32 ((((c.aR (kA o)).map rsb).foldl min 39 : Nat) - (24 : Int)))

/-- The shift count of a normalisation (R418). -/
def normCount (s : BitVec 32) : Int := clampInt (-39) 39 s.toInt

/-- `x` shifted left by `n`, or right with the rounding of `sat`. -/
def normShift (sat : Nat) (x n : Int) : Int :=
  if 0 ≤ n then x * (2 ^ n.toNat : Nat) else shrSat sat x (-n).toNat

def opAnorm (d : Dev) (_ : Nat) (c : KCore) (o : Nat) : KRes :=
  kPutA d c (kD o) 1 ((aInts (c.aR (kA o))).map fun x => normShift (kSat o) x (normCount (c.sR (kB o))))

def opVexp (d : Dev) (_ : Nat) (c : KCore) (o : Nat) : KRes :=
  kPutS d c (kD o) (BitVec.ofNat 32 (((c.vR (kA o)).map rsb).foldl min 15))

def opVnorm (d : Dev) (_ : Nat) (c : KCore) (o : Nat) : KRes :=
  kPutV d c (kD o) ((vInts (c.vR (kA o))).map fun x => narrow16 1 (normShift (kSat o) x (normCount (c.sR (kB o)))))

def opSexp (d : Dev) (_ : Nat) (c : KCore) (o : Nat) : KRes := kPutS d c (kD o) (BitVec.ofNat 32 (rsb (c.sR (kA o))))

/-- A vector operation element by element on exact integers. -/
def kVec (d : Dev) (c : KCore) (o : Nat) (l : List Int) : KRes := kPutV d c (kD o) (l.map (narrow16 (kSat o)))

def opVadd (d : Dev) (_ : Nat) (c : KCore) (o : Nat) : KRes := kVec d c o (zipInt (· + ·) (vInts (c.vR (kA o))) (vInts (c.vR (kB o))))
def opVsub (d : Dev) (_ : Nat) (c : KCore) (o : Nat) : KRes := kVec d c o (zipInt (· - ·) (vInts (c.vR (kA o))) (vInts (c.vR (kB o))))

def opVshr (d : Dev) (_ : Nat) (c : KCore) (o : Nat) : KRes :=
  if 15 < kSh o then kFreeV d c (kD o)
  else kVec d c o ((vInts (c.vR (kA o))).map fun x => shrSat (kSat o) x (kSh o))
def opVshl (d : Dev) (_ : Nat) (c : KCore) (o : Nat) : KRes :=
  if 15 < kSh o then kFreeV d c (kD o)
  else kVec d c o ((vInts (c.vR (kA o))).map fun x => x * (2 ^ kSh o : Nat))

def opVmax (d : Dev) (_ : Nat) (c : KCore) (o : Nat) : KRes := kVec d c o (zipInt max (vInts (c.vR (kA o))) (vInts (c.vR (kB o))))
def opVmin (d : Dev) (_ : Nat) (c : KCore) (o : Nat) : KRes := kVec d c o (zipInt min (vInts (c.vR (kA o))) (vInts (c.vR (kB o))))

def opVabs2 (d : Dev) (_ : Nat) (c : KCore) (o : Nat) : KRes :=
  kVec d c o ((List.range 8).flatMap fun l =>
    let p := laneOf (c.vR (kA o)) l
    [shrSat (kSat o) (p.1 * p.1 + p.2 * p.2) 15, 0])

def opVconj (d : Dev) (_ : Nat) (c : KCore) (o : Nat) : KRes :=
  kVec d c o ((List.range 8).flatMap fun l => let p := laneOf (c.vR (kA o)) l; [p.1, -p.2])
def opVneg (d : Dev) (_ : Nat) (c : KCore) (o : Nat) : KRes := kVec d c o ((vInts (c.vR (kA o))).map fun x => -x)
def opVmov (d : Dev) (_ : Nat) (c : KCore) (o : Nat) : KRes := .plain d (c.vW (kD o) (c.vR (kA o)))

/-- Lane `l` of a vector. -/
def kLane (v : List (BitVec 16)) (l : Nat) : List (BitVec 16) := [nth 0 v (2 * l), nth 0 v (2 * l + 1)]

def opVbc (d : Dev) (_ : Nat) (c : KCore) (o : Nat) : KRes :=
  .plain d (c.vW (kD o) (List.replicate 8 (kLane (c.vR (kA o)) (kSh o % 8))).flatten)
def opVilv (d : Dev) (_ : Nat) (c : KCore) (o : Nat) : KRes :=
  .plain d (c.vW (kD o) ((List.range 4).flatMap fun i =>
    let l := i + 4 * (kSh o % 2)
    kLane (c.vR (kA o)) l ++ kLane (c.vR (kB o)) l))

/-- An approximation: `f` of an element from 2^14 up, within 1 of the stated value; the stated saturation elsewhere, or free. -/
def kApprox (d : Dev) (c : KCore) (o : Nat) (satTo : Int) (f : Nat → Nat) : KRes :=
  let v := c.vR (kA o)
  let l := (List.range 16).map fun e =>
    let x := (nth 0 v e).toInt
    let r := Config.freeValue (d.draws + e)
    if x ≤ satTo then (0x7FFF#16, true)
    else if x < 0x4000 then (BitVec.ofNat 16 r, false)
    else narrow16 1 ((f x.toNat : Int) + (r % 3 : Nat) - 1)
  kPutV { d with draws := d.draws + 16 } c (kD o) l

/-- 2^28 / x reaches 32,768 for x up to 8,192. -/
def opVrcp (d : Dev) (_ : Nat) (c : KCore) (o : Nat) : KRes := kApprox d c o 8192 fun x => (2 ^ 29 / x + 1) / 2
/-- 2^21 / √x reaches 32,768 for x up to 4,096. -/
def opVrsq (d : Dev) (_ : Nat) (c : KCore) (o : Nat) : KRes := kApprox d c o 4096 fun x => (isqrt (2 ^ 44 / x) + 1) / 2

def opVins (d : Dev) (_ : Nat) (c : KCore) (o : Nat) : KRes :=
  .plain d (c.vW (kD o) (setAt (c.vR (kD o)) (kSh o % 16) ((c.sR (kA o)).setWidth 16)))
def opVext (d : Dev) (_ : Nat) (c : KCore) (o : Nat) : KRes :=
  kPutS d c (kD o) ((nth 0 (c.vR (kA o)) (kSh o % 16)).signExtend 32)

/-! ### Scalar operations -/

/-- Z and N of a result. -/
def KCore.zn (c : KCore) (r : BitVec 32) : KCore := (c.setFlag 0 (r == 0)).setFlag 1 r.msb

/-- Flags of a sum. -/
def KCore.addFlags (c : KCore) (a b : BitVec 32) : KCore :=
  ((c.zn (a + b)).setFlag 2 (decide (2 ^ 32 ≤ a.toNat + b.toNat))).setFlag 3 (a.msb == b.msb && (a + b).msb != a.msb)

/-- Flags of a difference. -/
def KCore.subFlags (c : KCore) (a b : BitVec 32) : KCore :=
  ((c.zn (a - b)).setFlag 2 (decide (b.toNat ≤ a.toNat))).setFlag 3 (a.msb != b.msb && (a - b).msb != a.msb)

/-- A scalar result whose C and V the spec does not state. -/
def kPutZn (d : Dev) (c : KCore) (dst : Nat) (r : BitVec 32) : KRes :=
  let f := Config.freeValue d.draws
  .plain { d with draws := d.draws + 1 } (((c.zn r).setFlag 2 (bit f 0)).setFlag 3 (bit f 1) |>.sW dst r)

def opSadd (d : Dev) (_ : Nat) (c : KCore) (o : Nat) : KRes :=
  let a := c.sR (kA o)
  let b := c.sR (kB o)
  kPutS d (c.addFlags a b) (kD o) (a + b)
def opSsub (d : Dev) (_ : Nat) (c : KCore) (o : Nat) : KRes :=
  let a := c.sR (kA o)
  let b := c.sR (kB o)
  kPutS d (c.subFlags a b) (kD o) (a - b)
def opSand (d : Dev) (_ : Nat) (c : KCore) (o : Nat) : KRes := kPutZn d c (kD o) (c.sR (kA o) &&& c.sR (kB o))
def opSor (d : Dev) (_ : Nat) (c : KCore) (o : Nat) : KRes := kPutZn d c (kD o) (c.sR (kA o) ||| c.sR (kB o))
def opSxor (d : Dev) (_ : Nat) (c : KCore) (o : Nat) : KRes := kPutZn d c (kD o) (c.sR (kA o) ^^^ c.sR (kB o))
def opSshl (d : Dev) (_ : Nat) (c : KCore) (o : Nat) : KRes := kPutZn d c (kD o) (c.sR (kA o) <<< ((c.sR (kB o)).toNat % 32))
def opSshr (d : Dev) (_ : Nat) (c : KCore) (o : Nat) : KRes :=
  kPutZn d c (kD o) ((c.sR (kA o)).sshiftRight ((c.sR (kB o)).toNat % 32))
def opSmul (d : Dev) (_ : Nat) (c : KCore) (o : Nat) : KRes := kPutZn d c (kD o) (c.sR (kA o) * c.sR (kB o))
def opScmp (d : Dev) (_ : Nat) (c : KCore) (o : Nat) : KRes := .plain d (c.subFlags (c.sR (kA o)) (c.sR (kB o)))

/-- IMM18. -/
def kImm (o : Nat) : BitVec 18 := BitVec.ofNat 18 o

def opSaddi (d : Dev) (_ : Nat) (c : KCore) (o : Nat) : KRes :=
  let a := c.sR (kA o)
  let b := (kImm o).signExtend 32
  kPutS d (c.addFlags a b) (kD o) (a + b)
def opSli (d : Dev) (_ : Nat) (c : KCore) (o : Nat) : KRes := kPutS d c (kD o) ((kImm o).signExtend 32)
def opSlui (d : Dev) (_ : Nat) (c : KCore) (o : Nat) : KRes :=
  kPutS d c (kD o) (((c.sR (kD o)) &&& 0x3FFF#32) ||| ((kImm o).setWidth 32 <<< 14))

/-- The register that SMVA's CODE names (R422). -/
def Dev.smvaRead (d : Dev) (k : Nat) (c : KCore) (code : Nat) : BitVec 32 :=
  if code < 8 then (c.tR code).setWidth 32
  else if code < 16 then (c.dR (code - 8)).signExtend 32
  else if code < 24 then (c.wR (code - 16)).setWidth 32
  else if code = 24 then c.lrR.setWidth 32
  else if code = 25 then c.status
  else if code < 29 then BitVec.ofNat 32 (c.loopR (code - 26)).count
  else if code = 29 then BitVec.ofNat 32 c.cyc
  else if code = 30 then BitVec.ofNat 32 c.mbx.length
  else BitVec.ofNat 32 (d.rd (corePage k) KOV_DMA_STAT.LAST)

def KCore.smvaWrite (c : KCore) (code : Nat) (v : BitVec 32) : KCore :=
  if code < 8 then c.tW code (v.setWidth 18)
  else if code < 16 then c.dW (code - 8) (v.setWidth 18)
  else if code < 24 then c.wW (code - 16) (v.setWidth 29)
  else if code = 24 then c.lrW (v.setWidth 12)
  else if code = 25 then c.stW v
  else c.loopW (code - 26) { c.loopR (code - 26) with count := v.toNat % 2 ^ 16 }

def opSmva (d : Dev) (k : Nat) (c : KCore) (o : Nat) : KRes :=
  if kDir o then kPutS d c (kD o) (d.smvaRead k c (kCode o)) else .plain d (c.smvaWrite (kCode o) (c.sR (kD o)))

/-- Fabric address of a scalar access (R420). -/
def kSAddr (k : Nat) (c : KCore) (o : Nat) : Nat :=
  let t := (c.tR (kT o)).toNat
  let a := (((t % 0x20000 : Nat) : Int) + toSigned 17 o) % 0x20000
  coreBase k + 0x20000 * (t / 0x20000) + a.toNat / 4 * 4

def opSld (d : Dev) (k : Nat) (c : KCore) (o : Nat) : KRes := kPutS d c (kD o) (BitVec.ofNat 32 (d.ld (kSAddr k c o) 4))
def opSst (d : Dev) (k : Nat) (c : KCore) (o : Nat) : KRes := .plain (d.st (kSAddr k c o) 4 (c.sR (kD o)).toNat) c

/-! ### Control -/

/-- COND of BR (R421). -/
def KCore.cond (c : KCore) (n : Nat) : Bool :=
  let z := c.flag 0
  let less := c.flag 1 != c.flag 3
  match n with
  | 0 => true
  | 1 => z
  | 2 => !z
  | 3 => less
  | 4 => !less
  | 5 => z || less
  | 6 => !z && !less
  | 7 => !c.flag 2
  | 8 => c.flag 2
  | 9 => c.flag 4
  | _ => !c.flag 4

def opBr (d : Dev) (_ : Nat) (c : KCore) (o : Nat) : KRes :=
  if c.cond (kD o) then
    let t := kTarget o
    let c := match c.inner with
      | some l => if l.start ≤ t ∧ t ≤ l.fin then c else c.ldW (c.ldR - 1)
      | none => c
    { d := d, c := c, jump := some (t, 3), sat := false }
  else .plain d c

def opCall (d : Dev) (k : Nat) (c : KCore) (o : Nat) : KRes :=
  { d := d, c := c.lrW (BitVec.ofNat 12 (d.corePc k + 1)), jump := some (kTarget o, 3), sat := false }
def opRet (d : Dev) (_ : Nat) (c : KCore) (_ : Nat) : KRes := { d := d, c := c, jump := some (c.lrR.toNat, 3), sat := false }

/-- LOOP (R423): a count of 0 skips the body, and the loops around it that end on the same bundle are examined (R425). -/
def opLoop (d : Dev) (k : Nat) (c : KCore) (o : Nat) : KRes :=
  let n := if bit o 9 then (if bits o 0 9 = 0 then 512 else bits o 0 9) else (c.sR (kD o)).toNat % 2 ^ 16
  if n = 0 then
    let r := kNext c (kTarget o)
    { d := d, c := r.1, jump := some r.2, sat := false }
  else
    .plain d ((c.loopW c.ldR { count := n, start := (d.corePc k + 1) % 4096, fin := kTarget o }).ldW (c.ldR + 1))

/-- A count is exhausted at `pc`: that loop ends, and the loops around it that end there are examined (R425). -/
def kExhaust (c : KCore) (pc : Nat) : Nat → KCore × Nat × Nat
  | 0 => ({ c with exhaust := false }, (pc + 1) % 4096, 0)
  | n + 1 =>
    let r := kNext { c.ldW (c.ldR - 1) with exhaust := false } pc
    if r.1.exhaust then kExhaust r.1 pc n else r

def execLoopCountExhausted (core : Nat) (s : State) : Host.Outcome State Fault Refusal :=
  s.onDev fun d =>
    let c := d.core core
    if decide (core < 16) && c.exhaust && d.active (corePage core) then
      let r := kExhaust c (d.corePc core) 3
      let t := d.coreTick core r.2.2 r.1
      (t.1.setCore core t.2).setPc core r.2.1
    else d

def opReti (d : Dev) (_ : Nat) (c : KCore) (_ : Nat) : KRes :=
  { d := d, c := { c with inN := false }.setFlag 8 true, jump := some (c.retN, 3), sat := false }
def opRetf (d : Dev) (_ : Nat) (c : KCore) (_ : Nat) : KRes :=
  { d := d, c := { c with inF := false, bank := false }, jump := some (c.retF, 3), sat := false }

/-! ### System operations -/

/-- An entry goes to the mailbox of the core named; a core out of service takes none. -/
def opMbs (d : Dev) (k : Nat) (c : KCore) (o : Nat) : KRes :=
  let v := c.sR (kD o)
  if kA o = k then .plain (d.mbxSync k (c.mbx ++ [v])) { c with mbx := c.mbx ++ [v] }
  else .plain (d.when (d.active (corePage (kA o))) (·.mbxPush (kA o) v)) c

def Dev.mbsRoom (d : Dev) (k : Nat) : Bool :=
  decide ((d.core (kA (d.bundle k (d.corePc k)).1)).mbx.length < 8)

def opMbr (d : Dev) (k : Nat) (c : KCore) (o : Nat) : KRes :=
  kPutS (d.mbxSync k (c.mbx.drop 1)) { c with mbx := c.mbx.drop 1 } (kD o) (nth 0 c.mbx 0)

def execMbs (core : Nat) (ecc : EccFact) (s : State) : Host.Outcome State Fault Refusal :=
  s.onDev fun d => if d.mbsRoom core then d.kovIssue core 0x39 ecc opMbs else d.kovWait core 0x39 2 ecc
def execMbsRoom (core : Nat) (s : State) : Host.Outcome State Fault Refusal :=
  s.onDev fun d => if d.mbsRoom core then d.kovResume core 0x39 opMbs else d

def execMbr (core : Nat) (ecc : EccFact) (s : State) : Host.Outcome State Fault Refusal :=
  s.onDev fun d => if (d.core core).mbx.isEmpty then d.kovWait core 0x3A 2 ecc else d.kovIssue core 0x3A ecc opMbr
def execMbrEntryArrives (core : Nat) (s : State) : Host.Outcome State Fault Refusal :=
  s.onDev fun d => if (d.core core).mbx.isEmpty then d else d.kovResume core 0x3A opMbr

/-- BAR (R434): the core arrives and waits; a core outside MASK faults. -/
def Dev.kovBar (d : Dev) (k : Nat) (ecc : EccFact) : Dev :=
  if d.kovAt k 0x3B = false ∨ d.coreWait k ≠ 0 then d
  else
    let n := (d.bundle k (d.corePc k)).1 % 8
    let e := d.kovWait k 0x3B 3 ecc
    if e.coreWait k ≠ 3 then e
    else if bit (d.rd kclPage (KOV_BAR.MASK.at n)) k then
      e.wr kclPage (KOV_BAR.ARRIVED.at n) (e.rd kclPage (KOV_BAR.ARRIVED.at n) ||| 2 ^ k)
    else (e.setWait k 0).coreFault k 0x43 n 0

def execBar (core : Nat) (ecc : EccFact) (s : State) : Host.Outcome State Fault Refusal :=
  s.onDev (·.kovBar core ecc)

/-- DMQ: the descriptor at the X address in a scalar joins the core's own channel. -/
def opDmq (d : Dev) (k : Nat) (c : KCore) (o : Nat) : KRes :=
  let a := (c.sR (kD o)).toNat
  .plain (d.dmaPost k a (toWords (d.ldBytes (coreBase k + a % 0x20000) 32) 8)) c

def execDmq (core : Nat) (ecc : EccFact) (s : State) : Host.Outcome State Fault Refusal :=
  s.onDev fun d => if 16 ≤ (d.chan core).queue.length then d.kovWait core 0x3C 4 ecc else d.kovIssue core 0x3C ecc opDmq
def execDmqRoom (core : Nat) (s : State) : Host.Outcome State Fault Refusal :=
  s.onDev fun d => if 16 ≤ (d.chan core).queue.length then d else d.kovResume core 0x3C opDmq

/-- The core's channel has at most the descriptors that DMW names. -/
def Dev.dmwDone (d : Dev) (k : Nat) : Bool := decide ((d.chan k).queue.length ≤ (d.bundle k (d.corePc k)).1 % 32)

def opDmw (d : Dev) (_ : Nat) (c : KCore) (_ : Nat) : KRes := .plain d c

def execDmw (core : Nat) (ecc : EccFact) (s : State) : Host.Outcome State Fault Refusal :=
  s.onDev fun d => if d.dmwDone core then d.kovIssue core 0x3D ecc opDmw else d.kovWait core 0x3D 4 ecc
def execDmwWaitEnds (core : Nat) (s : State) : Host.Outcome State Fault Refusal :=
  s.onDev fun d => if d.dmwDone core then d.kovResume core 0x3D opDmw else d

/-- The core stops issuing. -/
def opHalt (d : Dev) (k : Nat) (c : KCore) (_ : Nat) : KRes :=
  .plain ((d.wr (corePage k) KOV_CORE_STAT.RSTATE 3).ev (corePage k) 9) c

/-- Status of a job's end: the byte of its JEND; of a job of the precoder kernel a status of R201 by what became of its commit (R450). -/
def Dev.jendStatus (d : Dev) (k : Nat) (j : KJob) (st : Nat) : Nat :=
  match d.kernelJob k with
  | some _ => if j.busy then 6 else nth 0 [0, 0, 1, 0, 8] (d.rd (corePage k) KOV_DMA_STAT.LAST)
  | none => st

/-- JEND (R445): the job ends with its status byte; free running, as HALT. -/
def opJend (d : Dev) (k : Nat) (c : KCore) (o : Nat) : KRes :=
  match c.job with
  | some j =>
    let st := d.jendStatus k j (o % 256)
    let c := { c with job := none }
    let d := ((d.setCore k c).wr (corePage k) KOV_CORE_STAT.RSTATE 0).wr (corePage k) KOV_CORE_STAT.JOB_TYPE 0
    .plain ((d.ev (corePage k) 8).jobEnd j (some k) st) c
  | none => opHalt d k c o

/-! ### The commands -/

def execNop (core : Nat) (ecc : EccFact) (s : State) : Host.Outcome State Fault Refusal :=
  s.onDev (·.kovIssue core 0x00 ecc opNop)
def execCmul (core : Nat) (ecc : EccFact) (s : State) : Host.Outcome State Fault Refusal :=
  s.onDev (·.kovIssue core 0x01 ecc opCmul)
def execCmulj (core : Nat) (ecc : EccFact) (s : State) : Host.Outcome State Fault Refusal :=
  s.onDev (·.kovIssue core 0x02 ecc opCmulj)
def execCmac (core : Nat) (ecc : EccFact) (s : State) : Host.Outcome State Fault Refusal :=
  s.onDev (·.kovIssue core 0x03 ecc opCmac)
def execCmacj (core : Nat) (ecc : EccFact) (s : State) : Host.Outcome State Fault Refusal :=
  s.onDev (·.kovIssue core 0x04 ecc opCmacj)
def execCmsu (core : Nat) (ecc : EccFact) (s : State) : Host.Outcome State Fault Refusal :=
  s.onDev (·.kovIssue core 0x05 ecc opCmsu)
def execCmsuj (core : Nat) (ecc : EccFact) (s : State) : Host.Outcome State Fault Refusal :=
  s.onDev (·.kovIssue core 0x06 ecc opCmsuj)
def execRmul (core : Nat) (ecc : EccFact) (s : State) : Host.Outcome State Fault Refusal :=
  s.onDev (·.kovIssue core 0x07 ecc opRmul)
def execRmac (core : Nat) (ecc : EccFact) (s : State) : Host.Outcome State Fault Refusal :=
  s.onDev (·.kovIssue core 0x08 ecc opRmac)
def execRdmac (core : Nat) (ecc : EccFact) (s : State) : Host.Outcome State Fault Refusal :=
  s.onDev (·.kovIssue core 0x09 ecc opRdmac)
def execAext (core : Nat) (ecc : EccFact) (s : State) : Host.Outcome State Fault Refusal :=
  s.onDev (·.kovIssue core 0x0A ecc opAext)
def execAld (core : Nat) (ecc : EccFact) (s : State) : Host.Outcome State Fault Refusal :=
  s.onDev (·.kovIssue core 0x0B ecc opAld)
def execAadd (core : Nat) (ecc : EccFact) (s : State) : Host.Outcome State Fault Refusal :=
  s.onDev (·.kovIssue core 0x0C ecc opAadd)
def execAsub (core : Nat) (ecc : EccFact) (s : State) : Host.Outcome State Fault Refusal :=
  s.onDev (·.kovIssue core 0x0D ecc opAsub)
def execAred (core : Nat) (ecc : EccFact) (s : State) : Host.Outcome State Fault Refusal :=
  s.onDev (·.kovIssue core 0x0E ecc opAred)
def execAexp (core : Nat) (ecc : EccFact) (s : State) : Host.Outcome State Fault Refusal :=
  s.onDev (·.kovIssue core 0x0F ecc opAexp)
def execAnorm (core : Nat) (ecc : EccFact) (s : State) : Host.Outcome State Fault Refusal :=
  s.onDev (·.kovIssue core 0x10 ecc opAnorm)
def execVexp (core : Nat) (ecc : EccFact) (s : State) : Host.Outcome State Fault Refusal :=
  s.onDev (·.kovIssue core 0x11 ecc opVexp)
def execVnorm (core : Nat) (ecc : EccFact) (s : State) : Host.Outcome State Fault Refusal :=
  s.onDev (·.kovIssue core 0x12 ecc opVnorm)
def execSexp (core : Nat) (ecc : EccFact) (s : State) : Host.Outcome State Fault Refusal :=
  s.onDev (·.kovIssue core 0x13 ecc opSexp)
def execVadd (core : Nat) (ecc : EccFact) (s : State) : Host.Outcome State Fault Refusal :=
  s.onDev (·.kovIssue core 0x14 ecc opVadd)
def execVsub (core : Nat) (ecc : EccFact) (s : State) : Host.Outcome State Fault Refusal :=
  s.onDev (·.kovIssue core 0x15 ecc opVsub)
def execVshr (core : Nat) (ecc : EccFact) (s : State) : Host.Outcome State Fault Refusal :=
  s.onDev (·.kovIssue core 0x16 ecc opVshr)
def execVshl (core : Nat) (ecc : EccFact) (s : State) : Host.Outcome State Fault Refusal :=
  s.onDev (·.kovIssue core 0x17 ecc opVshl)
def execVmax (core : Nat) (ecc : EccFact) (s : State) : Host.Outcome State Fault Refusal :=
  s.onDev (·.kovIssue core 0x18 ecc opVmax)
def execVmin (core : Nat) (ecc : EccFact) (s : State) : Host.Outcome State Fault Refusal :=
  s.onDev (·.kovIssue core 0x19 ecc opVmin)
def execVabs2 (core : Nat) (ecc : EccFact) (s : State) : Host.Outcome State Fault Refusal :=
  s.onDev (·.kovIssue core 0x1A ecc opVabs2)
def execVconj (core : Nat) (ecc : EccFact) (s : State) : Host.Outcome State Fault Refusal :=
  s.onDev (·.kovIssue core 0x1B ecc opVconj)
def execVneg (core : Nat) (ecc : EccFact) (s : State) : Host.Outcome State Fault Refusal :=
  s.onDev (·.kovIssue core 0x1C ecc opVneg)
def execVmov (core : Nat) (ecc : EccFact) (s : State) : Host.Outcome State Fault Refusal :=
  s.onDev (·.kovIssue core 0x1D ecc opVmov)
def execVbc (core : Nat) (ecc : EccFact) (s : State) : Host.Outcome State Fault Refusal :=
  s.onDev (·.kovIssue core 0x1E ecc opVbc)
def execVilv (core : Nat) (ecc : EccFact) (s : State) : Host.Outcome State Fault Refusal :=
  s.onDev (·.kovIssue core 0x1F ecc opVilv)
def execVrcp (core : Nat) (ecc : EccFact) (s : State) : Host.Outcome State Fault Refusal :=
  s.onDev (·.kovIssue core 0x20 ecc opVrcp)
def execVrsq (core : Nat) (ecc : EccFact) (s : State) : Host.Outcome State Fault Refusal :=
  s.onDev (·.kovIssue core 0x21 ecc opVrsq)
def execVins (core : Nat) (ecc : EccFact) (s : State) : Host.Outcome State Fault Refusal :=
  s.onDev (·.kovIssue core 0x22 ecc opVins)
def execVext (core : Nat) (ecc : EccFact) (s : State) : Host.Outcome State Fault Refusal :=
  s.onDev (·.kovIssue core 0x23 ecc opVext)
def execSadd (core : Nat) (ecc : EccFact) (s : State) : Host.Outcome State Fault Refusal :=
  s.onDev (·.kovIssue core 0x24 ecc opSadd)
def execSsub (core : Nat) (ecc : EccFact) (s : State) : Host.Outcome State Fault Refusal :=
  s.onDev (·.kovIssue core 0x25 ecc opSsub)
def execSand (core : Nat) (ecc : EccFact) (s : State) : Host.Outcome State Fault Refusal :=
  s.onDev (·.kovIssue core 0x26 ecc opSand)
def execSor (core : Nat) (ecc : EccFact) (s : State) : Host.Outcome State Fault Refusal :=
  s.onDev (·.kovIssue core 0x27 ecc opSor)
def execSxor (core : Nat) (ecc : EccFact) (s : State) : Host.Outcome State Fault Refusal :=
  s.onDev (·.kovIssue core 0x28 ecc opSxor)
def execSshl (core : Nat) (ecc : EccFact) (s : State) : Host.Outcome State Fault Refusal :=
  s.onDev (·.kovIssue core 0x29 ecc opSshl)
def execSshr (core : Nat) (ecc : EccFact) (s : State) : Host.Outcome State Fault Refusal :=
  s.onDev (·.kovIssue core 0x2A ecc opSshr)
def execSmul (core : Nat) (ecc : EccFact) (s : State) : Host.Outcome State Fault Refusal :=
  s.onDev (·.kovIssue core 0x2B ecc opSmul)
def execScmp (core : Nat) (ecc : EccFact) (s : State) : Host.Outcome State Fault Refusal :=
  s.onDev (·.kovIssue core 0x2C ecc opScmp)
def execSaddi (core : Nat) (ecc : EccFact) (s : State) : Host.Outcome State Fault Refusal :=
  s.onDev (·.kovIssue core 0x2D ecc opSaddi)
def execSli (core : Nat) (ecc : EccFact) (s : State) : Host.Outcome State Fault Refusal :=
  s.onDev (·.kovIssue core 0x2E ecc opSli)
def execSlui (core : Nat) (ecc : EccFact) (s : State) : Host.Outcome State Fault Refusal :=
  s.onDev (·.kovIssue core 0x2F ecc opSlui)
def execSmva (core : Nat) (ecc : EccFact) (s : State) : Host.Outcome State Fault Refusal :=
  s.onDev (·.kovIssue core 0x30 ecc opSmva)
def execSld (core : Nat) (ecc : EccFact) (s : State) : Host.Outcome State Fault Refusal :=
  s.onDev (·.kovIssue core 0x31 ecc opSld)
def execSst (core : Nat) (ecc : EccFact) (s : State) : Host.Outcome State Fault Refusal :=
  s.onDev (·.kovIssue core 0x32 ecc opSst)
def execBr (core : Nat) (ecc : EccFact) (s : State) : Host.Outcome State Fault Refusal :=
  s.onDev (·.kovIssue core 0x33 ecc opBr)
def execCall (core : Nat) (ecc : EccFact) (s : State) : Host.Outcome State Fault Refusal :=
  s.onDev (·.kovIssue core 0x34 ecc opCall)
def execRet (core : Nat) (ecc : EccFact) (s : State) : Host.Outcome State Fault Refusal :=
  s.onDev (·.kovIssue core 0x35 ecc opRet)
def execLoop (core : Nat) (ecc : EccFact) (s : State) : Host.Outcome State Fault Refusal :=
  s.onDev (·.kovIssue core 0x36 ecc opLoop)
def execReti (core : Nat) (ecc : EccFact) (s : State) : Host.Outcome State Fault Refusal :=
  s.onDev (·.kovIssue core 0x37 ecc opReti)
def execRetf (core : Nat) (ecc : EccFact) (s : State) : Host.Outcome State Fault Refusal :=
  s.onDev (·.kovIssue core 0x38 ecc opRetf)
def execJend (core : Nat) (ecc : EccFact) (s : State) : Host.Outcome State Fault Refusal :=
  s.onDev (·.kovIssue core 0x3E ecc opJend)
def execHalt (core : Nat) (ecc : EccFact) (s : State) : Host.Outcome State Fault Refusal :=
  s.onDev (·.kovIssue core 0x3F ecc opHalt)

end Sys2Proof.Machine
end

