-- ==== Sys2Proof/Machine/Pcie.lean ====
section
/-! DEFINITION. PCI Express (R550 to R559): link, outbound reads, configuration, MSI-X, resets, messages. Requests that
arrive from the link stand with the fabric. -/

namespace Sys2Proof.Machine

def Dev.endpoint (d : Dev) : Bool := d.rdB 0x130 PCIE_CTL.MODE
def Dev.linkUp (d : Dev) : Bool := d.rdB 0x130 PCIE_LINK.UP

/-- An event of PCIE_INT. -/
def Dev.pcieInt (d : Dev) (b : Nat) : Dev := d.wr 0x130 (PCIE_INT.word.bitOf b) 1

/-! ### Outbound reads (R552) -/

/-- An outbound request of `who` ends: a control core keeps the data for the load that waits. -/
def Dev.outGives (d : Dev) (who : Initiator) (c : Code) (data : Nat) : Dev :=
  let d := (d.emit (.outRead who c data)).complete c data
  match who with
  | .hart k => { d with pcie := { d.pcie with got := put d.pcie.got k (if c = .okay then some data else none) } }
  | _ => d

/-- Completions of outbound requests whose turn has come reach their initiators, each initiator's in order (R13). -/
def Dev.outDeliver (d : Dev) : Dev :=
  let step (r : Dev × List Initiator × List OutRead) (q : OutRead) : Dev × List Initiator × List OutRead :=
    match q.answer, r.2.1.contains q.who with
    | some a, false => (r.1.outGives q.who a.1 a.2, r.2.1, r.2.2)
    | _, _ => (r.1, q.who :: r.2.1, r.2.2 ++ [q])
  let r := d.pcie.reads.foldl step (d, [], [])
  { r.1 with pcie := { r.1.pcie with reads := r.2.2 } }

/-- Outbound read `i` ends with a code, for its initiator once every earlier request of it has ended. -/
def Dev.outEnd (d : Dev) (i : Nat) (c : Code) (data : Nat) : Dev :=
  match d.pcie.reads[i]? with
  | some r =>
    if r.answer.isSome then d
    else
      let a := (c, if c = .okay then data % 256 ^ r.size else 0)
      ({ d with pcie := { d.pcie with reads := setAt d.pcie.reads i { r with answer := some a } } } : Dev).outDeliver
  | none => d

/-- Every outbound request that waits ends BLOCK_UNAVAILABLE. -/
def Dev.outDrop (d : Dev) : Dev :=
  ({ d with pcie := { d.pcie with reads := d.pcie.reads.map fun r => { r with answer := some (r.answer.getD (.unavailable, 0)) } } } : Dev).outDeliver

/-- The fabric code of a PCI Express outcome: 0 Successful, 1 Unsupported Request, 2 Completer Abort, 3 poisoned. -/
def outcomeCode : Nat → Code
  | 0 => .okay
  | 1 => .decodeError
  | 2 => .denied
  | _ => .dataError

def execPcieOutboundCompletion (index outcome data : Nat) (s : State) : Host.Outcome State Fault Refusal :=
  s.onDev fun d => d.outEnd index (outcomeCode outcome) data

/-- CPL_TO in µs. -/
def Dev.cplTo (d : Dev) : Nat := max 50 (min 50000 (d.rd 0x130 PCIE_CPL_TO.CPL_TO))

/-- An outbound read found no completion within CPL_TO. -/
def Dev.cplTimeout (d : Dev) (i : Nat) : Dev :=
  match d.pcie.reads[i]? with
  | some r =>
    if r.answer.isSome then d else
    let d := d.reach ((r.since + d.cplTo * 1000) * nsU)
    ((d.cnt 0x130 PCIE_ERR_CNT.CPL_TO_CNT).pcieInt 2).outEnd i .dataError 0
  | none => d

def execPcieCplTimeout (index : Nat) (s : State) : Host.Outcome State Fault Refusal := s.onDev (·.cplTimeout index)

/-! ### The link -/

/-- The link comes up, at a rate and width that PCIE_CTL allows, or goes down. -/
def Dev.linkChange (d : Dev) (up : Bool) (gen width : Nat) (reversed : Bool) : Dev :=
  if up then
    if d.linkUp ∨ d.rdB 0x130 PCIE_CTL.LTSSM_EN = false ∨ d.pcie.perst ∨ gen < 1 ∨ d.rd 0x130 PCIE_CTL.MAX_GEN + 1 < gen
        ∨ width < 1 ∨ (if d.rdB 0x130 PCIE_CTL.X1 then 1 else 2) < width then d
    else
      let d := ((d.wr 0x130 PCIE_LINK.UP 1).wr 0x130 PCIE_LINK.GEN gen).wr 0x130 PCIE_LINK.WIDTH width
      (d.wr 0x130 PCIE_LINK.REVERSED (b2n reversed)).pcieInt 0
  else if d.linkUp then ((d.wrW 0x130 PCIE_LINK.word.off 0).pcieInt 1).outDrop
  else d

def execPcieLinkChange (up : Bool) (gen width : Nat) (reversed : Bool) (s : State) : Host.Outcome State Fault Refusal :=
  s.onDev (·.linkChange up gen width reversed)

/-- PCIE_L1_CHANGE: 0 the link leaves L1, 1 it enters L1 (allowed by ASPM_L1), 2 an L1 exit is requested. -/
def Dev.l1Change (d : Dev) (kind : Nat) : Dev :=
  if d.linkUp = false then d
  else if kind = 0 then d.wr 0x130 PCIE_LINK.L1 0
  else if kind = 1 then (if d.rdB 0x130 PCIE_CTL.ASPM_L1 then d.wr 0x130 PCIE_LINK.L1 1 else d)
  else if d.rdB 0x130 PCIE_LINK.L1 then d.raiseWake 6
  else d

def execPcieL1Change (kind : Nat) (s : State) : Host.Outcome State Fault Refusal := s.onDev (·.l1Change kind)

/-- An error message arrives, or an endpoint detects an error. -/
def execPcieErrorMessage (s : State) : Host.Outcome State Fault Refusal :=
  s.onDev fun d => if d.linkUp || d.endpoint then d.pcieInt 3 else d

/-- Assert_INTx or Deassert_INTx of pin 0 to 3 (INTA to INTD), in root-complex mode (R556). -/
def Dev.intxMessage (d : Dev) (pin : Nat) (high : Bool) : Dev :=
  if d.endpoint ∨ d.linkUp = false ∨ 4 ≤ pin then d
  else
    let x := d.ctl.intx
    { d with ctl := { d.ctl with intx := if high then x ||| 2 ^ pin else x &&& (15 - 2 ^ pin) } }

def execPcieIntxMessage (pin : Nat) (high : Bool) (s : State) : Host.Outcome State Fault Refusal := s.onDev (·.intxMessage pin high)

/-! ### Configuration (R557, R559) -/

/-- A word of the configuration space; the words that hold this device's own values read as those. -/
def Dev.cfgWord (d : Dev) (o : Nat) : Nat :=
  if o = 0x00 then 0x9324 * 2 ^ 16 + ofLeBytes (d.otpBytes 0x240 2)
  else if o = 0x08 then 0x028000B0
  else if o = 0x2C then ofLeBytes (d.otpBytes 0x242 4)
  else (d.rdW 0x133 o).toNat

/-- The function is reset (R557): configuration space at its reset values, outbound reads complete. -/
def Dev.functionReset (d : Dev) (event : Nat) : Dev :=
  ((d.forAll (d.listed 0x133 0 0x1000) fun o e => e.wrW 0x133 o (regDefault (regKey 0x133 o))).outDrop).pcieInt event

def execPcieFlr (s : State) : Host.Outcome State Fault Refusal :=
  s.onDev fun d => if d.endpoint && d.linkUp then d.functionReset 4 else d

/-- PERST_N is asserted: a function reset, and a wake event (R557, R672). -/
def Dev.perstAssert (d : Dev) : Dev :=
  if d.pcie.perst then d
  else ({ d.functionReset 5 with pcie := { (d.functionReset 5).pcie with perst := true } } : Dev).raiseWake 6

def execPerstAssert (s : State) : Host.Outcome State Fault Refusal := s.onDev (·.perstAssert)

/-- PERST_N is deasserted. -/
def execPerstRelease (s : State) : Host.Outcome State Fault Refusal :=
  s.onDev fun d => if d.pcie.perst then ({ d with pcie := { d.pcie with perst := false } } : Dev).raiseWake 6 else d

/-- The type of a configuration request to BUS; none when it is not sent (R559). -/
def Dev.cfgType (d : Dev) : Option Nat :=
  let w := d.cfgWord 0x18
  let bus := d.rd 0x133 PCIE_CFG_ADDR.BUS
  if d.endpoint ∨ d.linkUp = false then none
  else if bus = bits w 8 8 then some 0
  else if bits w 8 8 < bus ∧ bus ≤ bits w 16 8 then some 1
  else none

/-- A configuration request: sent, or ended UR without being sent. -/
def Dev.cfgAccess (d : Dev) (write : Option Nat) (status data : Nat) : Dev :=
  match d.cfgType with
  | none => (d.wr 0x133 PCIE_CFG_STAT.STATUS 1).complete .okay (if write.isNone then 2 ^ 32 - 1 else 0)
  | some t =>
    let d := d.emit (.cfgRequest write t (d.rd 0x133 PCIE_CFG_ADDR.BUS) (d.rd 0x133 PCIE_CFG_ADDR.DEV)
      (d.rd 0x133 PCIE_CFG_ADDR.FUNC) (d.rd 0x133 PCIE_CFG_ADDR.REG))
    let st := min 3 status
    (d.wr 0x133 PCIE_CFG_STAT.STATUS st).complete .okay
      (if write.isSome then 0 else if st = 0 then data % 2 ^ 32 else 2 ^ 32 - 1)

def execPcieCfgRead (status data : Nat) (s : State) : Host.Outcome State Fault Refusal := s.onDev (·.regDo 0x133 (·.cfgAccess none status data))
def execPcieCfgWrite (value status : Nat) (s : State) : Host.Outcome State Fault Refusal :=
  s.onDev (·.regDo 0x133 (·.cfgAccess (some (value % 2 ^ 32)) status 0))

/-! ### MSI-X (R555) -/

/-- Word `k` of the table entry of vector `v`. -/
def Dev.msixW (d : Dev) (v k : Nat) : Nat := (d.rdW 0x133 (0x1000 + 16 * v + 4 * k)).toNat

/-- Send the message of vector `v`, or leave it pending while it is masked. -/
def Dev.msixSend (d : Dev) (v : Nat) : Dev :=
  if bit (d.msixW v 3) 0 then { d with pcie := { d.pcie with pba := d.pcie.pba ||| 2 ^ v } }
  else { d.emit (.msix v (d.msixW v 0 + d.msixW v 1 * 2 ^ 32) (d.msixW v 2)) with
           pcie := { d.pcie with pba := if bit d.pcie.pba v then d.pcie.pba - 2 ^ v else d.pcie.pba } }

/-- The source mapped to vector `v` rises. -/
def Dev.msixSignal (d : Dev) (v : Nat) : Dev :=
  if v < 64 ∧ d.endpoint ∧ d.linkUp ∧ d.rdB 0x132 (PCIE_MSIX_MAP.EN.at v)
      ∧ d.plicRaised (d.rd 0x132 (PCIE_MSIX_MAP.SOURCE.at v)) then d.msixSend v
  else d

def execMsixVectorSignal (v : Nat) (s : State) : Host.Outcome State Fault Refusal := s.onDev (·.msixSignal v)

/-- A write of the table; unmasking a pending vector sends it. -/
def Dev.msixWrite (d : Dev) (o v : Nat) : Dev :=
  let d := d.wrW 0x133 o (BitVec.ofNat 32 v)
  let k := (o - 0x1000) / 16
  d.when (decide (o % 16 = 12) && bit d.pcie.pba k && !bit v 0) (·.msixSend k)

end Sys2Proof.Machine
end

