-- ==== Sys2Proof/Machine/RadioCmd.lean ====
section
/-! DEFINITION. Commands of the radios that end in a completion of the transmit path: synthesiser hops and losses (R91 to R97),
transmit commands (R98 to R121, R180 to R184, R216), contention (R237 to R249). Each hands its completions on and lets the
twin's marks go out. -/

namespace Sys2Proof.Machine

/-- Completions reach the transmit path, the MAC and the scheduler (R216); numbers that crossed their strides go to the twin
(R741). -/
def Dev.settle (d : Dev) : Dev := d.takeDone.twinMarks

/-- A write of CHP_SYN_CHAN (R92). -/
def execHopCommand (x centre width : Nat) (s : State) : Host.Outcome State Fault Refusal :=
  s.onDev fun d => d.regDo 0x016 fun d => if x < 4 then ((d.hopCommand x centre width).settle).complete .okay else d

/-- A hop command with CENTRE 0. -/
def execSynOffHop (x : Nat) (s : State) : Host.Outcome State Fault Refusal :=
  s.onDev fun d => d.regDo 0x016 fun d => if x < 4 then ((d.hopCommand x 0 (d.rd synPage (CHP_SYN_CHAN.WIDTH.at x))).settle).complete .okay else d

def execLockLost (x : Nat) (s : State) : Host.Outcome State Fault Refusal :=
  s.onDev fun d => if x < 4 then (d.lockLost x).settle else d

/-- SETTLING for 150 µs without lock (R91). -/
def execSettlingTimeout (x : Nat) (s : State) : Host.Outcome State Fault Refusal :=
  s.onDev fun d => if x < 4 then (d.lockTimeout x 1 150).settle else d

/-- RELOCKING for 100 µs (R91). -/
def execRelockTimeout (x : Nat) (s : State) : Host.Outcome State Fault Refusal :=
  s.onDev fun d => if x < 4 then (d.lockTimeout x 4 100).settle else d

/-! ### Transmit commands -/

/-- A response that cannot start by its latest start is not transmitted (R184). -/
def Dev.respLate (d : Dev) (x : Nat) : Dev :=
  match look d.tx.ready x with
  | some q =>
    if q.isResponse ∧ q.latest < q.start then
      let d := (d.reach (q.latest * nsU))
      { d with tx := { d.tx with ready := del d.tx.ready x } }.giveDone
        { radio := x, kind := .response, beat := d.beat, status := 0xB, clamped := false, scale := 0, chainLost := false,
          paOver := 0, first := 0, ru := [] }
    else d
  | none => d

def execRespLate (x : Nat) (s : State) : Host.Outcome State Fault Refusal := s.onDev fun d => (d.respLate x).settle

/-- The transmit path hands its readied request to the chain pool (R98, R181). -/
def Dev.handOver (d : Dev) (x : Nat) : Dev :=
  match look d.tx.ready x with
  | some q =>
    if q.isResponse ∧ q.latest < q.start then d.respLate x
    else if d.takesTx x = false then d
    else ({ d with tx := { d.tx with ready := del d.tx.ready x } } : Dev).txCommand x q
  | none => d

def execTxCommand (x : Nat) (s : State) : Host.Outcome State Fault Refusal :=
  s.onDev fun d => if x < 3 then (d.handOver x).settle else d

def execTxDropPoint (x : Nat) (s : State) : Host.Outcome State Fault Refusal := s.onDev fun d => (d.txDropPoint x).settle

def execTxSequenceStart (x : Nat) (s : State) : Host.Outcome State Fault Refusal :=
  s.onDev fun d => (d.txSequenceStart x).settle

/-- What a transmitted PPDU does to the PAs (R720, R721) and to the sums of the calibration record (R691). -/
def Dev.ppduWear (d : Dev) (x : Nat) (c : TxCmd) (pdet : List PdetFact) (temps : List Int) : Dev :=
  let d := d.each 16 fun r e =>
    if bit c.chains r = false then e
    else match e.chainOf x r with
      | none => e
      | some ch =>
        let p := nth 0 c.powers r
        let e := e.paStress ch p (nth 0 temps (ch / 4)) c.dur
        if c.dur < 16000 then e
        else match pdet.find? fun f => decide (f.chain = r) with
          | some f => e.paGain ch (e.pdetPower ch (bandOf (e.centre x)) f.mean - 25 * p)
          | none => e
  match (if c.ndpa.isSome then .response else c.kind), look d.air.exec x with
  | .planned i, some e =>
    (match e.plan.ppdus[i]? with
      | some p =>
        let n := ((List.range 16).filter (bit p.chains)).length
        let psum := (p.rus.map fun r => mwQ r.power).foldl (· + ·) 0
        let st := (p.rus.map fun r => r.nss * r.tonesIn p.bw).foldl (· + ·) 0
        d.calSum x [n * p.dur, psum * p.dur, p.dur, st * p.dur, n * p.resp]
      | none => d)
  | _, _ => d

/-- TX_PPDU_END: `pdet` are detector samples, `temps` the temperature of each quad. -/
def Dev.ppduEnd (d : Dev) (x : Nat) (pdet : List PdetFact) (temps : List Int) : Dev :=
  match d.txOf x with
  | some c =>
    if c.phase = .sending then ((d.ppduWear x c pdet temps).txPpduEnd x pdet).settle else d
  | none => d

def execTxPpduEnd (x : Nat) (pdet : List PdetFact) (temps : List Int) (s : State) : Host.Outcome State Fault Refusal :=
  s.onDev fun d => if x < 3 then d.ppduEnd x pdet temps else d

/-! ### Contention -/

def execBackoffSlot (x : Nat) (med : Medium) (s : State) : Host.Outcome State Fault Refusal :=
  s.onDev fun d => if x < 3 then (d.backoffSlot x med).settle else d

def execWindowMissed (x : Nat) (s : State) : Host.Outcome State Fault Refusal :=
  s.onDev fun d => if x < 3 then (d.windowMissed x).settle else d

def execDataUnderrun (x : Nat) (fact : UnderrunFact) (s : State) : Host.Outcome State Fault Refusal :=
  s.onDev fun d => if x < 3 then (d.dataUnderrun x fact.sta fact.ids).settle else d

def execResponseTimeout (x : Nat) (s : State) : Host.Outcome State Fault Refusal :=
  s.onDev fun d => if x < 3 then (d.responseTimeout x).settle else d

end Sys2Proof.Machine
end

