-- ==== Sys2Proof/Machine/TimeCmd.lean ====
section
/-! DEFINITION. Steps of device time: time commands (R524), the servo's step (R526), event input edges (R537), and what a step
does to the beat (R22 to R26). -/

namespace Sys2Proof.Machine

/-- Plans of beats from `lo` up to but not `hi` are discarded (R23). -/
def Dev.discardBeats (d : Dev) (lo hi : Nat) : Dev :=
  d.each 3 fun x e => e.each 4 fun k f =>
    -- the four buffers hold the beats that follow the current one
    let m := f.beat + k
    if lo ≤ m ∧ m < hi then f.discardPlan x m 0x15 else f

/-- What the sensors say at the boundary that a forward step issues: free values, for the step's command carries none. -/
def Dev.drawSensors (d : Dev) : Dev × BeatFact :=
  let (d, v) := d.draw 32
  let (d, t) := d.draw 8
  let (d, c) := d.draw 16
  (d, { viSum := v, temps := [(t : Int) - 128], quadTemps := List.replicate 6 ((t : Int) - 128), chipMw := c, floors := [], onTime := true })

/-- A forward step out of beat `b` issues one boundary, of beat `b'`; the beats between are skipped (R22, R23). -/
def State.stepForward (s : State) (b b' : Nat) : State :=
  let skipped := b' - b - 1
  let d := (s.dev.cnt ptpPage PTP_BEAT_SKIPPED.SKIPPED skipped).discardBeats (b + 1) b'
  let d := d.when (decide (skipped ≠ 0)) fun e => (e.wr ptpPage PTP_BEAT_LATE.STEP_FWD 1).ev ptpPage 8
  let r := d.drawSensors
  { s with dev := r.1.boundary b' r.2, seq := { s.seq with last := some b' } }

/-- Device time steps to `t` (R22 to R26). The beat it steps out of is the last one issued where a backward step holds the
next boundary. -/
def State.stepTo (s : State) (t : Nat) : State :=
  let now := s.dev.now / beatU
  let b := max now (s.seq.last.getD 0)
  let b' := t / beatU
  let d : Dev := { s.dev with now := t, rtc := { s.dev.rtc with spoilt := true } }
  let d := (d.cnt ptpPage PTP_CNT_STEPS.COUNT).tmrStepped s.dev.now
  let on := d.rdB ptpPage PTP_BEAT_CTL.BEAT_EN
  if on ∧ b < b' ∧ s.seq.first ≤ b' then { s with dev := d }.stepForward b b'
  else if on ∧ b' < now then
    { s with dev := { (d.wr ptpPage PTP_BEAT_LATE.STEP_BACK 1).ev ptpPage 8 with time := { d.time with hold := true } } }
  else { s with dev := d }

/-- A SET or STEP clears a sticky holdover flag while SERVO_EN is 0. -/
def Dev.timeUnstick (d : Dev) : Dev :=
  if d.rdB ptpPage PTP_SERVO_CFG.SERVO_EN then d
  else ({ d with time := { d.time with sticky := false } } : Dev).holdover false

/-- A time command ends with a RESULT. -/
def Dev.timeDone (d : Dev) (result : Nat) : Dev :=
  let d := if result = 0 then { d with time := { d.time with cmdAt := some d.now } } else d
  (((d.wr ptpPage PTP_TIME_CMD.RESULT result).wr ptpPage PTP_TIME_CMD.GO 0).ev ptpPage 14).complete .okay

/-- Fraction staged in PTP_SET_HI, in units of `now`. -/
def Dev.setFrac (d : Dev) : Nat := d.rd ptpPage PTP_SET_HI.VALUE / 2 ^ 16 * fracU

/-- A write of PTP_TIME_CMD with GO (R524). -/
def State.timeCmd (s : State) (op : Nat) : State :=
  let d := s.dev
  if d.inService ptpPage = false then { s with dev := d.complete .unavailable }
  else
    let s := { s with dev := d.wr ptpPage PTP_TIME_CMD.OP op }
    let done (u : State) (r : Nat) : State := { u with dev := u.dev.timeDone r }
    let ns := d.rd ptpPage PTP_SET_NS.VALUE
    match op with
    | 1 =>
      if 1000000000 ≤ ns then done s 1
      else
        let sec := d.rd ptpPage PTP_SET_SEC_LO.VALUE + d.rd ptpPage PTP_SET_HI.VALUE % 2 ^ 16 * 2 ^ 32
        let u := s.stepTo (timeOf sec ns 0 + d.setFrac)
        done { u with dev := u.dev.timeUnstick } 0
    | 2 =>
      let t : Int := (d.now : Int) + toSigned 32 ns * (nsU : Int) + (d.setFrac : Int)
      -- device time is a count of 48-bit seconds
      let u := s.stepTo (t % ((2 ^ 48 * secU : Nat) : Int)).toNat
      done { u with dev := u.dev.timeUnstick } 0
    | _ => done s 2

def execTimeSet (s : State) : Host.Outcome State Fault Refusal := .next (s.timeCmd 1)
def execTimeStep (s : State) : Host.Outcome State Fault Refusal := .next (s.timeCmd 2)

/-- A sample of `e` in 2^-16 ns reaches the servo (R525, R526); one in the cycle of a time command was measured against the
old time and is discarded (R538). -/
def State.servoSample (s : State) (e : Int) : State :=
  if s.dev.servoOn = false ∨ s.dev.time.cmdAt = some s.dev.now then s
  else
    let d := s.dev.servoNote e
    if d.servoSteps e then
      let t : Int := (d.now : Int) - e * (fracU : Int)
      let u := { s with dev := d }.stepTo (t % ((2 ^ 48 * secU : Nat) : Int)).toNat
      let d := (u.dev.wr ptpPage PTP_SERVO_STAT.LOCK_CNT 0).servoEnter 1
      { u with dev := { d with time := { d.time with lastSample := d.now } } }
    else { s with dev := d.servoTrack e }

/-- SERVO_SAMPLE: firmware writes PTP_SERVO_OFS, a signed offset in ns, with SRC 0. -/
def execServoSample (ns : Nat) (s : State) : Host.Outcome State Fault Refusal :=
  if s.dev.answers ptpPage = false then .next { s with dev := s.dev.complete .unavailable } else
  let s := { s with dev := s.dev.complete .okay }
  if s.dev.rdB ptpPage PTP_SERVO_CFG.SRC then .next s else .next (s.servoSample (toSigned 32 ns * 65536 + s.dev.rd ptpPage PTP_SERVO_OFS_FRAC.OFS_FRAC))

/-- EVENT_INPUT_EDGE: an edge at ball `ball`; `ns` after now and `frac` in 2^-16 ns. With SRC 1 input 0 feeds the servo. -/
def execEventInputEdge (input ball : Nat) (falling : Bool) (ns frac : Nat) (s : State) : Host.Outcome State Fault Refusal :=
  let d := s.dev.reach (s.dev.now + ns * nsU + frac % 2 ^ 16 * fracU)
  let d : Dev := { d with balls := { d.balls with gpio := put d.balls.gpio ball (!falling) } }
  if d.eviTakes input ball falling d.now then
    let t := d.now
    let s := { s with dev := d.eviCapture input t }
    if input = 0 ∧ d.rdB ptpPage PTP_SERVO_CFG.SRC then .next (s.servoSample (eviSample t)) else .next s
  else .next { s with dev := d }

end Sys2Proof.Machine
end

