-- ==== Sys2Proof/Machine/Pages.lean ====
section
/-! DEFINITION. Run control of the register pages: the state table of R51, starting checks and claims (R52), drains (R54),
discards (R63), dependent pages, block resets (R58, R59) and power domains. -/

namespace Sys2Proof.Machine

/-! ### What each page does on its way -/

/-- First failed check of a Start of page `p`, as a fault code (R52). -/
def Dev.startFault (d : Dev) (p : Nat) : Option Nat :=
  match pageKind p with
  | some .pwr => d.govStartCheck
  | some .sec => d.secStartCheck
  | some .ptp => d.ptpStartCheck
  | some .chc => d.calStartCheck
  | some .rxp => d.rxStartCheck (p - 0x020)
  | some .txp => if d.mayRadiate then d.txStartCheck (p - 0x028) else some 0x03
  | some .mac => d.macStartCheck (p - 0x030)
  | some .mas => d.macSharedStartCheck
  | some .air => d.airStartCheck (p - 0x038)
  | some .ais => d.airSharedStartCheck
  | some .ven => d.venStartCheck
  | some .tag => d.tagStartCheck
  | some .kcl => d.kclStartCheck
  | some .kco => d.kcoStartCheck
  | some .pkp => d.pktStartCheck 0
  | some .pka => d.pktStartCheck 1
  | some .pkr => d.pktStartCheck 2
  | some .pkm => d.pktStartCheck 3
  | some .eth => d.ethStartCheck (p - 0x068)
  | some .sds => d.serdesStartCheck
  | some .dsp => d.dspStartCheck
  | some .srm => d.srmStartCheck
  | some .drc => d.drmStartCheck
  | some .phy => d.phyStartCheck (p - 0x07A)
  | some .twn => d.twinStartCheck
  | _ => none

/-- What the page does as it becomes RUNNING. -/
def Dev.onStart (d : Dev) (p : Nat) : Dev :=
  match pageKind p with
  | some .pwr => d.govOnRun
  | some .age => d.ageOnStart
  | some .sec => d.secOnStart
  | some .ptp => d.ptpOnStart
  | some .chq => d.quadOnRun (p - 0x010)
  | some .chs => d.synOnRun
  | some .rxp => d.rxOnStart (p - 0x020)
  | some .mac => d.macOnStart (p - 0x030)
  | some .mas => d.macRebuild
  | some .tag => d.tagOnStart
  | some .kcl => d.kclOnStart
  | some .kco => d.kcoOnStart (p - 0x050)
  | some .pkm => d.pktOnStart 3
  | some .dsp => d.dspOnStart
  | some .drc => d.drmOnStart
  | some .phy => d.phyOnStart (p - 0x07A)
  | some .twn => d.twinOnStart
  | _ => d

/-- What a Drain write makes the page do. -/
def Dev.onDrain (d : Dev) (p : Nat) : Dev :=
  match pageKind p with
  | some .sec => d.secOnDrain
  | some .ptp => d.servoFree
  | some .chc => d.calUnready
  | some .ven => d.venOnDrain
  | some .tag => d.tagOnDrain
  | some .phy => d.setTrained (p - 0x07A) false
  | some .twn => d.twinOnDrain
  | _ => d

/-- Whether radio `x` has no PPDU of the beat left to send and nothing on the air or owed (R217, R291). -/
def Dev.radioSpent (d : Dev) (x : Nat) : Bool :=
  (d.txOf x).isNone && (look d.tx.ready x).isNone && (look d.tx.rcal x).isNone && (d.nextPpdu x).isNone
    && (d.macR x).onAir.isNone && (d.macR x).resp.isNone && decide ((d.rxAt x).phase = .idle)

def macPages : List Nat := [0x030, 0x031, 0x032]
def airPages : List Nat := [0x038, 0x039, 0x03A]
def ethPages : List Nat := [0x068, 0x069, 0x06A, 0x06B, 0x06C]
def kcoPages : List Nat := (List.range 16).map (· + 0x050)

/-- Whether a DRAINING page has finished what it accepted (R54 and the drain rule of its chapter). -/
def Dev.drained (d : Dev) (p : Nat) : Bool :=
  match pageKind p with
  | some .pwr => d.govIdle
  | some .sec => d.secIdle
  | some .chq => let o := d.rd p CHP_QUAD_STAT.OWNER_ACT; decide (o = 0) || (d.txOf (o - 1)).isNone
  | some .chs => d.pool.tx.isEmpty
  | some .chc => d.pool.cal.isNone
  | some .rxp => decide ((d.rxAt (p - 0x020)).phase = .idle)
  | some .txp => d.radioSpent (p - 0x028)
  | some .mac => d.radioSpent (p - 0x030)
  | some .mas => d.allStopped macPages
  | some .air => (List.range 4).all fun k => match (d.buf (p - 0x038) k).st with | .frozen | .executing => false | _ => true
  | some .ais => d.allStopped airPages
  | some .tag => d.tagIdle
  | some .kcl => d.kclIdle
  | some .kco => d.kcoIdle (p - 0x050)
  | some .pkp => d.pkt.inq.isEmpty && d.pkt.recirc.isEmpty
  | some .pka => d.allStopped [0x060]
  | some .pkm => d.allStopped [0x060, 0x061, 0x062]
  | some .eth => d.ethDrained (p - 0x068)
  | some .sds => d.allStopped ethPages
  | some .dsp => d.dspIdle
  | some .drc => d.ms.train.isNone && d.ms.dq.isEmpty
  | some .phy => d.allStopped [0x079]
  | some .twn => d.twinIdle
  | _ => true

/-- What a page discards and gives up as it leaves service (R55, R63, R64). -/
def Dev.leave (d : Dev) (p : Nat) : Dev :=
  match pageKind p with
  | some .pwr => d.govOnLeave
  | some .sec => d.secOnLeave
  | some .ptp => d.ptpOnLeave
  | some .chq => d.quadOnLeave (p - 0x010)
  | some .chs => d.synPageOff
  | some .chc => d.calOnLeave
  | some .rxp => d.rxOnLeave (p - 0x020)
  | some .txp => d.txOnLeave (p - 0x028)
  | some .mac => d.macOnLeave (p - 0x030)
  | some .mas => d.macSharedOnLeave.secSlotAbort
  | some .air => d.airOnLeave (p - 0x038)
  | some .ais => d.airSharedOnLeave
  | some .ven => d.venOnLeave
  | some .tag => d.tagOnLeave
  | some .kcl => d.kclOnLeave
  | some .kco => d.kcoOnLeave (p - 0x050)
  | some .pkp => d.pktOnLeave 0
  | some .pka => d.pktOnLeave 1
  | some .pkr => d.pktOnLeave 2
  | some .pkm => d.pktOnLeave 3
  | some .eth => d.ethOnLeave (p - 0x068)
  | some .dsp => d.dspOnLeave
  | some .drc => (d.trainAbort).drmOnLeave
  | some .phy => d.phyOnLeave (p - 0x07A)
  | some .twn => d.twinOnLeave
  | _ => d

/-- Pages that fault with code 0x04 while RUNNING or DRAINING when page `p` enters STOPPED or FAULT, or is held in reset or
unpowered (R290, R334, R502, R506, and the register tables of pages 0x050 and 0x07A). -/
def dependents (p : Nat) : List Nat :=
  if p = 0x033 then macPages
  else if p = 0x03B then airPages
  else if p = 0x048 then kcoPages
  else if p = 0x063 then [0x060, 0x061, 0x062]
  else if p = 0x061 then [0x060]
  else if p = 0x06D then ethPages
  else if 0x07A ≤ p ∧ p ≤ 0x07D then [0x079]
  else []

/-- Page `p` detects a fault and begins to discard its work. -/
def Dev.faultPage (d : Dev) (p : Nat) (f : FaultRec) : Dev :=
  let busy := decide (d.bstate p ≠ .stopped) && decide (d.bstate p ≠ .fault)
  (d.enterFault p f).when busy (·.leave p)

/-- Dependents of a page that went out of service. -/
def Dev.cascade (d : Dev) (p : Nat) : Dev :=
  d.forAll (dependents p) fun q e =>
    if e.bstate q = .running ∨ e.bstate q = .draining then e.faultPage q ⟨0x04, 0, 0⟩ else e

/-- The radio-baseband domain follows its pages (R661). -/
def Dev.bbFollow (d : Dev) (p : Nat) : Dev := d.when (bbPages.contains p) (·.levelsUpdate)

/-- STATE reaches STOPPED as the result of a RUN write. -/
def Dev.toStopped (d : Dev) (p : Nat) : Dev :=
  ((((d.setState p .stopped).wr p RUN.ABORT 0).ev p 2).cascade p).bbFollow p

/-- STATE reaches RUNNING as the result of a RUN write. -/
def Dev.toRunning (d : Dev) (p : Nat) : Dev := (d.setState p .running).ev p 2

/-! ### RUN writes (R51) -/

/-- The page answers its RUN register: it carries the common header and is neither in reset nor unpowered (R40, R59). -/
def Dev.runs (d : Dev) (p : Nat) : Bool := hasHeader p && !d.inReset p && !d.unpowered p && !d.dark

/-- Completion of a RUN write to a page that does not take it. -/
def Dev.noRun (d : Dev) (p : Nat) : Dev := if hasHeader p then d.complete .unavailable else d.complete .decodeError

/-- The value of RUN as written; ABORT stays until STATE reaches STOPPED. -/
def Dev.runBits (d : Dev) (p v : Nat) : Dev :=
  ((d.wr p RUN.RUN v).wr p RUN.DRAIN (v / 2)).when (bit v 2 && decide (d.bstate p ≠ .stopped)) (·.wr p RUN.ABORT 1)

/-- Start. Of a page that is DRAINING: the servo, FREE since the Drain write, acquires again (R525), and the twin controller, whose
role went with the Drain write, pairs anew (R733, R738). -/
def Dev.startPage (d : Dev) (p : Nat) : Dev :=
  if d.discarding p then d
  else match d.bstate p with
    | .stopped =>
      let d := (d.setState p .starting).bbFollow p
      if 0x010 ≤ p ∧ p ≤ 0x015 then
        match d.quadStartCheck (p - 0x010) with
        | some c => d.fault p c
        | none => d.quadOnStart (p - 0x010)
      else d
    | .draining => ((d.when (decide (p = ptpPage)) (·.ptpOnStart)).when (decide (p = twnPage)) (·.twinOnStart)).toRunning p
    | _ => d

/-- Drain. -/
def Dev.drainPage (d : Dev) (p : Nat) : Dev :=
  if d.discarding p then d
  else match d.bstate p with
    | .starting => (d.leave p).toStopped p
    | .running => (d.onDrain p).setState p .draining
    | _ => d

/-- Stop. -/
def Dev.stopPage (d : Dev) (p : Nat) : Dev :=
  if d.discarding p then d
  else match d.bstate p with
    | .starting => (d.leave p).toStopped p
    | .running | .draining => ({ d with disc := put d.disc p false } : Dev).leave p
    | _ => d

/-- Abort; a page that discards on its way to FAULT goes to STOPPED. -/
def Dev.abortPage (d : Dev) (p : Nat) : Dev :=
  match d.bstate p with
  | .stopped => d
  | .starting => (d.leave p).toStopped p
  | .running | .draining => ({ d with disc := put d.disc p false } : Dev).leave p
  | .fault => d.toStopped p

/-- A write of `v` to RUN of page `p`. -/
def Dev.runWrite (d : Dev) (p v : Nat) : Dev :=
  if d.runs p then
    let d := d.runBits p v
    let d := if bit v 2 then d.abortPage p else if bit v 0 then d.startPage p else if bit v 1 then d.drainPage p
      else d.stopPage p
    d.settle.complete .okay
  else d.noRun p

def execStart (page : Nat) (s : State) : Host.Outcome State Fault Refusal :=
  s.onDev fun d =>
    if d.runs page then (((d.runBits page 1).startPage page).settle).complete .okay else d.noRun page

def execDrain (page : Nat) (s : State) : Host.Outcome State Fault Refusal :=
  s.onDev fun d =>
    if d.runs page then (((d.runBits page 2).drainPage page).settle).complete .okay else d.noRun page

def execStop (page : Nat) (s : State) : Host.Outcome State Fault Refusal :=
  s.onDev fun d =>
    if d.runs page then (((d.runBits page 0).stopPage page).settle).complete .okay else d.noRun page

def execAbort (page : Nat) (s : State) : Host.Outcome State Fault Refusal :=
  s.onDev fun d =>
    if d.runs page then (((d.runBits page 4).abortPage page).settle).complete .okay else d.noRun page

/-! ### What a page does by itself -/

/-- The claim that page `p` makes at Start and that is refused is recorded (R70). -/
def Dev.startClaimRefused (d : Dev) (p : Nat) : Dev :=
  if p = pwrPage then d.refuseClaim 3 0 (ownerCode p)
  else if p = tagPage then d.refuseClaim 0 (d.rd tagPage TAG_CFG.ANTSW_BALL) (ownerCode p)
  else d

/-- START_CHECKS_PASSED (R52): a failed check or a refused claim is a fault. -/
def Dev.checksPassed (d : Dev) (p : Nat) : Dev :=
  if d.runs p && decide (d.bstate p = .starting) then
    let r : Dev × Bool :=
      match d.startFault p with
      | some c => ((d.when (decide (c = 0x07)) (·.startClaimRefused p)).fault p c, false)
      | none => if 0x010 ≤ p ∧ p ≤ 0x015 then d.quadReady (p - 0x010) else (d, true)
    if r.2 then
      let d := r.1.onStart p
      if d.bstate p = .starting then (d.toRunning p).bbFollow p else d
    else r.1
  else d

def execStartChecksPassed (page : Nat) (s : State) : Host.Outcome State Fault Refusal :=
  s.onDev fun d => (d.checksPassed page).settle

/-- DRAIN_COMPLETE (R54). The shared MAC page releases what it held first (R292). -/
def Dev.drainEnds (d : Dev) (p : Nat) : Dev :=
  if d.runs p && decide (d.bstate p = .draining) && !d.discarding p && d.drained p then
    ((d.when (decide (p = 0x033)) (·.macSharedDrained)).leave p).toStopped p
  else d

def execDrainComplete (page : Nat) (s : State) : Host.Outcome State Fault Refusal :=
  s.onDev fun d => (d.drainEnds page).settle

/-- FAULT_DETECTED (R50, R51). -/
def execFaultDetected (page : Nat) (fault : FaultRec) (s : State) : Host.Outcome State Fault Refusal :=
  s.onDev fun d =>
    if d.runs page then
      let was := d.bstate page
      let d := d.faultPage page fault
      (d.when (decide (was ≠ .fault) && decide (d.bstate page = .fault)) (·.cascade page)).settle
    else d

/-- DISCARD_COMPLETE (R63): every completion is sent, and STATE changes. -/
def Dev.discardEnds (d : Dev) (p : Nat) : Dev :=
  match look d.disc p with
  | none => d
  | some toFault =>
    let d := { d.leave p with disc := del (d.leave p).disc p }
    if toFault then ((d.setState p .fault).ev p 0).cascade p else d.toStopped p

def execDiscardComplete (page : Nat) (s : State) : Host.Outcome State Fault Refusal :=
  s.onDev fun d => (d.discardEnds page).settle

/-! ### Reset and supply (R58, R59) -/

/-- What a page holds beside its registers goes to its reset value. -/
def Dev.forget (d : Dev) (p : Nat) : Dev :=
  match pageKind p with
  | some .chq =>
    { d with pool := { d.pool with quadFrom := del d.pool.quadFrom (p - 0x010), overs := d.pool.overs.filter fun e => decide (e.1 / 4 ≠ p - 0x010) } }
  | some .chs => { d with pool := { d.pool with syn := Pool.reset.syn } }
  | some .rxp => d.setRx (p - 0x020) Rx.reset
  | some .mac => d.setMacR (p - 0x030) MacRadio.reset
  | some .mas => d.macSharedReset
  | some .air =>
    let x := p - 0x038
    let a := d.air
    { d with air := { a with bufs := delRange a.bufs (4 * x) (4 * x + 4), snap := del a.snap x, exec := del a.exec x,
                             mode := del a.mode x, lastFloor := del a.lastFloor x, last := del a.last x } }
  | some .ais => { d with air := { d.air with queues := [], ccredit := [], qcredit := [] } }
  | some .ven => { d with ven := Ven.reset }
  | some .tag => d.setTag Tag.reset
  | some .kco => d.setCore (p - 0x050) KCore.reset
  | some .pkp => { d with pkt := { d.pkt with tcam := [], hdr := [] } }
  | some .pka => { d with pkt := { d.pkt with direct := [], ctr := [] } }
  | some .pkr => { d with pkt := { d.pkt with since := [] } }
  | some .eth => d.setEth (p - 0x068) EthMac.reset
  | some .dsp => { d with dsp := Dsp.reset }
  | some .srm => ({ d with ms := { d.ms with woken := [] } } : Dev).heldDrop
  | some .drc => ({ d with ms := { d.ms with train := none, postponed := [] } } : Dev).dramDrop
  | _ => d

/-- Every register of a page returns to its reset value. -/
def Dev.regsReset (d : Dev) (p : Nat) : Dev := { d with regs := delRange d.regs (p * 0x10000) ((p + 1) * 0x10000) }

/-- Page `p` goes to its reset values, its claims released (R58). -/
def Dev.resetPage (d : Dev) (p : Nat) : Dev :=
  let role := d.role
  let lanes := d.rd 0x080 TWN_ROLE.LANE_UP
  let table := d.rdW 0x017 CHP_REG_STAT.word.off
  let d := (d.when (decide (d.bstate p ≠ .stopped)) (·.leave p)).forget p
  let d : Dev := { d.regsReset p with disc := del d.disc p }
  let d := d.releaseAll (ownerCode p)
  -- the parts that outlive a block reset (R737, R738, R790); the table in force was selected at device reset (R125)
  let d := if p = 0x017 then d.wrW 0x017 CHP_REG_STAT.word.off table
    else if p = 0x008 then (d.ptpOnReset).discardBeats (d.beat + 1) (d.beat + 4)
    else if p = 0x080 then
      (((d.twinOnReset).wr 0x080 TWN_ROLE.LANE_UP lanes).when (decide (role = roleDeposed)) (·.wr 0x080 TWN_ROLE.ROLE roleDeposed)).fenceFollow
    else d
  (d.cascade p).bbFollow p

/-- A block reset of page `p` begins or ends. -/
def Dev.holdReset (d : Dev) (p : Nat) (hold : Bool) : Dev :=
  if hasHeader p = false ∨ p ≤ 0x004 ∨ d.inReset p = hold then d
  else if hold then
    let off := d.unpowered p
    ((d.resetPage p).wr p STATE.IN_RESET 1).wr p STATE.UNPOWERED (b2n off)
  else d.wr p STATE.IN_RESET 0

/-- A write of PWR_BLK_RST_g: bit b holds page 32g + b in reset; pages 0x000 to 0x004 ignore it. -/
def Dev.blkRst (d : Dev) (g v : Nat) : Dev :=
  if 8 ≤ g then d
  else
    let v := if g = 0 then v / 32 * 32 else v
    let d := d.wrW pwrPage (PWR_BLK_RST.RST.at g).off (BitVec.ofNat 32 v)
    d.each 32 fun b e => e.holdReset (32 * g + b) (bit v b)

def execBlockReset (group value : Nat) (s : State) : Host.Outcome State Fault Refusal :=
  s.onDev fun d => d.regDo 0x001 fun d => ((d.blkRst group value).settle).complete .okay

/-! ### Switchable domains -/

/-- The supply of a domain goes: its pages lose what they hold and read UNPOWERED; the PCI Express link goes down. -/
def Dev.domOff (d : Dev) (k : Nat) : Dev :=
  let d := (d.wr pwrPage (PWR_DOM.KOV.bitOf k) 0).wr pwrPage (PWR_DOM_STAT.KOV.bitOf k) 0
  let d : Dev := { d with gov := { d.gov with domUp := d.gov.domUp.filter (· ≠ k) } }
  if k = 2 then
    let d := d.when d.linkUp (·.linkChange false 0 0 false)
    let d := [0x130, 0x131, 0x132, 0x133].foldl (fun e p => e.regsReset p) d
    { d.wr 0x130 PCIE_CTL.MODE (b2n d.balls.pcieEp) with pcie := { d.pcie with pba := 0 } }
  else (d.when (decide (k = 0)) (·.loseSegment 16)).forAll (domPages k) fun p e =>
    let held := e.inReset p
    ((e.resetPage p).wr p STATE.UNPOWERED 1).wr p STATE.IN_RESET (b2n held)

/-- Domain `k` of a write of PWR_DOM: a domain with a page that is not STOPPED stays on. -/
def Dev.domSwitch (d : Dev) (k v : Nat) : Dev :=
  if bit v k = d.rdB pwrPage (PWR_DOM.KOV.bitOf k) then d
  else if bit v k then
    { d.wr pwrPage (PWR_DOM.KOV.bitOf k) 1 with gov := { d.gov with domUp := d.gov.domUp ++ [k] } }
  else
    match (domPages k).find? fun p => decide (d.bstate p ≠ .stopped) with
    | some p => (d.wr pwrPage PWR_STATE.BLOCKER p).ev pwrPage 9
    | none => d.domOff k

/-- A write of PWR_DOM. -/
def Dev.domWrite (d : Dev) (v : Nat) : Dev := ((d.domSwitch 0 v).domSwitch 1 v).domSwitch 2 v

def execDomainSwitchWrite (value : Nat) (s : State) : Host.Outcome State Fault Refusal :=
  s.onDev fun d => d.regDo 0x001 fun d => (d.domWrite value).complete .okay

/-- 50 µs after its bit was set a domain is powered. -/
def Dev.domPowersUp (d : Dev) (k : Nat) : Dev :=
  if d.gov.domUp.contains k then
    let d := d.wr pwrPage (PWR_DOM_STAT.KOV.bitOf k) 1
    let d : Dev := { d with gov := { d.gov with domUp := d.gov.domUp.filter (· ≠ k) } }
    d.forAll (domPages k) fun p e => e.wr p STATE.UNPOWERED 0
  else d

def execDomainPowerUpDone (dom : Nat) (s : State) : Host.Outcome State Fault Refusal :=
  s.onDev fun d => d.domPowersUp dom

end Sys2Proof.Machine
end

