-- ==== Sys2Proof/Machine/Fabric.lean ====
section
/-! DEFINITION. The data and register networks (R37 to R47, R59 to R62): who may reach what (R590, R630, R644, R645, R649), how a
register access acts, accesses to memory, and requests that arrive from PCI Express (R553 to R556). -/

namespace Sys2Proof.Machine

/-- A request on the fabric: its initiator, privilege of a control core (0 U, 1 S, 3 M), whether that core is in debug mode. -/
structure Req where
  who : Initiator
  priv : Nat
  debug : Bool
deriving DecidableEq, Repr

def Req.machine (q : Req) : Bool := decide (q.priv = 3)

/-- The state a meaning reaches. -/
def State.by (s : State) (o : Host.Outcome State Fault Refusal) : State := match o with | .next s' => s' | _ => s

def State.on (s : State) (f : Dev → Dev) : State := { s with dev := f s.dev }

def Dev.level (d : Dev) : Nat := d.rd secPage SEC_STATUS.DBG_LEVEL

/-! ### Rights -/

/-- The register page of an address. -/
def pageOf (a : Nat) : Nat := (a - 0x20000000) / 0x10000

/-- The access rules refuse the request (R630, R644, R645, R649, R651). -/
def Dev.denies (d : Dev) (q : Req) (a : Access) : Bool :=
  let host := decide (q.who = .pcieHost)
  let dm := decide (q.who = .debugBus)
  let d2 := decide (2 ≤ d.level)
  if dm && decide (d.level = 0) then true
  else
    match regionOf a.addr with
    | .hamper =>
      match q.who with
      | .hart _ => if q.debug then !d2 else !(q.machine || (decide (q.priv = 1) && d.rdB secPage SEC_ACCESS.HAMPER_S))
      | .security => false
      | .debugBus => !d2
      | _ => true
    | .kov => dm && !d2
    | .rom | .xspi => host
    | .regs =>
      let p := pageOf a.addr
      let o := a.addr % 0x10000
      let hart := match q.who with | .hart _ => true | _ => false
      let secWrite := a.write.isSome && decide (0x80 ≤ o) && !(q.machine && hart && (!q.debug || d2)) && !(dm && d2)
      let otp := decide (0x4000 ≤ o) && decide (o < 0x8000) && a.write.isNone && !(q.machine && hart)
      (host && d.rdB secPage SEC_ACCESS.PCIE_REG_DENY)
        || (decide (p = secPage) && (host || (dm && !d2) || (q.debug && !d2 && a.write.isSome) || secWrite || otp))
        || (dm && !d2 && decide (0x048 ≤ p) && decide (p ≤ 0x05F))
    | _ => false

/-! ### Reading a register -/

/-- Level at ball index `k` as its input samples it (R751 to R754, R797): what an active function drives, what is driven from
outside, the pull, or a free value. -/
def Dev.ballLevel (d : Dev) (k : Nat) : Dev × Nat :=
  let own := d.owner 0 k
  let func := d.rd 0x000 (PIN_OWN_BALL.FUNC.at k)
  let alive := decide (own / 256 = 0xF0) || (List.range 0x100).any fun p => hasHeader p && decide (ownerCode p = own) && d.active p
  let b := k / 64
  let n := k % 64
  let driven : Option Nat :=
    if own = 0 ∨ alive = false ∨ d.sec.bscan = 4 then none
    else if func = 1 then some (bits (d.rd 0x000 (PIN_GPIO_OUT.OUT.at b)) n 1)
    else if 2 ≤ func ∧ func ≤ 17 then some (b2n (look d.time.pulses (func - 2)).isSome)
    else if func = 20 then some (b2n (decide (d.ns < d.tag.txEnd)))
    else none
  -- EXTEST and CLAMP drive every output ball from the boundary register, whose content is free (R73, R649)
  if d.sec.bscan = 2 ∨ d.sec.bscan = 3 then d.draw 1
  else match driven, look d.balls.gpio k with
  | some v, _ => (d, v)
  | none, some v => (d, b2n v)
  | none, none =>
    if bit (d.rd 0x000 (PIN_PULLUP.PU.at b)) n then (d, 1)
    else if bit (d.rd 0x000 (PIN_PULL.PD.at b)) n then (d, 0)
    else d.draw 1

/-- PIN_GPIO_IN of bank `b`. -/
def Dev.gpioIn (d : Dev) (b : Nat) : Dev :=
  let r := (List.range 24).foldl (fun (acc : Dev × Nat) n =>
    let v := acc.1.ballLevel (64 * b + n)
    (v.1, acc.2 + v.2 * 2 ^ n)) (d, 0)
  r.1.complete .okay r.2

/-- PREC_READY of radio `x`: every precoder of the frozen plan of the next beat has a bank that will serve it (R28). -/
def Dev.precReady (d : Dev) (x : Nat) : Bool :=
  let b := d.buf x (d.beat + 1)
  match b.st, b.plan with
  | .frozen, some p =>
    p.ppdus.all fun q => q.rus.all fun r =>
      decide (r.precId = 0x1FF) || (List.range 2).any fun k =>
        (d.bankValid x r.precId k || d.bankPending x r.precId k) && d.bankMatches x r k
  | _, _ => false

/-- The bits of a register that a read returns. -/
def RegRow.readable (r : RegRow) : Nat := r.rw ||| r.w1c ||| r.w1s ||| r.cfg ||| r.lck ||| r.ro

/-- LOCK of a page: the bit firmware set, and of an air scheduler page the hardware's while MAP_SRC is 1 (R46, R308). -/
def Dev.pageLocked (d : Dev) (p : Nat) : Bool :=
  hasHeader p && (d.rdB p LOCK.LOCK || (decide (pageKind p = some .air) && d.rdB p AIR_CFG.MAP_SRC))

/-- A register without a reading rule of its own (R44, R45); page offsets of the precoder headers are words of their own
(R208). -/
def Dev.regPeek (d : Dev) (p o : Nat) : Nat :=
  let v := (d.rdW p o).toNat
  match findRow p o with
  | some r => v &&& r.readable
  | none => if pageKind p = some .txp ∧ 0x8000 ≤ o then v else 0

/-- A read of the register at offset `o` of page `p`, with what the read itself does. -/
def Dev.regRead (d : Dev) (q : Req) (p o : Nat) : Dev :=
  let plain := d.complete .okay (d.regPeek p o)
  let own (c : Nat) : Bool := decide (q.who = .hart c)
  if 0x100 ≤ p ∧ p ≤ 0x120 then d.plicRead ((p - 0x100) * 0x10000 + o)
  else if p = 0x128 then d.aclintRead o
  else match pageKind p with
  | none => d.complete .decodeError
  | some kind =>
    if d.shut p ∧ (hasHeader p = false ∨ (o ≠ 0x0 ∧ o ≠ 0x4 ∧ o ≠ 0xC)) then d.complete .unavailable
    else if hasHeader p ∧ o = 0x18 then d.complete .okay ((d.rdW p 0x10) &&& (d.rdW p 0x14)).toNat
    else if hasHeader p ∧ o = 0x2C then d.complete .okay (b2n (d.pageLocked p))
    else if hasHeader p ∧ o < 0x80 then plain
    else match kind with
    | .pin =>
      if o = 0x80 then (d.wr 0x000 PIN_CLAIM_REJ_OWN.OWNER d.rejOwn).complete .okay (d.regPeek p o)
      else if 0x2010 ≤ o ∧ o < 0x2020 then d.gpioIn ((o - 0x2010) / 4)
      else plain
    | .ptp =>
      if o = 0x400 then d.beatLoRead
      else if o = 0x40C then
        d.complete .okay (d.regPeek p o + (([0, 1, 2].filter d.precReady).map fun x => 2 ^ (4 + x)).foldl (· + ·) 0)
      else if o = 0x80 then d.timeRead
      else if o = 0xD0 then d.eviRead 0
      else if o = 0xD8 then d.eviRead 1
      else plain
    | .air =>
      if o = 0xA4 then
        let l := lookOr (0, 0, 0) d.air.last (p - 0x038)
        let d := (d.wrW p AIR_LAST1.word.off (BitVec.ofNat 32 l.2.1)).wrW p AIR_LAST2.word.off (BitVec.ofNat 32 l.2.2)
        d.complete .okay (l.1 % 2 ^ 32)
      else plain
    | .ven => if o = 0xA4 then d.complete .okay (d.regPeek p o ||| (b2n (d.rdB 0x008 PTP_SERVO_STAT.HOLDOVER) * 2)) else plain
    | .ais => if o = 0x88 then d.complete .okay (d.poolFree % 2 ^ 21) else plain
    | .eth =>
      if o = 0x104 then d.ethOctLoRead (p - 0x068) false
      else if o = 0x134 then d.ethOctLoRead (p - 0x068) true
      else if o = 0xA4 then d.ethCrumb0Read (p - 0x068)
      else plain
    | .dsp =>
      if 0x1000 ≤ o ∧ o < 0x1200 ∧ o % 64 ≤ 4 then
        let c := (o - 0x1000) / 64
        if own c then d.askRead c (decide (o % 64 = 4)) else d.complete .denied
      else plain
    | .drc =>
      if o = 0x84 then d.complete .okay (d.dramSize / 2 ^ 20 % 2 ^ 16)
      else if o = 0xA8 then d.drmErrRead
      else plain
    | .sec => if 0x4000 ≤ o ∧ o < 0x8000 then d.complete .okay (d.otpRead (o - 0x4000)) else plain
    | .rtc => if o = 0x80 then d.rtcRead else plain
    | .pc2 =>
      if d.endpoint ∧ o = 0x08 then d.complete .okay (0x2000 + 28 * 2 ^ 20 + b2n (d.rdB 0x132 (PCIE_INWIN.EN.at 0)) * 2 ^ 31)
      else if d.endpoint ∧ o = 0x18 then
        d.complete .okay (0x1000 + 24 * 2 ^ 20 + b2n (d.rdB 0x132 (PCIE_INWIN.EN.at 1)) * 2 ^ 31)
      else plain
    | .pc3 =>
      if o < 0x1000 then d.complete .okay (d.cfgWord o)
      else if o < 0x1400 then d.complete .okay (d.rdW p o).toNat
      else if o = 0x1800 then d.complete .okay (d.pcie.pba % 2 ^ 32)
      else if o = 0x1804 then d.complete .okay (d.pcie.pba / 2 ^ 32 % 2 ^ 32)
      else if o = 0x2004 then
        -- what the other side answers comes with the access as a free value
        let (d, st) := d.draw 2
        let (d, data) := d.draw 32
        d.cfgAccess none st data
      else plain
    | _ => plain

/-! ### Writing a register -/

/-- A write to a register with no behaviour of its own (R45 to R47). DESIGN CHOICE (log entry 323): a refused write of the
value a field already holds is not recorded in a register of CFG or LCK fields alone either, as R46 states it for a
register of several types. -/
def Dev.regPut (d : Dev) (p o v : Nat) : Dev :=
  match findRow p o with
  | none => d.complete .okay
  | some r =>
    let old := (d.rdW p o).toNat
    let lock := d.pageLocked p
    let open' := decide (d.bstate p = .stopped)
    let no := (if open' then 0 else r.cfg) ||| (if lock then r.lck else 0)
    let eff := (r.rw ||| r.wo ||| r.cfg ||| r.lck) &&& (no ^^^ 0xFFFFFFFF)
    let new := (((old &&& (eff ^^^ 0xFFFFFFFF)) ||| (v &&& eff)) &&& ((v &&& r.w1c) ^^^ 0xFFFFFFFF)) ||| (v &&& r.w1s)
    let diff := (old ^^^ v) &&& no
    let cause := if lock && decide (diff &&& r.lck ≠ 0) then 1 else 0
    let d := d.wrW p o (BitVec.ofNat 32 new)
    (d.when (decide (diff ≠ 0)) (·.cfgReject p cause o v)).complete .okay

/-- Octets that a host would return, as free values (R552). -/
def Dev.hostFree (d : Dev) (a n : Nat) : Dev × List (Nat × Nat) :=
  let r := d.drawOctets n
  (r.1, r.2.zipIdx.map fun e => (a + e.2, e.1))

/-- The 224 octets in SEC_DBG_TOKEN. -/
def Dev.tokenWindow (d : Dev) : List Nat :=
  (List.range 56).flatMap fun k => leBytes 4 (d.rdW secPage (0x200 + 4 * k)).toNat

/-- A write of an ownership register (R68 to R70, R753). -/
def State.ownWrite (s : State) (q : Req) (o v : Nat) : State :=
  let at' : Option (Nat × Nat) :=
    if 0x1000 ≤ o ∧ o < 0x1800 then some (0, (o - 0x1000) / 4)
    else if 0x1800 ≤ o ∧ o < 0x1840 then some (1, (o - 0x1800) / 4)
    else if 0x1840 ≤ o ∧ o < 0x1860 then some (2, (o - 0x1840) / 4)
    else if o = 0x1860 then some (3, 0)
    else none
  match at' with
  | none => s.on (·.complete .okay)
  | some (kind, k) =>
    if bit v 30 && bit v 31 then s.by (execForcedRelease kind k q.machine s)
    else if bit v 30 then s.by (execOwnerRelease kind k v s)
    else s.by (execOwnerClaim kind k v (bits v 16 6) s)

/-- Commands of the page's GO registers and other registers with a behaviour of their own; `s` holds the fields just
written. None where the page has none at offset `o`. -/
def State.regCommand (s : State) (q : Req) (p o v : Nat) : Option State :=
  let d := s.dev
  let go := bit v 31
  let ok (f : Dev → Dev) : Option State := some (s.on fun d => (f d).complete .okay)
  match pageKind p with
  | some .ptp =>
    if o = 0xA0 then some (if go then s.timeCmd (v % 4) else s)
    else if o = 0xA4 ∨ o = 0xB8 then ok (·.adjSync)
    else if o = 0xAC then ok (·.flagSync)
    else none
  | some .chq => if o = 0x94 then ok (·.maskWrite p v) else none
  | some .chc =>
    if o = 0x88 then (if go then some (s.on (·.calCmd (bits v 0 13) (bits v 13 3) (bits v 16 3))) else none) else none
  | some .txp => if o = 0x94 ∧ go then some ((s.by (execRcalCmd (p - 0x028) (v % 16) s)).on (·.complete .okay)) else none
  | some .mas =>
    if o = 0x98 ∧ go then
      let st := bits v 0 11
      match bits v 12 3 with
      | 1 => some (s.by (execStaAdd st s))
      | 2 => some (s.by (execStaSuspend st s))
      | 3 => some (s.by (execStaResume st s))
      | 4 => some (s.by (execStaRemove st s))
      | 5 => some (s.by (execStaFlush st (bits v 16 8) s))
      | _ => ok fun d => d.staCommand st fun e => e.staPost st 1
    else none
  | some .ais =>
    if o = 0xA4 ∧ go then
      match bits v 26 2 with
      | 1 => some ((s.by (execAdmAdd (d.rd p AIR_ADM_CMD1.STA) (d.rd p AIR_ADM_CMD1.CLASS) (d.rd p AIR_ADM_CMD1.DIR)
          (d.rd p AIR_ADM_CMD1.RADIO) (bits v 0 16) s)).on (·.complete .okay))
      | 2 => some ((s.by (execAdmRemove (bits v 16 10) s)).on (·.complete .okay))
      | _ => ok (·.admPost (if d.inService 0x03B then 5 else 6) 0)
    else none
  | some .ven =>
    if o = 0xA8 ∧ go then
      match bits v 20 2 with
      | 1 => ok (·.nbrAdd (bits v 0 5) (bits v 8 11))
      | 2 => ok (·.nbrRemove (bits v 0 5))
      | _ => ok (·.nbrPost 3)
    else none
  | some .tag => if o = 0xD0 then ok (·.tagFlush) else none
  | some .pkp =>
    if o = 0x80 ∧ bit v 8 then ok (·.menuSwap)
    else if o = 0x84 ∧ go then
      let menu := bits v 14 1
      let i := bits v 0 14
      match bits v 16 3 with
      | 1 => ok (·.tcWrite menu i (bit v 15))
      | 2 => ok (·.tcInvalidate menu i)
      | 3 => ok (·.tcRead menu i)
      | 4 => ok (·.tcWriteHdr menu)
      | 5 => ok (·.tcReadHdr menu)
      | 6 => ok (·.tcWriteDirect i)
      | 7 => ok (·.tcReadDirect i)
      | _ => ok (·.tcPost 3)
    else none
  | some .pka => if o = 0x84 ∧ go then ok (·.ctrRead (bits v 0 14) (bit v 30)) else none
  | some .eth =>
    if p = 0x06C ∧ o = 0xB8 ∧ go then ok (·.mdioGo (bits v 26 2) (bit v 28) (bits v 21 5) (bits v 16 5) (bits v 0 16)) else none
  | some .drc => if o = 0x9C ∧ go then ok (·.trainCmd (bits v 12 2) (bits v 0 6) (bits v 8 4)) else none
  | some .sec =>
    if o = 0x84 ∧ go then ok (·.secGo (v % 256))
    else if o = 0xB0 ∧ go then
      match bits v 4 3 with
      | 1 => ok (·.readNonce)
      | 2 => some ((s.on (·.dbgUnlock (v % 4) d.tokenWindow)).afterLevel.on (·.complete .okay))
      | 3 => some ((s.on (·.dbgLower (v % 4))).afterLevel.on (·.complete .okay))
      | 4 => some ((s.by (execDbgLifeCycle d.tokenWindow s)).on (·.complete .okay))
      | _ => none
    else none
  | some .pwr =>
    if o = 0xA8 then ok (·.levelsUpdate)
    else if o = 0xB4 ∨ o = 0xB8 then ok (·.budgetSync)
    else if o = 0x84 ∧ go then some (s.on (·.sleepReq (v % 8) q.machine (bit v 3)))
    else none
  | some .twn =>
    if o = 0x90 then
      ok fun d => ((d.when (bit v 0) (·.kick)).when (bit v 1) (·.handover)).when (bit v 2) (·.resync)
    else none
  | _ => none

/-- Registers whose whole write has a behaviour of its own. -/
def State.regOwn (s : State) (q : Req) (p o v : Nat) : Option State :=
  let d := s.dev
  let ok (f : Dev → Dev) : Option State := some (s.on fun d => (f d).complete .okay)
  match pageKind p with
  | some .pin => if 0x1000 ≤ o ∧ o ≤ 0x1860 then some (s.ownWrite q o v) else none
  | some .ptp =>
    if o = 0x408 then
      let was := d.rdB ptpPage PTP_BEAT_CTL.BEAT_EN
      some (if bit v 0 = was then s.on (·.complete .okay)
        else if bit v 0 then s.by (execBeatEnSet s) else s.by (execBeatEnClear v s))
    else if o = 0xBC then some (s.by (execServoSample v s))
    else none
  | some .chs =>
    if 0x80 ≤ o ∧ o < 0xA0 ∧ o % 8 = 0 then ok fun d => (d.hopCommand ((o - 0x80) / 8) (bits v 0 13) (bits v 13 3)).settle
    else none
  | some .tag => if o = 0x84 then ok (·.tagRxChan (v % 4096)) else none
  | some .kcl =>
    if o = 0x80 then
      let a := v % 2 ^ 30 * 64
      let h := d.hostFree a 64
      some (s.by (execKovJobPost v h.2 { s with dev := h.1 }))
    else if o = 0xC0 ∨ o = 0xC4 then
      let a := v % 2 ^ 31 * 32
      let h := d.hostFree a 32
      some (s.by (execDmaFabricPost (if o = 0xC0 then 16 else 17) v h.2 { s with dev := h.1 }))
    else if 0xA0 ≤ o ∧ o < 0xC0 then some (s.by (execBarrierMaskWrite ((o - 0xA0) / 4) (v % 65536) s))
    else none
  | some .kco =>
    let k := p - 0x050
    if o = 0x9C then some (s.on (·.mbxIn k v))
    else if o = 0x94 then
      let old := d.rd p ⟨0x94, 0, 0, 4⟩
      let new := (old &&& ((v % 8) ^^^ 15)) ||| (if d.inService p then v &&& 8 else 0)
      ok fun d => (d.wr p ⟨0x94, 0, 0, 4⟩ new).mbxSync k (d.core k).mbx
    else none
  | some .pkr =>
    let r := (o - 0x1000) / 32
    if o < 0x1000 ∨ 0x3000 ≤ o then none
    else if o % 32 = 0x08 then ok (·.ringCfg r v)
    else if o % 32 = 0x0C then ok (·.ringSwWrite r v)
    else if o % 32 = 0x18 then ok fun d => d.when (bit v 0) (·.ringIrqClear r)
    else none
  | some .dsp =>
    if o = 0x8C then ok (·.fwFloor v)
    else if o = 0x90 then some (s.on (·.dspPost v))
    else if 0x1000 ≤ o ∧ o < 0x1200 ∧ o % 64 = 0xC then
      let c := (o - 0x1000) / 64
      some (s.on fun d => if q.who = .hart c then (d.portEnable c (bit v 0)).complete .okay else d.complete .denied)
    else none
  | some .srm =>
    if o = 0x84 then ok (·.thermosWrite v)
    else if o = 0x9C then some (s.on fun d => if bit v 0 then d.wipeRequest q.machine else d.complete .okay)
    else none
  | some .sec =>
    if o = 0x98 then ok (·.secJobPost (v % 65536))
    else if o = 0xA4 then ok (·.tamperClear (v % 64))
    else none
  | some .pwr =>
    if o = 0x80 then ok (·.modeSelect (v % 8))
    else if o = 0xA0 then ok (·.plReq v)
    else if o = 0x14C then ok fun d => d.when (bit v 0) (·.hostWake)
    else if 0x400 ≤ o ∧ o < 0x420 then ok fun d => (d.blkRst ((o - 0x400) / 4) v).settle
    else if o = 0x420 then ok (·.domWrite v)
    else none
  | some .rtc =>
    if 0x8C ≤ o ∧ o ≤ 0x94 then (if d.rtc.staged.isSome then some (s.on (·.complete .okay)) else none)
    else if o = 0x98 then
      some (s.on fun d => if bit v 30 then d.rtcCancel else if bit v 31 then d.rtcGo (v % 4)
        else if d.rtc.staged.isSome then d.complete .okay else (d.wr rtcPage RTC_SET_CMD.OP v).complete .okay)
    else if o = 0xA8 then
      let w := (v / 2) * 2
      some (s.on fun d => let e := d.regPut p o w; if bit v 0 then e.oscClear else e)
    else if 0x100 ≤ o ∧ o < 0x140 then some (s.on (·.alarmWrite ((o - 0x100) / 16) (o % 16 / 4) v))
    else none
  | some .pc0 =>
    if o = 0 then
      let w := if d.rdB 0x130 PCIE_CTL.LTSSM_EN then v / 2 * 2 + b2n d.endpoint else v
      some (s.on (·.regPut p o w))
    else none
  | some .pc2 =>
    if d.endpoint ∧ (o = 0x08 ∨ o = 0x18) then ok (·.wr 0x132 (PCIE_INWIN.EN.at ((o - 8) / 16)) (v / 2 ^ 31)) else none
  | some .pc3 =>
    if o < 0x1000 then
      ok fun d => if d.endpoint ∨ o = 0x00 ∨ o = 0x08 ∨ o = 0x2C then d else d.wrW p o (BitVec.ofNat 32 v)
    else if o < 0x1400 then ok (·.msixWrite o v)
    else if o = 0x2004 then
      let r := d.draw 2
      some { s with dev := r.1.cfgAccess (some v) r.2 0 }
    else none
  | _ => none

/-- SETSSIP: the supervisor software interrupt of hart `h` (R548). -/
def State.setSsip (s : State) (h : Nat) : State :=
  match s.harts[h]? with
  | some t => { s with harts := setAt s.harts h { t with csr := put t.csr 0x344 ((lookOr 0 t.csr 0x344) ||| 2) } }
  | none => s

/-- A write of the ACLINT (R548). -/
def State.aclintWrite (s : State) (o v : Nat) : State :=
  let s := s.on (·.complete .okay)
  if o < 0x20 then s.on fun d => (d.setMsip (o / 4) (bit v 0)).complete .okay
  else if 0x4000 ≤ o ∧ o < 0x4040 then s.on fun d => (d.setCmp ((o - 0x4000) / 8) (decide (o % 8 = 4)) v).complete .okay
  else if 0xC000 ≤ o ∧ o < 0xC020 ∧ bit v 0 then s.setSsip ((o - 0xC000) / 4)
  else s

/-- Registers with a GO bit: the fields beside it are written first, the bit by the command. -/
def goOffsets : PageKind → List Nat
  | .ptp => [0xA0] | .chc => [0x88] | .txp => [0x94] | .mas => [0x98] | .ais => [0xA4] | .ven => [0xA8] | .pkp => [0x84]
  | .pka => [0x84] | .eth => [0xB8] | .drc => [0x9C] | .sec => [0x84, 0xB0] | .pwr => [0x84]
  | _ => []

/-- A write of `v` to the register at offset `o` of page `p`. -/
def State.regWrite (s : State) (q : Req) (p o v : Nat) : State :=
  let v := v % 2 ^ 32
  if 0x100 ≤ p ∧ p ≤ 0x120 then s.on (·.plicWrite ((p - 0x100) * 0x10000 + o) v)
  else if p = 0x128 then s.aclintWrite o v
  else match pageKind p with
  | none => s.on (·.complete .decodeError)
  | some kind =>
    if s.dev.shut p then s.on (·.complete .unavailable)
    else if hasHeader p ∧ o = 0x08 then s.on (·.runWrite p v)
    else if hasHeader p ∧ o = 0x1C then
      s.on fun d => (d.wrW p 0x10 (d.rdW p 0x10 ||| BitVec.ofNat 32 (v &&& 0xFFFFFF07))).complete .okay
    else if hasHeader p ∧ o < 0x80 then s.on (·.regPut p o v)
    else match s.regOwn q p o v with
    | some s' => s'
    | none =>
      let w := if (goOffsets kind).contains o then v % 2 ^ 31 else if kind = .twn ∧ o = 0x90 then 0 else v
      let w := if kind = .pkp ∧ o = 0x80 then w &&& 0xFFFFFEFF else w
      -- a sleep request from below machine mode changes nothing
      if kind = .pwr ∧ o = 0x84 ∧ q.machine = false then s.on (·.complete .denied)
      else
        let s := s.on (·.regPut p o w)
        match s.regCommand q p o v with
        | some s' => s'
        | none => s

/-! ### Any access -/

/-- A shape of access that Koveton memory takes (R404). -/
def kovShape (a : Access) : Bool :=
  let o := (a.addr - kovBase) % 0x100000
  decide (0x40000 ≤ o) || ((decide (a.size = 4) || decide (a.size = 8) || decide (a.size = 16) || decide (a.size = 32))
    && decide (a.addr % a.size = 0))

/-- An outbound request to the PCI Express windows (R551). One that is done completes at once, or behind an earlier request of
its initiator that is still open (R13). -/
def Dev.outRequest (d : Dev) (q : Req) (a : Access) : Dev :=
  let c := d.outCode a.addr
  let wait (e : Dev) (answer : Option (Code × Nat)) : Dev :=
    { e with pcie := { e.pcie with reads := e.pcie.reads ++ [{ who := q.who, addr := a.addr, size := a.size, since := e.ns, answer := answer }] } }
  let done (e : Dev) (c : Code) : Dev :=
    if e.pcie.reads.any fun r => decide (r.who = q.who) then wait e (some (c, 0)) else e.complete c
  if c ≠ .okay then done d c
  else match a.write with
    | some v => done (d.busWrite a.addr (leBytes a.size v)).1 .okay
    | none => wait d none

/-- A request on the data or register network is served by its target (R37 to R42, R60). A read held for a wake, at the DRAM
controller or sent to the link completes later. -/
def State.access (s : State) (q : Req) (a : Access) : State :=
  let d := s.dev
  let r := regionOf a.addr
  let code (c : Code) : State := s.on (·.complete c)
  let perform : State := s.on fun d => let m := d.memPerform a; m.1.complete .okay m.2
  if a.size = 0 ∨ r = .none ∨ regionOf (a.addr + a.size - 1) ≠ r then code .decodeError
  else if r = .regs ∧ (a.size ≠ 4 ∨ a.addr % 4 ≠ 0) then code .decodeError
  else if d.dark then code .unavailable
  else if d.denies q a then code .denied
  else match r with
  | .none => code .decodeError
  | .rom | .xspi => if a.write.isSome then code .decodeError else perform
  | .sram => s.on (·.sramAccess q.who a)
  | .hamper => s.on (·.hamperAccess a)
  | .dram => s.on (·.dramAccess q.who a)
  | .kov =>
    let c := d.memCode (a.addr + a.size - 1)
    if kovShape a = false then code .decodeError
    else if c ≠ .okay then code c
    else if a.write.isSome && d.kovLocked a.addr then code .denied
    else if a.write.isNone && d.badIn a.addr a.size then code .dataError
    else perform
  | .pcie => s.on (·.outRequest q a)
  | .regs =>
    let p := pageOf a.addr
    let o := a.addr % 0x10000
    match a.write with
    | some v => s.regWrite q p o v
    | none => s.on (·.regRead q p o)

/-- The privilege a request of a control core carries. -/
def State.privOf (s : State) (who : Initiator) (machine : Bool) : Nat :=
  if machine then 3 else match who with
    | .hart c => min 1 ((s.harts[c]?).getD Hart.reset).priv
    | _ => 0

def State.reqOf (s : State) (who : Initiator) (machine : Bool) : Req :=
  { who := who, priv := s.privOf who machine,
    debug := match who with | .hart c => ((s.harts[c]?).getD Hart.reset).halted | _ => false }

/-- The access reaches shared SRAM, the hamper or a Koveton memory and is served at once, so that ECC looks at what it reads (R405,
R576). -/
def Dev.eccSeen (d : Dev) (a : Access) : Bool :=
  match regionOf a.addr with
  | .kov => a.write.isNone && kovShape a && decide (d.memCode (a.addr + a.size - 1) = .okay)
  | .sram => decide (d.group (d.groupOf a.addr) = 0)
  | .hamper => !d.rdB srmPage SRM_HAMPER.WIPING
  | _ => false

/-- FABRIC_REQUEST (R60); `ecc` is what ECC finds in the words of shared SRAM, the hamper or a Koveton memory that it reads (R405,
R576). -/
def execFabricRequest (who : Initiator) (machine : Bool) (fact : AccessFact) (s : State) : Host.Outcome State Fault Refusal :=
  .next ((s.on fun d => d.when (d.eccSeen fact.acc && !d.denies (s.reqOf who machine) fact.acc) (·.eccFound fact.acc fact.ecc)).access
    (s.reqOf who machine) fact.acc)

/-- REGISTER_WRITE (R45): by machine-mode firmware on C0. -/
def execRegisterWrite (page off value : Nat) (s : State) : Host.Outcome State Fault Refusal :=
  if off % 4 ≠ 0 ∨ 0x10000 ≤ off ∨ 4096 ≤ page then .next (s.on (·.complete .decodeError))
  else if s.dev.dark then .next (s.on (·.complete .unavailable))
  else .next (s.regWrite { who := .hart 0, priv := 3, debug := false } page off value)

/-! ### Requests from PCI Express (R553 to R556) -/

/-- The fabric address of an inbound request: windows 0 to 2 serve BAR0, BAR2 and BAR4 of the endpoint, whose base the
configuration space holds. -/
def Dev.inWindow (d : Dev) (a : Nat) : Option Nat :=
  let hit (i base lg fab : Nat) (pref : Bool) : Option Nat :=
    let base := base / 2 ^ lg * 2 ^ lg
    if d.rdB 0x132 (PCIE_INWIN.EN.at i) && decide (16 ≤ lg) && decide (lg ≤ 34) && pref && decide (base ≤ a) && decide (a < base + 2 ^ lg)
    then some (fab / 2 ^ lg * 2 ^ lg + (a - base)) else none
  let fab (i : Nat) : Nat := d.rd 0x132 (PCIE_INWIN.FAB.at i) * 2 ^ 16
  let lg (i : Nat) : Nat := d.rd 0x132 (PCIE_INWIN.LOG2.at i)
  if d.endpoint then
    let bar (k : Nat) : Nat := d.cfgWord (0x10 + 8 * k) / 16 * 16 + 2 ^ 32 * d.cfgWord (0x14 + 8 * k)
    (hit 0 (bar 0) 28 0x20000000 true).orElse fun _ => (hit 1 (bar 1) 24 0x10000000 true).orElse fun _ =>
      hit 2 (bar 2) (lg 2) (fab 2) true
  else
    (List.range 4).findSome? fun i =>
      hit i (d.rd 0x132 (PCIE_INWIN.PCI_LO.at i) * 2 ^ 16 + 2 ^ 32 * d.rd 0x132 (PCIE_INWIN.PCI_HI.at i)) (lg i) (fab i) true

/-- PCIE_INBOUND_REQUEST. -/
def State.inbound (s : State) (addr size : Nat) (write : Option Nat) : State :=
  let d := s.dev
  if d.linkUp = false ∨ d.pcie.perst then s
  else
    let msi := d.rd 0x132 PCIE_MSI_LO.ADDR / 4 * 4 + 2 ^ 32 * d.rd 0x132 PCIE_MSI_HI.ADDR
    match d.endpoint, decide (addr = msi), write with
    | false, true, some v =>
      if v < 32 then s.on (·.plicEdge (776 + v)) else s.on fun d => (d.cnt 0x130 PCIE_ERR_CNT.INBOUND_ERR).pcieInt 6
    | _, _, _ =>
      match d.inWindow addr with
      | none => s.on fun d => d.inReply .decodeError 0 write.isSome
      | some f =>
        let s' := s.access { who := .pcieHost, priv := 0, debug := false } { addr := f, size := size, write := write }
        let held := decide (s.dev.ms.held.length < s'.dev.ms.held.length) || decide (s.dev.ms.dq.length < s'.dev.ms.dq.length)
          || decide (s.dev.pcie.reads.length < s'.dev.pcie.reads.length)
        -- an access held for a wake is answered when it is served
        if held then s' else s'.on fun e => e.inReply e.lastCode e.lastData write.isSome

def execPcieInboundRequest (addr size : Nat) (write : Option Nat) (s : State) : Host.Outcome State Fault Refusal :=
  .next (s.inbound addr size write)

/-! ### ACLINT commands (R548) -/

def execSetssipWrite (hart value : Nat) (s : State) : Host.Outcome State Fault Refusal :=
  .next (if hart < 8 then (if bit value 0 then s.setSsip hart else s).on (·.complete .okay) else s)

def execMsipWrite (hart value : Nat) (s : State) : Host.Outcome State Fault Refusal :=
  s.onDev fun d => if hart < 8 then (d.setMsip hart (bit value 0)).complete .okay else d

end Sys2Proof.Machine
end

