-- ==== Sys2Proof/Machine/Boot.lean ====
section
/-! DEFINITION. Entry to the power states and the return (R666 to R671, R711 to R715), supply and reset (R58, R696, R757 to R762,
R772), the boot ROM (R642, R777 to R783). -/

namespace Sys2Proof.Machine

/-! ### Reset (R58, R696, R762) -/

/-- Registers whose reset column reads Kept: those of the always-on domain, the wake record and the tamper latches. -/
def keptReg (k : Nat) : Bool :=
  let o := k % 0x10000
  (decide (k / 0x10000 = rtcPage) && ((decide (0x80 ≤ o) && decide (o < 0x8C)) || decide (o = 0x9C)
      || (decide (0xA8 ≤ o) && decide (o < 0xB4)) || (decide (0x100 ≤ o) && decide (o < 0x140))))
    || (decide (k / 0x10000 = pwrPage) && decide (0x90 ≤ o) && decide (o < 0x9C))
    || decide (k = regKey secPage SEC_TAMPER_LATCH.word.off)

/-- The device goes to its reset state; memory keeps its cells, the pins their levels, the always-on domain what it holds. -/
def Dev.deviceReset (d : Dev) : Dev :=
  let z := Dev.reset
  let e : Dev :=
    { z with
      regs := d.regs.filter fun r => keptReg r.1
      mem := d.mem
      draws := d.draws
      out := d.out
      ms := { z.ms with loss := d.ms.loss, saved := d.ms.saved, wipe := d.ms.wipe }
      pcie := { z.pcie with perst := d.pcie.perst }
      rtc := { d.rtc with staged := none, win := none }
      sec := d.sec
      gov := { z.gov with uv := d.gov.uv, rails := d.gov.rails, xo := d.gov.xo, shutdown := d.gov.shutdown }
      balls := { d.balls with resetLow := true } }
  e.secBoot.fenceFollow

/-- No core runs. -/
def State.hartsOff (s : State) : State := { s with harts := s.harts.map fun _ => { Hart.reset with running := false } }

def State.deviceReset (s : State) : State :=
  { s with dev := s.dev.deviceReset, seq := { last := none, first := 0 } }.hartsOff

/-- DEVICE_RESET. -/
def execDeviceReset (s : State) : Host.Outcome State Fault Refusal := .next s.deviceReset

/-- C0 starts at the ROM, the others in its parking path. -/
def State.hartsStart (s : State) : State := { s with harts := Hart.reset :: List.replicate 7 Hart.parkedAt }

/-- Pages held in reset under TESTMODE (R757). -/
def Dev.testReset (d : Dev) : Dev :=
  d.forAll ((List.range 0x100).filter hasHeader) fun p e => e.wr p STATE.IN_RESET 1

/-- The class code at a start (R676). -/
def Dev.classStart (d : Dev) (code : Nat) : Dev :=
  ((d.wr pwrPage PWR_CLASS.CODE code).wr pwrPage PWR_CLASS.CLASS_MW (classMw (code % 8))).budgetSync

/-- Device reset is released: what the hardware takes from the straps, the class balls and OTP (R125, R550, R586, R676, R757,
R772). -/
def Dev.released (d : Dev) : Dev :=
  let d : Dev := { d with balls := { d.balls with resetLow := false } }
  let d := d.wr 0x130 PCIE_CTL.MODE (b2n d.balls.pcieEp)
  let d := (d.classStart d.balls.cls).selectRegTable ((List.range 4).map fun k => d.otpBytes (0x1000 + 1024 * k) 1024)
  (d.when (decide (d.ms.wipe ≠ 0)) fun e => e.startWipe e.ms.wipe).when d.balls.testmode (·.testReset)

/-- A cold start from Hibernate re-derives device time at the release (R715). -/
def Dev.hibernateTime (d : Dev) (tau : Nat) : Dev :=
  d.when (decide (d.rd pwrPage PWR_WAKE_REC0.FROM = 4) && d.rdB rtcPage RTC_STAT.SNAP_VALID) (·.rederive true tau)

def State.released (s : State) (tau : Nat) : State := { s with dev := s.dev.released.hibernateTime tau }.hartsStart

/-- SYS_RST_RELEASE (R757, R772); `tau` as in R712, in ns. -/
def execSysRstRelease (pcieEp xspi1s testmode : Bool) (cls tau : Nat) (s : State) : Host.Outcome State Fault Refusal :=
  .next (if s.dev.balls.resetLow && decide (s.dev.gov.rails.length = 4) then
    (s.on fun d => { d with balls := { d.balls with pcieEp := pcieEp, xspi1s := xspi1s, testmode := testmode, cls := cls % 8 } }).released tau
  else s)

/-! ### Supply (R686, R761) -/

/-- The first rail returns: the device is in reset, the wake record tells why (R672). -/
def Dev.powerUp (d : Dev) : Dev :=
  let src := (if d.gov.shutdown then 14 else 15) + 16 * 5
  let d := d.deviceReset
  let d := (d.wrW pwrPage PWR_WAKE_REC0.word.off (BitVec.ofNat 32 src))
  { d with gov := { d.gov with rails := [3], xo := true, shutdown := false }, ms := { d.ms with wipe := 4 } }

/-- VDD_AON first rises: the always-on domain takes its power-on values, every enable is low (R696, R697, R761). -/
def Dev.aonPowerOn (d : Dev) : Dev :=
  let src := if d.gov.shutdown then 14 else 15
  let d : Dev := { (d.groupsOff.dramOff.loseSegment 16).deviceReset with rtc := Rtc.reset }
  let d := ((d.regsReset rtcPage).wr rtcPage RTC_STAT.OSC_STOP 1).wr secPage SEC_TAMPER_LATCH.LATCH 0
  let d := d.wr secPage SEC_STATUS.TAMPERED 0
  let d := (d.wrW pwrPage PWR_WAKE_REC0.word.off (BitVec.ofNat 32 src)).wrW pwrPage PWR_WAKE_REC1.word.off 0
  let d := d.wrW pwrPage PWR_WAKE_REC2.word.off 0
  { d with gov := { d.gov with rails := [], xo := false }, ms := { d.ms with wipe := 4 } }

/-- AON_POWER_ON. -/
def execAonPowerOn (s : State) : Host.Outcome State Fault Refusal :=
  .next ({ s with dev := s.dev.aonPowerOn, seq := { last := none, first := 0 } } : State).hartsOff

/-- RAIL_ENABLE_STEP: 3 with the oscillator, then 1, then 0 and 2. -/
def State.railStep (s : State) : State :=
  let d := s.dev
  let rails (l : List Nat) : State := s.on fun d => { d with gov := { d.gov with rails := l, xo := true, shutdown := false } }
  if d.pstate = 5 then
    ({ s with dev := d.powerUp, seq := { last := none, first := 0 } } : State).hartsOff
  else if d.balls.resetLow = false then s
  else if d.gov.rails.contains 3 = false then rails [3]
  else if d.gov.rails.contains 1 = false then rails [1, 3]
  else rails [0, 1, 2, 3]

def execRailEnableStep (s : State) : Host.Outcome State Fault Refusal := .next s.railStep

/-! ### Entry (R666, R668) -/

/-- Registers of blocks whose supply goes in Nap return to their reset values; those of the power controller, the clock, the
monitors, the island, shared SRAM and DRAM stay (R604, R666, R671). -/
def Dev.napLoses (d : Dev) : Dev :=
  let d := d.forAll (upperPages.filter fun p => decide (p < 0x078) || decide (0x07D < p)) fun p e =>
    let held := e.inReset p
    let off := e.unpowered p
    ((e.resetPage p).wr p STATE.IN_RESET (b2n held)).wr p STATE.UNPOWERED (b2n off)
  let d := [0x130, 0x131, 0x132, 0x133].foldl (fun e p => e.regsReset p) (d.wr 0x130 PCIE_LINK.UP 0)
  let d : Dev := { d.wr 0x130 PCIE_CTL.MODE (b2n d.balls.pcieEp) with
    regs := delRange d.regs (0x100 * 0x10000) (0x129 * 0x10000)
    pcie := { Pcie.reset with perst := d.pcie.perst }
    ctl := { Ctl.reset with refNs := d.ctl.refNs } }
  (d.wr 0x130 PCIE_CTL.MODE (b2n d.balls.pcieEp)).loseSegment 16

/-- Everything a supply switch of all rails takes (R605, R607). -/
def Dev.allRailsOff (d : Dev) : Dev :=
  let d := (d.groupsOff.dramOff).loseSegment 16
  { d with gov := { d.gov with rails := [], xo := false }, ms := { d.ms with wipe := 4 },
           mem := delRange d.mem hamperBase (hamperBase + 0x100000) }

/-- Entry to Off: the snapshot is no longer valid (R715). -/
def Dev.enterOff (d : Dev) : Dev := { d.allRailsOff.wr rtcPage RTC_STAT.SNAP_VALID 0 with rtc := { d.rtc with snap := none } }

def Dev.enterState (d : Dev) (target : Nat) : Dev :=
  match target with
  | 2 =>
    let d := [0, 1].foldl (fun e k =>
      let e := e.wr pwrPage (PWR_DOM_STAT.KOV.bitOf k) 0
      (domPages k).foldl (fun f p => f.wr p STATE.UNPOWERED 1) e) d
    (d.wr pwrPage (PWR_PL_STAT.LEVEL 0) 7).wr pwrPage (PWR_PL_STAT.LEVEL 2) 7
  | 3 =>
    let d := ((d.when (decide (d.bstate drmPage = .running)) (·.dramNapEntry)).groupsNap).sleepSnapshot
    let d := d.napLoses
    { d with gov := { d.gov with rails := [3], xo := !d.gov.xoOff } }
  | 4 => d.sleepSnapshot.allRailsOff
  | 5 => d.enterOff
  | _ => d

/-- SLEEP_ENTRY_DONE (R668, R675). -/
def State.sleepEntryDone (s : State) : State :=
  if s.dev.rd pwrPage PWR_STATE.PHASE ≠ 1 then s
  else
    let t := s.dev.gov.target
    let s := s.on fun d =>
      let d := d.enterState t
      let d := (d.wr pwrPage PWR_STATE.PHASE 0).wr pwrPage PWR_STATE.STATE t
      if d.gov.seen ≠ 0 then (d.cnt pwrPage PWR_CNT_WAKE_RACE.COUNT).wakeDetect true else d
    if 3 ≤ t then s.hartsOff else s

def execSleepEntryDone (s : State) : Host.Outcome State Fault Refusal := .next s.sleepEntryDone

/-- THERMAL_SHUTDOWN (R686). -/
def execThermalShutdown (s : State) : Host.Outcome State Fault Refusal :=
  .next (if 4 ≤ s.dev.pstate then s
    else
      (s.on fun d =>
        let d := (d.enterOff.wr pwrPage PWR_STATE.PHASE 0).wr pwrPage PWR_STATE.STATE 5
        { d with gov := { d.gov with shutdown := true } }).hartsOff)

/-! ### The boot ROM -/

def mailbox : Nat := 0x10FFFF80

/-- Write words 0 to 2 of the boot status (R782). -/
def Dev.bootStatus (d : Dev) (result failA failB svn : Nat) : Dev :=
  d.stWords mailbox [result + failA * 2 ^ 8 + failB * 2 ^ 16 + d.lc * 2 ^ 24, svn, d.rd pwrPage PWR_WAKE_REC0.FROM]

/-- Number in bytes `i` to `i + n - 1` of a header. -/
def hdrNum (h : List Nat) (i n : Nat) : Nat := ofLeBytes ((h.drop i).take n)

def allZero (h : List Nat) (i n : Nat) : Bool := ((h.drop i).take n).all fun b => decide (b = 0)

/-- The image class a life-cycle state accepts (R615): 0 vendor, 1 owner. -/
def imageClass (lc : Nat) : Nat := if lc = 2 ∨ lc = 3 then 1 else 0

/-- Owner key `i` is revoked: two of its three copies (R614). -/
def Dev.revoked (d : Dev) (i : Nat) : Bool :=
  decide (2 ≤ ((List.range 3).filter fun k => bit (d.otpWord 0x1C0) (3 * i + k)).length)

/-- The check of R642 that a header fails first, among 1 to 6. -/
def Dev.headerCheck (d : Dev) (h : List Nat) : Option Nat :=
  let cls := nth 0 h 12
  let idx := nth 0 h 13
  let pub := sha384 ((h.drop 80).take 96)
  let load := hdrNum h 16 4
  let len := hdrNum h 20 4
  if h.length ≠ 512 ∨ hdrNum h 0 4 ≠ 0x4C4D4249 ∨ hdrNum h 4 4 ≠ 1
      ∨ (allZero h 14 2 && allZero h 28 4 && allZero h 272 240) = false then some 1
  else if cls ≠ imageClass d.lc then some 2
  else if cls = 1 ∧ d.revoked idx then some 3
  else if (if cls = 1 then decide (idx < 4) && decide (pub = d.otpBytes (0x100 + 48 * idx) 48)
      else decide (idx < 2) && decide (pub = Config.vendorHash idx)) = false then some 4
  else if hdrNum h 8 4 < popCount (d.otpBytes 0x50 32) then some 5
  else if (decide (sramBase ≤ load) && decide (load + len ≤ hamperBase)) = false then some 6
  else none

/-- Checks 7 and 8 on the body read. -/
def bodyCheck (h body : List Nat) : Option Nat :=
  if sha384 body ≠ (h.drop 32).take 48 then some 7
  else if p384.verify ((h.drop 80).take 96) ((h.drop 176).take 96) (sha384 (h.take 176)) = false then some 8
  else none

/-- A flash slot is checked; its body is read to LOAD after check 6 (R777): the check failed, 9 a flash read error. -/
def Dev.checkSlot (d : Dev) (i : Option BootImg) : Dev × Option Nat :=
  match i with
  | none => (d, some 9)
  | some i =>
    match d.headerCheck i.header with
    | some k => (d, some k)
    | none =>
      let len := hdrNum i.header 20 4
      if i.body.length < len then (d, some 9)
      else
        let body := i.body.take len
        (d.stBytes (hdrNum i.header 16 4) body, bodyCheck i.header body)

/-- The directory is valid (R777, R778). -/
def dirOk (b : List Nat) : Bool :=
  decide (b.length = 64) && decide (hdrNum b 0 4 = 0x4C4D4244) && decide (nth 0 b 4 = 1) && decide (nth 0 b 5 ≤ 2)
    && [1, 2, 4, 8].contains (nth 0 b 6) && decide (nth 0 b 7 < 2) && allZero b 16 44 && decide (hdrNum b 60 4 = crc32 (b.take 60))

/-- C0 as the ROM leaves it (R777, R783). -/
def State.romLeaves (s : State) (pc : Nat) (a0 : Option Nat) : State :=
  let h := (s.harts[0]?).getD Hart.reset
  let x := match a0 with | some v => setAt h.x 10 (BitVec.ofNat 64 v) | none => h.x
  { s with
    dev := { s.dev with ctl := { s.dev.ctl with rom := .left } }
    harts := setAt s.harts 0 { h with pc := BitVec.ofNat 64 pc, x := x, wfi := false } }

/-- The ROM stops in WFI with a result. -/
def State.romHalts (s : State) (result failA failB : Nat) : State :=
  let h := (s.harts[0]?).getD Hart.reset
  { s.on fun d => { d.bootStatus result failA failB 0 with ctl := { d.ctl with rom := .halted } } with
    harts := setAt s.harts 0 { h with wfi := true } }

/-- Recovery, or WFI without a host (R781). -/
def State.romRecovers (s : State) (result failA failB : Nat) : State :=
  if s.dev.balls.pcieEp then
    s.on fun d =>
      let d := (d.bootStatus result failA failB 0).wr 0x130 PCIE_CTL.LTSSM_EN 1
      { d with ctl := { d.ctl with rom := .recovery } }
  else s.romHalts result failA failB

/-- Start a page and pass its checks, as the ROM does. -/
def Dev.romStart (d : Dev) (p : Nat) : Dev := ((d.runBits p 1).startPage p).checksPassed p

/-- The flow of R777. -/
def State.romFlow (s : State) (f : BootFlash) : State :=
  if s.dev.balls.testmode then s.romHalts 0x22 0 0
  else if s.dev.lc = 5 then s.romHalts 0x21 0 0
  else
    let s := s.on (·.romStart secPage)
    if s.dev.rdB secPage SEC_STATUS.SELFTEST_OK = false then s.romHalts 0x20 0 0
    else match f.dir with
    | none => s.romRecovers 0x10 0 0
    | some b =>
      if dirOk b = false then s.romRecovers 0x10 0 0
      else
        let s := s.on fun d => (d.wr srmPage SRM_MAP.ILV_GROUPS (nth 0 b 6)).romStart srmPage
        if s.dev.bstate srmPage ≠ .running then s.romHalts 0x10 0 0
        else
          let preferB := nth 0 b 7 = 1
          let first := s.dev.checkSlot (if preferB then f.b else f.a)
          let boots (d : Dev) (viaB : Bool) (fa fb : Nat) : State :=
            let h := ((if viaB then f.b else f.a).getD { header := [], body := [] }).header
            ({ s with dev := d.bootStatus (b2n viaB) fa fb (hdrNum h 8 4) } : State).romLeaves (hdrNum h 24 4) (some mailbox)
          match first.2 with
          | none => boots first.1 preferB 0 0
          | some e1 =>
            let second := first.1.checkSlot (if preferB then f.a else f.b)
            let s2 : State := { s with dev := second.1 }
            match second.2 with
            | none => boots second.1 (!preferB) (if preferB then 0 else e1) (if preferB then e1 else 0)
            | some e2 => s2.romRecovers 0x11 (if preferB then e2 else e1) (if preferB then e1 else e2)

/-- C0 is in the ROM's flow. -/
def State.inRom (s : State) (r : RomFlow) : Bool :=
  decide (s.dev.ctl.rom = r) && !s.dev.dark
    && ((s.harts[0]?).getD Hart.reset).running && !((s.harts[0]?).getD Hart.reset).halted

/-- BOOT_IMAGE_ACCEPTED. -/
def execBootImageAccepted (flash : BootFlash) (s : State) : Host.Outcome State Fault Refusal :=
  .next (if s.inRom .flow then s.romFlow flash else s)

/-- The recovery doorbell rings with the header `h`, its body at LOAD (R781). -/
def State.recoveryTry (s : State) (h : List Nat) : State :=
  let d := s.dev
  let e := match d.headerCheck h with
    | some k => some k
    | none => bodyCheck h (d.ldBytes (hdrNum h 16 4) (hdrNum h 20 4))
  match e with
  | none =>
    ({ s with dev := d.bootStatus 0x02 (d.ld (mailbox + 1) 1) (d.ld (mailbox + 2) 1) (hdrNum h 8 4) } : State).romLeaves
      (hdrNum h 24 4) (some mailbox)
  | some k => { s with dev := d.st (mailbox + 2) 1 k }

/-- RECOVERY_DOORBELL (R781): the word is written; in the recovery flow its value clears it and tries the header at
0x10FF_FC00. -/
def State.recoveryDoorbell (s : State) (value : Nat) : State :=
  if s.dev.dark then s
  else
    let t : State := { s with dev := s.dev.st (mailbox + 12) 4 value }
    if t.inRom .recovery && decide (value = 0x52454356) then
      let u : State := { t with dev := t.dev.st (mailbox + 12) 4 0 }
      u.recoveryTry (u.dev.ldBytes 0x10FFFC00 512)
    else t

def execRecoveryDoorbell (value : Nat) (s : State) : Host.Outcome State Fault Refusal := .next (s.recoveryDoorbell value)

/-! ### The return to Run (R669, R670, R712, R783) -/

/-- The resume record in the hamper is valid (R783). -/
def Dev.resumeAt (d : Dev) : Option Nat :=
  let a := hamperBase + 0xFFFC0
  let t := d.ld (a + 8) 8
  if !d.rdB srmPage SRM_HAMPER.WIPING && decide (d.ld a 4 = 0x52534D45) && decide (t + d.ld (a + 16) 8 = 2 ^ 64 - 1) then some t else none

/-- C0 alone is released at the ROM; the others stay in reset (R669). -/
def State.napHarts (s : State) : State :=
  { s with harts := Hart.reset :: List.replicate 7 { Hart.reset with running := false } }

def State.napReturn (s : State) (tau : Nat) : State :=
  let s := s.on fun d =>
    let d := (d.groupsWake.rederive false tau).when (decide (d.bstate drmPage = .running)) (·.dramNapExit)
    (d.classSample d.balls.cls).levelsUpdate
  let s := ({ s with seq := { s.seq with first := ceilDiv s.dev.now beatU } } : State).napHarts
  match s.dev.resumeAt with
  | some t =>
    (s.on fun d => (d.st (hamperBase + 0xFFFC0) 4 0).bootStatus 0x03 0 0 (d.ld (mailbox + 4) 4)).romLeaves t none
  | none => s

/-- RETURN_TO_RUN; `tau` as in R712. -/
def State.returnToRun (s : State) (tau : Nat) : State :=
  if s.dev.rd pwrPage PWR_STATE.PHASE ≠ 2 then s
  else
    let src := s.dev.rd pwrPage PWR_WAKE_REC0.FROM
    let run (d : Dev) : Dev := ((d.wr pwrPage PWR_STATE.PHASE 0).wr pwrPage PWR_STATE.STATE 0).ev pwrPage 8
    match src with
    | 3 => (s.on run).napReturn tau
    | 4 => (s.deviceReset.released tau).on (·.ev pwrPage 8)
    | 2 =>
      s.on fun d =>
        let d := run d
        let up := [0, 1].filter fun k => d.rdB pwrPage (PWR_DOM.KOV.bitOf k)
        ({ d with gov := { d.gov with domUp := d.gov.domUp.filter (fun k => decide (1 < k)) ++ up } } : Dev).levelsUpdate
    | _ => s.on fun d => (run d).levelsUpdate

def execReturnToRun (tau : Nat) (s : State) : Host.Outcome State Fault Refusal := .next (s.returnToRun tau)

end Sys2Proof.Machine
end

