-- ==== Sys2Proof/Machine/Float.lean ====
section
/-! DEFINITION. Binary floating point of the F and D extensions (R540): exact arithmetic on numbers `m * 2^e`, rounded once. -/

namespace Sys2Proof.Machine

/-- A format: exponent and fraction width. -/
structure Fmt where
  ew : Nat
  mw : Nat
deriving DecidableEq, Repr

def f32 : Fmt := ⟨8, 23⟩
def f64 : Fmt := ⟨11, 52⟩

def Fmt.bias (f : Fmt) : Nat := 2 ^ (f.ew - 1) - 1
def Fmt.width (f : Fmt) : Nat := 1 + f.ew + f.mw
def Fmt.inf (f : Fmt) (s : Bool) : Nat := b2n s * 2 ^ (f.ew + f.mw) + (2 ^ f.ew - 1) * 2 ^ f.mw
/-- The canonical NaN. -/
def Fmt.nan (f : Fmt) : Nat := f.inf false + 2 ^ (f.mw - 1)
def Fmt.zero (f : Fmt) (s : Bool) : Nat := b2n s * 2 ^ (f.ew + f.mw)

/-- What a word stands for. -/
inductive FVal where
  | nan (signalling : Bool)
  | inf (s : Bool)
  | num (s : Bool) (m : Nat) (e : Int)
deriving DecidableEq, Repr

def Fmt.unpack (f : Fmt) (v : Nat) : FVal :=
  let s := decide (bits v (f.ew + f.mw) 1 = 1)
  let e := bits v f.mw f.ew
  let m := bits v 0 f.mw
  if e = 2 ^ f.ew - 1 then (if m = 0 then .inf s else .nan (decide (m < 2 ^ (f.mw - 1))))
  else if e = 0 then .num s m (1 - (f.bias : Int) - f.mw)
  else .num s (m + 2 ^ f.mw) ((e : Int) - f.bias - f.mw)

def nvFlag : Nat := 16
def dzFlag : Nat := 8
def ofFlag : Nat := 4
def ufFlag : Nat := 2
def nxFlag : Nat := 1

/-- `m / 2^k` rounded (modes 0 RNE, 1 RTZ, 2 RDN, 3 RUP, 4 RMM), and whether it is inexact; `sticky` tells of something
below `m`. -/
def roundAt (rm : Nat) (s : Bool) (m : Nat) (sticky : Bool) (k : Nat) : Nat × Bool :=
  let kept := m / 2 ^ k
  let rem := m % 2 ^ k
  let inexact := decide (rem ≠ 0) || sticky
  let twice := 2 * rem
  let up := match rm with
    | 0 => decide (2 ^ k < twice) || (decide (twice = 2 ^ k) && decide (k ≠ 0) && (sticky || decide (kept % 2 = 1)))
    | 2 => s && inexact
    | 3 => !s && inexact
    | 4 => decide (2 ^ k ≤ twice) && decide (k ≠ 0)
    | _ => false
  (kept + b2n up, inexact)

/-- The word of `m * 2^e` rounded, and the flags raised; an underflow is detected after rounding. -/
def Fmt.round (f : Fmt) (rm : Nat) (s : Bool) (m : Nat) (e : Int) (sticky : Bool) : Nat × Nat :=
  if m = 0 then (f.zero s, 0)
  else
    let lead : Int := e + Nat.log2 m
    let emin : Int := 1 - f.bias
    -- at least two bits to drop, so that what lies below `m` stays below half
    let at' (x : Int) : Nat × Bool :=
      let q : Int := x - f.mw
      if q ≤ e then (m * 2 ^ (e - q).toNat, false) else roundAt rm s m sticky (q - e).toNat
    let r := at' (max lead emin)
    let free := at' lead
    let tiny := decide (lead < emin) && !(decide (lead = emin - 1) && decide (free.1 = 2 ^ (f.mw + 1)))
    let top : Int := max lead emin
    let r2 : Nat × Int := if r.1 = 2 ^ (f.mw + 1) then (2 ^ f.mw, top + 1) else (r.1, top)
    if (f.bias : Int) < r2.2 ∧ 2 ^ f.mw ≤ r2.1 then
      let max' := f.inf s - 1
      let big := match rm with
        | 1 => max'
        | 2 => if s then f.inf s else max'
        | 3 => if s then max' else f.inf s
        | _ => f.inf s
      (big, ofFlag + nxFlag)
    else
      let word := b2n s * 2 ^ (f.ew + f.mw) + (if r2.1 < 2 ^ f.mw then r2.1 else (r2.2 + f.bias).toNat * 2 ^ f.mw + (r2.1 - 2 ^ f.mw))
      (word, if r.2 then nxFlag + (if tiny then ufFlag else 0) else 0)

/-- NaN operands: the canonical NaN, invalid when one signals. -/
def Fmt.nanOf (f : Fmt) (l : List FVal) : Nat × Nat := (f.nan, if l.any (fun v => decide (v = .nan true)) then nvFlag else 0)

def Fmt.invalid (f : Fmt) : Nat × Nat := (f.nan, nvFlag)

def FVal.isNan : FVal → Bool | .nan _ => true | _ => false

/-- `x + y` for finite numbers. -/
def Fmt.sum (f : Fmt) (rm : Nat) (s1 : Bool) (m1 : Nat) (e1 : Int) (s2 : Bool) (m2 : Nat) (e2 : Int) : Nat × Nat :=
  let e := min e1 e2
  let a : Int := (m1 * 2 ^ (e1 - e).toNat : Nat)
  let b : Int := (m2 * 2 ^ (e2 - e).toNat : Nat)
  let t := (if s1 then -a else a) + (if s2 then -b else b)
  if t = 0 then (f.zero (if s1 = s2 then s1 else decide (rm = 2)), 0) else f.round rm (decide (t < 0)) t.natAbs e false

def Fmt.add (f : Fmt) (rm a b : Nat) : Nat × Nat :=
  match f.unpack a, f.unpack b with
  | .inf s, .inf t => if s = t then (f.inf s, 0) else f.invalid
  | .inf s, .num _ _ _ => (f.inf s, 0)
  | .num _ _ _, .inf s => (f.inf s, 0)
  | .num s1 m1 e1, .num s2 m2 e2 => f.sum rm s1 m1 e1 s2 m2 e2
  | x, y => f.nanOf [x, y]

/-- The word with its sign flipped. -/
def Fmt.neg (f : Fmt) (a : Nat) : Nat := a ^^^ 2 ^ (f.ew + f.mw)

def Fmt.mul (f : Fmt) (rm a b : Nat) : Nat × Nat :=
  match f.unpack a, f.unpack b with
  | .inf s, .inf t => (f.inf (s != t), 0)
  | .inf s, .num t m _ => if m = 0 then f.invalid else (f.inf (s != t), 0)
  | .num t m _, .inf s => if m = 0 then f.invalid else (f.inf (s != t), 0)
  | .num s1 m1 e1, .num s2 m2 e2 => f.round rm (s1 != s2) (m1 * m2) (e1 + e2) false
  | x, y => f.nanOf [x, y]

/-- `a * b + c`, rounded once. -/
def Fmt.fma (f : Fmt) (rm a b c : Nat) : Nat × Nat :=
  let z := f.unpack c
  let addInf (s : Bool) : Nat × Nat :=
    match z with
    | .inf t => if s = t then (f.inf s, 0) else f.invalid
    | .nan _ => f.nanOf [z]
    | _ => (f.inf s, 0)
  match f.unpack a, f.unpack b with
  | .inf s, .inf t => addInf (s != t)
  | .inf s, .num t m _ => if m = 0 then f.invalid else addInf (s != t)
  | .num t m _, .inf s => if m = 0 then f.invalid else addInf (s != t)
  | .num s1 m1 e1, .num s2 m2 e2 =>
    match z with
    | .inf t => (f.inf t, 0)
    | .nan _ => f.nanOf [z]
    | .num s3 m3 e3 => f.sum rm (s1 != s2) (m1 * m2) (e1 + e2) s3 m3 e3
  | x, y => f.nanOf [x, y, z]

def Fmt.div (f : Fmt) (rm a b : Nat) : Nat × Nat :=
  match f.unpack a, f.unpack b with
  | .inf _, .inf _ => f.invalid
  | .inf s, .num t _ _ => (f.inf (s != t), 0)
  | .num s _ _, .inf t => (f.zero (s != t), 0)
  | .num s1 m1 e1, .num s2 m2 e2 =>
    if m2 = 0 then (if m1 = 0 then f.invalid else (f.inf (s1 != s2), dzFlag))
    else
      let n := m1 * 2 ^ 130
      f.round rm (s1 != s2) (n / m2) (e1 - e2 - 130) (decide (n % m2 ≠ 0))
  | x, y => f.nanOf [x, y]

def Fmt.sqrt (f : Fmt) (rm a : Nat) : Nat × Nat :=
  match f.unpack a with
  | .inf s => if s then f.invalid else (f.inf false, 0)
  | .num s m e =>
    if m = 0 then (f.zero s, 0)
    else if s then f.invalid
    else
      let odd := decide (e % 2 ≠ 0)
      let n := (if odd then 2 * m else m) * 2 ^ 120
      let r := rootFuel 2 n 90 0
      f.round rm false r ((if odd then e - 1 else e) / 2 - 60) (decide (r * r ≠ n))
  | x => f.nanOf [x]

/-- Compare finite numbers or infinities: -1, 0 or 1; none with a NaN. -/
def Fmt.cmp (f : Fmt) (a b : Nat) : Option Int :=
  match f.unpack a, f.unpack b with
  | .inf s, .inf t => some (if s = t then 0 else if s then -1 else 1)
  | .inf s, .num _ _ _ => some (if s then -1 else 1)
  | .num _ _ _, .inf s => some (if s then 1 else -1)
  | .num s1 m1 e1, .num s2 m2 e2 =>
    let e := min e1 e2
    let x : Int := (m1 * 2 ^ (e1 - e).toNat : Nat)
    let y : Int := (m2 * 2 ^ (e2 - e).toNat : Nat)
    let t := (if s1 then -x else x) - (if s2 then -y else y)
    some (if t < 0 then -1 else if t = 0 then 0 else 1)
  | _, _ => none

def Fmt.signals (f : Fmt) (l : List Nat) : Bool := l.any fun v => decide (f.unpack v = .nan true)

/-- FMIN and FMAX. -/
def Fmt.minMax (f : Fmt) (big : Bool) (a b : Nat) : Nat × Nat :=
  let fl := if f.signals [a, b] then nvFlag else 0
  match (f.unpack a).isNan, (f.unpack b).isNan with
  | true, true => (f.nan, fl)
  | true, false => (b, fl)
  | false, true => (a, fl)
  | false, false =>
    let aLess := match f.cmp a b with | some t => decide (t < 0) || (decide (t = 0) && decide (bits a (f.ew + f.mw) 1 = 1)) | none => false
    (if aLess != big then a else b, 0)

/-- FLE (0), FLT (1) and FEQ (2). -/
def Fmt.compare (f : Fmt) (op a b : Nat) : Nat × Nat :=
  match f.cmp a b with
  | none => (0, if op < 2 ∨ f.signals [a, b] then nvFlag else 0)
  | some t => (b2n (if op = 0 then decide (t ≤ 0) else if op = 1 then decide (t < 0) else decide (t = 0)), 0)

/-- FCLASS. -/
def Fmt.classify (f : Fmt) (a : Nat) : Nat :=
  match f.unpack a with
  | .inf s => if s then 1 else 2 ^ 7
  | .nan sig => if sig then 2 ^ 8 else 2 ^ 9
  | .num s m _ =>
    let k := if m = 0 then 3 else if m < 2 ^ f.mw then 2 else 1
    if s then 2 ^ k else 2 ^ (7 - k)

/-- To an integer in `lo` to `hi`, saturating. -/
def Fmt.toInt (f : Fmt) (rm a : Nat) (lo hi : Int) : Int × Nat :=
  match f.unpack a with
  | .nan _ => (hi, nvFlag)
  | .inf s => (if s then lo else hi, nvFlag)
  | .num s m e =>
    let r := if 0 ≤ e then (m * 2 ^ e.toNat, false) else roundAt rm s m false (-e).toNat
    let v : Int := if s then -(r.1 : Int) else r.1
    if v < lo then (lo, nvFlag) else if hi < v then (hi, nvFlag) else (v, b2n r.2)

def Fmt.ofInt (f : Fmt) (rm : Nat) (v : Int) : Nat × Nat := f.round rm (decide (v < 0)) v.natAbs 0 false

/-- From format `g`. -/
def Fmt.convert (f g : Fmt) (rm a : Nat) : Nat × Nat :=
  match g.unpack a with
  | .inf s => (f.inf s, 0)
  | .num s m e => f.round rm s m e false
  | x => f.nanOf [x]

end Sys2Proof.Machine
end

