-- ==== Sys2Proof/Machine/Compressed.lean ====
section
/-! DEFINITION. The C extension on RV64 with F and D (R540): the 32-bit instruction each 16-bit one stands for, as the RISC-V
unprivileged specification gives it. -/

namespace Sys2Proof.Machine

/-! ### Building 32-bit words -/

def encI (op f3 rd rs1 : Nat) (imm : Int) : Nat := op + rd * 2 ^ 7 + f3 * 2 ^ 12 + rs1 * 2 ^ 15 + ofSigned 12 imm * 2 ^ 20

def encR (op f3 f7 rd rs1 rs2 : Nat) : Nat := op + rd * 2 ^ 7 + f3 * 2 ^ 12 + rs1 * 2 ^ 15 + rs2 * 2 ^ 20 + f7 * 2 ^ 25

def encS (op f3 rs1 rs2 imm : Nat) : Nat :=
  op + bits imm 0 5 * 2 ^ 7 + f3 * 2 ^ 12 + rs1 * 2 ^ 15 + rs2 * 2 ^ 20 + bits imm 5 7 * 2 ^ 25

def encB (f3 rs1 rs2 : Nat) (imm : Int) : Nat :=
  let v := ofSigned 13 imm
  0x63 + bits v 11 1 * 2 ^ 7 + bits v 1 4 * 2 ^ 8 + f3 * 2 ^ 12 + rs1 * 2 ^ 15 + rs2 * 2 ^ 20 + bits v 5 6 * 2 ^ 25 + bits v 12 1 * 2 ^ 31

def encJ (rd : Nat) (imm : Int) : Nat :=
  let v := ofSigned 21 imm
  0x6F + rd * 2 ^ 7 + bits v 12 8 * 2 ^ 12 + bits v 11 1 * 2 ^ 20 + bits v 1 10 * 2 ^ 21 + bits v 20 1 * 2 ^ 31

/-- The bits of `h` from position `b`, placed at `at'`, `w` of them. -/
def mv (h b w at' : Nat) : Nat := bits h b w * 2 ^ at'

/-! ### Quadrants -/

def expandC0 (h : Nat) : Option Nat :=
  let rd := 8 + bits h 2 3
  let rs := 8 + bits h 7 3
  let w4 := mv h 10 3 3 + mv h 6 1 2 + mv h 5 1 6
  let w8 := mv h 10 3 3 + mv h 5 2 6
  match bits h 13 3 with
  | 0 =>
    let imm := mv h 11 2 4 + mv h 7 4 6 + mv h 6 1 2 + mv h 5 1 3
    if imm = 0 then none else some (encI 0x13 0 rd 2 imm)
  | 1 => some (encI 0x07 3 rd rs w8)
  | 2 => some (encI 0x03 2 rd rs w4)
  | 3 => some (encI 0x03 3 rd rs w8)
  | 5 => some (encS 0x27 3 rs rd w8)
  | 6 => some (encS 0x23 2 rs rd w4)
  | 7 => some (encS 0x23 3 rs rd w8)
  | _ => none

def expandC1 (h : Nat) : Option Nat :=
  let r := bits h 7 5
  let rs := 8 + bits h 7 3
  let r2 := 8 + bits h 2 3
  let imm := toSigned 6 (mv h 2 5 0 + mv h 12 1 5)
  let sh := mv h 2 5 0 + mv h 12 1 5
  let br := toSigned 9 (mv h 12 1 8 + mv h 10 2 3 + mv h 5 2 6 + mv h 3 2 1 + mv h 2 1 5)
  match bits h 13 3 with
  | 0 => some (encI 0x13 0 r r imm)
  | 1 => if r = 0 then none else some (encI 0x1B 0 r r imm)
  | 2 => some (encI 0x13 0 r 0 imm)
  | 3 =>
    if imm = 0 then none
    else if r = 2 then
      some (encI 0x13 0 2 2 (toSigned 10 (mv h 12 1 9 + mv h 6 1 4 + mv h 5 1 6 + mv h 3 2 7 + mv h 2 1 5)))
    else some (0x37 + r * 2 ^ 7 + ofSigned 20 imm * 2 ^ 12)
  | 4 =>
    match bits h 10 2 with
    | 0 => some (encI 0x13 5 rs rs sh)
    | 1 => some (encI 0x13 5 rs rs (sh + 0x400))
    | 2 => some (encI 0x13 7 rs rs imm)
    | _ =>
      match bits h 12 1, bits h 5 2 with
      | 0, 0 => some (encR 0x33 0 0x20 rs rs r2)
      | 0, 1 => some (encR 0x33 4 0 rs rs r2)
      | 0, 2 => some (encR 0x33 6 0 rs rs r2)
      | 0, _ => some (encR 0x33 7 0 rs rs r2)
      | _, 0 => some (encR 0x3B 0 0x20 rs rs r2)
      | _, 1 => some (encR 0x3B 0 0 rs rs r2)
      | _, _ => none
  | 5 =>
    some (encJ 0 (toSigned 12 (mv h 12 1 11 + mv h 11 1 4 + mv h 9 2 8 + mv h 8 1 10 + mv h 7 1 6 + mv h 6 1 7 + mv h 3 3 1 + mv h 2 1 5)))
  | 6 => some (encB 0 rs 0 br)
  | _ => some (encB 1 rs 0 br)

def expandC2 (h : Nat) : Option Nat :=
  let r := bits h 7 5
  let r2 := bits h 2 5
  let l8 := mv h 12 1 5 + mv h 5 2 3 + mv h 2 3 6
  let l4 := mv h 12 1 5 + mv h 4 3 2 + mv h 2 2 6
  let s8 := mv h 10 3 3 + mv h 7 3 6
  let s4 := mv h 9 4 2 + mv h 7 2 6
  match bits h 13 3 with
  | 0 => some (encI 0x13 1 r r (mv h 2 5 0 + mv h 12 1 5 : Nat))
  | 1 => some (encI 0x07 3 r 2 l8)
  | 2 => if r = 0 then none else some (encI 0x03 2 r 2 l4)
  | 3 => if r = 0 then none else some (encI 0x03 3 r 2 l8)
  | 4 =>
    if bits h 12 1 = 0 then
      (if r2 ≠ 0 then some (encR 0x33 0 0 r 0 r2) else if r = 0 then none else some (encI 0x67 0 0 r 0))
    else if r2 ≠ 0 then some (encR 0x33 0 0 r r r2)
    else if r = 0 then some 0x00100073
    else some (encI 0x67 0 1 r 0)
  | 5 => some (encS 0x27 3 2 r2 s8)
  | 6 => some (encS 0x23 2 2 r2 s4)
  | _ => some (encS 0x23 3 2 r2 s8)

/-- The 32-bit word a 16-bit instruction stands for; none is illegal. -/
def expandC (h : Nat) : Option Nat :=
  if h = 0 then none
  else match h % 4 with
    | 0 => expandC0 h
    | 1 => expandC1 h
    | _ => expandC2 h

end Sys2Proof.Machine
end

