-- ==== Sys2Proof/Machine/HartMem.lean ====
section
/-! DEFINITION. How a control core reaches memory: the coherent caches (R542 to R545), physical memory protection and Sv39 (R540),
loads, stores and atomics. What R540 leaves to the RISC-V specifications is taken from them (log entry 30). -/

namespace Sys2Proof.Machine

/-! ### Cores -/

def State.hart (s : State) (c : Nat) : Hart := (s.harts[c]?).getD Hart.reset
def State.setHart (s : State) (c : Nat) (h : Hart) : State := { s with harts := setAt s.harts c h }
def State.onHart (s : State) (c : Nat) (f : Hart → Hart) : State := s.setHart c (f (s.hart c))

/-- The stored word of a CSR. -/
def Hart.csrW (h : Hart) (n : Nat) : Nat := (lookOr 0 h.csr n).toNat

/-- Store a CSR; one that holds 0 is not listed. -/
def Hart.setCsr (h : Hart) (n v : Nat) : Hart := { h with csr := putD (fun _ => (0 : BitVec 64)) h.csr n (BitVec.ofNat 64 v) }

def Hart.mstatus (h : Hart) : Nat := h.csrW 0x300

/-- Privilege of loads and stores: MPP while MPRV stands in machine mode; debug mode ignores MPRV. -/
def Hart.dataPriv (h : Hart) : Nat :=
  if h.halted then 3 else if h.priv = 3 ∧ bit h.mstatus 17 then bits h.mstatus 11 2 else h.priv

/-- Kinds of access: 0 load, 1 store, 2 fetch; the cause of its access fault and of its page fault. -/
def accessFault : Nat → Nat | 0 => 5 | 1 => 7 | _ => 1
def pageFault : Nat → Nat | 0 => 13 | 1 => 15 | _ => 12

/-! ### Caches -/

/-- Regions the cores cache (R542). -/
def cacheable (a : Nat) : Bool := match regionOf a with | .rom | .xspi | .sram | .dram => true | _ => false

/-- Regions that take atomics. -/
def atomics (a : Nat) : Bool := match regionOf a with | .sram | .dram => true | _ => false

/-- A dirty line goes back to memory. -/
def Dev.writeBack (d : Dev) (la : Nat) : Dev :=
  match look d.ctl.lines la with
  | some l =>
    if l.dirty then
      let d := (d.busWrite la l.bytes).1
      { d with ctl := { d.ctl with lines := put d.ctl.lines la { l with dirty := false } } }
    else d
  | none => d

def Dev.dropLine (d : Dev) (la : Nat) : Dev := { d with ctl := { d.ctl with lines := del d.ctl.lines la } }

/-- A fill may turn out another line; which, if any, the spec leaves open. -/
def Dev.evictSome (d : Dev) : Dev :=
  let (d, v) := d.draw 32
  if v % 2 = 0 ∨ d.ctl.lines.isEmpty then d
  else
    let la := (nth (0, { bytes := [], dirty := false }) d.ctl.lines (v / 2 % d.ctl.lines.length)).1
    (d.writeBack la).dropLine la

/-- The line at `la` is in the caches, filled when need be; false when memory refuses the fill. -/
def Dev.fillLine (d : Dev) (la : Nat) : Dev × Bool :=
  if (look d.ctl.lines la).isSome then (d, true)
  else if d.badIn la 64 then (d.srmUncorr ((((List.range 8).map fun i => la + 8 * i).find? d.wordBad).getD la), false)
  else if d.memOk la && !d.dark then
    let d := d.evictSome
    let d := if regionOf la = .sram ∧ d.group (d.groupOf la) = 2 then d.wakeGroup (d.groupOf la)
      else if regionOf la = .dram then d.dramTouch (d.dramPlace (la - dramBase)).1 else d
    ({ d with ctl := { d.ctl with lines := put d.ctl.lines la { bytes := d.ldBytes la 64, dirty := false } } }, true)
  else (d, false)

def lineOf (a : Nat) : Nat := a / 64 * 64

/-- Every line that `n` bytes at `a` touch is filled. -/
def Dev.fillAll (d : Dev) (a n : Nat) : Dev × Bool :=
  let r := d.fillLine (lineOf a)
  if lineOf (a + n - 1) = lineOf a then r
  else
    let q := r.1.fillLine (lineOf (a + n - 1))
    (q.1, r.2 && q.2)

/-- The byte at `a` as the cores see it. -/
def Dev.cachedB (d : Dev) (a : Nat) : Nat :=
  match look d.ctl.lines (lineOf a) with
  | some l => nth 0 l.bytes (a % 64)
  | none => (d.ldB a).toNat

def Dev.cachedBytes (d : Dev) (a n : Nat) : List Nat := (List.range n).map fun i => d.cachedB (a + i)

/-- Store one byte into its line. -/
def Dev.cachePut (d : Dev) (a v : Nat) : Dev :=
  match look d.ctl.lines (lineOf a) with
  | some l => { d with ctl := { d.ctl with lines := put d.ctl.lines (lineOf a) { bytes := setAt l.bytes (a % 64) (v % 256), dirty := true } } }
  | none => d

def Dev.cachePuts (d : Dev) (a : Nat) : List Nat → Dev
  | [] => d
  | b :: r => (d.cachePut a b).cachePuts (a + 1) r

/-- A store takes away the reservations other cores hold on its lines. -/
def State.breakResv (s : State) (c a n : Nat) : State :=
  { s with harts := s.harts.zipIdx.map fun e =>
      match e.1.resv with
      | some (r, _) =>
        if e.2 ≠ c ∧ (lineOf r = lineOf a ∨ lineOf r = lineOf (a + n - 1)) then { e.1 with resv := none } else e.1
      | none => e.1 }

/-- An uncorrectable error met in a line (R545): the line goes; LOST when it was dirty. -/
def State.lineError (s : State) (c a : Nat) : State :=
  let la := lineOf a
  let dirty := match look s.dev.ctl.lines la with | some l => l.dirty | none => false
  (s.on (·.dropLine la)).onHart c fun h => h.setCsr 0x7C0 (h.csrW 0x7C0 ||| 2 ^ 16 ||| (if dirty then 2 ^ 17 else 0))

/-- A corrected error is counted (R545). -/
def Hart.corrected (h : Hart) : Hart :=
  let v := h.csrW 0x7C0
  h.setCsr 0x7C0 (v / 2 ^ 16 * 2 ^ 16 + min 65535 (v % 2 ^ 16 + 1))

/-! ### Physical memory protection -/

/-- Byte `i` of the PMP configuration, and address register `i`. -/
def Hart.pmpCfg (h : Hart) (i : Nat) : Nat := bits (h.csrW (0x3A0 + i / 8 * 2)) (i % 8 * 8) 8
def Hart.pmpAddr (h : Hart) (i : Nat) : Nat := h.csrW (0x3B0 + i)

/-- The range of entry `i`, at 4 KiB granularity. -/
def Hart.pmpRange (h : Hart) (i : Nat) : Option (Nat × Nat) :=
  let page (v : Nat) : Nat := v / 1024 * 4096
  match bits (h.pmpCfg i) 3 2 with
  | 1 => some (if i = 0 then 0 else page (h.pmpAddr (i - 1)), page (h.pmpAddr i))
  | 3 =>
    let a := h.pmpAddr i ||| 511
    let k := (List.range 55).takeWhile fun j => bit a j
    let size := 2 ^ (k.length + 3)
    some (a * 4 / size * size, a * 4 / size * size + size)
  | _ => none

/-- The lowest entry that matches any byte of the access decides, and only if it matches all. -/
def Hart.pmpOk (h : Hart) (prv acc a n : Nat) : Bool :=
  let hit := (List.range 16).find? fun i =>
    match h.pmpRange i with | some (lo, hi) => decide (lo < a + n) && decide (a < hi) && decide (lo < hi) | none => false
  match hit with
  | none => decide (prv = 3)
  | some i =>
    match h.pmpRange i with
    | some (lo, hi) =>
      decide (lo ≤ a) && decide (a + n ≤ hi) && ((decide (prv = 3) && !bit (h.pmpCfg i) 7) || bit (h.pmpCfg i) acc)
    | none => false

/-! ### Address translation -/

/-- A leaf entry permits the access. -/
def Hart.leafOk (h : Hart) (prv acc pte : Nat) : Bool :=
  let u := bit pte 4
  let sum := bit h.mstatus 18
  let mxr := bit h.mstatus 19
  let mode := if prv = 0 then u else if u then sum && decide (acc ≠ 2) else true
  mode && (match acc with
    | 0 => bit pte 1 || (mxr && bit pte 3)
    | 1 => bit pte 2
    | _ => bit pte 3)

/-- The walk of Sv39 from level `k - 1` with the table at `base`: the physical address, or the cause of the fault. The A and D
bits are set by hardware. -/
def State.walk (s : State) (c prv acc va : Nat) : Nat → Nat → State × Except Nat Nat
  | 0, _ => (s, .error (pageFault acc))
  | k + 1, base =>
    let pa := base + bits va (12 + 9 * k) 9 * 8
    let h := s.hart c
    if h.pmpOk 1 0 pa 8 = false ∨ atomics pa = false then (s, .error (accessFault acc))
    else
      let f := s.dev.fillLine (lineOf pa)
      let s : State := { s with dev := f.1 }
      if f.2 = false then (s, .error (accessFault acc))
      else
        let pte := ofLeBytes (s.dev.cachedBytes pa 8)
        let ppn := bits pte 10 44
        if bit pte 0 = false ∨ (bit pte 1 = false ∧ bit pte 2) ∨ bits pte 54 10 ≠ 0 then (s, .error (pageFault acc))
        else if bit pte 1 = false ∧ bit pte 3 = false then
          (if bit pte 4 ∨ bit pte 6 ∨ bit pte 7 then (s, .error (pageFault acc))
           else s.walk c prv acc va k (ppn * 4096))
        else if h.leafOk prv acc pte = false ∨ ppn % 2 ^ (9 * k) ≠ 0 then (s, .error (pageFault acc))
        else
          let ad := 2 ^ 6 ||| (if acc = 1 then 2 ^ 7 else 0)
          let new := pte ||| ad
          if new ≠ pte ∧ h.pmpOk 1 1 pa 8 = false then (s, .error (accessFault acc))
          else
            let s := if new ≠ pte then (s.on (·.cachePuts pa (leBytes 8 new))).breakResv c pa 8 else s
            (s, .ok (ppn / 2 ^ (9 * k) * 2 ^ (12 + 9 * k) + va % 2 ^ (12 + 9 * k)))

/-- The physical address of a virtual one. -/
def State.translate (s : State) (c prv acc va : Nat) : State × Except Nat Nat :=
  let h := s.hart c
  let satp := h.csrW 0x180
  if prv = 3 ∨ satp / 2 ^ 60 ≠ 8 then (s, .ok va)
  else
    let top := va / 2 ^ 38
    if top ≠ 0 ∧ top ≠ 2 ^ 26 - 1 then (s, .error (pageFault acc))
    else s.walk c prv acc va 3 (bits satp 0 44 * 4096)

/-! ### Triggers -/

/-- The trigger that fires on an access to virtual address `va` (four mcontrol6 triggers): its action. -/
def Hart.trigger (h : Hart) (acc va : Nat) : Option Nat :=
  if h.halted then none
  else
    let hit := (List.range 4).find? fun t =>
      let d1 := h.csrW (0x17A1 + 0x1000 * t)
      let mode := if h.priv = 3 then bit d1 6 else if h.priv = 1 then bit d1 4 else bit d1 3
      mode && bit d1 acc && decide (h.csrW (0x17A2 + 0x1000 * t) = va)
    hit.map fun t => bits (h.csrW (0x17A1 + 0x1000 * t)) 12 4

/-- The cause a trigger gives: a breakpoint exception, or entry to debug mode (100). -/
def trapOfTrigger (action : Nat) : Nat := if action = 1 then 100 else 3

/-! ### Loads and stores -/

/-- How a load ends. -/
inductive LoadRes where
  | data (v : Nat)
  | wait
  | trap (cause tval : Nat)
deriving DecidableEq, Repr

/-- A request of core `c` on the fabric. -/
def State.coreReq (s : State) (c : Nat) (prv : Nat) : Req := { who := .hart c, priv := prv, debug := (s.hart c).halted }

/-- An uncached load (R542): it may wait for its data. -/
def State.ioLoad (s : State) (c prv pa n va : Nat) : State × LoadRes :=
  if pa % n ≠ 0 then (s, .trap 5 va)
  else
    let s' := s.access (s.coreReq c prv) { addr := pa, size := n, write := none }
    let ask := decide (regionOf pa = .regs) && decide (pageOf pa = dspPage) && (s'.dev.port c).wait.isSome
    if ask || decide (s.dev.pcie.reads.length < s'.dev.pcie.reads.length) then (s', .wait)
    else if s'.dev.lastCode = .okay then (s', .data s'.dev.lastData)
    else (s', .trap 5 va)

/-- A load of `n` bytes; `bad` tells that an uncorrectable error lies in the data (R545). -/
def State.load (s : State) (c va n : Nat) (bad : Bool) : State × LoadRes :=
  let h := s.hart c
  let prv := h.dataPriv
  match h.trigger 0 va with
  | some a => (s, .trap (trapOfTrigger a) va)
  | none =>
    match s.translate c prv 0 va with
    | (s, .error e) => (s, .trap e va)
    | (s, .ok pa) =>
      let n1 := min n (4096 - va % 4096)
      if n1 = n then
        if h.pmpOk prv 0 pa n = false then (s, .trap 5 va)
        else if cacheable pa = false then s.ioLoad c prv pa n va
        else
          let f := s.dev.fillAll pa n
          let s : State := { s with dev := f.1 }
          if f.2 = false then (s, .trap 5 va)
          else if bad then (s.lineError c pa, .trap 5 va)
          else (s, .data (ofLeBytes (s.dev.cachedBytes pa n)))
      else
        match s.translate c prv 0 (va + n1) with
        | (s, .error e) => (s, .trap e (va + n1))
        | (s, .ok pb) =>
          if h.pmpOk prv 0 pa n1 = false ∨ h.pmpOk prv 0 pb (n - n1) = false ∨ cacheable pa = false ∨ cacheable pb = false then
            (s, .trap 5 va)
          else
            let f := s.dev.fillAll pa n1
            let g := f.1.fillAll pb (n - n1)
            let s : State := { s with dev := g.1 }
            if f.2 = false ∨ g.2 = false then (s, .trap 5 va)
            else if bad then (s.lineError c pa, .trap 5 va)
            else (s, .data (ofLeBytes (s.dev.cachedBytes pa n1 ++ s.dev.cachedBytes pb (n - n1))))

/-- A store to cacheable memory. -/
def State.cachedStore (s : State) (c pa va : Nat) (l : List Nat) (bad : Bool) : State × Option (Nat × Nat) :=
  if atomics pa = false then (s, some (7, va))
  else
    let f := s.dev.fillAll pa l.length
    let s : State := { s with dev := f.1 }
    if f.2 = false then (s, some (7, va))
    else if bad then (s.lineError c pa, some (7, va))
    else ((s.on (·.cachePuts pa l)).breakResv c pa l.length, none)

/-- A store of `n` bytes: none, or the trap it takes. -/
def State.store (s : State) (c va n v : Nat) (bad : Bool) : State × Option (Nat × Nat) :=
  let h := s.hart c
  let prv := h.dataPriv
  let l := leBytes n v
  match h.trigger 1 va with
  | some a => (s, some (trapOfTrigger a, va))
  | none =>
    match s.translate c prv 1 va with
    | (s, .error e) => (s, some (e, va))
    | (s, .ok pa) =>
      let n1 := min n (4096 - va % 4096)
      if n1 = n then
        if h.pmpOk prv 1 pa n = false then (s, some (7, va))
        else if cacheable pa then s.cachedStore c pa va l bad
        else if pa % n ≠ 0 then (s, some (7, va))
        else
          let s := s.access (s.coreReq c prv) { addr := pa, size := n, write := some (v % 256 ^ n) }
          (s, if s.dev.lastCode = .okay then none else some (7, va))
      else
        match s.translate c prv 1 (va + n1) with
        | (s, .error e) => (s, some (e, va + n1))
        | (s, .ok pb) =>
          if h.pmpOk prv 1 pa n1 = false ∨ h.pmpOk prv 1 pb (n - n1) = false ∨ atomics pa = false ∨ atomics pb = false then (s, some (7, va))
          else
            match s.cachedStore c pa va (l.take n1) bad with
            | (s, some t) => (s, some t)
            | (s, none) => s.cachedStore c pb va (l.drop n1) false

/-- The physical address an atomic acts on (R542): a whole number of its own size, in shared SRAM or DRAM. -/
def State.atomicAt (s : State) (c acc va n : Nat) (bad : Bool) : State × Except (Nat × Nat) Nat :=
  let h := s.hart c
  let prv := h.dataPriv
  match h.trigger acc va with
  | some a => (s, .error (trapOfTrigger a, va))
  | none =>
    if va % n ≠ 0 then (s, .error (if acc = 0 then 4 else 6, va))
    else
      match s.translate c prv acc va with
      | (s, .error e) => (s, .error (e, va))
      | (s, .ok pa) =>
        if h.pmpOk prv acc pa n = false ∨ atomics pa = false then (s, .error (accessFault acc, va))
        else
          let f := s.dev.fillLine (lineOf pa)
          let s : State := { s with dev := f.1 }
          if f.2 = false then (s, .error (accessFault acc, va))
          else if bad then (s.lineError c pa, .error (accessFault acc, va))
          else (s, .ok pa)

/-- A fetch of the halfword at `va`. -/
def State.fetchHalf (s : State) (c va : Nat) : State × Except Nat Nat :=
  let h := s.hart c
  match s.translate c h.priv 2 va with
  | (s, .error e) => (s, .error e)
  | (s, .ok pa) =>
    if h.pmpOk h.priv 2 pa 2 = false ∨ cacheable pa = false then (s, .error 1)
    else
      let f := s.dev.fillLine (lineOf pa)
      let s : State := { s with dev := f.1 }
      if f.2 then (s, .ok (ofLeBytes (s.dev.cachedBytes pa 2))) else (s, .error 1)

/-- The instruction at the program counter: its 32-bit word (of a 16-bit one, what it stands for), its length, and its own
bits; or the trap. -/
def State.fetch (s : State) (c : Nat) : State × Except (Nat × Nat) (Option Nat × Nat × Nat) :=
  let pc := (s.hart c).pc.toNat
  match s.fetchHalf c pc with
  | (s, .error e) => (s, .error (e, pc))
  | (s, .ok lo) =>
    if lo % 4 ≠ 3 then (s, .ok (expandC lo, 2, lo))
    else
      match s.fetchHalf c ((pc + 2) % 2 ^ 64) with
      | (s, .error e) => (s, .error (e, pc + 2))
      | (s, .ok hi) => (s, .ok (some (lo + hi * 2 ^ 16), 4, lo + hi * 2 ^ 16))

/-! ### Cache-block operations (R544) -/

def Dev.cboClean (d : Dev) (la : Nat) : Dev := d.writeBack la
def Dev.cboFlush (d : Dev) (la : Nat) : Dev := (d.writeBack la).dropLine la
def Dev.cboInval (d : Dev) (la : Nat) : Dev := d.dropLine la

end Sys2Proof.Machine
end

