-- ==== Sys2Proof/Machine/HartCsr.lean ====
section
/-! DEFINITION. Control and status registers of a core (R540, R541, R545), traps and returns, interrupts (R546 to R549). -/

namespace Sys2Proof.Machine

/-! ### Status -/

/-- Bits of mstatus that software sets: SIE, MIE, SPIE, MPIE, SPP, MPP, FS, MPRV, SUM, MXR, TVM, TW, TSR. -/
def mstatusMask : Nat := 0x7E79AA

/-- Bits of it that sstatus shows: SIE, SPIE, SPP, FS, SUM, MXR. -/
def sstatusMask : Nat := 0xC6122

/-- SXL and UXL read 2; SD follows FS. -/
def statusView (v mask : Nat) : Nat := (v &&& mask) + (if mask = mstatusMask then 0xA00000000 else 0x200000000) + (if bits v 13 2 = 3 then 2 ^ 63 else 0)

/-- Write the masked bits of mstatus; MPP 2 is not held. -/
def Hart.setStatus (h : Hart) (v mask : Nat) : Hart :=
  let old := h.mstatus
  let new := (old &&& (mask ^^^ mstatusMask)) ||| (v &&& mask)
  let new := if bits new 11 2 = 2 then setMpp new (bits old 11 2) else new
  h.setCsr 0x300 new
where
  setMpp (v p : Nat) : Nat := (v &&& (0x1800 ^^^ mstatusMask)) + p * 2 ^ 11

/-- A field of a status word replaced. -/
def putBits (v lo w n : Nat) : Nat := v - bits v lo w * 2 ^ lo + n % 2 ^ w * 2 ^ lo

/-! ### Interrupts -/

/-- mip of core `c`: software bits it holds, and the lines of the ACLINT and the PLIC. -/
def State.mip (s : State) (c : Nat) : Nat :=
  let d := s.dev
  ((s.hart c).csrW 0x344 &&& 0x222) ||| (b2n (bit d.ctl.msip c) * 2 ^ 3) ||| (b2n (d.mtip c) * 2 ^ 7) ||| (b2n (d.plicLine (2 * c)) * 2 ^ 11)
    ||| (b2n (d.plicLine (2 * c + 1)) * 2 ^ 9)

/-! ### Reading -/

/-- A counter CSR from its machine-mode number, 0 cycle, 1 time, 2 instret, 3 to 31. -/
def State.counter (s : State) (c k : Nat) : Nat :=
  if k = 1 then s.dev.mtime else (s.hart c).csrW (0xB00 + k)

/-- The PMP configuration word `n`, address word `i` as it reads at 4 KiB granularity. -/
def Hart.pmpAddrRead (h : Hart) (i : Nat) : Nat :=
  let v := h.pmpAddr i
  if 2 ≤ bits (h.pmpCfg i) 3 2 then v ||| 511 else v / 1024 * 1024

/-- The value of a CSR that exists and that privilege `prv` may read; none is illegal. -/
def State.csrRead (s : State) (c n : Nat) : Option Nat :=
  let h := s.hart c
  let prv := if h.halted then 3 else h.priv
  let fp := decide (bits h.mstatus 13 2 ≠ 0)
  let plain : Option Nat := some (h.csrW n)
  if prv < bits n 8 2 then none
  else if n = 1 ∨ n = 2 ∨ n = 3 then
    if fp then some (if n = 1 then bits (h.csrW 3) 0 5 else if n = 2 then bits (h.csrW 3) 5 3 else bits (h.csrW 3) 0 8) else none
  else if 0xC00 ≤ n ∧ n < 0xC20 then
    let k := n - 0xC00
    if prv = 3 ∨ (bit (h.csrW 0x306) k ∧ (prv = 1 ∨ bit (h.csrW 0x106) k)) then some (s.counter c k) else none
  else if 0xB00 ≤ n ∧ n < 0xB20 ∧ n ≠ 0xB01 then plain
  else if 0x323 ≤ n ∧ n < 0x340 then plain
  else if n = 0x3A0 ∨ n = 0x3A2 then plain
  else if 0x3B0 ≤ n ∧ n < 0x3C0 then some (h.pmpAddrRead (n - 0x3B0))
  -- entries above 15 read as zero
  else if n = 0x3A4 ∨ n = 0x3A6 ∨ n = 0x3A8 ∨ n = 0x3AA ∨ n = 0x3AC ∨ n = 0x3AE ∨ (0x3C0 ≤ n ∧ n < 0x3F0) then some 0
  else match n with
  | 0x100 => some (statusView h.mstatus sstatusMask)
  | 0x104 => some (h.csrW 0x304 &&& h.csrW 0x303)
  | 0x105 | 0x106 | 0x10A | 0x140 | 0x141 | 0x142 | 0x143 => plain
  | 0x144 => some (s.mip c &&& h.csrW 0x303)
  | 0x180 => if prv = 1 ∧ bit h.mstatus 20 then none else plain
  | 0x300 => some (statusView h.mstatus mstatusMask)
  | 0x301 => some 0x800000000014112D
  | 0x302 | 0x303 | 0x304 | 0x305 | 0x306 | 0x30A | 0x320 | 0x340 | 0x341 | 0x342 | 0x343 | 0x7C0 => plain
  | 0x344 => some (s.mip c)
  | 0xF11 | 0xF12 | 0xF15 => some 0
  | 0xF13 => some 0xB0
  | 0xF14 => some c
  | 0x7A0 => plain
  | 0x7A1 => some (6 * 2 ^ 60 + h.csrW (0x17A1 + 0x1000 * h.csrW 0x7A0))
  | 0x7A2 => some (h.csrW (0x17A2 + 0x1000 * h.csrW 0x7A0))
  | 0x7A3 => some 0
  | 0x7A4 => some (2 ^ 6)
  | 0x7B0 => if h.halted then some (4 * 2 ^ 28 + h.csrW n) else none
  | 0x7B1 | 0x7B2 | 0x7B3 => if h.halted then plain else none
  | _ => none

/-! ### Writing -/

/-- New PMP configuration bytes: locked entries stand, W without R and NA4 are not held. -/
def Hart.pmpCfgWrite (h : Hart) (n v : Nat) : Nat :=
  ofLeBytes ((List.range 8).map fun i =>
    let old := bits (h.csrW n) (8 * i) 8
    let b := bits v (8 * i) 8 &&& 0x9F
    if bit old 7 ∨ bits b 3 2 = 2 ∨ (bit b 1 ∧ bit b 0 = false) then old else b)

/-- An address register is locked: by its own entry, or by a TOR entry above it. -/
def Hart.pmpLocked (h : Hart) (i : Nat) : Bool :=
  bit (h.pmpCfg i) 7 || (decide (i < 15) && bit (h.pmpCfg (i + 1)) 7 && decide (bits (h.pmpCfg (i + 1)) 3 2 = 1))

/-- Writable bits of a trigger's mcontrol6: DMODE (debug mode alone), ACTION 0 or 1, M, S, U, EXECUTE, STORE, LOAD. -/
def tdata1Write (debug : Bool) (old v : Nat) : Nat :=
  if bit old 59 && !debug then old
  else
    let dm := debug && bit v 59
    (v &&& 0x5F) + (if bits v 12 4 = 1 ∧ dm then 2 ^ 12 else 0) + b2n dm * 2 ^ 59

/-- Write CSR `n`; the caller has checked that it may be written. -/
def Hart.csrWrite (h : Hart) (n v : Nat) : Hart :=
  let v := v % 2 ^ 64
  let masked (m : Nat) : Hart := h.setCsr n (v &&& m)
  if 0x3B0 ≤ n ∧ n < 0x3C0 then (if h.pmpLocked (n - 0x3B0) then h else h.setCsr n (v % 2 ^ 54))
  else if n = 0x3A0 ∨ n = 0x3A2 then h.setCsr n (h.pmpCfgWrite n v)
  else if n = 0xB00 ∨ n = 0xB02 ∨ (0xB03 ≤ n ∧ n ≤ 0xB06) then h.setCsr n v
  else if 0x323 ≤ n ∧ n ≤ 0x326 then h.setCsr n (if v ≤ 4 then v else h.csrW n)
  else match n with
  | 1 => (h.setCsr 3 (putBits (h.csrW 3) 0 5 v)).setStatus 0x6000 0x6000
  | 2 => (h.setCsr 3 (putBits (h.csrW 3) 5 3 v)).setStatus 0x6000 0x6000
  | 3 => (h.setCsr 3 (v % 256)).setStatus 0x6000 0x6000
  | 0x100 => h.setStatus v sstatusMask
  | 0x104 => h.setCsr 0x304 ((h.csrW 0x304 &&& (h.csrW 0x303 ^^^ 0xFFFF)) ||| (v &&& h.csrW 0x303))
  | 0x105 | 0x305 => h.setCsr n (v / 4 * 4 + v % 2)
  | 0x106 | 0x306 => h.setCsr n (v % 2 ^ 32)
  | 0x10A | 0x30A =>
    let cbie := if bits v 4 2 = 2 then bits (h.csrW n) 4 2 else bits v 4 2
    h.setCsr n ((v &&& 0x41) + cbie * 2 ^ 4)
  | 0x140 | 0x142 | 0x143 | 0x340 | 0x342 | 0x343 | 0x7B2 | 0x7B3 => h.setCsr n v
  | 0x141 | 0x341 | 0x7B1 => h.setCsr n (v / 2 * 2)
  | 0x144 => h.setCsr 0x344 ((h.csrW 0x344 &&& ((h.csrW 0x303 &&& 2) ^^^ 0xFFFF)) ||| (v &&& h.csrW 0x303 &&& 2))
  | 0x180 => if v / 2 ^ 60 = 0 ∨ v / 2 ^ 60 = 8 then h.setCsr n v else h
  | 0x300 => h.setStatus v mstatusMask
  | 0x302 => masked 0xB3FF
  | 0x303 => masked 0x222
  | 0x304 => masked 0xAAA
  | 0x320 => masked 0x7D
  | 0x344 => masked 0x222
  | 0x7C0 => masked 0x3FFFF
  | 0x7A0 => h.setCsr n (if v < 4 then v else h.csrW n)
  | 0x7A1 =>
    let k := 0x17A1 + 0x1000 * h.csrW 0x7A0
    h.setCsr k (tdata1Write h.halted (h.csrW k) v)
  | 0x7A2 =>
    let t := h.csrW 0x7A0
    if bit (h.csrW (0x17A1 + 0x1000 * t)) 59 && !h.halted then h else h.setCsr (0x17A2 + 0x1000 * t) v
  | 0x7B0 => h.setCsr n ((h.csrW n &&& 0x1C0) ||| (v &&& 0xB007))
  | _ => h

/-! ### Traps -/

/-- Enter debug mode (R540): dpc, and the cause in dcsr. -/
def Hart.enterDebug (h : Hart) (cause pc : Nat) : Hart :=
  let h := h.setCsr 0x7B1 pc
  let dcsr := putBits (putBits (h.csrW 0x7B0) 6 3 cause) 0 2 h.priv
  { h.setCsr 0x7B0 dcsr with halted := true, wfi := false }

/-- Address of a handler: vectored for an interrupt under mode 1. -/
def trapVector (tvec cause : Nat) (irq : Bool) : Nat := tvec / 4 * 4 + (if irq ∧ tvec % 2 = 1 then 4 * cause else 0)

/-- A trap is taken: to supervisor mode when delegated and not from machine mode. -/
def Hart.trap (h : Hart) (cause tval : Nat) (irq : Bool) : Hart :=
  let pc := h.pc.toNat
  let code := cause + (if irq then 2 ^ 63 else 0)
  let st := h.mstatus
  if h.priv ≤ 1 ∧ bit (h.csrW (if irq then 0x303 else 0x302)) cause then
    let h' := ((h.setCsr 0x141 pc).setCsr 0x142 code).setCsr 0x143 (tval % 2 ^ 64)
    let st := putBits (putBits (putBits st 8 1 h.priv) 5 1 (bits st 1 1)) 1 1 0
    { h'.setCsr 0x300 st with priv := 1, pc := BitVec.ofNat 64 (trapVector (h.csrW 0x105) cause irq) }
  else
    let h' := ((h.setCsr 0x341 pc).setCsr 0x342 code).setCsr 0x343 (tval % 2 ^ 64)
    let st := putBits (putBits (putBits st 11 2 h.priv) 7 1 (bits st 3 1)) 3 1 0
    { h'.setCsr 0x300 st with priv := 3, pc := BitVec.ofNat 64 (trapVector (h.csrW 0x305) cause irq) }

/-- A trap with its cause, or entry to debug mode: 100 by a trigger, 101 by EBREAK. -/
def Hart.takes (h : Hart) (cause tval : Nat) : Hart :=
  if 100 ≤ cause then h.enterDebug (if cause = 100 then 2 else 1) h.pc.toNat else h.trap cause tval false

/-- MRET. -/
def Hart.mret (h : Hart) : Hart :=
  let st := h.mstatus
  let p := bits st 11 2
  let st := putBits (putBits (putBits st 3 1 (bits st 7 1)) 7 1 1) 11 2 0
  let st := if p = 3 then st else putBits st 17 1 0
  { h.setCsr 0x300 st with priv := p, pc := BitVec.ofNat 64 (h.csrW 0x341) }

/-- SRET. -/
def Hart.sret (h : Hart) : Hart :=
  let st := h.mstatus
  let p := bits st 8 1
  let st := putBits (putBits (putBits (putBits st 1 1 (bits st 5 1)) 5 1 1) 8 1 0) 17 1 0
  { h.setCsr 0x300 st with priv := p, pc := BitVec.ofNat 64 (h.csrW 0x141) }

/-- The interrupt a core takes next: machine-level ones before delegated ones, each in the order external, software, timer,
machine before supervisor. -/
def State.nextIrq (s : State) (c : Nat) : Option Nat :=
  let h := s.hart c
  let p := s.mip c &&& h.csrW 0x304
  let deleg := h.csrW 0x303
  let order := [11, 3, 7, 9, 1, 5]
  let mOn := decide (h.priv < 3) || bit h.mstatus 3
  let sOn := decide (h.priv = 0) || (decide (h.priv = 1) && bit h.mstatus 1)
  match order.find? fun i => mOn && bit p i && !bit deleg i with
  | some i => some i
  | none => order.find? fun i => sOn && bit p i && bit deleg i

end Sys2Proof.Machine
end

