-- ==== Sys2Proof/Machine/HartExec.lean ====
section
/-! DEFINITION. One RISC-V instruction of the supported profile (R540), by the RISC-V unprivileged and privileged specifications
(log entry 30). An execution answers the state and the trap it takes, if any; without a trap the pc has moved on. -/

namespace Sys2Proof.Machine

abbrev Ran := State × Option (Nat × Nat)

/-! ### Registers -/

def State.x (s : State) (c r : Nat) : Nat := (nth (0 : BitVec 64) (s.hart c).x r).toNat

/-- Set an integer register; x0 discards (it reads as 0). -/
def Hart.setX (h : Hart) (r v : Nat) : Hart := if r = 0 then h else { h with x := setAt h.x r (BitVec.ofNat 64 v) }

def Hart.setPc (h : Hart) (v : Nat) : Hart := { h with pc := BitVec.ofNat 64 v }

def Hart.fW (h : Hart) (r : Nat) : Nat := (nth (0 : BitVec 64) h.f r).toNat

/-- A single-precision register: a word not NaN-boxed reads as the canonical NaN. -/
def Hart.fS (h : Hart) (r : Nat) : Nat := if h.fW r / 2 ^ 32 = 2 ^ 32 - 1 then h.fW r % 2 ^ 32 else f32.nan

def Hart.fIn (h : Hart) (dbl : Bool) (r : Nat) : Nat := if dbl then h.fW r else h.fS r

/-- Set a float register, boxing a single; FS becomes dirty. -/
def Hart.setF (h : Hart) (dbl : Bool) (r v : Nat) : Hart :=
  ({ h with f := setAt h.f r (BitVec.ofNat 64 (if dbl then v else v % 2 ^ 32 + (2 ^ 32 - 1) * 2 ^ 32)) } : Hart).setStatus 0x6000 0x6000

/-- Raise float flags. -/
def Hart.raise (h : Hart) (fl : Nat) : Hart := if fl = 0 then h else (h.setCsr 3 (h.csrW 3 ||| fl)).setStatus 0x6000 0x6000

/-- The instruction ends with `v` in `rd`. -/
def State.retire (s : State) (c len rd v : Nat) : Ran :=
  (s.onHart c fun h => (h.setX rd v).setPc (h.pc.toNat + len), none)

def illegal (s : State) (raw : Nat) : Ran := (s, some (2, raw))

/-! ### Integer arithmetic -/

def sgn (v : Nat) : Int := toSigned 64 v
def sext (w v : Nat) : Nat := ofSigned 64 (toSigned w v)

def divS (w : Nat) (a b : Int) : Int := if b = 0 then -1 else if a = -(2 ^ (w - 1) : Nat) ∧ b = -1 then a else Int.tdiv a b
def remS (w : Nat) (a b : Int) : Int := if b = 0 then a else if a = -(2 ^ (w - 1) : Nat) ∧ b = -1 then 0 else Int.tmod a b

/-- OP and OP-IMM on 64 bits. -/
def alu64 (f7 f3 a b : Nat) : Option Nat :=
  let sh := b % 64
  match f7, f3 with
  | 0, 0 => some (a + b)
  | 0, 1 => some (a * 2 ^ sh)
  | 0, 2 => some (b2n (decide (sgn a < sgn b)))
  | 0, 3 => some (b2n (decide (a < b)))
  | 0, 4 => some (a ^^^ b)
  | 0, 5 => some (a / 2 ^ sh)
  | 0, 6 => some (a ||| b)
  | 0, 7 => some (a &&& b)
  | 0x20, 0 => some (ofSigned 64 (sgn a - sgn b))
  | 0x20, 5 => some (ofSigned 64 (sgn a / 2 ^ sh))
  | 1, 0 => some (a * b)
  | 1, 1 => some (ofSigned 64 (sgn a * sgn b / 2 ^ 64))
  | 1, 2 => some (ofSigned 64 (sgn a * b / 2 ^ 64))
  | 1, 3 => some (a * b / 2 ^ 64)
  | 1, 4 => some (ofSigned 64 (divS 64 (sgn a) (sgn b)))
  | 1, 5 => some (if b = 0 then 2 ^ 64 - 1 else a / b)
  | 1, 6 => some (ofSigned 64 (remS 64 (sgn a) (sgn b)))
  | 1, 7 => some (if b = 0 then a else a % b)
  | _, _ => none

/-- OP-32 and OP-IMM-32. -/
def alu32 (f7 f3 a b : Nat) : Option Nat :=
  let x := a % 2 ^ 32
  let y := b % 2 ^ 32
  let sh := b % 32
  let out (v : Int) : Option Nat := some (sext 32 (ofSigned 32 v))
  match f7, f3 with
  | 0, 0 => out (x + y : Nat)
  | 0, 1 => out (x * 2 ^ sh : Nat)
  | 0, 5 => out (x / 2 ^ sh : Nat)
  | 0x20, 0 => out ((x : Int) - y)
  | 0x20, 5 => out (toSigned 32 x / 2 ^ sh)
  | 1, 0 => out (x * y : Nat)
  | 1, 4 => out (divS 32 (toSigned 32 x) (toSigned 32 y))
  | 1, 5 => out (if y = 0 then -1 else (x / y : Nat))
  | 1, 6 => out (remS 32 (toSigned 32 x) (toSigned 32 y))
  | 1, 7 => out (if y = 0 then (x : Nat) else (x % y : Nat))
  | _, _ => none

def State.aluEnd (s : State) (c len raw rd : Nat) (r : Option Nat) : Ran :=
  match r with | some v => s.retire c len rd v | none => illegal s raw

/-- OP-IMM: shifts take a 6-bit amount, the rest a signed immediate. -/
def State.opImm (s : State) (c w len raw : Nat) : Ran :=
  let a := s.x c (bits w 15 5)
  let f3 := bits w 12 3
  let r := if f3 = 1 then (if bits w 26 6 = 0 then alu64 0 1 a (bits w 20 6) else none)
    else if f3 = 5 then (if bits w 26 6 = 0 then alu64 0 5 a (bits w 20 6) else if bits w 26 6 = 0x10 then alu64 0x20 5 a (bits w 20 6) else none)
    else alu64 0 f3 a (sext 12 (bits w 20 12))
  s.aluEnd c len raw (bits w 7 5) r

def State.opImm32 (s : State) (c w len raw : Nat) : Ran :=
  let a := s.x c (bits w 15 5)
  let f3 := bits w 12 3
  let r := if f3 = 0 then alu32 0 0 a (sext 12 (bits w 20 12))
    else if f3 = 1 ∧ bits w 25 7 = 0 then alu32 0 1 a (bits w 20 5)
    else if f3 = 5 ∧ (bits w 25 7 = 0 ∨ bits w 25 7 = 0x20) then alu32 (bits w 25 7) 5 a (bits w 20 5)
    else none
  s.aluEnd c len raw (bits w 7 5) r

/-! ### Control transfer -/

def immB (w : Nat) : Int := toSigned 13 (bits w 8 4 * 2 + bits w 25 6 * 2 ^ 5 + bits w 7 1 * 2 ^ 11 + bits w 31 1 * 2 ^ 12)
def immJ (w : Nat) : Int := toSigned 21 (bits w 21 10 * 2 + bits w 20 1 * 2 ^ 11 + bits w 12 8 * 2 ^ 12 + bits w 31 1 * 2 ^ 20)
def immS (w : Nat) : Nat := bits w 7 5 + bits w 25 7 * 2 ^ 5

def State.branch (s : State) (c w len raw : Nat) : Ran :=
  let a := s.x c (bits w 15 5)
  let b := s.x c (bits w 20 5)
  let take : Option Bool := match bits w 12 3 with
    | 0 => some (decide (a = b))
    | 1 => some (decide (a ≠ b))
    | 4 => some (decide (sgn a < sgn b))
    | 5 => some (decide (sgn b ≤ sgn a))
    | 6 => some (decide (a < b))
    | 7 => some (decide (b ≤ a))
    | _ => none
  match take with
  | none => illegal s raw
  | some t => (s.onHart c fun h => h.setPc (if t then ofSigned 64 ((h.pc.toNat : Int) + immB w) else h.pc.toNat + len), none)

/-! ### Memory -/

/-- The value a load leaves in its register: sign by funct3, floats boxed. -/
def loadValue (f3 v : Nat) : Nat := if f3 < 4 then sext (8 * 2 ^ f3) v else v

def Hart.loaded (h : Hart) (f3 : Nat) (fp : Bool) (rd v : Nat) : Hart :=
  if fp then h.setF (decide (f3 = 3)) rd v else h.setX rd (loadValue f3 v)

def State.loadIns (s : State) (c w len raw : Nat) (fp bad : Bool) : Ran :=
  let f3 := bits w 12 3
  let rd := bits w 7 5
  if (if fp then decide (f3 = 2) || decide (f3 = 3) else decide (f3 ≠ 7)) = false ∨ (fp ∧ bits (s.hart c).mstatus 13 2 = 0) then illegal s raw
  else
    let va := (s.x c (bits w 15 5) + sext 12 (bits w 20 12)) % 2 ^ 64
    match s.load c va (2 ^ (f3 % 4)) bad with
    | (s, .data v) => (s.onHart c fun h => (h.loaded f3 fp rd v).setPc (h.pc.toNat + len), none)
    | (s, .wait) =>
      let ask := decide ((s.dev.port c).wait.isSome)
      (s.onHart c fun h => { h with wait := some { f3 := f3, fp := fp, rd := rd, len := len, ask := ask, va := va } }, none)
    | (s, .trap e t) => (s, some (e, t))

def State.storeIns (s : State) (c w len raw : Nat) (fp bad : Bool) : Ran :=
  let f3 := bits w 12 3
  let rs2 := bits w 20 5
  if (if fp then decide (f3 = 2) || decide (f3 = 3) else decide (f3 < 4)) = false ∨ (fp ∧ bits (s.hart c).mstatus 13 2 = 0) then illegal s raw
  else
    let va := (s.x c (bits w 15 5) + sext 12 (immS w)) % 2 ^ 64
    match s.store c va (2 ^ f3) (if fp then (s.hart c).fW rs2 else s.x c rs2) bad with
    | (s, none) => s.retire c len 0 0
    | (s, some t) => (s, some t)

/-- The value an AMO stores, on `w`-bit operands. -/
def amoOp (f5 w a b : Nat) : Option Nat :=
  let less := decide (toSigned w a < toSigned w b)
  match f5 with
  | 0 => some (a + b)
  | 1 => some b
  | 4 => some (a ^^^ b)
  | 8 => some (a ||| b)
  | 0x0C => some (a &&& b)
  | 0x10 => some (if less then a else b)
  | 0x14 => some (if less then b else a)
  | 0x18 => some (min a b)
  | 0x1C => some (max a b)
  | _ => none

def State.amoIns (s : State) (c w len raw : Nat) (bad : Bool) : Ran :=
  let f3 := bits w 12 3
  let f5 := bits w 27 5
  let rd := bits w 7 5
  let va := s.x c (bits w 15 5)
  let n := 2 ^ f3
  let b := s.x c (bits w 20 5) % 256 ^ n
  if f3 ≠ 2 ∧ f3 ≠ 3 then illegal s raw
  else if f5 = 2 then
    if bits w 20 5 ≠ 0 then illegal s raw
    else match s.atomicAt c 0 va n bad with
      | (s, .error t) => (s, some t)
      | (s, .ok pa) =>
        let v := ofLeBytes (s.dev.cachedBytes pa n)
        (s.onHart c fun h => { h with resv := some (pa, n) }).retire c len rd (sext (8 * n) v)
  else if f5 = 3 then
    match s.atomicAt c 1 va n bad with
    | (s, .error t) => (s, some t)
    | (s, .ok pa) =>
      let ok := decide ((s.hart c).resv = some (pa, n))
      let s := s.onHart c fun h => { h with resv := none }
      let s := if ok then (s.on (·.cachePuts pa (leBytes n b))).breakResv c pa n else s
      s.retire c len rd (if ok then 0 else 1)
  else match amoOp f5 (8 * n) 0 0 with
    | none => illegal s raw
    | some _ =>
      match s.atomicAt c 1 va n bad with
      | (s, .error t) => (s, some t)
      | (s, .ok pa) =>
        let a := ofLeBytes (s.dev.cachedBytes pa n)
        let v := (amoOp f5 (8 * n) a b).getD 0
        ((s.on (·.cachePuts pa (leBytes n v))).breakResv c pa n).retire c len rd (sext (8 * n) a)

/-- cbo.inval (0), cbo.clean (1), cbo.flush (2) (R544), permitted as menvcfg and senvcfg say; an invalidate may be demoted to a
flush by them. -/
def State.cboIns (s : State) (c w len raw : Nat) : Ran :=
  let op := bits w 20 12
  let h := s.hart c
  let prv := if h.halted then 3 else h.priv
  let m := h.csrW 0x30A
  let n := h.csrW 0x10A
  let off (e : Nat) : Bool := if op = 0 then decide (bits e 4 2 = 0) else !bit e 6
  if 3 ≤ op ∨ bits w 7 5 ≠ 0 ∨ (prv < 3 ∧ off m) ∨ (prv = 0 ∧ off n) then illegal s raw
  else
    let va := s.x c (bits w 15 5)
    let demote := (decide (prv < 3) && decide (bits m 4 2 = 1)) || (decide (prv = 0) && decide (bits n 4 2 = 1))
    let p := h.dataPriv
    let r := match s.translate c p 0 va with
      | (s', .ok pa) => (s', Except.ok pa)
      | _ => s.translate c p 1 va
    match r with
    | (s, .error e) => (s, some (if e = 13 ∨ e = 15 then 15 else 7, va))
    | (s, .ok pa) =>
      if (h.pmpOk p 0 pa 1 || h.pmpOk p 1 pa 1) = false then (s, some (7, va))
      else
        let la := lineOf pa
        let s := if cacheable pa = false then s
          else s.on fun d => if op = 1 then d.cboClean la else if op = 2 ∨ demote then d.cboFlush la else d.cboInval la
        s.retire c len 0 0

/-! ### Floats -/

/-- An integer result, or a float result, with the flags. -/
inductive FpOut where
  | toX (v fl : Nat)
  | toF (v fl : Nat)
deriving DecidableEq, Repr

/-- OP-FP; `rm` is the rounding mode in force, none when reserved. -/
def fpOp (h : Hart) (w : Nat) (rm : Option Nat) (x1 : Nat) : Option FpOut :=
  let dbl := decide (bits w 25 2 = 1)
  let f := if dbl then f64 else f32
  let a := h.fIn dbl (bits w 15 5)
  let b := h.fIn dbl (bits w 20 5)
  let rs2 := bits w 20 5
  let f3 := bits w 12 3
  let rnd (g : Nat → Nat × Nat) : Option FpOut := rm.map fun r => let o := g r; .toF o.1 o.2
  let sb := 2 ^ (f.ew + f.mw)
  if 2 ≤ bits w 25 2 then none
  else match bits w 27 5 with
  | 0 => rnd fun r => f.add r a b
  | 1 => rnd fun r => f.add r a (f.neg b)
  | 2 => rnd fun r => f.mul r a b
  | 3 => rnd fun r => f.div r a b
  | 0x0B => if rs2 = 0 then rnd fun r => f.sqrt r a else none
  | 4 =>
    let sa := a / sb
    let s2 := b / sb
    match f3 with
    | 0 => some (.toF (a % sb + s2 * sb) 0)
    | 1 => some (.toF (a % sb + (1 - s2) * sb) 0)
    | 2 => some (.toF (a % sb + (sa + s2) % 2 * sb) 0)
    | _ => none
  | 5 => if f3 < 2 then some (let o := f.minMax (decide (f3 = 1)) a b; .toF o.1 o.2) else none
  | 0x14 => if f3 < 3 then some (let o := f.compare f3 a b; .toX o.1 o.2) else none
  | 0x18 =>
    let range : Option (Int × Int) := match rs2 with
      | 0 => some (-(2 ^ 31 : Nat), (2 ^ 31 : Nat) - 1)
      | 1 => some (0, (2 ^ 32 : Nat) - 1)
      | 2 => some (-(2 ^ 63 : Nat), (2 ^ 63 : Nat) - 1)
      | 3 => some (0, (2 ^ 64 : Nat) - 1)
      | _ => none
    match range, rm with
    | some (lo, hi), some r =>
      let o := f.toInt r a lo hi
      some (.toX (if rs2 < 2 then sext 32 (ofSigned 32 o.1) else ofSigned 64 o.1) o.2)
    | _, _ => none
  | 0x1A =>
    let v : Option Int := match rs2 with
      | 0 => some (toSigned 32 x1)
      | 1 => some (x1 % 2 ^ 32 : Nat)
      | 2 => some (toSigned 64 x1)
      | 3 => some (x1 : Nat)
      | _ => none
    match v with
    | some i => rnd fun r => f.ofInt r i
    | none => none
  | 8 =>
    if dbl ∧ rs2 = 0 then rnd fun r => f64.convert f32 r (h.fS (bits w 15 5))
    else if dbl = false ∧ rs2 = 1 then rnd fun r => f32.convert f64 r (h.fW (bits w 15 5))
    else none
  | 0x1C =>
    if rs2 ≠ 0 then none
    else if f3 = 0 then some (.toX (if dbl then h.fW (bits w 15 5) else sext 32 (h.fW (bits w 15 5))) 0)
    else if f3 = 1 then some (.toX (f.classify a) 0)
    else none
  | 0x1E => if rs2 = 0 ∧ f3 = 0 then some (.toF (if dbl then x1 else x1 % 2 ^ 32) 0) else none
  | _ => none

/-- The rounding mode of an instruction: its own, or frm. -/
def Hart.rounding (h : Hart) (w : Nat) : Option Nat :=
  let r := if bits w 12 3 = 7 then bits (h.csrW 3) 5 3 else bits w 12 3
  if r ≤ 4 then some r else none

def State.fpIns (s : State) (c w len raw : Nat) : Ran :=
  let h := s.hart c
  let rd := bits w 7 5
  if bits h.mstatus 13 2 = 0 then illegal s raw
  else match fpOp h w (h.rounding w) (s.x c (bits w 15 5)) with
    | none => illegal s raw
    | some (.toX v fl) => (s.onHart c (·.raise fl)).retire c len rd v
    | some (.toF v fl) => (s.onHart c fun h => (h.setF (decide (bits w 25 2 = 1)) rd v).raise fl).retire c len 0 0

/-- FMADD (0x43), FMSUB (0x47), FNMSUB (0x4B), FNMADD (0x4F). -/
def State.fmaIns (s : State) (c w len raw : Nat) : Ran :=
  let h := s.hart c
  let dbl := decide (bits w 25 2 = 1)
  let f := if dbl then f64 else f32
  match h.rounding w with
  | none => illegal s raw
  | some r =>
    if bits h.mstatus 13 2 = 0 ∨ 2 ≤ bits w 25 2 then illegal s raw
    else
      let a := h.fIn dbl (bits w 15 5)
      let b := h.fIn dbl (bits w 20 5)
      let z := h.fIn dbl (bits w 27 5)
      let op := bits w 2 2
      let o := f.fma r (if 2 ≤ op then f.neg a else a) b (if op = 1 ∨ op = 3 then f.neg z else z)
      (s.onHart c fun h => (h.setF dbl (bits w 7 5) o.1).raise o.2).retire c len 0 0

/-! ### System -/

/-- The instruction writes CSR `n`. -/
def writesCsr (w n : Nat) : Bool :=
  decide (w % 128 = 0x73) && decide (bits w 12 2 ≠ 0) && decide (bits w 20 12 = n) && (decide (bits w 12 2 = 1) || decide (bits w 15 5 ≠ 0))

def State.csrIns (s : State) (c w len raw : Nat) : Ran :=
  let n := bits w 20 12
  let src := if bit w 14 then bits w 15 5 else s.x c (bits w 15 5)
  let writes := writesCsr w n
  match s.csrRead c n with
  | none => illegal s raw
  | some old =>
    if writes ∧ bits n 10 2 = 3 then illegal s raw
    else
      -- what a set or clear of mip starts from is the bits software holds
      let base := if n = 0x344 then (old &&& (2 ^ 64 - 1 - 0x222)) ||| ((s.hart c).csrW n &&& 0x222) else old
      let v := match bits w 12 2 with
        | 1 => src
        | 2 => base ||| src
        | _ => base &&& (2 ^ 64 - 1 - src)
      let s := if writes then s.onHart c (·.csrWrite n v) else s
      s.retire c len (bits w 7 5) old

def State.sysIns (s : State) (c w len raw : Nat) : Ran :=
  let h := s.hart c
  let st := h.mstatus
  let prv := if h.halted then 3 else h.priv
  if bits w 12 3 ≠ 0 then (if bits w 12 3 = 4 then illegal s raw else s.csrIns c w len raw)
  else if w = 0x00000073 then (s, some (8 + prv, 0))
  else if w = 0x00100073 then
    let dcsr := h.csrW 0x7B0
    let dbg := if h.priv = 3 then bit dcsr 15 else if h.priv = 1 then bit dcsr 13 else bit dcsr 12
    (s, some (if dbg then 101 else 3, h.pc.toNat))
  else if w = 0x30200073 then (if prv = 3 then (s.onHart c (·.mret), none) else illegal s raw)
  else if w = 0x10200073 then (if prv = 3 ∨ (prv = 1 ∧ bit st 22 = false) then (s.onHart c (·.sret), none) else illegal s raw)
  else if w = 0x10500073 then
    if prv = 0 ∨ (prv = 1 ∧ bit st 21) then illegal s raw
    else (s.onHart c fun h => { h.setPc (h.pc.toNat + len) with wfi := !h.halted }, none)
  else if bits w 25 7 = 9 ∧ bits w 7 5 = 0 then
    (if prv = 0 ∨ (prv = 1 ∧ bit st 20) then illegal s raw else s.retire c len 0 0)
  else illegal s raw

/-! ### The instruction -/

/-- Run the 32-bit word `w`, an instruction of `len` bytes whose own bits are `raw`; `bad` as for a load. -/
def State.runWord (s : State) (c w len raw : Nat) (bad : Bool) : Ran :=
  let rd := bits w 7 5
  let pc := (s.hart c).pc.toNat
  match w % 128 with
  | 0x37 => s.retire c len rd (sext 32 (w / 2 ^ 12 * 2 ^ 12))
  | 0x17 => s.retire c len rd (pc + sext 32 (w / 2 ^ 12 * 2 ^ 12))
  | 0x6F => (s.onHart c fun h => (h.setX rd (pc + len)).setPc (ofSigned 64 ((pc : Int) + immJ w)), none)
  | 0x67 =>
    if bits w 12 3 ≠ 0 then illegal s raw
    else
      let t := (s.x c (bits w 15 5) + sext 12 (bits w 20 12)) % 2 ^ 64 / 2 * 2
      (s.onHart c fun h => (h.setX rd (pc + len)).setPc t, none)
  | 0x63 => s.branch c w len raw
  | 0x03 => s.loadIns c w len raw false bad
  | 0x07 => s.loadIns c w len raw true bad
  | 0x23 => s.storeIns c w len raw false bad
  | 0x27 => s.storeIns c w len raw true bad
  | 0x13 => s.opImm c w len raw
  | 0x1B => s.opImm32 c w len raw
  | 0x33 => s.aluEnd c len raw rd (alu64 (bits w 25 7) (bits w 12 3) (s.x c (bits w 15 5)) (s.x c (bits w 20 5)))
  | 0x3B => s.aluEnd c len raw rd (alu32 (bits w 25 7) (bits w 12 3) (s.x c (bits w 15 5)) (s.x c (bits w 20 5)))
  | 0x2F => s.amoIns c w len raw bad
  | 0x0F => if bits w 12 3 < 2 then s.retire c len 0 0 else if bits w 12 3 = 2 then s.cboIns c w len raw else illegal s raw
  | 0x53 => s.fpIns c w len raw
  | 0x43 | 0x47 | 0x4B | 0x4F => s.fmaIns c w len raw
  | 0x73 => s.sysIns c w len raw
  | _ => illegal s raw

end Sys2Proof.Machine
end

