-- ==== Sys2Proof/Machine/Hart.lean ====
section
/-! DEFINITION. The commands of the control cores: one instruction (R540 to R545), cache-block operations (R544), interrupt entry
(R546 to R549), and a parked core (R773, R774). -/

namespace Sys2Proof.Machine

/-- The cluster is powered and its cores may run (R666, R669). -/
def State.awake (s : State) : Bool := !s.dev.dark

/-- Core `c` runs software: released, not in debug mode, past the ROM. -/
def State.runs (s : State) (c : Nat) : Bool :=
  let h := s.hart c
  decide (c < 8) && s.awake && h.running && !h.halted && !h.parked && (decide (c ≠ 0) || decide (s.dev.ctl.rom = .left))

/-! ### Counters -/

/-- Add to a counter unless mcountinhibit holds it. -/
def Hart.count (h : Hart) (k n : Nat) : Hart :=
  if n = 0 ∨ bit (h.csrW 0x320) k then h else h.setCsr (0xB00 + k) (h.csrW (0xB00 + k) + n)

/-- Cycles and the events of mhpmcounter3 to 6 that an instruction took; how many the spec leaves open. -/
def State.countCycles (s : State) (c : Nat) : State :=
  let (d, v) := s.dev.draw 32
  let s : State := { s with dev := d }
  s.onHart c fun h =>
    let h := h.count 0 (1 + v % 256)
    [3, 4, 5, 6].foldl (fun h k => if h.csrW (0x320 + k) = 0 then h else h.count k (v / 256 ^ (k % 3 + 1) % 256)) h

/-! ### One instruction -/

/-- The end of an instruction: its trap is taken; it is counted when it retired; a single step that is over enters debug mode
(R540). -/
def State.endIns (s : State) (c w : Nat) (step : Bool) (r : Ran) : State :=
  let s' := match r.2 with
    | some (e, t) => r.1.onHart c (·.takes e t)
    | none => if (r.1.hart c).wait.isSome ∨ writesCsr w 0xB02 then r.1 else r.1.onHart c (·.count 2 1)
  let s' := if writesCsr w 0xB00 then s' else s'.countCycles c
  if step && (s'.hart c).wait.isNone && !(s'.hart c).halted && decide (1 ≤ s.dev.level) then s'.onHart c fun h => h.enterDebug 4 h.pc.toNat else s'

/-- Core `c` runs the word `w`. -/
def State.runIns (s : State) (c w len raw : Nat) (bad : Bool) : State :=
  s.endIns c w (bit ((s.hart c).csrW 0x7B0) 2) (s.runWord c w len raw bad)

/-- A load that waited ends with its data, or with an access fault. -/
def State.loadEnds (s : State) (c : Nat) (w : HartWait) (v : Option Nat) : State :=
  let s := s.onHart c fun h => { h with wait := none }
  s.endIns c 0 (bit ((s.hart c).csrW 0x7B0) 2) (match v with
    | some v => (s.onHart c fun h => (h.loaded w.f3 w.fp w.rd v).setPc (h.pc.toNat + w.len), none)
    | none => (s, some (5, w.va)))

/-- A waiting load gets its data (R61, R552, R563), if it is there. -/
def State.waitEnds (s : State) (c : Nat) (w : HartWait) : State :=
  if w.ask then (if (s.dev.port c).wait.isSome then s else s.loadEnds c w (s.dev.port c).answer)
  else if s.dev.pcie.reads.any fun r => decide (r.who = .hart c) then s
  else
    (s.on fun d => { d with pcie := { d.pcie with got := del d.pcie.got c } }).loadEnds c w (look s.dev.pcie.got c).join

/-- An interrupt that ends WFI is pending; in Doze a core in WFI stays there (R666). -/
def State.wfiEnds (s : State) (c : Nat) : Bool :=
  decide (s.mip c &&& (s.hart c).csrW 0x304 ≠ 0) && decide (s.dev.pstate ≠ 2)

/-- HART_INSTRUCTION: fetch and run; `ecc` is what the caches found (R545): an uncorrectable error at offset 0 lies in the data the
instruction loads or stores, at another in the instruction. -/
def State.hartStep (s : State) (c : Nat) (ecc : EccFact) : State :=
  if s.runs c = false then s
  else
    let h := s.hart c
    match h.wait with
    | some w => s.waitEnds c w
    | none =>
      if h.wfi ∧ s.wfiEnds c = false then s
      else
        let s := s.onHart c fun h => { h with wfi := false }
        let s := if ecc = .corrected then s.onHart c (·.corrected) else s
        let step := bit (h.csrW 0x7B0) 2
        match h.trigger 2 h.pc.toNat with
        | some a => s.endIns c 0 step (s, some (trapOfTrigger a, h.pc.toNat))
        | none =>
          match s.fetch c with
          | (s, .error t) => s.endIns c 0 step (s, some t)
          | (s, .ok (w, len, raw)) =>
            let inFetch := match ecc with | .uncorrectable o => decide (o ≠ 0) | _ => false
            let inData := match ecc with | .uncorrectable o => decide (o = 0) | _ => false
            if inFetch then
              let s := match s.translate c h.priv 2 h.pc.toNat with
                | (s, .ok pa) => s.lineError c pa
                | (s, .error _) => s
              s.endIns c 0 step (s, some (1, h.pc.toNat))
            else match w with
              | some w => s.runIns c w len raw inData
              | none => s.endIns c 0 step (illegal s raw)

def execHartInstruction (core : Nat) (ecc : EccFact) (s : State) : Host.Outcome State Fault Refusal := .next (s.hartStep core ecc)

/-! ### Cache-block operations -/

/-- Core `c` executes cbo operation `op` on the address in x[rs1]. -/
def State.cboStep (s : State) (c op rs1 : Nat) : State :=
  let h := s.hart c
  if s.runs c = false ∨ h.wait.isSome ∨ h.wfi then s
  else
    let w := encI 0x0F 2 0 (rs1 % 32) op
    s.runIns c w 4 w false

def execCboInval (core rs1 : Nat) (s : State) : Host.Outcome State Fault Refusal := .next (s.cboStep core 0 rs1)
def execCboClean (core rs1 : Nat) (s : State) : Host.Outcome State Fault Refusal := .next (s.cboStep core 1 rs1)
def execCboFlush (core rs1 : Nat) (s : State) : Host.Outcome State Fault Refusal := .next (s.cboStep core 2 rs1)

/-! ### Interrupts -/

/-- HART_INTERRUPT_ENTRY: between instructions, the interrupt of highest rank is taken. -/
def State.irqEntry (s : State) (c : Nat) : State :=
  let h := s.hart c
  if s.runs c = false ∨ h.wait.isSome ∨ (h.wfi ∧ s.dev.pstate = 2) then s
  else match s.nextIrq c with
    | some i => s.onHart c fun h => ({ h with wfi := false } : Hart).trap i 0 true
    | none => s

def execHartInterruptEntry (core : Nat) (s : State) : Host.Outcome State Fault Refusal := .next (s.irqEntry core)

/-! ### Parked cores -/

/-- PARKED_HART_MSIP (R773): MSIP is cleared and the core jumps to the address in its mailbox entry; a core held in reset
since Nap comes out into the parking path by its MSIP (R774). -/
def State.parkedMsip (s : State) (c : Nat) : State :=
  let h := s.hart c
  if 8 ≤ c ∨ s.awake = false ∨ h.halted ∨ (h.parked = false ∧ h.running) ∨ bit s.dev.ctl.msip c = false then s
  else
    let s := s.on (·.setMsip c false)
    let f := s.dev.fillLine (lineOf (mailbox + 0x40 + 8 * c))
    let a := ofLeBytes (f.1.cachedBytes (mailbox + 0x40 + 8 * c) 8)
    ({ s with dev := f.1 } : State).setHart c { (if h.parked then h else Hart.parkedAt) with parked := false, wfi := false, pc := BitVec.ofNat 64 a }

def execParkedHartMsip (hart : Nat) (s : State) : Host.Outcome State Fault Refusal := .next (s.parkedMsip hart)

/-! ### Time with nothing waiting -/

/-- 2 ns pass at the 32.768 kHz crystal: an edge every 10^9 / 32768 ns. -/
def Dev.crystalTick (d : Dev) : Dev :=
  let ph := d.rtc.phase + 2 * 32768
  if ph < 1000000000 then { d with rtc := { d.rtc with phase := ph } }
  else ({ d with rtc := { d.rtc with phase := ph - 1000000000 } } : Dev).crystal 1

/-- One cycle of TCLK (R520, R549, R694): device time and MTIME advance while the device is in Run, Idle or Doze, the count of the
real-time clock always. -/
def State.tick (s : State) : State :=
  let s := s.on (·.crystalTick)
  if s.awake then s.on fun d => { d.tclk with ctl := { d.tclk.ctl with refNs := d.ctl.refNs + 2 } } else s

end Sys2Proof.Machine
end

