-- ==== Sys2Proof/Machine/Debug.lean ====
section
/-! DEFINITION. The Debug Module and boundary scan (R540, R649 to R652). The level in force and the power state decide what is served; the
module's own protocol is the RISC-V debug specification's (log entry 30). -/

namespace Sys2Proof.Machine

/-- The level that acts: none under TESTMODE (R757). -/
def Dev.actLevel (d : Dev) : Nat := if d.balls.testmode then 0 else d.level

/-- A core that waits in an ask has it end empty when a halt is requested (R563). -/
def State.haltAsk (s : State) (c : Nat) : State :=
  match (s.hart c).wait with
  | some w => if w.ask then (s.on (·.endWaitEmpty c)).waitEnds c w else s
  | none => s

/-- Halt request (R651): in Nap a wake request. -/
def State.dmHalt (s : State) (c : Nat) : State :=
  if s.dev.pstate = 3 then s.on fun d => (d.raiseWake 7).complete .okay
  else
    let s := s.on (·.raiseWake 7)
    if 8 ≤ c ∨ (s.hart c).running = false then s.on (·.complete .unavailable)
    else
      let s := s.haltAsk c
      let s := if (s.hart c).halted then s else s.onHart c fun h => { h.enterDebug 3 h.pc.toNat with parked := h.parked, wfi := h.wfi }
      s.on (·.complete .okay)

/-- Resume: the pc and privilege come from dpc and dcsr. -/
def Hart.resume (h : Hart) : Hart :=
  let p := bits (h.csrW 0x7B0) 0 2
  { h with halted := false, pc := BitVec.ofNat 64 (h.csrW 0x7B1), priv := if p = 2 then 3 else p }

/-- Abstract register number: CSRs from 0, x0 to x31 from 0x1000, f0 to f31 from 0x1020. -/
def State.dmRead (s : State) (c r : Nat) : Option Nat :=
  if r < 0x1000 then s.csrRead c r
  else if r < 0x1020 then some (s.x c (r - 0x1000))
  else if r < 0x1040 then some ((s.hart c).fW (r - 0x1020))
  else none

def State.dmWrite (s : State) (c r v : Nat) : Option State :=
  if r < 0x1000 then (if (s.csrRead c r).isNone ∨ bits r 10 2 = 3 then none else some (s.onHart c (·.csrWrite r v)))
  else if r < 0x1020 then some (s.onHart c (·.setX (r - 0x1000) v))
  else if r < 0x1040 then some (s.onHart c fun h => { h with f := setAt h.f (r - 0x1020) (BitVec.ofNat 64 v) })
  else none

/-- Run the words of the program buffer on a halted core until EBREAK; false when an instruction traps. The pc stays. -/
def State.runBuffer (s : State) (c : Nat) : List Nat → State × Bool
  | [] => (s, true)
  | w :: r =>
    if w = 0x00100073 then (s, true)
    else
      let pc := (s.hart c).pc
      let q := if w % 4 = 3 then s.runWord c w 4 w false else match expandC (w % 2 ^ 16) with
        | some e => s.runWord c e 2 (w % 2 ^ 16) false
        | none => illegal s w
      let s := q.1.onHart c fun h => { h with pc := pc, wait := none, halted := true }
      if q.2.isSome then (s, false) else s.runBuffer c r

/-- A request to the Debug Module (R651). -/
def State.dmServe (s : State) (q : DbgReq) : State :=
  let answer (c : Code) (v : Nat) : State := s.on (·.complete c v)
  let onHalted (c : Nat) (f : State) : State := if c < 8 && (s.hart c).running && (s.hart c).halted then f else answer .unavailable 0
  match q with
  | .halt h => s.dmHalt h
  | .resume h => onHalted h ((s.onHart h (·.resume)).on (·.complete .okay))
  | .readReg h r => onHalted h (match s.dmRead h r with | some v => answer .okay v | none => answer .decodeError 0)
  | .writeReg h r v => onHalted h (match s.dmWrite h r v with | some s' => s'.on (·.complete .okay) | none => answer .decodeError 0)
  | .buffer i w =>
    s.on fun d => ({ d with ctl := { d.ctl with buffer := setAt d.ctl.buffer i (w % 2 ^ 32) } } : Dev).complete .okay
  | .runBuffer h => onHalted h (let r := s.runBuffer h s.dev.ctl.buffer; r.1.on (·.complete (if r.2 then .okay else .dataError)))
  | .bus a => s.access { who := .debugBus, priv := 3, debug := false } a

/-- DEBUG_MODULE_ACCESS: refused below D1 and without supply; in Nap only a halt request acts, as a wake. -/
def State.debugAccess (s : State) (q : DbgReq) : State :=
  let d := s.dev
  if d.balls.resetLow ∨ 4 ≤ d.pstate then s.on (·.complete .unavailable)
  else if d.actLevel = 0 then s.on (·.complete .denied)
  else if d.pstate = 3 then (match q with | .halt h => s.dmHalt h | _ => s.on (·.complete .unavailable))
  else s.dmServe q

def execDebugModuleAccess (req : DbgReq) (s : State) : Host.Outcome State Fault Refusal := .next (s.debugAccess req)

/-- BOUNDARY_SCAN_INSTRUCTION (R649, R651): 1 SAMPLE/PRELOAD, 2 EXTEST, 3 CLAMP, 4 HIGHZ at D2 and above outside Nap; else BYPASS. -/
def execBoundaryScanInstruction (inst : Nat) (s : State) : Host.Outcome State Fault Refusal :=
  s.onDev fun d =>
    if 4 ≤ d.pstate then d
    else
      let i := if 2 ≤ d.actLevel ∧ d.pstate < 3 ∧ inst ≤ 4 then inst else 0
      { d with sec := { d.sec with bscan := i } }

end Sys2Proof.Machine
end

