-- ==== Sys2Proof/Machine/Dispatch.lean ====
section
/-! DEFINITION. Every command of the table to its meaning, one arm per constructor. -/

namespace Sys2Proof.Machine

def exec (i : Instr) (s : State) : Host.Outcome State Fault Refusal :=
  match i with
  | .beatBoundary fact => Sys2Proof.Machine.execBeatBoundary fact s
  | .beatEnSet => Sys2Proof.Machine.execBeatEnSet s
  | .beatEnClear value => Sys2Proof.Machine.execBeatEnClear value s
  | .ptpBeatLoRead => Sys2Proof.Machine.execPtpBeatLoRead s
  | .queueSnapshot => Sys2Proof.Machine.execQueueSnapshot s
  | .planFreeze x draft left noLine => Sys2Proof.Machine.execPlanFreeze x draft left noLine s
  | .planFreezeMissed radio => Sys2Proof.Machine.execPlanFreezeMissed radio s
  | .allowanceMissed => Sys2Proof.Machine.execAllowanceMissed s
  | .fabricRequest who machine fact => Sys2Proof.Machine.execFabricRequest who machine fact s
  | .registerWrite page off value => Sys2Proof.Machine.execRegisterWrite page off value s
  | .start page => Sys2Proof.Machine.execStart page s
  | .drain page => Sys2Proof.Machine.execDrain page s
  | .stop page => Sys2Proof.Machine.execStop page s
  | .abort page => Sys2Proof.Machine.execAbort page s
  | .startChecksPassed page => Sys2Proof.Machine.execStartChecksPassed page s
  | .drainComplete page => Sys2Proof.Machine.execDrainComplete page s
  | .faultDetected page fault => Sys2Proof.Machine.execFaultDetected page fault s
  | .discardComplete page => Sys2Proof.Machine.execDiscardComplete page s
  | .blockReset group value => Sys2Proof.Machine.execBlockReset group value s
  | .ownerClaim kind index owner func => Sys2Proof.Machine.execOwnerClaim kind index owner func s
  | .ownerRelease kind index owner => Sys2Proof.Machine.execOwnerRelease kind index owner s
  | .forcedRelease kind index machine => Sys2Proof.Machine.execForcedRelease kind index machine s
  | .pinClaimRejResRead => Sys2Proof.Machine.execPinClaimRejResRead s
  | .hopCommand x centre width => Sys2Proof.Machine.execHopCommand x centre width s
  | .synOffHop x => Sys2Proof.Machine.execSynOffHop x s
  | .lockDetected x => Sys2Proof.Machine.execLockDetected x s
  | .synCalibrationDone x failed => Sys2Proof.Machine.execSynCalibrationDone x failed s
  | .lockLost x => Sys2Proof.Machine.execLockLost x s
  | .settlingTimeout x => Sys2Proof.Machine.execSettlingTimeout x s
  | .relockTimeout x => Sys2Proof.Machine.execRelockTimeout x s
  | .txCommand x => Sys2Proof.Machine.execTxCommand x s
  | .txDropPoint x => Sys2Proof.Machine.execTxDropPoint x s
  | .txSequenceStart x => Sys2Proof.Machine.execTxSequenceStart x s
  | .txPpduEnd x pdet temps => Sys2Proof.Machine.execTxPpduEnd x pdet temps s
  | .paOverPower chain => Sys2Proof.Machine.execPaOverPower chain s
  | .quadLockTimeout quad => Sys2Proof.Machine.execQuadLockTimeout quad s
  | .fullCalDone isQuad x facts => Sys2Proof.Machine.execFullCalDone isQuad x facts s
  | .calCmd centre width quad => Sys2Proof.Machine.execCalCmd centre width quad s
  | .calCmdDone facts => Sys2Proof.Machine.execCalCmdDone facts s
  | .energyRise x rise => Sys2Proof.Machine.execEnergyRise x rise s
  | .packetDetection x det => Sys2Proof.Machine.execPacketDetection x det s
  | .agcIdleReturn x => Sys2Proof.Machine.execAgcIdleReturn x s
  | .sigFieldDecided x sig => Sys2Proof.Machine.execSigFieldDecided x sig s
  | .restartRise x rise clip => Sys2Proof.Machine.execRestartRise x rise clip s
  | .ltfEnd x ltf foreign => Sys2Proof.Machine.execLtfEnd x ltf foreign s
  | .obssHoldEnd x => Sys2Proof.Machine.execObssHoldEnd x s
  | .tbWindowExpiry x => Sys2Proof.Machine.execTbWindowExpiry x s
  | .mpduDecoded x user data mpdu => Sys2Proof.Machine.execMpduDecoded x user data mpdu s
  | .ppduRxEnd x endNs lastNs meas rise => Sys2Proof.Machine.execPpduRxEnd x endNs lastNs meas rise s
  | .backoffSlot x med => Sys2Proof.Machine.execBackoffSlot x med s
  | .navExpiry x => Sys2Proof.Machine.execNavExpiry x s
  | .txopEnd x => Sys2Proof.Machine.execTxopEnd x s
  | .windowMissed x => Sys2Proof.Machine.execWindowMissed x s
  | .dataUnderrun x fact => Sys2Proof.Machine.execDataUnderrun x fact s
  | .responseCut x => Sys2Proof.Machine.execResponseCut x s
  | .responseHandover x dur => Sys2Proof.Machine.execResponseHandover x dur s
  | .respLate x => Sys2Proof.Machine.execRespLate x s
  | .responseTimeout x => Sys2Proof.Machine.execResponseTimeout x s
  | .emlsrNoCts x sta => Sys2Proof.Machine.execEmlsrNoCts x sta s
  | .reorderTimeout sta tid => Sys2Proof.Machine.execReorderTimeout sta tid s
  | .fragmentTimeout sta tid => Sys2Proof.Machine.execFragmentTimeout sta tid s
  | .uapsdSpExpiry x sta => Sys2Proof.Machine.execUapsdSpExpiry x sta s
  | .staAdd sta => Sys2Proof.Machine.execStaAdd sta s
  | .staSuspend sta => Sys2Proof.Machine.execStaSuspend sta s
  | .staSuspendDone => Sys2Proof.Machine.execStaSuspendDone s
  | .staResume sta => Sys2Proof.Machine.execStaResume sta s
  | .staRemove sta => Sys2Proof.Machine.execStaRemove sta s
  | .staFlush sta tids => Sys2Proof.Machine.execStaFlush sta tids s
  | .enqueueRequest words => Sys2Proof.Machine.execEnqueueRequest words s
  | .admAdd sta cls dir radio resv => Sys2Proof.Machine.execAdmAdd sta cls dir radio resv s
  | .admRemove index => Sys2Proof.Machine.execAdmRemove index s
  | .airLast0Read x => Sys2Proof.Machine.execAirLast0Read x s
  | .planSend => Sys2Proof.Machine.execPlanSend s
  | .planReceived => Sys2Proof.Machine.execPlanReceived s
  | .leaveReceived => Sys2Proof.Machine.execLeaveReceived s
  | .timeOkExpiry => Sys2Proof.Machine.execTimeOkExpiry s
  | .nbrAdd index apId => Sys2Proof.Machine.execNbrAdd index apId s
  | .nbrRemove index => Sys2Proof.Machine.execNbrRemove index s
  | .tagFrameDetected mod startNs => Sys2Proof.Machine.execTagFrameDetected mod startNs s
  | .tagFrameEnd frame => Sys2Proof.Machine.execTagFrameEnd frame s
  | .tagImmAckSend => Sys2Proof.Machine.execTagImmAckSend s
  | .tagAckTimeout => Sys2Proof.Machine.execTagAckTimeout s
  | .tagTxRequest => Sys2Proof.Machine.execTagTxRequest s
  | .tagCcaSlot endNs energy => Sys2Proof.Machine.execTagCcaSlot endNs energy s
  | .tagWakeBurst => Sys2Proof.Machine.execTagWakeBurst s
  | .tagTrainMove => Sys2Proof.Machine.execTagTrainMove s
  | .tagOccupancyEnd => Sys2Proof.Machine.execTagOccupancyEnd s
  | .tagBeaconSlot => Sys2Proof.Machine.execTagBeaconSlot s
  | .tagBeaconLost => Sys2Proof.Machine.execTagBeaconLost s
  | .tagRxChanWrite centre => Sys2Proof.Machine.execTagRxChanWrite centre s
  | .tagRetuneDone => Sys2Proof.Machine.execTagRetuneDone s
  | .nop core ecc => Sys2Proof.Machine.execNop core ecc s
  | .cmul core ecc => Sys2Proof.Machine.execCmul core ecc s
  | .cmulj core ecc => Sys2Proof.Machine.execCmulj core ecc s
  | .cmac core ecc => Sys2Proof.Machine.execCmac core ecc s
  | .cmacj core ecc => Sys2Proof.Machine.execCmacj core ecc s
  | .cmsu core ecc => Sys2Proof.Machine.execCmsu core ecc s
  | .cmsuj core ecc => Sys2Proof.Machine.execCmsuj core ecc s
  | .rmul core ecc => Sys2Proof.Machine.execRmul core ecc s
  | .rmac core ecc => Sys2Proof.Machine.execRmac core ecc s
  | .rdmac core ecc => Sys2Proof.Machine.execRdmac core ecc s
  | .aext core ecc => Sys2Proof.Machine.execAext core ecc s
  | .ald core ecc => Sys2Proof.Machine.execAld core ecc s
  | .aadd core ecc => Sys2Proof.Machine.execAadd core ecc s
  | .asub core ecc => Sys2Proof.Machine.execAsub core ecc s
  | .ared core ecc => Sys2Proof.Machine.execAred core ecc s
  | .aexp core ecc => Sys2Proof.Machine.execAexp core ecc s
  | .anorm core ecc => Sys2Proof.Machine.execAnorm core ecc s
  | .vexp core ecc => Sys2Proof.Machine.execVexp core ecc s
  | .vnorm core ecc => Sys2Proof.Machine.execVnorm core ecc s
  | .sexp core ecc => Sys2Proof.Machine.execSexp core ecc s
  | .vadd core ecc => Sys2Proof.Machine.execVadd core ecc s
  | .vsub core ecc => Sys2Proof.Machine.execVsub core ecc s
  | .vshr core ecc => Sys2Proof.Machine.execVshr core ecc s
  | .vshl core ecc => Sys2Proof.Machine.execVshl core ecc s
  | .vmax core ecc => Sys2Proof.Machine.execVmax core ecc s
  | .vmin core ecc => Sys2Proof.Machine.execVmin core ecc s
  | .vabs2 core ecc => Sys2Proof.Machine.execVabs2 core ecc s
  | .vconj core ecc => Sys2Proof.Machine.execVconj core ecc s
  | .vneg core ecc => Sys2Proof.Machine.execVneg core ecc s
  | .vmov core ecc => Sys2Proof.Machine.execVmov core ecc s
  | .vbc core ecc => Sys2Proof.Machine.execVbc core ecc s
  | .vilv core ecc => Sys2Proof.Machine.execVilv core ecc s
  | .vrcp core ecc => Sys2Proof.Machine.execVrcp core ecc s
  | .vrsq core ecc => Sys2Proof.Machine.execVrsq core ecc s
  | .vins core ecc => Sys2Proof.Machine.execVins core ecc s
  | .vext core ecc => Sys2Proof.Machine.execVext core ecc s
  | .sadd core ecc => Sys2Proof.Machine.execSadd core ecc s
  | .ssub core ecc => Sys2Proof.Machine.execSsub core ecc s
  | .sand core ecc => Sys2Proof.Machine.execSand core ecc s
  | .sor core ecc => Sys2Proof.Machine.execSor core ecc s
  | .sxor core ecc => Sys2Proof.Machine.execSxor core ecc s
  | .sshl core ecc => Sys2Proof.Machine.execSshl core ecc s
  | .sshr core ecc => Sys2Proof.Machine.execSshr core ecc s
  | .smul core ecc => Sys2Proof.Machine.execSmul core ecc s
  | .scmp core ecc => Sys2Proof.Machine.execScmp core ecc s
  | .saddi core ecc => Sys2Proof.Machine.execSaddi core ecc s
  | .sli core ecc => Sys2Proof.Machine.execSli core ecc s
  | .slui core ecc => Sys2Proof.Machine.execSlui core ecc s
  | .smva core ecc => Sys2Proof.Machine.execSmva core ecc s
  | .sld core ecc => Sys2Proof.Machine.execSld core ecc s
  | .sst core ecc => Sys2Proof.Machine.execSst core ecc s
  | .br core ecc => Sys2Proof.Machine.execBr core ecc s
  | .call core ecc => Sys2Proof.Machine.execCall core ecc s
  | .ret core ecc => Sys2Proof.Machine.execRet core ecc s
  | .loop core ecc => Sys2Proof.Machine.execLoop core ecc s
  | .loopCountExhausted core => Sys2Proof.Machine.execLoopCountExhausted core s
  | .reti core ecc => Sys2Proof.Machine.execReti core ecc s
  | .retf core ecc => Sys2Proof.Machine.execRetf core ecc s
  | .mbs core ecc => Sys2Proof.Machine.execMbs core ecc s
  | .mbsRoom core => Sys2Proof.Machine.execMbsRoom core s
  | .mbr core ecc => Sys2Proof.Machine.execMbr core ecc s
  | .mbrEntryArrives core => Sys2Proof.Machine.execMbrEntryArrives core s
  | .bar core ecc => Sys2Proof.Machine.execBar core ecc s
  | .barrierRelease bar => Sys2Proof.Machine.execBarrierRelease bar s
  | .dmq core ecc => Sys2Proof.Machine.execDmq core ecc s
  | .dmqRoom core => Sys2Proof.Machine.execDmqRoom core s
  | .dmw core ecc => Sys2Proof.Machine.execDmw core ecc s
  | .dmwWaitEnds core => Sys2Proof.Machine.execDmwWaitEnds core s
  | .jend core ecc => Sys2Proof.Machine.execJend core ecc s
  | .halt core ecc => Sys2Proof.Machine.execHalt core ecc s
  | .fastInterruptEntry core => Sys2Proof.Machine.execFastInterruptEntry core s
  | .normalInterruptEntry core => Sys2Proof.Machine.execNormalInterruptEntry core s
  | .kovMbxInWrite core data => Sys2Proof.Machine.execKovMbxInWrite core data s
  | .kovSoftIrq core => Sys2Proof.Machine.execKovSoftIrq core s
  | .kovTimerExpiry core => Sys2Proof.Machine.execKovTimerExpiry core s
  | .barrierMaskWrite bar mask => Sys2Proof.Machine.execBarrierMaskWrite bar mask s
  | .dmaFabricPost chan addr host => Sys2Proof.Machine.execDmaFabricPost chan addr host s
  | .dmaDescriptorDone chan host => Sys2Proof.Machine.execDmaDescriptorDone chan host s
  | .dmaWaitExpiry core wanted => Sys2Proof.Machine.execDmaWaitExpiry core wanted s
  | .kovJobPost addr host => Sys2Proof.Machine.execKovJobPost addr host s
  | .jobStart => Sys2Proof.Machine.execJobStart s
  | .jobDueExpiry => Sys2Proof.Machine.execJobDueExpiry s
  | .jobLimitExpiry core => Sys2Proof.Machine.execJobLimitExpiry core s
  | .firstPass pipe host => Sys2Proof.Machine.execFirstPass pipe host s
  | .secondPass pipe host => Sys2Proof.Machine.execSecondPass pipe host s
  | .menuSwap => Sys2Proof.Machine.execMenuSwap s
  | .menuDrainDone => Sys2Proof.Machine.execMenuDrainDone s
  | .tcWrite menu index anomaly => Sys2Proof.Machine.execTcWrite menu index anomaly s
  | .tcInvalidate menu index => Sys2Proof.Machine.execTcInvalidate menu index s
  | .tcRead menu index => Sys2Proof.Machine.execTcRead menu index s
  | .tcWriteHdr menu => Sys2Proof.Machine.execTcWriteHdr menu s
  | .tcReadHdr menu => Sys2Proof.Machine.execTcReadHdr menu s
  | .tcWriteDirect index => Sys2Proof.Machine.execTcWriteDirect index s
  | .tcReadDirect index => Sys2Proof.Machine.execTcReadDirect index s
  | .ctrRead index => Sys2Proof.Machine.execCtrRead index s
  | .ctrReadClear index => Sys2Proof.Machine.execCtrReadClear index s
  | .ringEnable ring cfg => Sys2Proof.Machine.execRingEnable ring cfg s
  | .ringDisable ring cfg => Sys2Proof.Machine.execRingDisable ring cfg s
  | .ringSwWrite ring sw => Sys2Proof.Machine.execRingSwWrite ring sw s
  | .txRingFrameStart ring host => Sys2Proof.Machine.execTxRingFrameStart ring host s
  | .wlanCompletion => Sys2Proof.Machine.execWlanCompletion s
  | .ringIrqTimer ring => Sys2Proof.Machine.execRingIrqTimer ring s
  | .ethFrameReceived m octets codeErr ballNs ballFrac fecCorr fecUncorr => Sys2Proof.Machine.execEthFrameReceived m octets codeErr ballNs ballFrac fecCorr fecUncorr s
  | .pauseTimeExpiry m queue => Sys2Proof.Machine.execPauseTimeExpiry m queue s
  | .pauseRepeat m => Sys2Proof.Machine.execPauseRepeat m s
  | .fifoBelowXon m => Sys2Proof.Machine.execFifoBelowXon m s
  | .ethTxStart m ballQ => Sys2Proof.Machine.execEthTxStart m ballQ s
  | .ethTxUnderrun m sent => Sys2Proof.Machine.execEthTxUnderrun m sent s
  | .ethTxDone m => Sys2Proof.Machine.execEthTxDone m s
  | .ethLinkChange m deskewed speed => Sys2Proof.Machine.execEthLinkChange m deskewed speed s
  | .mdioAddress c45 phyad reg data => Sys2Proof.Machine.execMdioAddress c45 phyad reg data s
  | .mdioWrite c45 phyad reg data => Sys2Proof.Machine.execMdioWrite c45 phyad reg data s
  | .mdioReadInc c45 phyad reg => Sys2Proof.Machine.execMdioReadInc c45 phyad reg s
  | .mdioRead c45 phyad reg => Sys2Proof.Machine.execMdioRead c45 phyad reg s
  | .mdioDone rdata => Sys2Proof.Machine.execMdioDone rdata s
  | .ethCrumb0Read m => Sys2Proof.Machine.execEthCrumb0Read m s
  | .ethOctLoRead m tx => Sys2Proof.Machine.execEthOctLoRead m tx s
  | .timeSet => Sys2Proof.Machine.execTimeSet s
  | .timeStep => Sys2Proof.Machine.execTimeStep s
  | .ptpTimeNsRead => Sys2Proof.Machine.execPtpTimeNsRead s
  | .servoSample ns => Sys2Proof.Machine.execServoSample ns s
  | .servoHoldoverTimeout => Sys2Proof.Machine.execServoHoldoverTimeout s
  | .eventTimerFire timer => Sys2Proof.Machine.execEventTimerFire timer s
  | .eventTimerPulseEnd timer => Sys2Proof.Machine.execEventTimerPulseEnd timer s
  | .eventInputEdge input ball falling ns frac => Sys2Proof.Machine.execEventInputEdge input ball falling ns frac s
  | .ptpEviRead input => Sys2Proof.Machine.execPtpEviRead input s
  | .hartInstruction core ecc => Sys2Proof.Machine.execHartInstruction core ecc s
  | .cboClean core rs1 => Sys2Proof.Machine.execCboClean core rs1 s
  | .cboFlush core rs1 => Sys2Proof.Machine.execCboFlush core rs1 s
  | .cboInval core rs1 => Sys2Proof.Machine.execCboInval core rs1 s
  | .plicClaim context => Sys2Proof.Machine.execPlicClaim context s
  | .plicComplete context source => Sys2Proof.Machine.execPlicComplete context source s
  | .mtimeLoRead => Sys2Proof.Machine.execMtimeLoRead s
  | .setssipWrite hart value => Sys2Proof.Machine.execSetssipWrite hart value s
  | .mtimerCompare hart => Sys2Proof.Machine.execMtimerCompare hart s
  | .pcieLinkChange up gen width reversed => Sys2Proof.Machine.execPcieLinkChange up gen width reversed s
  | .pcieOutboundCompletion index outcome data => Sys2Proof.Machine.execPcieOutboundCompletion index outcome data s
  | .pcieCplTimeout index => Sys2Proof.Machine.execPcieCplTimeout index s
  | .pcieInboundRequest addr size write => Sys2Proof.Machine.execPcieInboundRequest addr size write s
  | .pcieIntxMessage pin high => Sys2Proof.Machine.execPcieIntxMessage pin high s
  | .msixVectorSignal v => Sys2Proof.Machine.execMsixVectorSignal v s
  | .pcieFlr => Sys2Proof.Machine.execPcieFlr s
  | .perstAssert => Sys2Proof.Machine.execPerstAssert s
  | .pcieCfgRead status data => Sys2Proof.Machine.execPcieCfgRead status data s
  | .pcieCfgWrite value status => Sys2Proof.Machine.execPcieCfgWrite value status s
  | .threadPost handle level aff => Sys2Proof.Machine.execThreadPost handle level aff s
  | .threadCancel handle => Sys2Proof.Machine.execThreadCancel handle s
  | .dspAsk core => Sys2Proof.Machine.execDspAsk core s
  | .dspYield core => Sys2Proof.Machine.execDspYield core s
  | .askTimeout core => Sys2Proof.Machine.execAskTimeout core s
  | .askInterrupted core => Sys2Proof.Machine.execAskInterrupted core s
  | .dspFloorWrite value => Sys2Proof.Machine.execDspFloorWrite value s
  | .dspCoreEnWrite core by' en => Sys2Proof.Machine.execDspCoreEnWrite core by' en s
  | .scrubStep addr ecc => Sys2Proof.Machine.execScrubStep addr ecc s
  | .srmThermosWrite value => Sys2Proof.Machine.execSrmThermosWrite value s
  | .groupWakeDone group => Sys2Proof.Machine.execGroupWakeDone group s
  | .groupZeroingDone group => Sys2Proof.Machine.execGroupZeroingDone group s
  | .groupIdleReturn group => Sys2Proof.Machine.execGroupIdleReturn group s
  | .hamperWipeRequest machine => Sys2Proof.Machine.execHamperWipeRequest machine s
  | .hamperWipeDone => Sys2Proof.Machine.execHamperWipeDone s
  | .dramRefreshDue channel rank bg ba => Sys2Proof.Machine.execDramRefreshDue channel rank bg ba s
  | .mr4Poll channel rate high trip => Sys2Proof.Machine.execMr4Poll channel rate high trip s
  | .dramPowerDownEntry channel => Sys2Proof.Machine.execDramPowerDownEntry channel s
  | .dramSelfRefreshEntry channel => Sys2Proof.Machine.execDramSelfRefreshEntry channel s
  | .dramReadReturn channel ns near ecc => Sys2Proof.Machine.execDramReadReturn channel ns near ecc s
  | .dramPeriodicUpdate channel zq => Sys2Proof.Machine.execDramPeriodicUpdate channel zq s
  | .dramTrain steps ch => Sys2Proof.Machine.execDramTrain steps ch s
  | .dramTrainSave ch => Sys2Proof.Machine.execDramTrainSave ch s
  | .dramTrainRestore ch => Sys2Proof.Machine.execDramTrainRestore ch s
  | .dramTrainDone fails => Sys2Proof.Machine.execDramTrainDone fails s
  | .drmErrLoRead => Sys2Proof.Machine.execDrmErrLoRead s
  | .rand => Sys2Proof.Machine.execRand s
  | .genKey => Sys2Proof.Machine.execGenKey s
  | .derive => Sys2Proof.Machine.execDerive s
  | .importKey => Sys2Proof.Machine.execImportKey s
  | .wrap => Sys2Proof.Machine.execWrap s
  | .loadKey => Sys2Proof.Machine.execLoadKey s
  | .clearEntry => Sys2Proof.Machine.execClearEntry s
  | .slotLoad => Sys2Proof.Machine.execSlotLoad s
  | .slotReady => Sys2Proof.Machine.execSlotReady s
  | .slotClear => Sys2Proof.Machine.execSlotClear s
  | .ctxSetup => Sys2Proof.Machine.execCtxSetup s
  | .ctxSave => Sys2Proof.Machine.execCtxSave s
  | .ctxRestore => Sys2Proof.Machine.execCtxRestore s
  | .forerunner => Sys2Proof.Machine.execForerunner s
  | .otpProg => Sys2Proof.Machine.execOtpProg s
  | .lcAdvance => Sys2Proof.Machine.execLcAdvance s
  | .ctxClear => Sys2Proof.Machine.execCtxClear s
  | .secCmdComplete fact => Sys2Proof.Machine.execSecCmdComplete fact s
  | .secJobPosted sw => Sys2Proof.Machine.execSecJobPosted sw s
  | .secJobDone mismatch => Sys2Proof.Machine.execSecJobDone mismatch s
  | .tamperTrip source => Sys2Proof.Machine.execTamperTrip source s
  | .tamperLatchClear mask => Sys2Proof.Machine.execTamperLatchClear mask s
  | .selftestDone ok => Sys2Proof.Machine.execSelftestDone ok s
  | .dbgReadNonce => Sys2Proof.Machine.execDbgReadNonce s
  | .dbgUnlock level token => Sys2Proof.Machine.execDbgUnlock level token s
  | .dbgLower level => Sys2Proof.Machine.execDbgLower level s
  | .dbgLifeCycle token => Sys2Proof.Machine.execDbgLifeCycle token s
  | .tokenCheckDone mismatch => Sys2Proof.Machine.execTokenCheckDone mismatch s
  | .plReqWrite value => Sys2Proof.Machine.execPlReqWrite value s
  | .pmbusTxnDone dom ack => Sys2Proof.Machine.execPmbusTxnDone dom ack s
  | .vsettleDone dom => Sys2Proof.Machine.execVsettleDone dom s
  | .sleepIdle machine => Sys2Proof.Machine.execSleepIdle machine s
  | .sleepDoze machine => Sys2Proof.Machine.execSleepDoze machine s
  | .sleepNap machine xoOff => Sys2Proof.Machine.execSleepNap machine xoOff s
  | .sleepHibernate machine => Sys2Proof.Machine.execSleepHibernate machine s
  | .sleepOff machine => Sys2Proof.Machine.execSleepOff machine s
  | .sleepEntryDone => Sys2Proof.Machine.execSleepEntryDone s
  | .wakeDetected => Sys2Proof.Machine.execWakeDetected s
  | .returnToRun tau => Sys2Proof.Machine.execReturnToRun tau s
  | .wakePin pin => Sys2Proof.Machine.execWakePin pin s
  | .hostWakeWrite => Sys2Proof.Machine.execHostWakeWrite s
  | .classStrobe code => Sys2Proof.Machine.execClassStrobe code s
  | .undervoltage low => Sys2Proof.Machine.execUndervoltage low s
  | .thermalShutdown => Sys2Proof.Machine.execThermalShutdown s
  | .modeSelect mode => Sys2Proof.Machine.execModeSelect mode s
  | .domainSwitchWrite value => Sys2Proof.Machine.execDomainSwitchWrite value s
  | .domainPowerUpDone dom => Sys2Proof.Machine.execDomainPowerUpDone dom s
  | .rtcSet => Sys2Proof.Machine.execRtcSet s
  | .rtcAdd => Sys2Proof.Machine.execRtcAdd s
  | .rtcCmdApply => Sys2Proof.Machine.execRtcCmdApply s
  | .rtcCancel => Sys2Proof.Machine.execRtcCancel s
  | .rtcCntLoRead => Sys2Proof.Machine.execRtcCntLoRead s
  | .oscStopDetect => Sys2Proof.Machine.execOscStopDetect s
  | .oscStopClear => Sys2Proof.Machine.execOscStopClear s
  | .alarmFire alarm => Sys2Proof.Machine.execAlarmFire alarm s
  | .alarmArm alarm word value => Sys2Proof.Machine.execAlarmArm alarm word value s
  | .vbatSwitch => Sys2Proof.Machine.execVbatSwitch s
  | .vaonReturn => Sys2Proof.Machine.execVaonReturn s
  | .aonLockoutBegin => Sys2Proof.Machine.execAonLockoutBegin s
  | .aonLockoutEnd => Sys2Proof.Machine.execAonLockoutEnd s
  | .vbatMeasure low => Sys2Proof.Machine.execVbatMeasure low s
  | .trimWindowEnd dc dd => Sys2Proof.Machine.execTrimWindowEnd dc dd s
  | .ageUpdate temps drifts => Sys2Proof.Machine.execAgeUpdate temps drifts s
  | .helloSend => Sys2Proof.Machine.execHelloSend s
  | .heartbeatSend => Sys2Proof.Machine.execHeartbeatSend s
  | .helloReceived lane atNs octets => Sys2Proof.Machine.execHelloReceived lane atNs octets s
  | .heartbeatReceived lane atNs octets => Sys2Proof.Machine.execHeartbeatReceived lane atNs octets s
  | .staFrameReceived lane atNs octets => Sys2Proof.Machine.execStaFrameReceived lane atNs octets s
  | .keyFrameReceived lane atNs octets => Sys2Proof.Machine.execKeyFrameReceived lane atNs octets s
  | .markFrameReceived lane atNs octets => Sys2Proof.Machine.execMarkFrameReceived lane atNs octets s
  | .userFrameReceived lane atNs octets => Sys2Proof.Machine.execUserFrameReceived lane atNs octets s
  | .twinKeyRequest => Sys2Proof.Machine.execTwinKeyRequest s
  | .twinUserRequest => Sys2Proof.Machine.execTwinUserRequest s
  | .retxTimeout => Sys2Proof.Machine.execRetxTimeout s
  | .soloWaitExpiry => Sys2Proof.Machine.execSoloWaitExpiry s
  | .kickTimeout => Sys2Proof.Machine.execKickTimeout s
  | .kick => Sys2Proof.Machine.execKick s
  | .handover => Sys2Proof.Machine.execHandover s
  | .resync => Sys2Proof.Machine.execResync s
  | .fenceInChange low => Sys2Proof.Machine.execFenceInChange low s
  | .twnLaneChange lane up => Sys2Proof.Machine.execTwnLaneChange lane up s
  | .aonPowerOn => Sys2Proof.Machine.execAonPowerOn s
  | .railEnableStep => Sys2Proof.Machine.execRailEnableStep s
  | .deviceReset => Sys2Proof.Machine.execDeviceReset s
  | .sysRstRelease pcieEp xspi1s testmode cls tau => Sys2Proof.Machine.execSysRstRelease pcieEp xspi1s testmode cls tau s
  | .bootImageAccepted flash => Sys2Proof.Machine.execBootImageAccepted flash s
  | .recoveryDoorbell value => Sys2Proof.Machine.execRecoveryDoorbell value s
  | .parkedHartMsip hart => Sys2Proof.Machine.execParkedHartMsip hart s
  | .msipWrite hart value => Sys2Proof.Machine.execMsipWrite hart value s
  | .rcalCmd x ref => Sys2Proof.Machine.execRcalCmd x ref s
  | .rcalDone x snrs loops => Sys2Proof.Machine.execRcalDone x snrs loops s
  | .perstRelease => Sys2Proof.Machine.execPerstRelease s
  | .pcieL1Change kind => Sys2Proof.Machine.execPcieL1Change kind s
  | .pcieErrorMessage => Sys2Proof.Machine.execPcieErrorMessage s
  | .debugModuleAccess req => Sys2Proof.Machine.execDebugModuleAccess req s
  | .boundaryScanInstruction inst => Sys2Proof.Machine.execBoundaryScanInstruction inst s
  | .hartInterruptEntry core => Sys2Proof.Machine.execHartInterruptEntry core s
  | .serdesLaneStatusChange lane status => Sys2Proof.Machine.execSerdesLaneStatusChange lane status s
  | .crystalEdgesResume => Sys2Proof.Machine.execCrystalEdgesResume s
  | .tagTrainDataFrame => Sys2Proof.Machine.execTagTrainDataFrame s
  | .tagIdlePeriodEnd => Sys2Proof.Machine.execTagIdlePeriodEnd s
  | .tagAtReached => Sys2Proof.Machine.execTagAtReached s

end Sys2Proof.Machine
end

