-- ==== Sys2Proof/Safety.lean ====
section
/-! DEFINITION. What counts as a safe run, in the terms the statements use: a step that ends in a next state, what a command of the
device may change, and the invariants of the control cores and of memory. -/

namespace Sys2Proof.Machine

/-- Command `i` completes from every state whose device is `d`: exec answers a next state in which the device is `e` and the beat
sequencer, the control cores and the queue are as they were. -/
def Gives (i : Instr) (d e : Dev) : Prop := ∀ s : State, s.dev = d → exec i s = .next { s with dev := e }

/-- A step that ends in a next state, with no fault and no refusal. -/
def State.stepsSafely (s : State) : Prop := ∃ t, step s = .next t

/-! ### Claims -/

/-- `e` is `d` after a refused claim or release of the resource by `requester` (R70): both rejection registers hold it, the refusals are
counted, saturating, CLAIM_REFUSED is set, and a read of PIN_CLAIM_REJ_RES answers the one and shows the holder in the other. -/
def Dev.recordsRefusal (e d : Dev) (kind index requester : Nat) : Prop :=
  e.rd 0x000 PIN_CLAIM_REJ_RES.INDEX = index ∧ e.rd 0x000 PIN_CLAIM_REJ_RES.KIND = kind
    ∧ e.rd 0x000 PIN_CLAIM_REJ_RES.REQUESTER = requester
    ∧ e.rd 0x000 PIN_CLAIM_REJ_CNT.COUNT = min (d.rd 0x000 PIN_CLAIM_REJ_CNT.COUNT + 1) 0xFFFFFFFF
    ∧ e.rdB 0x000 (INT_RAW.word.bitOf 8) = true
    ∧ ∃ f, Gives .pinClaimRejResRead e f ∧ f.lastData = (e.rdW 0x000 PIN_CLAIM_REJ_RES.word.off).toNat
        ∧ f.rd 0x000 PIN_CLAIM_REJ_OWN.OWNER = if kind = 0 ∧ ballExists index = false then 0 else d.owner kind index

/-! ### Stations -/

/-- The shared MAC page takes a station command for entry `s`: it answers, none is in progress, it is RUNNING and in service, the entry's
number is in range and its record can be read and written (R223). -/
def Dev.staTakes (d : Dev) (s : Nat) : Bool :=
  d.answers 0x033 && !d.rdB 0x033 MAC_STA_STAT.BUSY && decide (d.bstate 0x033 = .running) && d.inService 0x033 && decide (s < 2048)
    && (d.rdOk (d.staAddr s) 64 && d.wrOk (d.staAddr s) 64)

/-! ### Koveton cores -/

/-- Core `k` runs, stands at a legal bundle of opcode `o` that ECC lets it read, and does not wait (R405, R408, R409). -/
def Dev.kovReady (d : Dev) (k o : Nat) (ecc : EccFact) : Bool :=
  let e := d.kovEcc k ecc
  d.kovAt k o && decide (d.coreWait k = 0) && !kIllegal (e.core k) (e.coreRun k) (e.bundle k (e.corePc k))
    && (match ecc with | .uncorrectable _ => false | _ => true)

/-! ### The control cores -/

/-- A core is well-formed: 32 integer and 32 float registers, x0 reads as zero (R540), the privilege is machine, supervisor or user, and
so is the privilege that a return from machine mode restores. -/
def Hart.wf (h : Hart) : Prop :=
  h.x.length = 32 ∧ h.f.length = 32 ∧ nth 0 h.x 0 = 0 ∧ (h.priv = 0 ∨ h.priv = 1 ∨ h.priv = 3) ∧ bits h.mstatus 11 2 ≠ 2

/-- The cluster is well-formed: eight cores (R540), each well-formed. -/
def State.hartsWf (s : State) : Prop := s.harts.length = 8 ∧ ∀ h ∈ s.harts, h.wf

end Sys2Proof.Machine
end

