-- ==== Sys2Proof/Certificates/Slice0/Obligations.lean ====
section
/-! DEFINITION. The statements for the provers. `Gives i d e` (Safety.lean) says that exec of the command i answers a next state
from every state whose device is d, with e in its place and the beat sequencer, the cores and the queue as they were; so every
register, counter, buffer and byte of memory that e does not name reads as before. -/

open Sys2Proof Sys2Proof.Machine

/-- A step runs the command at the front of the queue: step of a state with command c at the front of its queue is exec of c on
the state with the queue's rest. -/
def Obligations.StepRunsFront : Prop :=
  ∀ (s : State) (c : Instr) (r : List Instr), step { s with pending := c :: r } = exec c { s with pending := r }

/-- With no command waiting a step is one cycle of TCLK (the model's choice, log entry 31): On an empty queue, step answers the
next state of State.tick, which leaves the cores, the beat sequencer and the queue alone. That the clock advances with an
empty queue is the model's choice, log entry 31. -/
def Obligations.IdleStepIsOneTclkCycle : Prop :=
  ∀ s : State, s.pending = [] →
    step s = .next s.tick ∧ s.tick.pending = [] ∧ s.tick.harts = s.harts ∧ s.tick.seq = s.seq

/-- The commands of the beat sequencer complete: Each of the named commands answers a next state: a boundary with BEAT_EN set
and the device not dark is issued with the next index, and the sequencer records it; a set of BEAT_EN with BEAT_EN clear
sets it and waits for the next multiple of 250 µs; a clear with every beat-driven radio page STOPPED clears it; a read of
PTP_BEAT_LO answers the low word of the index and captures the high word and the position; a missed allowance stage gives
every radio its floor for beat m+2 and counts it; a read of AIR_LAST0 captures the other two words. The register accesses
are of pages that answer. -/
def Obligations.BeatCommandsComplete : Prop :=
  (∀ (s : State) (fact : BeatFact), s.dev.rdB 0x008 PTP_BEAT_CTL.BEAT_EN = true → s.dev.dark = false → exec (.beatBoundary fact)
     s = .next
     { s with dev := (s.dev.reach (s.nextBoundary * beatU)).boundary s.nextBoundary fact, seq := { s.seq with last := some s.nextBoundary } })
  ∧ (∀ (s : State), s.dev.answers 0x008 = true → s.dev.rdB 0x008 PTP_BEAT_CTL.BEAT_EN = false → exec .beatEnSet s = .next
     { s with dev := (s.dev.wr 0x008 PTP_BEAT_CTL.BEAT_EN 1).complete .okay, seq := { s.seq with first := ceilDiv s.dev.now beatU } })
  ∧ (∀ (d : Dev) (value : Nat), d.answers 0x008 = true → (∀ p ∈ beatPages, d.bstate p = .stopped) → Gives (.beatEnClear value) d
     ((d.wr 0x008 PTP_BEAT_CTL.BEAT_EN 0).complete .okay))
  ∧ (∀ (d : Dev), d.answers 0x008 = true → Gives (.ptpBeatLoRead) d (((d.wr 0x008 PTP_BEAT_HI.BEAT_HI (d.beat / 2 ^ 32)).wr 0x008
     PTP_BEAT_STAGE.POS (d.beat % 16)).complete .okay (d.beat % 2 ^ 32)))
  ∧ (∀ (d : Dev), d.rdB 0x008 PTP_BEAT_CTL.BEAT_EN = true → d.rdB 0x008 PTP_BEAT_STAGE.ALLOW_ISSUED = false → Gives
     (.allowanceMissed) d ((((d.each 3 fun x e =>
     { e with gov := { e.gov with allow := put e.gov.allow (4 * (d.beat + 2) + x) (e.floorFor x (d.beat + 2)) } }).wr 0x008
     PTP_BEAT_LATE.ALLOW_LATE 1).ev 0x008 8).cnt pwrPage PWR_CNT_ALLOW_LATE.COUNT))
  ∧ (∀ (d : Dev) (x : Nat), x < 3 → d.answers (airPage x) = true → Gives (.airLast0Read x) d (((d.wrW (airPage x)
     AIR_LAST1.word.off (BitVec.ofNat 32 (lookOr (0, 0, 0) d.air.last x).2.1)).wrW (airPage x) AIR_LAST2.word.off (BitVec.ofNat 32
     (lookOr (0, 0, 0) d.air.last x).2.2)).complete .okay ((lookOr (0, 0, 0) d.air.last x).1 % 2 ^ 32)))

/-- The stages of a plan complete: A queue snapshot by a shared page in service ages the queues, snapshots every radio and notes
the nulls given; a freeze that leaves the buffer frozen posts the plan's precoder jobs; a missed freeze deadline frees the
buffer, counts PLANLATE, sets PLAN_LATE and its interrupts and delays the eligible queues. -/
def Obligations.PlanCommandsComplete : Prop :=
  (∀ (d : Dev), d.inService 0x03B = true → Gives (.queueSnapshot) d ((((d.reach ((beatNs (d.beat + 3 - 2) - 30000) *
     nsU)).forAll d.queueIds fun q e => e.ageQueue q (d.beat + 3) d.planIds).each 3 fun x e => e.snapRadio x (d.beat + 3)
     (d.nullsFor x (d.beat + 3))).forAll ([0, 1, 2].filter fun x => decide ((d.buf x (d.beat + 3)).st = .free)) fun x f => if
     (f.buf x (d.beat + 3)).st = .building then f.noteNulls x (d.beat + 3) else f))
  ∧ (∀ (d : Dev) (x noLine : Nat) (draft : List PpduFact) (left : List (Nat × Nat)) (sn : Snap), x < 3 → look d.air.snap x = some
     sn → look (d.planFreeze x draft left noLine).air.snap x = none → ((d.planFreeze x draft left noLine).buf x sn.beat).st =
     .frozen → Gives (.planFreeze x draft left noLine) d ((d.planFreeze x draft left noLine).postJobs x sn draft))
  ∧ (∀ (d : Dev) (radio : Nat) (sn : Snap) (e : Dev), radio < 3 → look d.air.snap radio = some sn → (d.buf radio sn.beat).st =
     .building → d.beat + 2 = sn.beat → (e = ((((((d.reach ((beatNs (sn.beat - 2) + 4000) * nsU)).setBuf radio sn.beat
     { st := .free, plan := none }).cnt (airPage radio) AIR_CNT_PLANLATE.COUNT).ev (airPage radio) 8).wr 0x008
     (PTP_BEAT_LATE.PLAN_LATE.bitOf radio) 1).ev 0x008 8).forAll sn.eligible fun q f => f.delayFirst q 0x15 []) → Gives
     (.planFreezeMissed radio) d ({ e with air := { e.air with snap := del e.air.snap radio } }))

/-- Start, Drain, Stop and Abort act on a page as R51's table says: For a page with a RUN register that can be reached and
discards no work: a Start of a STOPPED page makes it STARTING, a quad page after the checks of its Start; a Drain of a
RUNNING page makes it DRAINING, one of a STARTING page STOPPED; a Stop of a RUNNING or DRAINING page makes it discard its
work on the way to STOPPED, one of a STARTING page STOPPED; an Abort of a page in FAULT makes it STOPPED; each write is kept
in RUN and completes OKAY. The checks of a STARTING page that pass make it RUNNING; a DRAINING page whose work has ended
becomes STOPPED; a RUNNING page that detects a fault keeps its record and leaves; a page that has discarded its work on the
way to FAULT is in FAULT and its dependents fault. -/
def Obligations.RunControlCommandsComplete : Prop :=
  (∀ (d : Dev) (page : Nat), d.runs page = true → (d.runBits page 1).discarding page = false → (d.runBits page 1).bstate page =
     .stopped → page < 0x010 ∨ 0x015 < page → Gives (.start page) d (((((d.runBits page 1).setState page .starting).bbFollow
     page).settle).complete .okay))
  ∧ (∀ (d : Dev) (page : Nat), d.runs page = true → (d.runBits page 1).discarding page = false → (d.runBits page 1).bstate page =
     .stopped → 0x010 ≤ page → page ≤ 0x015 → (((d.runBits page 1).setState page .starting).bbFollow page).quadStartCheck (page -
     0x010) = none → Gives (.start page) d ((((((d.runBits page 1).setState page .starting).bbFollow page).quadOnStart (page -
     0x010)).settle).complete .okay))
  ∧ (∀ (d : Dev) (page : Nat), d.runs page = true → (d.runBits page 2).discarding page = false → (d.runBits page 2).bstate page =
     .starting → Gives (.drain page) d (((((d.runBits page 2).leave page).toStopped page).settle).complete .okay))
  ∧ (∀ (d : Dev) (page : Nat), d.runs page = true → (d.runBits page 2).discarding page = false → (d.runBits page 2).bstate page =
     .running → Gives (.drain page) d (((((d.runBits page 2).onDrain page).setState page .draining).settle).complete .okay))
  ∧ (∀ (d : Dev) (page : Nat), d.runs page = true → (d.runBits page 0).discarding page = false → (d.runBits page 0).bstate page =
     .running ∨ (d.runBits page 0).bstate page = .draining → Gives (.stop page) d
     (((({ d.runBits page 0 with disc := put (d.runBits page 0).disc page false } : Dev).leave page).settle).complete .okay))
  ∧ (∀ (d : Dev) (page : Nat), d.runs page = true → (d.runBits page 0).discarding page = false → (d.runBits page 0).bstate page =
     .starting → Gives (.stop page) d (((((d.runBits page 0).leave page).toStopped page).settle).complete .okay))
  ∧ (∀ (d : Dev) (page : Nat), d.runs page = true → (d.runBits page 4).bstate page = .fault → Gives (.abort page) d ((((d.runBits
     page 4).toStopped page).settle).complete .okay))
  ∧ (∀ (d : Dev) (page : Nat), d.runs page = true → d.bstate page = .starting → d.startFault page = none → page < 0x010 ∨ 0x015 <
     page → (d.onStart page).bstate page = .starting → Gives (.startChecksPassed page) d ((((d.onStart page).toRunning
     page).bbFollow page).settle))
  ∧ (∀ (d : Dev) (page : Nat), d.runs page = true → d.bstate page = .draining → d.discarding page = false → d.drained page = true
     → page ≠ 0x033 → Gives (.drainComplete page) d (((d.leave page).toStopped page).settle))
  ∧ (∀ (d : Dev) (page : Nat) (fault : FaultRec), d.runs page = true → d.bstate page = .running → ((d.enterFault page fault).leave
     page).bstate page = .running → Gives (.faultDetected page fault) d (((d.enterFault page fault).leave page).settle))
  ∧ (∀ (d : Dev) (page : Nat), look d.disc page = some true → Gives (.discardComplete page) d
     (((((({ d.leave page with disc := del (d.leave page).disc page } : Dev).setState page .fault).ev page 0).cascade
     page).settle)))

/-- Block resets and power domains: A write of PWR_BLK_RST_g holds the pages whose bits it sets in reset, releases the others
and completes OKAY; a write of PWR_DOM acts on each domain: a bit as it stands does nothing, a bit set begins the domain's
power-up, a bit cleared switches the domain off where all its pages are STOPPED, and otherwise leaves it on, shows the page
that holds it and sets event 9; when the supply of a domain is up, its status bit is set and its pages are no longer
UNPOWERED. -/
def Obligations.ResetAndDomainCommandsComplete : Prop :=
  (∀ (d : Dev) (group value v : Nat), d.answers 0x001 = true → group < 8 → v = (if group = 0 then value / 32 * 32 else value) →
     Gives (.blockReset group value) d (((((d.wrW pwrPage (PWR_BLK_RST.RST.at group).off (BitVec.ofNat 32 v)).each 32 fun b e =>
     e.holdReset (32 * group + b) (bit v b))).settle).complete .okay))
  ∧ (∀ (d : Dev) (value : Nat), d.answers 0x001 = true → Gives (.domainSwitchWrite value) d ((((d.domSwitch 0 value).domSwitch 1
     value).domSwitch 2 value).complete .okay))
  ∧ (∀ (d : Dev) (k value : Nat), bit value k = d.rdB pwrPage (PWR_DOM.KOV.bitOf k) → d.domSwitch k value = d)
  ∧ (∀ (d : Dev) (k value : Nat), bit value k = true → d.rdB pwrPage (PWR_DOM.KOV.bitOf k) = false → d.domSwitch k value =
     { d.wr pwrPage (PWR_DOM.KOV.bitOf k) 1 with gov := { d.gov with domUp := d.gov.domUp ++ [k] } })
  ∧ (∀ (d : Dev) (k value : Nat), bit value k = false → d.rdB pwrPage (PWR_DOM.KOV.bitOf k) = true → (∀ p ∈ domPages k, d.bstate p
     = .stopped) → d.domSwitch k value = d.domOff k)
  ∧ (∀ (d : Dev) (k value p : Nat), bit value k = false → d.rdB pwrPage (PWR_DOM.KOV.bitOf k) = true → (((domPages k).find? fun p
     => decide (d.bstate p ≠ .stopped)) = some p) → d.domSwitch k value = (d.wr pwrPage PWR_STATE.BLOCKER p).ev pwrPage 9)
  ∧ (∀ (d : Dev) (dom : Nat) (e : Dev), d.gov.domUp.contains dom = true → e = d.wr pwrPage (PWR_DOM_STAT.KOV.bitOf dom) 1 → Gives
     (.domainPowerUpDone dom) d (({ e with gov := { e.gov with domUp := e.gov.domUp.filter (· ≠ dom) } } : Dev).forAll (domPages
     dom) fun p f => f.wr p STATE.UNPOWERED 0))

/-- Claims and releases of balls, timers, capture buffers and the PMBus master: A claim of a resource that is free or the
claimer's own gives it to the claimer, a ball with its function select; a release by its owner frees it; a forced release by
a machine-mode write frees it whoever owns it and counts, and ends the level changes where it was the PMBus master; each
completes OKAY. A forced release outside machine mode is denied; one of a ball index that names no ball is refused, which is
the model's choice (log entry 322). A read of PIN_CLAIM_REJ_RES answers it and captures the owner beside it. -/
def Obligations.ClaimCommandsComplete : Prop :=
  (∀ (d : Dev) (kind index owner func : Nat), d.answers 0x000 = true → resourceExists kind index = true → d.claimable kind index
     (owner % 0x10000) (func % 64) = true → Gives (.ownerClaim kind index owner func) d ((d.giveTo kind index (owner % 0x10000)
     (func % 64)).complete .okay))
  ∧ (∀ (d : Dev) (kind index owner : Nat), d.answers 0x000 = true → resourceExists kind index = true → kind ≠ 0 ∨ ballExists index
     = true → d.owner kind index = owner % 0x10000 → Gives (.ownerRelease kind index owner) d ((d.giveTo kind index 0 0).complete
     .okay))
  ∧ (∀ (d : Dev) (index : Nat), d.answers 0x000 = true → resourceExists 0 index = true → ballExists index = false → Gives
     (.forcedRelease 0 index true) d ((d.refuseClaim 0 index 0).complete .okay))
  ∧ (∀ (d : Dev) (kind index : Nat), d.answers 0x000 = true → Gives (.forcedRelease kind index false) d (d.complete .denied))
  ∧ (∀ (d : Dev) (kind index : Nat), d.answers 0x000 = true → resourceExists kind index = true → kind ≠ 0 ∨ ballExists index =
     true → Gives (.forcedRelease kind index true) d (((((d.giveTo kind index 0 0).cnt 0x000 PIN_CLAIM_FORCED.COUNT).when (decide
     (kind = 3)) (·.levelsFail)).complete .okay)))
  ∧ (∀ (d : Dev), d.answers 0x000 = true → Gives (.pinClaimRejResRead) d ((d.wr 0x000 PIN_CLAIM_REJ_OWN.OWNER d.rejOwn).complete
     .okay (d.rdW 0x000 PIN_CLAIM_REJ_RES.word.off).toNat))

/-- Requests on the data and register networks: A request to shared SRAM inside one region, in a group that is ON, by an
initiator the rules do not refuse and that has no access held, is served at once, after ECC has looked at the words it
reads; a register write to a STOPPED page that is not locked writes the bits its access types let it write, in the common
header as in the registers of the page that have no behaviour of their own, and completes OKAY; a request from PCI Express
that a window takes and that is not held is answered with its completion. A supervisor software interrupt written 1 sets
SSIP of that hart, and MSIP is set or cleared. -/
def Obligations.FabricCommandsComplete : Prop :=
  (∀ (s : State) (who : Initiator) (machine : Bool) (fact : AccessFact) (acc : Access) (e : Dev), acc = fact.acc → acc.size ≠ 0
     → regionOf acc.addr = .sram → regionOf (acc.addr + acc.size - 1) = .sram → s.dev.denies (s.reqOf who machine) acc = false →
     s.dev.group (s.dev.groupOf acc.addr) = 0 → e = s.dev.eccFound acc fact.ecc → e.dark = false → e.denies (s.reqOf who machine)
     acc = false → e.inReset srmPage = false → (∀ h ∈ e.ms.held, h.who ≠ (s.reqOf who machine).who) → e.group (e.groupOf acc.addr)
     = 0 → exec (.fabricRequest who machine fact) s = .next { s with dev := e.srmDone acc })
  ∧ (∀ (s : State) (page off value v eff new : Nat) (r : RegRow), off % 4 = 0 → off < 0x80 → page < 0x100 → s.dev.dark = false →
     hasHeader page = true → s.dev.shut page = false → off ≠ 0x08 → off ≠ 0x1C → findRow page off = some r → s.dev.bstate page =
     .stopped → s.dev.pageLocked page = false → v = value % 2 ^ 32 → eff = (r.rw ||| r.wo ||| r.cfg ||| r.lck) &&& 0xFFFFFFFF →
     new = (((((s.dev.rdW page off).toNat &&& (eff ^^^ 0xFFFFFFFF)) ||| (v &&& eff)) &&& ((v &&& r.w1c) ^^^ 0xFFFFFFFF)) ||| (v
     &&& r.w1s)) → exec (.registerWrite page off value) s = .next
     { s with dev := (s.dev.wrW page off (BitVec.ofNat 32 new)).complete .okay })
  ∧ (∀ (s : State) (page off value v eff new : Nat) (k : PageKind) (r : RegRow), off % 4 = 0 → 0x80 ≤ off → off < 0x10000 → page <
     4096 → page < 0x100 ∨ 0x120 < page → page ≠ 0x128 → s.dev.dark = false → pageKind page = some k → s.dev.shut page = false →
     (goOffsets k).contains off = false → (k = .twn → off ≠ 0x90) → (k = .pkp → off ≠ 0x80) → v = value % 2 ^ 32 → s.regOwn
     { who := .hart 0, priv := 3, debug := false } page off v = none → (s.on (·.regPut page off v)).regCommand
     { who := .hart 0, priv := 3, debug := false } page off v = none → findRow page off = some r → s.dev.bstate page = .stopped →
     s.dev.pageLocked page = false → eff = (r.rw ||| r.wo ||| r.cfg ||| r.lck) &&& 0xFFFFFFFF → new = (((((s.dev.rdW page
     off).toNat &&& (eff ^^^ 0xFFFFFFFF)) ||| (v &&& eff)) &&& ((v &&& r.w1c) ^^^ 0xFFFFFFFF)) ||| (v &&& r.w1s)) → exec
     (.registerWrite page off value) s = .next { s with dev := (s.dev.wrW page off (BitVec.ofNat 32 new)).complete .okay })
  ∧ (∀ (s : State) (addr size f : Nat) (write : Option Nat), s.dev.linkUp = true → s.dev.pcie.perst = false → s.dev.endpoint =
     true → s.dev.inWindow addr = some f → s.dev.ms.held.length = (s.access { who := .pcieHost, priv := 0, debug := false }
     { addr := f, size := size, write := write }).dev.ms.held.length → s.dev.ms.dq.length = (s.access
     { who := .pcieHost, priv := 0, debug := false } { addr := f, size := size, write := write }).dev.ms.dq.length →
     s.dev.pcie.reads.length = (s.access { who := .pcieHost, priv := 0, debug := false }
     { addr := f, size := size, write := write }).dev.pcie.reads.length → exec (.pcieInboundRequest addr size write) s = .next
     ((s.access { who := .pcieHost, priv := 0, debug := false } { addr := f, size := size, write := write }).on fun e => e.inReply
     e.lastCode e.lastData write.isSome))
  ∧ (∀ (s : State) (hart value : Nat), hart < 8 → bit value 0 = true → exec (.setssipWrite hart value) s = .next ((s.setSsip
     hart).on (·.complete .okay)))
  ∧ (∀ (d : Dev) (hart value : Nat), hart < 8 → Gives (.msipWrite hart value) d ((d.setMsip hart (bit value 0)).complete .okay))

/-- Synthesisers of the chain pool: A hop the checks accept ends a hop in progress as superseded, counts and tunes the
synthesiser; a hop to centre 0 in service turns it OFF with status 0xA and counts as a hop; lock after SETTLING begins the
calibration 30 µs (60 µs where the tune began in OFF or before the first LOCKED) after the tune; lock in RELOCKING after a
loss in LOCKED makes it LOCKED again; the end of calibration makes it LOCKED with its status, masks the chains that failed
and releases held commands; a loss of lock in CALIBRATING or LOCKED cuts the PPDU (ABORT_UNLOCK), holds what waits, abandons
receptions, enters RELOCKING, counts and sets UNLOCK; without lock at its timeout it goes OFF with LOCK_FAILED. The register
accesses are of a page that answers, and SYN_M does not serve a calibration. -/
def Obligations.PoolCommandsComplete : Prop :=
  (∀ (d : Dev) (x centre width : Nat), d.answers 0x016 = true → x < 4 → (x = 3 → d.pool.cal = none) → centre ≠ 0 → d.hopCheck x
     centre width = none → Gives (.hopCommand x centre width) d (((((d.hopAccept x centre width).hopTune x centre
     width).settle).complete .okay)))
  ∧ (∀ (d : Dev) (x : Nat), d.answers 0x016 = true → x < 4 → (x = 3 → d.pool.cal = none) → d.inService synPage = true → Gives
     (.synOffHop x) d (((((((d.hopAccept x 0 (d.rd synPage (CHP_SYN_CHAN.WIDTH.at x))).hopDisturb x).synOff x 0xA).ev synPage
     8).settle).complete .okay)))
  ∧ (∀ (d : Dev) (x : Nat), d.synState x = 1 → Gives (.lockDetected x) d ((d.reach ((d.synRec x).entered + (if (d.synRec x).slow
     then 60 else 30) * usU)).calBegin x))
  ∧ (∀ (d : Dev) (x : Nat), d.synState x = 4 → (d.synRec x).fromCal = false → Gives (.lockDetected x) d (((d.synEnter x 3).takeLo
     x).releaseHeld x))
  ∧ (∀ (d : Dev) (x : Nat), d.synState x = 4 → (d.synRec x).fromCal = true → (x = 3 → d.pool.cal = none) → d.inService calPage =
     true → Gives (.lockDetected x) d (d.calEnter x (d.synRec x).need))
  ∧ (∀ (d : Dev) (x at' st : Nat) (failed bad : List Nat) (e f g : Dev), d.synState x = 2 → (x = 3 → d.pool.cal = none) → (bad =
     (failed ++ (d.synRec x).failed).filter fun c => (d.synRec x).need.contains c) → at' = (if (d.synRec x).need.isEmpty then 18
     else 902) → st = (if bad.isEmpty then (if (d.synRec x).need.isEmpty then 0 else 1) else 9) → (e = (d.reach ((d.synRec
     x).entered + at' * usU)).forAll bad (fun c e => e.when (decide (c < 24)) (·.maskChain c))) → (f = (if x = 3 then e else
     e.forAll (e.runningQuads x) fun q h => (h.wr (quadPage q) CHP_QUAD_STAT.CAL_VALID 15).wr (quadPage q) CHP_QUAD_STAT.CAL_BUSY
     0)) → g = ((f.synEnter x 3).lastHop x st).takeLo x → Gives (.synCalibrationDone x failed) d ((((g.setSyn x
     { g.synRec x with wasLocked := true, need := [], failed := [] }).ev synPage 8).emit (.hopEnded x st)).releaseHeld x))
  ∧ (∀ (d : Dev) (x : Nat) (e g : Dev), x < 4 → d.synState x = 2 ∨ d.synState x = 3 → e = ((d.cutTx x 7).holdTx x).rxAbandon x 10
     → g = (e.loseLo x).synEnter x 4 → Gives (.lockLost x) d ((((g.setSyn x
     { g.synRec x with fromCal := decide (d.synState x = 2) }).cnt synPage CHP_UNLOCK_CNT.COUNT).ev synPage 10).settle))
  ∧ (∀ (d : Dev) (x : Nat), x < 4 → d.synState x = 1 → Gives (.settlingTimeout x) d ((((d.reach ((d.synRec x).entered + 150 *
     usU)).synOff x 8).ev synPage 12).settle))
  ∧ (∀ (d : Dev) (x : Nat), x < 4 → d.synState x = 4 → Gives (.relockTimeout x) d ((((d.reach ((d.synRec x).entered + 100 *
     usU)).synOff x 8).ev synPage 12).settle))

/-- Transmit commands of the chain pool and the transmit path: A readied request that no condition of the channel refuses is
taken by the chain pool, armed on a LOCKED synthesiser and held otherwise; the held command whose drop point comes first
ends NO_LOCK (status 2); an armed command on a LOCKED synthesiser ends at its sequence start with the status of the first
condition that refuses it there, and otherwise sends: the front end is switched, the first sample goes out and the reception
of its radio and of non-STR partners is abandoned; the last sample of a PPDU ends it with wear and completion; a detector
over its limit cuts the chain for the PPDU, counts, sets the event and masks the chain at the third event of a round (log
entry 330); a response past its latest start is not sent (status 0xB); a reference calibration is started on a stopped MAC,
and ends with the coefficients of the chains that reached 25 dB and its result. -/
def Obligations.TransmitCommandsComplete : Prop :=
  (∀ (d : Dev) (x mask : Nat) (q : TxReq) (use : List (Nat × Nat)) (lim : Int) (clamped : Bool) (e : Dev), x < 3 → look
     d.tx.ready x = some q → (q.isResponse = true → q.start ≤ q.latest) → d.takesTx x = true → e =
     { d with tx := { d.tx with ready := del d.tx.ready x } } → e.synState x ≠ 0 → use = e.usableOf x q.chains → (mask = (use.map
     fun u => 2 ^ u.1).foldl (· + ·) 0) → lim = e.clampLimit x (use.map (·.2)) → e.txRefusal x use lim q.start q.dur = none →
     clamped = e.clamps use lim q.powers → Gives (.txCommand x) d (((e.noteClamp clamped).placeTx x
     { kind := if q.isResponse then .response else .planned q.index, beat := d.beat, chains := mask, asked := q.powers, powers := e.ballPowers use lim q.powers, start := q.start, latest := q.latest, dur := q.sent, planned := q.dur, phase := if e.synState x = 3 then .armed else .held, wasHeld := false, first := 0, clamped := clamped, scale := q.scale, chainLost := decide (mask ≠ q.chains), paOver := 0, underrun := q.short, ru := q.ru, ndp := q.ndp, ndpa := q.ndpa }).settle))
  ∧ (∀ (d : Dev) (x : Nat) (c f : TxCmd) (l : List TxCmd) (e : Dev), (((d.txOf x).toList ++ d.txWaitOf x).filter (fun c => decide
     (c.phase = .held)) = c :: l) → (f = l.foldl (fun a b => if b.latest < a.latest then b else a) c) → d.locksBy x ((f.latest -
     d.leadNs x) * nsU) = false → e = d.reach ((f.latest - d.leadNs x) * nsU) → e.txOf x = some f → Gives (.txDropPoint x) d
     ((e.endTx x f 2).settle))
  ∧ (∀ (d : Dev) (x : Nat) (c f : TxCmd) (l : List TxCmd) (e : Dev), (((d.txOf x).toList ++ d.txWaitOf x).filter (fun c => decide
     (c.phase = .held)) = c :: l) → (f = l.foldl (fun a b => if b.latest < a.latest then b else a) c) → d.locksBy x ((f.latest -
     d.leadNs x) * nsU) = false → e = d.reach ((f.latest - d.leadNs x) * nsU) → e.txOf x ≠ some f → Gives (.txDropPoint x) d
     (((e.setTxWait x ((e.txWaitOf x).erase f)).completeTx x f 2).settle))
  ∧ (∀ (d : Dev) (x st : Nat) (q : TxCmd) (use : List (Nat × Nat)) (lim : Int) (e : Dev), d.txOf x = some q → q.phase = .armed →
     d.locked x = true → e = d.reach (q.start * nsU) → use = e.usableOf x q.chains → lim = e.clampLimit x (use.map (·.2)) →
     e.txRefusal x use lim q.start q.planned = some st → Gives (.txSequenceStart x) d (((e.endTx x q st).dutyHold st).settle))
  ∧ (∀ (d : Dev) (x m : Nat) (q : TxCmd) (use : List (Nat × Nat)) (lim : Int) (clamped : Bool) (e : Dev), d.txOf x = some q →
     q.phase = .armed → d.locked x = true → e = d.reach (q.start * nsU) → use = e.usableOf x q.chains → lim = e.clampLimit x
     (use.map (·.2)) → e.txRefusal x use lim q.start q.planned = none → (m = (use.map fun u => 2 ^ u.1).foldl (· + ·) 0) → clamped
     = e.clamps use lim q.asked → Gives (.txSequenceStart x) d (((e.noteClamp (clamped && !q.clamped)).firstSample x
     { q with phase := .sending, first := q.start, chains := m, clamped := clamped || q.clamped, asked := q.asked.map (min lim), powers := e.ballPowers use lim q.asked, chainLost := q.chainLost || decide (m ≠ q.chains) }
     use).settle))
  ∧ (∀ (d : Dev) (x : Nat) (c : TxCmd) (use : List (Nat × Nat)) (e f g : Dev), (e = (d.rxAbandon x 5).forAll use fun u i =>
     i.leadEdges u.2 c.start) → f = (e.setTx x c).when c.wasHeld (·.cnt synPage CHP_TX_HELD_CNT.COUNT) → (g = f.emit (.firstSample
     x c.start (use.map fun u => (u.2, nth 0 c.powers u.1)))) → d.firstSample x c use = g.forAll ([0, 1, 2].filter fun y => decide
     (y ≠ x)) fun y i => i.when (i.pairNonStr x y) (·.rxAbandon y 7))
  ∧ (∀ (d : Dev) (x : Nat) (pdet : List PdetFact) (temps : List Int) (q : TxCmd), x < 3 → d.txOf x = some q → q.phase = .sending →
     Gives (.txPpduEnd x pdet temps) d (((d.ppduWear x q pdet temps).txPpduEnd x pdet).settle))
  ∧ (∀ (d : Dev) (chain x r n : Nat) (t : TxCmd) (e f : Dev), d.radioOf chain = some (x, r) → d.txOf x = some t → t.phase =
     .sending → bit t.chains r = true → e = (((d.maskCut chain).cnt (quadPage (chain / 4)) (CHP_PA_OVER_CNT.CNT (chain % 4))).ev
     (quadPage (chain / 4)) 8) → n = (if (lookOr (0, 0) e.pool.overs chain).1 = e.round then (lookOr (0, 0) e.pool.overs chain).2
     + 1 else 1) → f = { e with pool := { e.pool with overs := put e.pool.overs chain (e.round, n) } } → Gives (.paOverPower
     chain) d (if n = 3 then (f.maskChain chain).ev (quadPage (chain / 4)) 9 else f))
  ∧ (∀ (d : Dev) (chain x r : Nat) (t : TxCmd), d.radioOf chain = some (x, r) → d.txOf x = some t → t.phase = .sending → bit
     t.chains r = true → d.maskCut chain = (d.cutChain chain true).setTx x
     { t with chains := t.chains - 2 ^ r, paOver := t.paOver ||| 2 ^ r })
  ∧ (∀ (d : Dev) (x : Nat) (q : TxReq), look d.tx.ready x = some q → q.isResponse = true → q.latest < q.start → Gives (.respLate
     x) d ((({ d.reach (q.latest * nsU) with tx := { d.tx with ready := del d.tx.ready x } } : Dev).giveDone
     { radio := x, kind := .response, beat := d.beat, status := 0xB, clamped := false, scale := 0, chainLost := false, paOver := 0, first := 0, ru := [] }).settle))
  ∧ (∀ (d : Dev) (x ref : Nat) (e f : Dev), x < 3 → d.answers (txPage x) = true → d.rdB (txPage x) TXP_RCAL_STAT.BUSY = false → e
     = d.wr (txPage x) TXP_RCAL_CMD.REF ref → e.bstate (0x030 + x) = .stopped → e.inService (txPage x) = true → f = (e.wr (txPage
     x) TXP_RCAL_CMD.GO 1).wr (txPage x) TXP_RCAL_STAT.BUSY 1 → Gives (.rcalCmd x ref) d
     ({ f with tx := { f.tx with rcal := put f.tx.rcal x (ref % 16) }, out := f.out ++ f.rcalSounds x (ref % 16) }))
  ∧ (∀ (d : Dev) (x ref : Nat) (snrs : List RcalSnr) (loops : List RcalLoop) (bad : List Nat) (e : Dev), look d.tx.rcal x = some
     ref → bad = d.rcalBad x ref snrs loops → (e = (d.forAll ((d.rcalOthers x ref).filter fun c => !bad.contains c) fun c f =>
     f.rcalChain x loops c).rcalRef x ref) → Gives (.rcalDone x snrs loops) d ((e.rcalPost x (if bad.isEmpty then 0 else 1)
     (bad.foldl (fun a c => a + 2 ^ c) 0)).ev (txPage x) 11))

/-- The calibration engine: A STARTING quad whose owner is not LOCKED 100 µs after its Start faults 0x40 then; a full
calibration of a STARTING quad stores an entry for each chain of the quad that has a fact, masks the chains that have
neither a fact nor a valid entry and validates the quad; one of a hop stores an entry for each chain it was for and
remembers the chains without a fact as failed; a GO in CHP_CAL_CMD in service, not busy, on a parked quad and a legal
channel keeps its fields, sets BUSY and starts the run on SYN_M, and completes OKAY; its end stores the entries of the
quad's chains that have a fact and ends the run with a result: STORE_ERROR where a store was refused (log entry 331), else
NOT_CONVERGED with the chains in FAILED, else 0. -/
def Obligations.CalibrationCommandsComplete : Prop :=
  (∀ (d : Dev) (quad t : Nat), look d.pool.quadFrom quad = some t → d.bstate (quadPage quad) = .starting → d.rd (quadPage quad)
     CHP_QUAD_OWNER.OWNER ≠ 0 → d.locked (d.rd (quadPage quad) CHP_QUAD_OWNER.OWNER - 1) = false → Gives (.quadLockTimeout quad) d
     (((d.reach (t + 100 * usU)).fault (quadPage quad) 0x40).quadOnLeave quad))
  ∧ (∀ (d : Dev) (x o : Nat) (facts mine : List CalFact) (e f : Dev), d.bstate (quadPage x) = .starting → d.rdB (quadPage x)
     CHP_QUAD_STAT.CAL_BUSY = true → o = d.rd (quadPage x) CHP_QUAD_OWNER.OWNER → o ≠ 0 → (mine = facts.filter fun f => decide
     (f.chain / 4 = x)) → e = d.calStoreAll mine (d.centre (o - 1)) (d.width (o - 1)) → (f = (List.range 4).foldl (fun g j => if
     mine.any (fun f => decide (f.chain = 4 * x + j)) then g else if bit (g.rd (quadPage x) CHP_QUAD_STAT.CAL_VALID) j then g else
     g.maskChain (4 * x + j)) e) → Gives (.fullCalDone true x facts) d ((f.wr (quadPage x) CHP_QUAD_STAT.CAL_VALID 15).wr
     (quadPage x) CHP_QUAD_STAT.CAL_BUSY 0))
  ∧ (∀ (d : Dev) (x : Nat) (facts mine : List CalFact) (e : Dev), d.synState x = 2 → (d.synRec x).need.isEmpty = false → (mine =
     facts.filter fun f => (d.synRec x).need.contains f.chain) → e = d.calStoreAll mine (d.centre x) (d.width x) → Gives
     (.fullCalDone false x facts) d (e.setSyn x
     { d.synRec x with failed := (d.synRec x).need.filter fun c => !(mine.any fun f => decide (f.chain = c)) }))
  ∧ (∀ (d : Dev) (centre width quad : Nat) (e : Dev), d.answers 0x017 = true → d.inService calPage = true → d.rdB calPage
     CHP_CAL_STAT.BUSY = false → e = (((d.wr calPage CHP_CAL_CMD.CENTRE centre).wr calPage CHP_CAL_CMD.WIDTH width).wr calPage
     CHP_CAL_CMD.QUAD quad).wr calPage CHP_CAL_STAT.QUAD quad → quad < 6 → e.rd (quadPage quad) CHP_QUAD_OWNER.OWNER = 0 →
     ieeeChannel centre width = true → Gives (.calCmd centre width quad) d ((e.calRunBegin centre width quad).complete .okay))
  ∧ (∀ (d : Dev) (centre width quad : Nat) (e f : Dev) (h : Option (Nat × Nat)), e = (d.wr calPage CHP_CAL_CMD.GO 1).wr calPage
     CHP_CAL_STAT.BUSY 1 → h = (if e.synState 3 ≠ 0 ∧ e.rd synPage (CHP_SYN_STAT.LAST_HOP.at 3) = 2 then some (e.centre 3, e.width
     3) else none) → f =
     ({ e with pool := { e.pool with cal := some { quad := quad, centre := centre, width := width, monCentre := e.centre 3, monWidth := e.width 3, heldHop := h } } }
     : Dev).rxAbandon 3 6 → d.calRunBegin centre width quad = if f.inService synPage then (f.femAll 3 Fem.allOff).synEnter 3 2
     else f)
  ∧ (∀ (d : Dev) (facts mine : List CalFact) (r : CalRun) (w : Dev × Bool) (failed : Nat), d.pool.cal = some r → (mine =
     facts.filter fun f => decide (f.chain / 4 = r.quad)) → (w = mine.foldl (fun acc f => ((acc.1.calStore f r.centre r.width).1,
     acc.2 && (acc.1.calStore f r.centre r.width).2)) (d, true)) → (failed = ((List.range 4).filter fun j => !(mine.any fun f =>
     decide (f.chain = 4 * r.quad + j))).foldl (fun a j => a + 2 ^ j) 0) → Gives (.calCmdDone facts) d (w.1.calEnd (if w.2 = false
     then 3 else if failed ≠ 0 then 2 else 0) failed))
  ∧ (∀ (d : Dev) (r : CalRun) (result failed : Nat) (e : Dev), d.pool.cal = some r → e =
     ({ d with pool := { d.pool with cal := none } } : Dev).wr calPage CHP_CAL_STAT.BUSY 0 → d.calEnd result failed = ((((e.wr
     calPage CHP_CAL_STAT.RESULT result).wr calPage CHP_CAL_STAT.FAILED failed).wr calPage CHP_CAL_CMD.GO 0).ev calPage (if result
     = 0 then 8 else 9)).calHopBack r)

/-- Receive path: An armed instance that sees a rise begins an acquisition, whose first AGC step is made 0.8 µs after the first
sample; an OFDM detection in the AGC phase at or above MIN_DET makes the further AGC steps, freezes the gains, keeps the
frequency estimates within their ranges and counts; without a detection 8 µs after the rise the instance returns to idle
gain; a failed SIG field without a rise in its cycle ends the reception with status 2 and its reason, and one that passes,
agrees with its trigger and is supported gives the reception its parameters and, where it is the last, leads to the data or
the LTF; a restart rise in a reception whose end it does not meet restarts it, and after an OBSS stop it starts a new
acquisition; the end of the LTF of a PPDU of this cell begins its data, and of another cell ends the reception at the LTF; a
hold ends; a trigger-based window that passes reports NO_SIGNAL and fails its exchange; the data of an MPDU passes the
detector and the decoder, and the MPDU is counted and, with a good FCS, goes to the running MAC; the end of a PPDU in its
data reports it and closes the reception. -/
def Obligations.ReceiveCommandsComplete : Prop :=
  (∀ (d : Dev) (x : Nat) (rise : Rise) (e f : Dev), x < 4 → d.rxArmed x = true → d.riseEnough x rise.power = true → e = d.reach
     ((rise.startNs + 800) * nsU) → f = e.setRx x
     { Rx.reset with phase := .agc, riseNs := rise.startNs + 400, acqNs := rise.startNs, startNs := rise.startNs, startFrac := rise.startFrac, levels := rise.levels, hold := (e.rxAt x).hold, ref := (e.rxAt x).ref, cca := (e.rxAt x).cca, tb := (e.rxAt x).tb }
     → Gives (.energyRise x rise) d (f.agcRun x))
  ∧ (∀ (d : Dev) (x : Nat), d.agcRun x = (d.setRx x { d.rxAt x with gains := d.agcGains x (d.rxAt x) }).setLnab x (d.rxAt
     x).levels)
  ∧ (∀ (d : Dev) (x n : Nat) (det : Detect) (e : Dev), x < 4 → det.dsss = false → (d.rxAt x).phase = .agc → d.rdS (rxPage x)
     RXP_DET.MIN_DET ≤ det.level → n = max 1 (min (d.rd (rxPage x) RXP_AGC.STEPS) det.steps) → (e = (d.each (n - 1) fun _ f =>
     f.agcRun x).reach (((d.rxAt x).acqNs + detectDelayNs false n) * nsU)) → Gives (.packetDetection x det) d ((e.setRx x
     { e.rxAt x with phase := .found, ref := det.level, hold := none, tbActive := (e.rxAt x).tb.any fun t => e.inTbWindow x t, coarse := clampInt (-31250) 31250 det.coarse, fine := clampInt (-7812) 7812 det.fine, format := 15 }).cnt
     (rxPage x) RXP_CNT_DETECT.COUNT))
  ∧ (∀ (d : Dev) (x : Nat), x < 4 → (d.rxAt x).phase = .agc → Gives (.agcIdleReturn x) d (((d.reach (((d.rxAt x).riseNs + 8000) *
     nsU)).rxIdle x).lnabIdle x))
  ∧ (∀ (d : Dev) (x : Nat) (sig : SigFact), x < 4 → (d.rxAt x).phase = .found ∨ (d.rxAt x).phase = .sig → sig.fail ≠ 0 → sig.rise
     = none → Gives (.sigFieldDecided x sig) d ((d.reach (((d.rxAt x).startNs + sigAtNs sig) * nsU)).rxEnd x 2 sig.fail 0 none))
  ∧ (∀ (d : Dev) (x : Nat) (sig : SigFact) (e f : Dev) (tb : Option TbParams), x < 4 → (d.rxAt x).phase = .found ∨ (d.rxAt
     x).phase = .sig → sig.fail = 0 → e = d.reach (((d.rxAt x).startNs + sigAtNs sig) * nsU) → f = e.setRx x (e.noteSig x (d.rxAt
     x) sig) → tb = (if (f.rxAt x).tbActive then (f.rxAt x).tb else none) → (tb.any (fun t => t.disagrees sig) = false) →
     f.unsupported x sig tb = none → Gives (.sigFieldDecided x sig) d (if sig.last then f.setRx x
     { f.rxAt x with phase := if (f.rxAt x).format ≤ 1 then .data else .ltf } else f))
  ∧ (∀ (d : Dev) (x : Nat) (rise : Rise) (clip : Bool) (e : Dev), x < 4 → (d.rxAt x).receiving = true → (d.rxAt x).endsIn rise =
     false → d.restarts x rise clip = true → e = d.reach ((rise.startNs + 800) * nsU) → Gives (.restartRise x rise clip) d
     ((e.rxEnd x 3 (d.rxAt x).phase.reason (rise.power - (d.rxAt x).ref).toNat none).acquireRise x rise))
  ∧ (∀ (d : Dev) (x : Nat) (rise : Rise) (clip : Bool), x < 4 → (d.rxAt x).receiving = false → (d.rxAt x).hold.isSome = true →
     d.restarts x rise clip = true → d.rxArmed x = true → Gives (.restartRise x rise clip) d (d.acquire x (rise.startNs + 400)
     rise))
  ∧ (∀ (d : Dev) (x : Nat) (ltf : LtfFact) (foreign : List ForeignFact), x < 4 → (d.rxAt x).phase = .ltf → (d.rxAt x).obss = false
     → ltf.rise = none → Gives (.ltfEnd x ltf foreign) d (d.dataBegin x ltf))
  ∧ (∀ (d : Dev) (x : Nat) (ltf : LtfFact) (foreign : List ForeignFact) (e : Dev), x < 4 → (d.rxAt x).phase = .ltf → (d.rxAt
     x).obss = true → d.rdB (rxPage x) RXP_CFG.OBSS_DECODE = false → d.venWants x (d.rxAt x).colour = false → ltf.rise = none → e
     = d.setRx x { d.rxAt x with est := false } → Gives (.ltfEnd x ltf foreign) d (e.rxEnd x 9 0 0 (some ((d.rxAt x).startNs + 100
     * (d.rxAt x).dur01))))
  ∧ (∀ (d : Dev) (x t : Nat), (d.rxAt x).hold = some t → Gives (.obssHoldEnd x) d ((d.reach (t * nsU)).setRx x
     { d.rxAt x with hold := none }))
  ∧ (∀ (d : Dev) (x : Nat) (t : TbParams), (d.rxAt x).tb = some t → (d.rxAt x).tbActive = false → Gives (.tbWindowExpiry x) d (if
     x < 3 then ((d.tbWindowExpiry x).ulNoSignal x (t.users.map fun u => u.sta)).macRxEnd x true false else d.tbWindowExpiry x))
  ∧ (∀ (d : Dev) (x user : Nat) (data : DataFact) (mpdu : Mpdu) (e : Dev), d.rxDecoding x user = true → dataCheck data = some
     false → e = (d.rxSymbols x data.syms).rxCodewords x user data.cws → Gives (.mpduDecoded x user data mpdu) d (e.rxMpdu x user
     false))
  ∧ (∀ (d : Dev) (x user : Nat) (data : DataFact) (mpdu : Mpdu) (e : Dev), d.rxDecoding x user = true → dataCheck data = some true
     → e = ((d.rxSymbols x data.syms).rxCodewords x user data.cws).rxMpdu x user true → Gives (.mpduDecoded x user data mpdu) d
     (if x < 3 ∧ e.active (macPage x) = true ∧ e.active 0x033 = true then e.macMpdu x user mpdu else e))
  ∧ (∀ (d : Dev) (x user : Nat) (data : DataFact) (mpdu : Mpdu), d.rxDecoding x user = true → dataCheck data = none → Gives
     (.mpduDecoded x user data mpdu) d ((d.rxSymbols x data.syms).rxCodewords x user data.cws))
  ∧ (∀ (d : Dev) (x endNs lastNs : Nat) (meas : List RxMeas) (rise : Option (Rise × Bool)) (users : List TbUser) (e : Dev),
     (d.rxAt x).phase = .data → (users = (if (d.rxAt x).tbActive then ((d.rxAt x).tb.map (fun t => t.users)).getD [] else [])) → e
     = (d.implicitRecords x users meas).rxPpduEnd x endNs lastNs meas rise → Gives (.ppduRxEnd x endNs lastNs meas rise) d (if x <
     3 then (e.ulNoSignal x ((users.filter fun u => !u.present).map fun u => u.sta)).macRxEnd x (d.rxAt x).tbActive (users.any fun
     u => decide (u.ok ≠ 0)) else e))

/-- Channel access and responses of the WLAN MAC: A slot updates the idle times and counters of its radio, and where the MAC is
free and a PPDU is next its backoff is drawn if it has none, and the PPDU is granted where R240 and R244 allow it; the NAV
of a radio ends at its time; a TXOP ends at its limit; a planned PPDU whose window passes is given up and the plan advances;
a data underrun marks the PPDU and delays the MPDUs named with reason 0x17, those delivered before staying sent; a response
that is cut keeps what has arrived; an owed response is handed over as R247 and R184 say; a missing response leaves every
MPDU unacknowledged and ends the exchange; a missing CTS of an EMLSR station is counted. -/
def Obligations.MacTimingCommandsComplete : Prop :=
  (∀ (d : Dev) (x : Nat) (med : Medium) (l : Dev × Bool) (f : Dev × List Nat), x < 3 → l = (d.reach (med.atNs * nsU)).listenSlot
     x med → f = l.1.countDown x med.atNs l.2 → f.1.nextPpdu x = none → Gives (.backoffSlot x med) d (f.1.settle))
  ∧ (∀ (d : Dev) (x i : Nat) (med : Medium) (l : Dev × Bool) (f : Dev × List Nat) (plan : Plan) (p : PlanPpdu), x < 3 → l =
     (d.reach (med.atNs * nsU)).listenSlot x med → f = l.1.countDown x med.atNs l.2 → f.1.macFree x = true → f.1.heldOff x = false
     → f.1.nextPpdu x = some (plan, i, p) → (f.1.drawBackoff x p.ac).grantCond x med.atNs plan.beat p l.2 = none → Gives
     (.backoffSlot x med) d ((f.1.drawBackoff x p.ac).settle))
  ∧ (∀ (d : Dev) (x i : Nat) (med : Medium) (l : Dev × Bool) (f : Dev × List Nat) (plan : Plan) (p : PlanPpdu) (counter : Bool)
     (dyn : Option Nat) (e g : Dev), x < 3 → l = (d.reach (med.atNs * nsU)).listenSlot x med → f = l.1.countDown x med.atNs l.2 →
     f.1.macFree x = true → f.1.heldOff x = false → f.1.nextPpdu x = some (plan, i, p) → (f.1.drawBackoff x p.ac).grantCond x
     med.atNs plan.beat p l.2 = some (counter, dyn) → (e = (f.1.drawBackoff x p.ac).internalLoss x (if f.2.contains p.ac then
     f.2.filter fun a => decide (acRank a < acRank p.ac) else [])) → (g = dyn.elim e (fun q => e.repuncture x q)) → Gives
     (.backoffSlot x med) d ((g.grantSet x med.atNs plan.beat p counter (decide (p.latestNs plan.beat < med.atNs + 9000 + g.leadNs
     x))).settle))
  ∧ (∀ (d : Dev) (x : Nat), x < 3 → (d.macR x).nav ≠ 0 → Gives (.navExpiry x) d ((d.reach ((d.macR x).nav * nsU)).setMacR x
     { d.macR x with nav := 0 }))
  ∧ (∀ (d : Dev) (x a b fin : Nat), (d.macR x).txop = some (a, b, fin) → Gives (.txopEnd x) d ((d.reach (fin * nsU)).setMacR x
     { (d.reach (fin * nsU)).macR x with txop := none }))
  ∧ (∀ (d : Dev) (x i : Nat) (plan : Plan) (p : PlanPpdu) (e : Dev), x < 3 → d.nextPpdu x = some (plan, i, p) → e = d.reach
     ((p.latestNs plan.beat - d.leadNs x) * nsU) → Gives (.windowMissed x) d (((e.setMacR x
     { e.macR x with waiting := false }).missNext x).settle))
  ∧ (∀ (d : Dev) (x i : Nat) (plan : Plan) (p : PlanPpdu) (e : Exec), look d.air.exec x = some e → d.nextPpdu x = some (plan, i,
     p) → d.missNext x = (d.advance x).notSent x p i plan.beat 0xA 0x17 (nth [] e.outcomes i))
  ∧ (∀ (d : Dev) (x sta : Nat) (ids : List Nat) (q : TxCmd) (o : OnAir) (late : List SentUser) (e : Dev), x < 3 → d.txOf x = some
     q → (d.macR x).onAir = some o → q.phase = .sending → ((o.users.any fun u => decide (u.sta = sta)) = true) → (late =
     (o.users.filter fun u => decide (u.sta = sta)).map fun u =>
     { u with ids := u.ids.filter fun i => ids.contains i && !o.undelivered.contains i }) → (e = (d.setTx x
     { q with underrun := true }).forAll late (fun u f => f.forAll u.ids fun i g => g.delay u.queue i 0x17)) → Gives
     (.dataUnderrun x ⟨sta, ids⟩) d ((e.setMacR x
     { e.macR x with onAir := some { o with undelivered := o.undelivered ++ late.flatMap fun u => u.ids } }).settle))
  ∧ (∀ (d : Dev) (x : Nat) (p : Resp) (e : Dev), (d.macR x).resp = some p → e = d.reach ((p.tEnd + d.sifsNs x - 4000) * nsU) →
     Gives (.responseCut x) d (e.setMacR x { e.macR x with resp := some { p with cut := true } }))
  ∧ (∀ (d : Dev) (x dur : Nat) (p : Resp), (d.macR x).resp = some p → p.handed = false → p.complete = true ∨ p.cut = true →
     d.mayRespond x = true → Gives (.responseHandover x dur) d (((((d.setMacR x
     { d.macR x with resp := some { p with handed := true } }).cnt (macPage x) MAC_CNT_RESP.COUNT).emit (.response x p.form
     (p.acks.map fun a => a.1))).readyResponse x p.tEnd dur)))
  ∧ (∀ (d : Dev) (x : Nat) (o : OnAir) (last : Bool), x < 3 → (d.macR x).onAir = some o → o.awaiting = true → (last = o.users.any
     (fun u => (d.queue u.queue).any fun e => u.ids.contains e.id && decide (d.rd (macPage x) MAC_CFG.RETRY_MAX ≤ e.tries + 1))) →
     Gives (.responseTimeout x) d ((((((d.forAll o.users fun u e => e.forAll u.ids fun i f => f.unacked x u i).ctsMissed x
     o.muRtsTo).exchangeEnd x o.ac false).when last (·.setCw x o.ac true))).settle))
  ∧ (∀ (d : Dev) (x sta : Nat) (o : OnAir), (d.macR x).onAir = some o → o.awaiting = true → o.muRtsTo.contains sta = true →
     d.staEmlsr sta = true → (d.macR x).noCts.contains sta = false → Gives (.emlsrNoCts x sta) d (((d.setMacR x
     { d.macR x with noCts := (d.macR x).noCts ++ [sta] }).cnt (macPage x) MAC_CNT_EMLSR_NOCTS.COUNT).ev (macPage x) 10))

/-- Station table, queues and admission: A station command on the RUNNING page with no command in progress and a readable entry
ends OK: ADD enters the station, SUSPEND is taken and waits, RESUME revives it, REMOVE purges and drops it, FLUSH purges the
TIDs named; a suspend that is done is mirrored; a reorder timeout passes the gap; a fragment timeout drops the incomplete
MSDU; a U-APSD service period ends; an accepted enqueue request joins its queue; an admission is granted the lowest free
flow and a release frees it. -/
def Obligations.StationCommandsComplete : Prop :=
  (∀ (d : Dev) (sta tid a : Nat) (l : List Nat), d.active 0x033 = true → (((d.tidRec sta (tid % 8)).held.map fun h => h.atNs) =
     a :: l) → Gives (.reorderTimeout sta tid) d ((d.reach ((l.foldl min a + 1000 * d.rd 0x033 MAC_RX_CFG.REORDER_TO) *
     nsU)).passGap sta (tid % 8)))
  ∧ (∀ (d : Dev) (sta tid : Nat) (h : Held) (r : List Held), (d.tidRec sta tid).frags = h :: r → Gives (.fragmentTimeout sta tid)
     d ((d.reach ((h.atNs + 10000000) * nsU)).dropFrags sta tid))
  ∧ (∀ (d : Dev) (x sta b : Nat) (e : Dev), look d.mac.sp (4 * sta + x) = some (2, b) → e = d.reach (beatNs (b + 16) * nsU) →
     Gives (.uapsdSpExpiry x sta) d ({ e with mac := { e.mac with sp := del e.mac.sp (4 * sta + x) } }))
  ∧ (∀ (d : Dev) (sta : Nat) (e : Dev), d.staTakes sta = true → d.staValid sta = false → d.staFieldsOk sta = true → d.staAddrsFree
     sta = true → e = (((d.lookupEnter sta).dropRecs sta).setSta sta 0 0 1 1).staPost sta 0 → e.rdB 0x033 MAC_STA_STAT.BUSY =
     false → e.rd 0x033 MAC_STA_STAT.RESULT = 0 → Gives (.staAdd sta) d ((e.twinSta 1 sta).complete .okay))
  ∧ (∀ (d : Dev) (sta : Nat) (e : Dev), d.staTakes sta = true → d.staValid sta = true → d.staSuspended sta = false → e = (d.wr
     0x033 MAC_STA_STAT.BUSY 1).wr 0x033 MAC_STA_STAT.STA sta → Gives (.staSuspend sta) d
     (({ e with mac := { e.mac with cmd := some { sta := sta, op := 2 } } } : Dev).complete .okay))
  ∧ (∀ (d : Dev) (q : StaCmd) (e : Dev), d.mac.cmd = some q → e = d.staSuspendDone → e.rdB 0x033 MAC_STA_STAT.BUSY = false →
     e.twin.own = false → e.rd 0x033 MAC_STA_STAT.RESULT = 0 → Gives (.staSuspendDone) d (e.twinSta 2 q.sta))
  ∧ (∀ (d : Dev) (sta : Nat) (e : Dev), d.staTakes sta = true → d.staSuspended sta = true → d.staFieldsOk sta = true →
     d.staAddrsFree sta = true → (e = (((d.lookupEnter sta).each 8 fun t f => f.endBa sta t).setSta sta 0 1 1 0).staPost sta 0) →
     e.rdB 0x033 MAC_STA_STAT.BUSY = false → e.rd 0x033 MAC_STA_STAT.RESULT = 0 → Gives (.staResume sta) d ((e.twinSta 3
     sta).complete .okay))
  ∧ (∀ (d : Dev) (sta : Nat) (e : Dev), d.staTakes sta = true → d.staSuspended sta = true → e = ((((d.staPurge sta 0xFF
     3).dropRecs sta).lookupDrop sta).setSta sta 0 0 2 0).staPost sta 0 → e.rdB 0x033 MAC_STA_STAT.BUSY = false → e.rd 0x033
     MAC_STA_STAT.RESULT = 0 → Gives (.staRemove sta) d ((e.twinSta 4 sta).complete .okay))
  ∧ (∀ (d : Dev) (sta tids : Nat), d.staTakes sta = true → d.staSuspended sta = true → Gives (.staFlush sta tids) d (((d.staPurge
     sta tids 4).staPost sta 0).complete .okay))
  ∧ (∀ (d : Dev) (words : List Nat) (e f : Dev) (q q1 : QEntry), d.inService 0x03B = true → q = parseEntry words d.air.nextId → e
     = { d with air := { d.air with nextId := d.air.nextId + 1 } } → e.enqueueCheck q = (q1, none) → q1.demoted = false → f =
     e.setQueue q1.queue (e.queue q1.queue ++ [q1]) → f.rd 0x03B AIR_QPOOL_CFG.LOW_MARK * f.rd 0x03B AIR_QPOOL_CFG.ENTRIES / 256 ≤
     f.poolFree → Gives (.enqueueRequest words) d (f.complete .okay))
  ∧ (∀ (d : Dev) (sta cls dir radio resv a : Nat), d.answers 0x03B = true → d.inService 0x03B = true → d.staValid (sta % 2048) =
     true → bit (d.staLinks (sta % 2048)) (radio % 4) = true → d.sameFlow (sta % 2048) (cls % 8) (dir % 2) (radio % 4) = none →
     d.flowSum (radio % 4) + resv % 2 ^ 16 ≤ d.rd 0x03B AIR_ADM_LIMIT.ADM_LIMIT → d.freeFlow = some a → Gives (.admAdd sta cls dir
     radio resv) d (((d.wrW 0x03B (0x1000 + 8 * a) (BitVec.ofNat 32 (1 + dir % 2 * 2 + cls % 8 * 4 + sta % 2048 * 32 + radio % 4 *
     2 ^ 16))).wrW 0x03B (0x1004 + 8 * a) (BitVec.ofNat 32 (resv % 2 ^ 16))).admPost 0 a))
  ∧ (∀ (d : Dev) (index : Nat), d.answers 0x03B = true → d.inService 0x03B = true → bit (d.flowW (index % 1024) 0) 0 = true →
     Gives (.admRemove index) d (((d.wrW 0x03B (0x1000 + 8 * (index % 1024)) 0).wrW 0x03B (0x1004 + 8 * (index % 1024)) 0).admPost
     0 (index % 1024)))

/-- Venue coordination: In its position of a round not yet served, a PLAN is sent at the stagger of the access point and the
round is marked; the oldest message of the matching subtype is taken and checked; TIME_OK falls with its event when holdover
has lasted HOLD_ROUNDS; a free neighbour entry takes an AP that no other entry lists and that is not its own; a listed entry
is removed with its null slots. -/
def Obligations.VenueCommandsComplete : Prop :=
  (∀ (d : Dev) (e : Dev), d.inService venPage = true → d.pos = d.rd venPage VEN_TIMING.SEND_POS → d.ven.sentRound ≠ some d.round
     → e = d.reach ((beatNs d.beat + d.rd venPage VEN_CFG.AP_ID % 64 * 2000) * nsU) → Gives (.planSend) d
     (({ e with ven := { e.ven with sentRound := some e.round } } : Dev).venSend false))
  ∧ (∀ (d : Dev) (l : List Nat) (at' : Nat), d.venHead = some (l, at') → d.active venPage = true → ob l 2 ≠ 2 → Gives
     (.planReceived) d (({ d with ven := { d.ven with inbox := d.ven.inbox.drop 1 } } : Dev).venMessage l at'))
  ∧ (∀ (d : Dev) (l : List Nat) (at' : Nat), d.venHead = some (l, at') → d.active venPage = true → ob l 2 = 2 → Gives
     (.leaveReceived) d (({ d with ven := { d.ven with inbox := d.ven.inbox.drop 1 } } : Dev).venMessage l at'))
  ∧ (∀ (d : Dev), d.inService venPage = true → d.venTimeOk = true → d.rdB 0x008 PTP_SERVO_STAT.HOLDOVER = true → d.rd venPage
     VEN_TIMING.HOLD_ROUNDS ≤ d.rd venPage VEN_STAT.HOLD_CNT → Gives (.timeOkExpiry) d ((d.wr venPage VEN_STAT.TIME_OK 0).ev
     venPage 10))
  ∧ (∀ (d : Dev) (index apId : Nat) (e f : Dev), d.answers 0x040 = true → e = ((d.wr venPage VEN_NBR_CMD.INDEX (index % 32)).wr
     venPage VEN_NBR_CMD.AP_ID (apId % 2048)).wr venPage VEN_NBR_CMD.OP 1 → e.venStatus (index % 32) = 0 → ((∀ k < 32, e.venStatus
     k = 0 ∨ e.rd venPage (VEN_NBR.AP_ID.at k) ≠ apId % 2048)) → apId % 2048 ≠ e.rd venPage VEN_CFG.AP_ID → f = (((e.wrW venPage
     (VEN_NBR.word0.at (index % 32)).off 0).wrW venPage (VEN_NBR.word1.at (index % 32)).off 0).wrW venPage (VEN_NBR.word2.at
     (index % 32)).off 0).wrW venPage (VEN_NBR.word3.at (index % 32)).off 0 → Gives (.nbrAdd index apId) d ((((f.wr venPage
     (VEN_NBR.AP_ID.at (index % 32)) (apId % 2048)).setVenNbr (index % 32) VenNbr.empty).venSetStatus (index % 32) 1).nbrPost 0))
  ∧ (∀ (d : Dev) (index : Nat) (e : Dev), d.answers 0x040 = true → e = (d.wr venPage VEN_NBR_CMD.INDEX (index % 32)).wr venPage
     VEN_NBR_CMD.OP 2 → e.venStatus (index % 32) ≠ 0 → Gives (.nbrRemove index) d (((((e.each 32 fun k f => if f.slotUsed (32 *
     (index % 32) + k) then f.freeSlot (32 * (index % 32) + k) else f).setVenNbr (index % 32) VenNbr.empty).venSetStatus (index %
     32) 0).nbrPost 0)))

/-- Tag lane: reception, acknowledgements and channel: A frame that begins on a receive modulation in a lane that is idle or
waits for an acknowledgement is followed, the equaliser at its reset taps; a frame whose check fails ends as a bad frame;
the acknowledgement waited for ends the request's wait; an O-QPSK frame for this device whose check holds is counted and
reported, with an acknowledgement owed where R386 asks for one; a GFSK burst whose sync word and CRC hold is counted and
reported with its tag, a check-in entered in the tag's record; an acknowledgement due and not refused is sent and counted; a
legal receive channel is taken at once in a lane that does not work and otherwise as soon as the lane may retune; a retune
takes the lane to its channel; the idle period of an occupancy ends; a request waits for its time. -/
def Obligations.TagReceiveCommandsComplete : Prop :=
  (∀ (d : Dev) (mod startNs : Nat), d.active tagPage = true → d.tagModOn mod = true → d.tag.rx = none → d.tag.retune = none →
     d.tag.ack = none → d.tag.occ = none → d.tagSending startNs = false → Gives (.tagFrameDetected mod startNs) d ((d.reach
     (startNs * nsU)).setTag { d.tag with rx := some (mod, startNs), dfe := d.dfeReset }))
  ∧ (∀ (d : Dev) (mod startNs : Nat) (r : TagReq), d.active tagPage = true → d.tagModOn mod = true → d.tag.rx = none →
     d.tag.retune = none → d.tag.ack = none → d.tag.req = some r → r.phase = .ackWait → d.tagSending startNs = false → Gives
     (.tagFrameDetected mod startNs) d ((d.reach (startNs * nsU)).setTag
     { d.tag with rx := some (mod, startNs), dfe := d.dfeReset }))
  ∧ (∀ (d : Dev) (startNs : Nat) (frame : TagFrame) (e : Dev), d.tag.rx = some (0, startNs) → e = (d.reach (frame.endNs *
     nsU)).setTag { d.tag with rx := none, slotEnd := max d.tag.slotEnd frame.endNs } → (e.psduOf frame.octets).2 = false → Gives
     (.tagFrameEnd frame) d ((e.cnt tagPage TAG_CNT_FCS_BAD.COUNT).tagApplyRx))
  ∧ (∀ (d : Dev) (startNs : Nat) (frame : TagFrame) (r : TagReq) (e : Dev), d.tag.rx = some (0, startNs) → e = (d.reach
     (frame.endNs * nsU)).setTag { d.tag with rx := none, slotEnd := max d.tag.slotEnd frame.endNs } → (e.psduOf frame.octets).2 =
     true → e.tagAwaited (parseMhr (e.psduOf frame.octets).1) frame.endNs = true → e.tag.req = some r → Gives (.tagFrameEnd frame)
     d ((e.setTag { e.tag with req := some { r with phase := .sent } }).tagApplyRx))
  ∧ (∀ (d : Dev) (startNs : Nat) (frame : TagFrame) (m : Mhr) (e g : Dev), d.tag.rx = some (0, startNs) → e = (d.reach
     (frame.endNs * nsU)).setTag { d.tag with rx := none, slotEnd := max d.tag.slotEnd frame.endNs } → (e.psduOf frame.octets).2 =
     true → m = parseMhr (e.psduOf frame.octets).1 → e.tagAwaited m frame.endNs = false → e.tagForUs m = true → g = ((e.draw
     32).1.cnt tagPage TAG_CNT_RX154.COUNT).tagRxEvent 0 0 startNs (e.draw 32).2 frame (e.psduOf frame.octets).1 → Gives
     (.tagFrameEnd frame) d ((if g.rdB tagPage TAG_CFG.AUTO_ACK && (decide (m.typ = 1) || decide (m.typ = 3)) && m.ar && decide
     (m.ver < 2) && g.tagOwn m then g.setTag { g.tag with ack := some (m.seq.getD 0, frame.endNs + 192000) } else g).tagApplyRx))
  ∧ (∀ (d : Dev) (mod startNs : Nat) (frame : TagFrame) (e : Dev) (g : Dev × List Nat × Bool), d.tag.rx = some (mod, startNs) →
     mod ≠ 0 → e = (d.reach (frame.endNs * nsU)).setTag { d.tag with rx := none, slotEnd := max d.tag.slotEnd frame.endNs } → g =
     e.gfskReceive mod frame → g.2.2 = false → Gives (.tagFrameEnd frame) d ((g.1.cnt tagPage TAG_CNT_FCS_BAD.COUNT).tagApplyRx))
  ∧ (∀ (d : Dev) (mod startNs id : Nat) (frame : TagFrame) (e : Dev) (g : Dev × List Nat × Bool) (f : Dev), d.tag.rx = some (mod,
     startNs) → mod ≠ 0 → e = (d.reach (frame.endNs * nsU)).setTag
     { d.tag with rx := none, slotEnd := max d.tag.slotEnd frame.endNs } → g = e.gfskReceive mod frame → g.2.2 = true →
     g.1.syncErrors frame ≤ g.1.rd tagPage TAG_CFG.SYNC_ERR → id = ofLeBytes ((g.2.1.drop 2).take 4) → g.1.rdOk (g.1.tagAddr (id %
     8192)) 32 = true → g.1.wrOk (g.1.tagAddr (id % 8192)) 32 = true → f = g.1.when (g.1.tagKnown id && decide (nth 0 g.2.1 1 =
     1)) (·.tagCheckin (id % 8192) (frame.endNs / 1000) frame.rssi) → Gives (.tagFrameEnd frame) d (((f.cnt tagPage
     TAG_CNT_RXGFSK.COUNT).tagRxEvent 1 mod startNs (id % 8192 + b2n (g.1.tagKnown id) * 2 ^ 13) frame g.2.1).tagApplyRx))
  ∧ (∀ (d : Dev) (seq due : Nat) (e : Dev), d.tag.ack = some (seq, due) → e = (d.reach (due * nsU)).setTag
     { d.tag with ack := none } → e.tagRefusal e.tag.tuned due (tagAir 0 (3 + e.fcsLen)) = none → Gives (.tagImmAckSend) d
     (((e.tagSend 0 e.tag.tuned due (tagAir 0 (3 + e.fcsLen)) [2, 0, seq]).cnt tagPage TAG_CNT_ACK.COUNT).tagApplyRx))
  ∧ (∀ (d : Dev) (centre : Nat) (e : Dev), d.answers tagPage = true → 2402 ≤ centre % 4096 → centre % 4096 ≤ 2480 → e = d.wr
     tagPage TAG_RX_CHAN.CENTRE (centre % 4096) → Gives (.tagRxChanWrite centre) d ((if e.active tagPage then (e.setTag
     { e.tag with rxChan := some (centre % 4096) }).tagApplyRx else e.setTag { e.tag with tuned := centre % 4096 }).complete
     .okay))
  ∧ (∀ (d : Dev) (ch t : Nat) (e : Dev), d.tag.retune = some (ch, t) → e = d.reach (t * nsU) → Gives (.tagRetuneDone) d ((e.setTag
     { e.tag with tuned := ch, retune := none }).tagApplyRx))
  ∧ (∀ (d : Dev), d.tag.occ = none → d.tag.quiet ≠ 0 → Gives (.tagIdlePeriodEnd) d ((d.reach (d.tag.quiet * nsU)).setTag
     { d.tag with quiet := 0 }))
  ∧ (∀ (d : Dev) (r : TagReq), d.tag.req = some r → r.phase = .waitAt → Gives (.tagAtReached) d ((d.reach (r.atNs * nsU)).setTag
     { d.tag with req := some { r with phase := .cca, from_ := r.atNs } }))

/-- Tag lane: requests, wake trains and beacons: A queued transmit request is taken into the lane; a CCA slot inside the beacon
window of a live slot, or of a waiting request, is judged, and a clear one begins the beacon or the request; a wake burst
that fits the occupancy and is not refused is sent and the next follows a period later; the data frame of a train whose
bursts are done is sent and counts the train; a train that did not begin moves to the tag's next slot with one retry used;
an occupancy whose frame is sent completes the request; a missing acknowledgement completes it with status 1 where no retry
is left, with status 8 in a draining lane, and otherwise sends it to its next attempt; a beacon slot opens in the beats it
is due; a beacon that found no room is lost and counted, and after three in a row the two beacon channels change places. -/
def Obligations.TagTransmitCommandsComplete : Prop :=
  (∀ (d : Dev), d.tag.event = none → d.inService tagPage = true → d.tag.req = none → d.rd tagPage TAG_TXQ_RD.INDEX ≠ d.rd
     tagPage TAG_TXQ_WR.INDEX → d.memOkN (d.rd tagPage TAG_TXQ_BASE.BASE * 32 + d.rd tagPage TAG_TXQ_RD.INDEX % 2 ^ d.rd tagPage
     TAG_RING_CFG.TXQ_LOG2 * 160) 160 = true → Gives (.tagTxRequest) d (d.tagTake))
  ∧ (∀ (d : Dev) (endNs b : Nat) (energy : Int) (e : Dev), d.active tagPage = true → d.tag.retune = none → d.tag.occ = none →
     d.tag.beacon = some b → d.tag.slotEnd ≤ endNs - 1000 * d.rd tagPage TAG_LBT.CCA_SLOT → max (d.bcnOpen b) d.tag.txEnd + 40000
     ≤ endNs - 1000 * d.rd tagPage TAG_LBT.CCA_SLOT → endNs ≤ d.bcnEnd b → d.tag.rx = none ∨ d.bcnOpen b ≤ d.tag.slotEnd → e =
     (d.reach (endNs * nsU)).setTag
     { (d.reach (endNs * nsU)).tag with slotEnd := endNs, tuned := if d.tag.rx.isSome then d.tag.tuned else d.rd tagPage TAG_BCN_CHAN.PRI }
     → e.bcnLive = true → Gives (.tagCcaSlot endNs energy) d (if (e.tagJudge energy).2 then (e.tagJudge energy).1.tagBeaconBegin b
     endNs else (e.tagJudge energy).1))
  ∧ (∀ (d : Dev) (endNs : Nat) (energy : Int) (r : TagReq) (e : Dev), d.active tagPage = true → d.tag.retune = none → d.tag.occ =
     none → d.tag.beacon = none → d.tag.req = some r → r.phase = .cca → d.tag.slotEnd ≤ endNs - 1000 * d.rd tagPage
     TAG_LBT.CCA_SLOT → max (max r.from_ d.tag.txEnd) d.tag.quiet + 40000 ≤ endNs - 1000 * d.rd tagPage TAG_LBT.CCA_SLOT → (r.kind
     = 2 → r.start ≤ endNs) → e = (d.reach (endNs * nsU)).setTag
     { d.tag with slotEnd := endNs, tuned := if d.tag.rx.isSome then d.tag.tuned else r.chan } → Gives (.tagCcaSlot endNs energy)
     d (if (e.tagJudge energy).2 then (e.tagJudge energy).1.tagBegin r endNs else (e.tagJudge energy).1))
  ∧ (∀ (d : Dev) (r : TagReq) (o : Nat) (p : Dev × Nat) (e : Dev), d.tag.req = some r → d.tag.occ = some (o, false) → r.phase =
     .train → r.next ≤ r.fin → d.tagFits o r.next (wakeAir r.mod) = true → d.tagRefusal r.chan r.next (wakeAir r.mod) = none → p =
     d.countdown r o r.next → e = (p.1.reach (r.next * nsU)).tagSend r.mod r.chan r.next (wakeAir r.mod) ([2, 2] ++ leBytes 4
     ((p.1.reach (r.next * nsU)).tagW (bits (nth 0 r.words 1) 0 13) 0) ++ leBytes 2 p.2) → Gives (.tagWakeBurst) d (e.setTag
     { e.tag with req := some { r with bursts := r.bursts + 1, first := some (r.first.getD r.next), next := r.next + e.burstPer r.mod } }))
  ∧ (∀ (d : Dev) (r r2 : TagReq) (o : Nat) (e : Dev), d.tag.req = some r → d.tag.occ = some (o, false) → r.phase = .train → r.fin
     < r.next → d.tagFits o (d.dataStart o) (d.frameAir r.mod r.octets.length) = true → d.tagRefusal r.chan (d.dataStart o)
     (d.frameAir r.mod r.octets.length) = none → e = (d.reach (d.dataStart o * nsU)).tagSend r.mod r.chan (d.dataStart o)
     (d.frameAir r.mod r.octets.length) ((r.octets.length - 5) :: r.octets) → r2 =
     { r with phase := .data, first := some (r.first.getD (d.dataStart o)) } → Gives (.tagTrainDataFrame) d ((e.setTag
     { e.tag with req := some r2 }).cnt tagPage TAG_CNT_TRAINS.COUNT))
  ∧ (∀ (d : Dev) (r : TagReq) (e : Dev), d.tag.req = some r → r.phase = .cca → r.kind = 2 → r.bursts = 0 → r.used < r.retry → e =
     d.reach ((r.start + 1000 * bits (d.tagW (bits (nth 0 r.words 1) 0 13) 3) 0 16 - d.burstPer r.mod - wakeAir r.mod) * nsU) →
     Gives (.tagTrainMove) d (e.setTag
     { e.tag with req := some (e.tagPlan (bits (nth 0 r.words 1) 0 13) 0 (some (r.k + 1)) { r with used := r.used + 1 }), ecca := none }))
  ∧ (∀ (d : Dev) (r : TagReq) (o : Nat), d.tag.req = some r → d.tag.occ = some (o, false) → r.phase = .sent → Gives
     (.tagOccupancyEnd) d ((((d.reach (d.tag.txEnd * nsU)).tagQuiet o d.tag.txEnd).tagDone 0).tagApplyRx))
  ∧ (∀ (d : Dev) (r : TagReq) (o : Nat) (e f : Dev), d.tag.req = some r → d.tag.occ = some (o, false) → r.phase = .ackWait → e =
     (d.reach ((d.tag.txEnd + 864000) * nsU)).tagQuiet o (d.tag.txEnd + 864000) → f = e.setTag
     { e.tag with slotEnd := max e.tag.slotEnd (d.tag.txEnd + 864000) } → Gives (.tagAckTimeout) d (if r.retry ≤ r.used then
     f.tagDone 1 else if f.bstate tagPage = .draining then f.tagDone 8 else f.setTag
     { f.tag with req := some { r with phase := .cca }, ecca := none }))
  ∧ (∀ (d : Dev) (b : Nat) (e : Dev), d.bcnDue = some b → d.inService tagPage = true → d.bcnLive = true → d.tag.lastSlot ≠ some b
     → d.tag.beacon = none → e = d.reach (d.bcnOpen b * nsU) → Gives (.tagBeaconSlot) d (e.setTag
     { d.tag with beacon := some b, lastSlot := some b, ecca := none, eccaHeld := d.tag.ecca }))
  ∧ (∀ (d : Dev) (b run pri alt : Nat) (e f g : Dev), d.tag.beacon = some b → d.tag.occ = none → d.bcnLive = true → e = (d.reach
     (d.bcnEnd b * nsU)).bcnOver → run = e.rd tagPage TAG_BCN_STAT.LOST_RUN + 1 → pri = d.rd tagPage TAG_BCN_CHAN.PRI → alt = d.rd
     tagPage TAG_BCN_CHAN.ALT → f = (((e.cnt tagPage TAG_CNT_BCN_LOST.COUNT).ev tagPage 10).wr tagPage TAG_BCN_STAT.LOST_RUN
     run).tagBcnEvent b 1 pri → g = (((f.wr tagPage TAG_BCN_CHAN.PRI alt).wr tagPage TAG_BCN_CHAN.ALT pri).wr tagPage
     TAG_BCN_STAT.LOST_RUN 0).cnt tagPage TAG_BCN_STAT.MOVES → Gives (.tagBeaconLost) d ((if run = 3 then (g.ev tagPage
     11).tagBcnEvent b 3 pri else f).tagReturn))

/-- Koveton bundles: multiplies, accumulators and exponents: A core in service that runs, does not wait and stands at a legal
bundle of the named opcode, which ECC lets it read, issues it, a corrected error being counted: the operation slot does what
the model's function of that opcode says, then the move slots, and the core goes on to the next bundle (Dev.kovDo). -/
def Obligations.KovetonMultiplyAccumulateComplete : Prop :=
  (∀ (d : Dev) (k : Nat) (ecc : EccFact), d.kovReady k 0x00 ecc = true → Gives (.nop k ecc) d ((d.kovEcc k ecc).kovDo k opNop))
  ∧ (∀ (d : Dev) (k : Nat) (ecc : EccFact), d.kovReady k 0x01 ecc = true → Gives (.cmul k ecc) d ((d.kovEcc k ecc).kovDo k opCmul))
  ∧ (∀ (d : Dev) (k : Nat) (ecc : EccFact), d.kovReady k 0x02 ecc = true → Gives (.cmulj k ecc) d ((d.kovEcc k ecc).kovDo k
     opCmulj))
  ∧ (∀ (d : Dev) (k : Nat) (ecc : EccFact), d.kovReady k 0x03 ecc = true → Gives (.cmac k ecc) d ((d.kovEcc k ecc).kovDo k opCmac))
  ∧ (∀ (d : Dev) (k : Nat) (ecc : EccFact), d.kovReady k 0x04 ecc = true → Gives (.cmacj k ecc) d ((d.kovEcc k ecc).kovDo k
     opCmacj))
  ∧ (∀ (d : Dev) (k : Nat) (ecc : EccFact), d.kovReady k 0x05 ecc = true → Gives (.cmsu k ecc) d ((d.kovEcc k ecc).kovDo k opCmsu))
  ∧ (∀ (d : Dev) (k : Nat) (ecc : EccFact), d.kovReady k 0x06 ecc = true → Gives (.cmsuj k ecc) d ((d.kovEcc k ecc).kovDo k
     opCmsuj))
  ∧ (∀ (d : Dev) (k : Nat) (ecc : EccFact), d.kovReady k 0x07 ecc = true → Gives (.rmul k ecc) d ((d.kovEcc k ecc).kovDo k opRmul))
  ∧ (∀ (d : Dev) (k : Nat) (ecc : EccFact), d.kovReady k 0x08 ecc = true → Gives (.rmac k ecc) d ((d.kovEcc k ecc).kovDo k opRmac))
  ∧ (∀ (d : Dev) (k : Nat) (ecc : EccFact), d.kovReady k 0x09 ecc = true → Gives (.rdmac k ecc) d ((d.kovEcc k ecc).kovDo k
     opRdmac))
  ∧ (∀ (d : Dev) (k : Nat) (ecc : EccFact), d.kovReady k 0x0A ecc = true → Gives (.aext k ecc) d ((d.kovEcc k ecc).kovDo k opAext))
  ∧ (∀ (d : Dev) (k : Nat) (ecc : EccFact), d.kovReady k 0x0B ecc = true → Gives (.ald k ecc) d ((d.kovEcc k ecc).kovDo k opAld))
  ∧ (∀ (d : Dev) (k : Nat) (ecc : EccFact), d.kovReady k 0x0C ecc = true → Gives (.aadd k ecc) d ((d.kovEcc k ecc).kovDo k opAadd))
  ∧ (∀ (d : Dev) (k : Nat) (ecc : EccFact), d.kovReady k 0x0D ecc = true → Gives (.asub k ecc) d ((d.kovEcc k ecc).kovDo k opAsub))
  ∧ (∀ (d : Dev) (k : Nat) (ecc : EccFact), d.kovReady k 0x0E ecc = true → Gives (.ared k ecc) d ((d.kovEcc k ecc).kovDo k opAred))
  ∧ (∀ (d : Dev) (k : Nat) (ecc : EccFact), d.kovReady k 0x0F ecc = true → Gives (.aexp k ecc) d ((d.kovEcc k ecc).kovDo k opAexp))
  ∧ (∀ (d : Dev) (k : Nat) (ecc : EccFact), d.kovReady k 0x10 ecc = true → Gives (.anorm k ecc) d ((d.kovEcc k ecc).kovDo k
     opAnorm))
  ∧ (∀ (d : Dev) (k : Nat) (ecc : EccFact), d.kovReady k 0x11 ecc = true → Gives (.vexp k ecc) d ((d.kovEcc k ecc).kovDo k opVexp))
  ∧ (∀ (d : Dev) (k : Nat) (ecc : EccFact), d.kovReady k 0x12 ecc = true → Gives (.vnorm k ecc) d ((d.kovEcc k ecc).kovDo k
     opVnorm))
  ∧ (∀ (d : Dev) (k : Nat) (ecc : EccFact), d.kovReady k 0x13 ecc = true → Gives (.sexp k ecc) d ((d.kovEcc k ecc).kovDo k opSexp))

/-- Koveton bundles: vector operations: A core in service that runs, does not wait and stands at a legal bundle of the named
opcode, which ECC lets it read, issues it, a corrected error being counted: the operation slot does what the model's
function of that opcode says, then the move slots, and the core goes on to the next bundle (Dev.kovDo). -/
def Obligations.KovetonVectorOpsComplete : Prop :=
  (∀ (d : Dev) (k : Nat) (ecc : EccFact), d.kovReady k 0x14 ecc = true → Gives (.vadd k ecc) d ((d.kovEcc k ecc).kovDo k opVadd))
  ∧ (∀ (d : Dev) (k : Nat) (ecc : EccFact), d.kovReady k 0x15 ecc = true → Gives (.vsub k ecc) d ((d.kovEcc k ecc).kovDo k opVsub))
  ∧ (∀ (d : Dev) (k : Nat) (ecc : EccFact), d.kovReady k 0x16 ecc = true → Gives (.vshr k ecc) d ((d.kovEcc k ecc).kovDo k opVshr))
  ∧ (∀ (d : Dev) (k : Nat) (ecc : EccFact), d.kovReady k 0x17 ecc = true → Gives (.vshl k ecc) d ((d.kovEcc k ecc).kovDo k opVshl))
  ∧ (∀ (d : Dev) (k : Nat) (ecc : EccFact), d.kovReady k 0x18 ecc = true → Gives (.vmax k ecc) d ((d.kovEcc k ecc).kovDo k opVmax))
  ∧ (∀ (d : Dev) (k : Nat) (ecc : EccFact), d.kovReady k 0x19 ecc = true → Gives (.vmin k ecc) d ((d.kovEcc k ecc).kovDo k opVmin))
  ∧ (∀ (d : Dev) (k : Nat) (ecc : EccFact), d.kovReady k 0x1A ecc = true → Gives (.vabs2 k ecc) d ((d.kovEcc k ecc).kovDo k
     opVabs2))
  ∧ (∀ (d : Dev) (k : Nat) (ecc : EccFact), d.kovReady k 0x1B ecc = true → Gives (.vconj k ecc) d ((d.kovEcc k ecc).kovDo k
     opVconj))
  ∧ (∀ (d : Dev) (k : Nat) (ecc : EccFact), d.kovReady k 0x1C ecc = true → Gives (.vneg k ecc) d ((d.kovEcc k ecc).kovDo k opVneg))
  ∧ (∀ (d : Dev) (k : Nat) (ecc : EccFact), d.kovReady k 0x1D ecc = true → Gives (.vmov k ecc) d ((d.kovEcc k ecc).kovDo k opVmov))
  ∧ (∀ (d : Dev) (k : Nat) (ecc : EccFact), d.kovReady k 0x1E ecc = true → Gives (.vbc k ecc) d ((d.kovEcc k ecc).kovDo k opVbc))
  ∧ (∀ (d : Dev) (k : Nat) (ecc : EccFact), d.kovReady k 0x1F ecc = true → Gives (.vilv k ecc) d ((d.kovEcc k ecc).kovDo k opVilv))
  ∧ (∀ (d : Dev) (k : Nat) (ecc : EccFact), d.kovReady k 0x20 ecc = true → Gives (.vrcp k ecc) d ((d.kovEcc k ecc).kovDo k opVrcp))
  ∧ (∀ (d : Dev) (k : Nat) (ecc : EccFact), d.kovReady k 0x21 ecc = true → Gives (.vrsq k ecc) d ((d.kovEcc k ecc).kovDo k opVrsq))
  ∧ (∀ (d : Dev) (k : Nat) (ecc : EccFact), d.kovReady k 0x22 ecc = true → Gives (.vins k ecc) d ((d.kovEcc k ecc).kovDo k opVins))
  ∧ (∀ (d : Dev) (k : Nat) (ecc : EccFact), d.kovReady k 0x23 ecc = true → Gives (.vext k ecc) d ((d.kovEcc k ecc).kovDo k opVext))

/-- Koveton bundles: scalar operations, loads and stores: A core in service that runs, does not wait and stands at a legal
bundle of the named opcode, which ECC lets it read, issues it, a corrected error being counted: the operation slot does what
the model's function of that opcode says, then the move slots, and the core goes on to the next bundle (Dev.kovDo). -/
def Obligations.KovetonScalarOpsComplete : Prop :=
  (∀ (d : Dev) (k : Nat) (ecc : EccFact), d.kovReady k 0x24 ecc = true → Gives (.sadd k ecc) d ((d.kovEcc k ecc).kovDo k opSadd))
  ∧ (∀ (d : Dev) (k : Nat) (ecc : EccFact), d.kovReady k 0x25 ecc = true → Gives (.ssub k ecc) d ((d.kovEcc k ecc).kovDo k opSsub))
  ∧ (∀ (d : Dev) (k : Nat) (ecc : EccFact), d.kovReady k 0x26 ecc = true → Gives (.sand k ecc) d ((d.kovEcc k ecc).kovDo k opSand))
  ∧ (∀ (d : Dev) (k : Nat) (ecc : EccFact), d.kovReady k 0x27 ecc = true → Gives (.sor k ecc) d ((d.kovEcc k ecc).kovDo k opSor))
  ∧ (∀ (d : Dev) (k : Nat) (ecc : EccFact), d.kovReady k 0x28 ecc = true → Gives (.sxor k ecc) d ((d.kovEcc k ecc).kovDo k opSxor))
  ∧ (∀ (d : Dev) (k : Nat) (ecc : EccFact), d.kovReady k 0x29 ecc = true → Gives (.sshl k ecc) d ((d.kovEcc k ecc).kovDo k opSshl))
  ∧ (∀ (d : Dev) (k : Nat) (ecc : EccFact), d.kovReady k 0x2A ecc = true → Gives (.sshr k ecc) d ((d.kovEcc k ecc).kovDo k opSshr))
  ∧ (∀ (d : Dev) (k : Nat) (ecc : EccFact), d.kovReady k 0x2B ecc = true → Gives (.smul k ecc) d ((d.kovEcc k ecc).kovDo k opSmul))
  ∧ (∀ (d : Dev) (k : Nat) (ecc : EccFact), d.kovReady k 0x2C ecc = true → Gives (.scmp k ecc) d ((d.kovEcc k ecc).kovDo k opScmp))
  ∧ (∀ (d : Dev) (k : Nat) (ecc : EccFact), d.kovReady k 0x2D ecc = true → Gives (.saddi k ecc) d ((d.kovEcc k ecc).kovDo k
     opSaddi))
  ∧ (∀ (d : Dev) (k : Nat) (ecc : EccFact), d.kovReady k 0x2E ecc = true → Gives (.sli k ecc) d ((d.kovEcc k ecc).kovDo k opSli))
  ∧ (∀ (d : Dev) (k : Nat) (ecc : EccFact), d.kovReady k 0x2F ecc = true → Gives (.slui k ecc) d ((d.kovEcc k ecc).kovDo k opSlui))
  ∧ (∀ (d : Dev) (k : Nat) (ecc : EccFact), d.kovReady k 0x30 ecc = true → Gives (.smva k ecc) d ((d.kovEcc k ecc).kovDo k opSmva))
  ∧ (∀ (d : Dev) (k : Nat) (ecc : EccFact), d.kovReady k 0x31 ecc = true → Gives (.sld k ecc) d ((d.kovEcc k ecc).kovDo k opSld))
  ∧ (∀ (d : Dev) (k : Nat) (ecc : EccFact), d.kovReady k 0x32 ecc = true → Gives (.sst k ecc) d ((d.kovEcc k ecc).kovDo k opSst))

/-- Koveton bundles: control transfer, mailbox, barrier, DMA and job end: As for the arithmetic bundles; a send needs room in
the mailbox it names, a receive an entry, a DMA post room in the channel, and a DMA wait a channel short enough; a BAR of a
core in the barrier's mask leaves the core waiting with its arrival noted. -/
def Obligations.KovetonControlOpsComplete : Prop :=
  (∀ (d : Dev) (k : Nat) (ecc : EccFact), d.kovReady k 0x33 ecc = true → Gives (.br k ecc) d ((d.kovEcc k ecc).kovDo k opBr))
  ∧ (∀ (d : Dev) (k : Nat) (ecc : EccFact), d.kovReady k 0x34 ecc = true → Gives (.call k ecc) d ((d.kovEcc k ecc).kovDo k opCall))
  ∧ (∀ (d : Dev) (k : Nat) (ecc : EccFact), d.kovReady k 0x35 ecc = true → Gives (.ret k ecc) d ((d.kovEcc k ecc).kovDo k opRet))
  ∧ (∀ (d : Dev) (k : Nat) (ecc : EccFact), d.kovReady k 0x36 ecc = true → Gives (.loop k ecc) d ((d.kovEcc k ecc).kovDo k opLoop))
  ∧ (∀ (d : Dev) (k : Nat) (ecc : EccFact), d.kovReady k 0x37 ecc = true → Gives (.reti k ecc) d ((d.kovEcc k ecc).kovDo k opReti))
  ∧ (∀ (d : Dev) (k : Nat) (ecc : EccFact), d.kovReady k 0x38 ecc = true → Gives (.retf k ecc) d ((d.kovEcc k ecc).kovDo k opRetf))
  ∧ (∀ (d : Dev) (k : Nat) (ecc : EccFact), d.kovReady k 0x3E ecc = true → Gives (.jend k ecc) d ((d.kovEcc k ecc).kovDo k opJend))
  ∧ (∀ (d : Dev) (k : Nat) (ecc : EccFact), d.kovReady k 0x3F ecc = true → Gives (.halt k ecc) d ((d.kovEcc k ecc).kovDo k opHalt))
  ∧ (∀ (d : Dev) (k : Nat) (ecc : EccFact), d.kovReady k 0x39 ecc = true → d.mbsRoom k = true → Gives (.mbs k ecc) d ((d.kovEcc k
     ecc).kovDo k opMbs))
  ∧ (∀ (d : Dev) (k : Nat) (ecc : EccFact), d.kovReady k 0x3A ecc = true → (d.core k).mbx.isEmpty = false → Gives (.mbr k ecc) d
     ((d.kovEcc k ecc).kovDo k opMbr))
  ∧ (∀ (d : Dev) (k n : Nat) (ecc : EccFact) (e : Dev), d.kovReady k 0x3B ecc = true → n = (d.bundle k (d.corePc k)).1 % 8 → e =
     (d.kovEcc k ecc).setWait k 3 → e.coreWait k = 3 → bit (d.rd kclPage (KOV_BAR.MASK.at n)) k = true → Gives (.bar k ecc) d
     (e.wr kclPage (KOV_BAR.ARRIVED.at n) (e.rd kclPage (KOV_BAR.ARRIVED.at n) ||| 2 ^ k)))
  ∧ (∀ (d : Dev) (k : Nat) (ecc : EccFact), d.kovReady k 0x3C ecc = true → (d.chan k).queue.length < 16 → Gives (.dmq k ecc) d
     ((d.kovEcc k ecc).kovDo k opDmq))
  ∧ (∀ (d : Dev) (k : Nat) (ecc : EccFact), d.kovReady k 0x3D ecc = true → d.dmwDone k = true → Gives (.dmw k ecc) d ((d.kovEcc k
     ecc).kovDo k opDmw))

/-- Koveton cores: waits that end, barriers, loops, interrupts, mailboxes and the timer: A wait ends when what it waits for is
there: the core counts the cycles it waited and issues its bundle; a complete barrier clears its arrivals and lets every
core that arrived go on; a write of a mask is kept and may complete the barrier; an exhausted loop goes on behind it; an
interrupt pending and let through saves the PC, enters its state and goes to its vector; a mailbox word with room is taken;
a soft interrupt is pending; an expired timer is pending. -/
def Obligations.KovetonEventsComplete : Prop :=
  (∀ (d : Dev) (k : Nat) (v : Dev × Nat) (u : Dev × KCore), d.mbsRoom k = true → d.kovAt k 0x39 = true → d.coreWait k ≠ 0 → v =
     d.draw 16 → u = v.1.coreTick k v.2 (v.1.core k) → Gives (.mbsRoom k) d (((((u.1.setCore k u.2).cnt (corePage k)
     KOV_CNT_STALL_WAIT.COUNT v.2).setWait k 0).kovDo k opMbs)))
  ∧ (∀ (d : Dev) (k : Nat) (v : Dev × Nat) (u : Dev × KCore), (d.core k).mbx.isEmpty = false → d.kovAt k 0x3A = true → d.coreWait
     k ≠ 0 → v = d.draw 16 → u = v.1.coreTick k v.2 (v.1.core k) → Gives (.mbrEntryArrives k) d (((((u.1.setCore k u.2).cnt
     (corePage k) KOV_CNT_STALL_WAIT.COUNT v.2).setWait k 0).kovDo k opMbr)))
  ∧ (∀ (d : Dev) (k : Nat) (v : Dev × Nat) (u : Dev × KCore), (d.chan k).queue.length < 16 → d.kovAt k 0x3C = true → d.coreWait k
     ≠ 0 → v = d.draw 16 → u = v.1.coreTick k v.2 (v.1.core k) → Gives (.dmqRoom k) d (((((u.1.setCore k u.2).cnt (corePage k)
     KOV_CNT_STALL_WAIT.COUNT v.2).setWait k 0).kovDo k opDmq)))
  ∧ (∀ (d : Dev) (k : Nat) (v : Dev × Nat) (u : Dev × KCore), d.dmwDone k = true → d.kovAt k 0x3D = true → d.coreWait k ≠ 0 → v =
     d.draw 16 → u = v.1.coreTick k v.2 (v.1.core k) → Gives (.dmwWaitEnds k) d (((((u.1.setCore k u.2).cnt (corePage k)
     KOV_CNT_STALL_WAIT.COUNT v.2).setWait k 0).kovDo k opDmw)))
  ∧ (∀ (d : Dev) (bar : Nat), bar < 8 → d.barComplete bar = true → Gives (.barrierRelease bar) d ((d.wr kclPage
     (KOV_BAR.ARRIVED.at bar) 0).forAll ((List.range 16).filter (bit (d.rd kclPage (KOV_BAR.ARRIVED.at bar)))) fun k g =>
     g.kovResume k 0x3B opNop))
  ∧ (∀ (d : Dev) (bar mask : Nat), bar < 8 → d.answers kclPage = true → d.inReset kclPage = false → d.unpowered kclPage = false →
     Gives (.barrierMaskWrite bar mask) d (((d.wr kclPage (KOV_BAR.MASK.at bar) mask).complete .okay).barRelease bar))
  ∧ (∀ (d : Dev) (k : Nat) (r : KCore × Nat × Nat) (u : Dev × KCore), k < 16 → (d.core k).exhaust = true → d.active (corePage k) =
     true → r = kExhaust (d.core k) (d.corePc k) 3 → u = d.coreTick k r.2.2 r.1 → Gives (.loopCountExhausted k) d ((u.1.setCore k
     u.2).setPc k r.2.1))
  ∧ (∀ (d : Dev) (k : Nat), d.kovBetween k = true → d.kovPending k true = true → (d.core k).inF = false → Gives
     (.fastInterruptEntry k) d (((((d.barWithdraw k).setCore k
     { d.core k with retF := d.corePc k, inF := true, bank := true, ready := [] }).setWait k 0).setPc k ((((d.barWithdraw
     k).setCore k { d.core k with retF := d.corePc k, inF := true, bank := true, ready := [] })).rd (corePage k)
     KOV_VEC.VEC_FAST))))
  ∧ (∀ (d : Dev) (k : Nat) (e : Dev), d.kovBetween k = true → d.kovPending k false = true → (d.core k).flag 8 = true → (d.core
     k).inF = false → d.kovPending k true = false → e = (d.barWithdraw k).setCore k
     ({ d.core k with retN := d.corePc k, inN := true, ready := [] }.setFlag 8 false) → Gives (.normalInterruptEntry k) d
     ((e.setWait k 0).setPc k (e.rd (corePage k) KOV_VEC.VEC_IRQ)))
  ∧ (∀ (d : Dev) (k data : Nat), k < 16 → d.answers (corePage k) = true → d.inService (corePage k) = true → (d.core k).mbx.length
     < 8 → Gives (.kovMbxInWrite k data) d ((d.mbxPush k (BitVec.ofNat 32 data)).complete .okay))
  ∧ (∀ (d : Dev) (k : Nat), k < 16 → d.answers (corePage k) = true → d.inService (corePage k) = true → Gives (.kovSoftIrq k) d
     ((d.wr (corePage k) KOV_IRQ_PEND.SOFT 1).complete .okay))
  ∧ (∀ (d : Dev) (k : Nat) (u : Dev × KCore), k < 16 → d.active (corePage k) = true → u = d.coreTick k (d.rd (corePage k)
     KOV_TMR.COUNT) (d.core k) → Gives (.kovTimerExpiry k) d (u.1.setCore k u.2))

/-- Koveton jobs and DMA: A job whose type is one and whose queue has room joins the queue and counts; the first acceptable job
starts on the lowest idle core; queued jobs at their due boundary end LATE; a job past its limit faults its core 0x40; a
descriptor posted over the fabric joins its channel; the first descriptor of a live channel completes; a DMW whose bound
passes counts its stall cycle. -/
def Obligations.KovetonJobCommandsComplete : Prop :=
  (∀ (d : Dev) (addr : Nat) (host : List (Nat × Nat)) (w : Dev × List Nat), d.inService kclPage = true → w = d.readWords host
     (addr % 2 ^ 30 * 64) 16 → Gives (.kovJobPost addr host) d ((w.1.kovPost (addr % 2 ^ 30 * 64) w.2).complete .okay))
  ∧ (∀ (d : Dev) (k i : Nat) (j : KJob), d.active kclPage = true → (((List.range 16).findSome? fun k => if d.coreIdle k then
     (d.firstJob (d.coreAccepts k)).map fun e => (k, e) else none) = some (k, i, j)) → Gives (.jobStart) d ((d.setJobs
     (d.kov.jobs.eraseIdx i)).jobBegin k j))
  ∧ (∀ (d : Dev), d.active kclPage = true → Gives (.jobDueExpiry) d (d.jobDue))
  ∧ (∀ (d : Dev) (k : Nat) (j : KJob), (d.core k).job = some j → d.active (corePage k) = true → d.rd kclPage KOV_JOB_LIMIT.LIMIT ≠
     0 → Gives (.jobLimitExpiry k) d ((d.reach (j.start * nsU + d.rd kclPage KOV_JOB_LIMIT.LIMIT * usU)).coreFault k 0x40 0 0))
  ∧ (∀ (d : Dev) (ch addr : Nat) (host : List (Nat × Nat)) (w : Dev × List Nat), ch = 16 ∨ ch = 17 → d.inService kclPage = true →
     (d.chan ch).queue.length < 16 → w = d.readWords host (addr % 2 ^ 31 * 32) 8 → Gives (.dmaFabricPost ch addr host) d
     ((w.1.dmaPost ch (addr % 2 ^ 31 * 32) w.2).complete .okay))
  ∧ (∀ (d : Dev) (ch : Nat) (host : List (Nat × Nat)), ch < 18 → d.chanActive ch = true → (d.chan ch).queue ≠ [] → Gives
     (.dmaDescriptorDone ch host) d (d.dmaDone ch host))
  ∧ (∀ (d : Dev) (k : Nat) (u : Dev × KCore), d.coreIssues k = true → u = d.coreTick k 1 (d.core k) → Gives (.dmaWaitExpiry k
     true) d ((u.1.setCore k u.2).cnt (corePage k) KOV_CNT_STALL_DMA.COUNT))

/-- Packet menus, passes and counters: A swap with no draining menu makes the other menu active, steps EPOCH and starts the
drain; the drain ends with its event when no frame of the old menu is left; a TCAM write to a menu that does not drain with
a legal action stores the staged entry; an invalidate clears VALID; reads stage the entry, the header selection or the
direct action; a header write needs an IDLE menu, a legal action and a legal selection; a direct write needs an index below
1024; each posts its result; a counter read latches packets and octets and a clearing read zeroes them; the oldest waiting
frame of a pipeline makes its first pass and the oldest recirculated one its second. -/
def Obligations.MenuCommandsComplete : Prop :=
  (∀ (d : Dev), d.answers 0x060 = true → d.menuDraining = false → Gives (.menuSwap) d (((d.wr 0x060 PKT_MENU_CTL.ACTIVE (1 -
     d.menuActive)).bump 0x060 PKT_MENU_CTL.EPOCH).wr 0x060 PKT_MENU_CTL.OLD_STATE 1))
  ∧ (∀ (d : Dev), d.menuDraining = true → (∀ f ∈ d.pkt.recirc, f.menu = d.menuActive) → Gives (.menuDrainDone) d ((d.wr 0x060
     PKT_MENU_CTL.OLD_STATE 0).ev 0x060 8))
  ∧ (∀ (d : Dev) (menu index : Nat) (anomaly : Bool) (e : Dev), menu < 2 → index < 16384 → e = d.tcCmd index menu anomaly 1 →
     e.menuDrains menu = false → actCheck (e.staged 0x200 8) false = 0 → d.answers 0x060 = true → Gives (.tcWrite menu index
     anomaly) d ((e.setTc menu index
     { valid := true, anomaly := anomaly, value := wide (e.staged 0xA0 10), mask := wide (e.staged 0xD0 10), action := e.staged 0x200 8 }).tcPost
     0))
  ∧ (∀ (d : Dev) (menu index : Nat) (e : Dev), menu < 2 → index < 16384 → e = d.tcCmd index menu false 2 → e.menuDrains menu =
     false → d.answers 0x060 = true → Gives (.tcInvalidate menu index) d ((e.setTc menu index
     { e.tcEntry menu index with valid := false }).tcPost 0))
  ∧ (∀ (d : Dev) (menu index : Nat) (e : Dev), menu < 2 → index < 16384 → e = d.tcCmd index menu false 3 → d.answers 0x060 = true
     → Gives (.tcRead menu index) d ((((e.setStaged 0xA0 (narrow (e.tcEntry menu index).value 10)).setStaged 0xD0 (narrow
     (e.tcEntry menu index).mask 10)).setStaged 0x200 (e.tcEntry menu index).action).tcPost 0))
  ∧ (∀ (d : Dev) (menu : Nat) (e : Dev), menu < 2 → e = d.tcCmd 0 menu false 4 → e.menuIdle menu = true → actCheck (e.staged 0x200
     8) false = 0 → keySelBad (bits (e.rdW 0x060 0xA0).toNat 0 12) = false → d.answers 0x060 = true → Gives (.tcWriteHdr menu) d
     ({ e.tcPost 0 with pkt := { (e.tcPost 0).pkt with hdr := put e.pkt.hdr menu (bits (e.rdW 0x060 0xA0).toNat 0 12, e.staged 0x200 8) } }))
  ∧ (∀ (d : Dev) (menu : Nat) (e : Dev), menu < 2 → e = d.tcCmd 0 menu false 5 → d.answers 0x060 = true → Gives (.tcReadHdr menu)
     d (((e.setStaged 0xA0 [(e.rdW 0x060 0xA0).toNat - (e.rdW 0x060 0xA0).toNat % 4096 + (e.menuHdr menu).1]).setStaged 0x200
     (e.menuHdr menu).2).tcPost 0))
  ∧ (∀ (d : Dev) (index : Nat) (e : Dev), index < 1024 → e = d.tcCmd index 0 false 6 → actCheck (e.staged 0x200 8) true = 0 →
     d.answers 0x060 = true → Gives (.tcWriteDirect index) d
     ({ e.tcPost 0 with pkt := { (e.tcPost 0).pkt with direct := put e.pkt.direct index (e.staged 0x200 8) } }))
  ∧ (∀ (d : Dev) (index : Nat) (e : Dev), index < 1024 → e = d.tcCmd index 0 false 7 → d.answers 0x060 = true → Gives
     (.tcReadDirect index) d ((e.setStaged 0x200 (e.directAction index)).tcPost 0))
  ∧ (∀ (d : Dev) (index : Nat), d.answers 0x061 = true → Gives (.ctrRead index) d (d.ctrRead index false))
  ∧ (∀ (d : Dev) (index : Nat), d.answers 0x061 = true → Gives (.ctrReadClear index) d (d.ctrRead index true))
  ∧ (∀ (d : Dev) (pipe : Nat) (host : List (Nat × Nat)) (f : PFrame) (l : List PFrame), d.pktRuns = true → d.waiting pipe = f :: l
     → Gives (.firstPass pipe host) d
     (({ d with pkt := { d.pkt with inq := d.pkt.inq.filter fun g => decide (g.basket ≠ f.basket) } } : Dev).pass f false host))
  ∧ (∀ (d : Dev) (pipe : Nat) (host : List (Nat × Nat)) (f : PFrame) (l : List PFrame), d.pktRuns = true → (d.pkt.recirc.filter
     (fun f => decide ((if f.src < 8 then 0 else 1) = pipe)) = f :: l) → Gives (.secondPass pipe host) d
     (({ d with pkt := { d.pkt with recirc := d.pkt.recirc.filter fun g => decide (g.basket ≠ f.basket) } } : Dev).pass f true
     host))

/-- Packet rings: A write of PKT_RING_CFG with a TYPE and a legal size makes an inactive ring active with both indices 0; one
with TYPE 0 makes an active ring inactive; a software index that leaves the ring no more than full is taken; a whole frame
of a TX ring enters pipeline 0 with its descriptors returned with status 0, or 1 when no basket was free; a completion on
its way frees the frame and is written where the frame came from a ring; the interrupt timer of a ring with descriptors
advanced sets its interrupt. -/
def Obligations.RingCommandsComplete : Prop :=
  (∀ (d : Dev) (ring cfg : Nat) (e : Dev), ring < 256 → cfg % 4 ≠ 0 → d.rdB 0x062 (PKT_RING_STAT.ACTIVE.at ring) = false → 4 ≤
     bits cfg 3 5 → bits cfg 3 5 ≤ 16 → e = d.wrW 0x062 (PKT_RING_CFG.word.at ring).off (BitVec.ofNat 32 (cfg % 2 ^ 16 - bits cfg
     2 1 * 4)) → d.answers 0x062 = true → Gives (.ringEnable ring cfg) d (((e.wr 0x062 (PKT_RING_SW.INDEX.at ring) 0).wr 0x062
     (PKT_RING_HW.INDEX.at ring) 0).wr 0x062 (PKT_RING_STAT.ACTIVE.at ring) 1))
  ∧ (∀ (d : Dev) (ring cfg : Nat), ring < 256 → cfg % 4 = 0 → d.rdB 0x062 (PKT_RING_STAT.ACTIVE.at ring) = true → d.answers 0x062
     = true → Gives (.ringDisable ring cfg) d ((d.wrW 0x062 (PKT_RING_CFG.word.at ring).off (BitVec.ofNat 32 (cfg % 2 ^ 16 - bits
     cfg 2 1 * 4))).wr 0x062 (PKT_RING_STAT.ACTIVE.at ring) 0))
  ∧ (∀ (d : Dev) (ring sw : Nat), ring < 256 → sw < 131072 → (if d.ringType ring = 3 then (d.ringHw ring + 131072 - sw) % 131072
     else (sw + 131072 - d.ringHw ring) % 131072) ≤ d.ringSize ring → d.answers 0x062 = true → Gives (.ringSwWrite ring sw) d
     (d.wr 0x062 (PKT_RING_SW.INDEX.at ring) sw))
  ∧ (∀ (d : Dev) (ring : Nat) (host : List (Nat × Nat)) (ws : List (List Nat)) (o : List Nat) (q : Dev × Bool), d.ringType ring =
     2 → ring < 256 → d.inService 0x062 = true → d.txLook ring host (d.ringHeld ring false) (d.ringHw ring) [] = .frame ws →
     ((ws.map fun v => bits (nth 0 v 2) 0 16).foldl (· + ·) 0 ≤ 9728) → bit (nth 0 (nth [] ws 0) 2) 20 = false ∨ (bit (nth 0 (nth
     [] ws 0) 2) 18 = true ∧ actF (d.directAction (bits (nth 0 (nth [] ws 0) 3) 0 10)) 0 0 3 = 2) → d.txOctets host ws = some o →
     d.inService 0x060 = true → q = d.pktIn
     { basket := 0, src := 0x10, dot11 := bit (nth 0 (nth [] ws 0) 2) 20, info := nth 0 (nth [] ws 0) 4, tsNs := 0, tsFrac := 0, cookie := nth 0 (nth [] ws 0) 5, tsReq := if bit (nth 0 (nth [] ws 0) 2) 19 then some (ring, d.ringHw ring) else none, direct := if bit (nth 0 (nth [] ws 0) 2) 18 then some (bits (nth 0 (nth [] ws 0) 3) 0 10) else none, menu := 0, kt2 := 0xF, inner := false }
     o → Gives (.txRingFrameStart ring host) d (if q.2 then (q.1.txReturn ring ws.length 0).cnt 0x062 PKT_CNT_TX_FRAMES.COUNT else
     q.1.txReturn ring ws.length 1))
  ∧ (∀ (d : Dev) (k : Cpl) (rest : List Cpl) (e f g : Dev), d.cpls = k :: rest → e = ({ d with cpls := rest } : Dev).freeFrame
     k.basket → f = { e with pkt := { e.pkt with sent := del e.pkt.sent k.basket } } → g = (if k.status = 7 ∧ 0x20 ≤ k.outcome ∧
     k.outcome ≤ 0x25 then f.cnt 0x061 PKT_CNT_WLAN_REFUSED.COUNT else f) → Gives (.wlanCompletion) d ((look d.pkt.sent
     k.basket).elim g fun q => if q.1 then g.cplRing q.2 k.words else g))
  ∧ (∀ (d : Dev) (ring : Nat) (t : Nat × Nat), ring < 256 → d.rd 0x062 (PKT_RING_IRQ.IRQ_USEC.at ring) ≠ 0 → d.rdB 0x062
     (PKT_RING_STAT.IRQ.at ring) = false → look d.pkt.since ring = some t → Gives (.ringIrqTimer ring) d ((d.reach ((t.2 + 1000 *
     d.rd 0x062 (PKT_RING_IRQ.IRQ_USEC.at ring)) * nsU)).wr 0x062 (PKT_RING_STAT.IRQ.at ring) 1))

/-- Ethernet MACs, links and MDIO: A good frame for this port enters pipeline 0 after its counters and may start a pause; a
pause whose time is over lets its queue go on; a pause in force repeats while the FIFO stands at XON or more and ends below
it; the frame a port serves goes on the line with the link up, whole in the FIFO or not; a frame on the line is done, or
underruns where it was not whole in the FIFO, and the frame boundary follows; a link whose condition changes is shown, and
its loss has its effects; a lane whose status changes is shown with its event; a free MDIO master takes a command and its
end posts the data of a read, free where the page does not own the balls; reads of a crumb and of an octet counter return
and capture. -/
def Obligations.EthernetCommandsComplete : Prop :=
  (∀ (d : Dev) (m ballNs ballFrac corr uncorr : Nat) (octets l : List Nat) (e f : Dev), m < 5 → d.inService (ethPage m) = true →
     d.ethLink m = true → e = (if d.fecOn m then (d.ethCnt m 22 corr).ethCnt m 23 uncorr else d) → d.fecOn m = false ∨ uncorr = 0
     → ethFcsOk octets = true → 64 ≤ octets.length → octets.length ≤ e.rd (ethPage m) ETH_MAX_LEN.MAX_LEN → l = octets.take
     (octets.length - 4) → ob2 l 12 ≠ 0x8808 → e.ethFilter m l = true → e.rxFill m + (e.rxTag m l).length ≤ 131072 → f = (e.ethCnt
     m 0).ethOct m false octets.length → Gives (.ethFrameReceived m octets false ballNs ballFrac corr uncorr) d (((if isBroadcast
     l then f.ethCnt m 4 else if isGroup l then f.ethCnt m 3 else f).pktIn
     { basket := 0, src := m, dot11 := false, info := 0, tsNs := (ballNs * 4 + ballFrac % 4 - e.rd (ethPage m) ETH_TS_ASYM.ING_DLY) / 4 % 2 ^ 32, tsFrac := (ballNs * 4 + ballFrac % 4 - e.rd (ethPage m) ETH_TS_ASYM.ING_DLY) % 4 * 0x4000, cookie := 0, tsReq := none, direct := none, menu := 0, kt2 := 0xF, inner := false }
     (e.rxTag m l)).1.fillCheck m))
  ∧ (∀ (d : Dev) (m queue t : Nat) (e : Dev), look (d.ethM m).pause queue = some t → e = d.reach t → Gives (.pauseTimeExpiry m
     queue) d ((e.setEth m { e.ethM m with pause := del (e.ethM m).pause queue }).showPause m))
  ∧ (∀ (d : Dev) (m t : Nat) (e : Dev), (d.ethM m).gen = some t → 256 * d.rd (ethPage m) ETH_FIFO_THR.XON ≤ d.rxFill m → d.active
     (ethPage m) = true → e = d.reach (t + d.quantaU m (d.rd (ethPage m) ETH_PAUSE.QUANTA) / 2) → Gives (.pauseRepeat m) d
     ((e.setEth m { e.ethM m with gen := some e.now }).sendPause m (e.rd (ethPage m) ETH_PAUSE.QUANTA)))
  ∧ (∀ (d : Dev) (m t : Nat), (d.ethM m).gen = some t → d.rxFill m < 256 * d.rd (ethPage m) ETH_FIFO_THR.XON → d.active (ethPage
     m) = true → Gives (.fifoBelowXon m) d ((d.setEth m { d.ethM m with gen := none }).sendPause m 0))
  ∧ (∀ (d : Dev) (m ballQ q ts : Nat) (t : EthTx) (e : Dev) (l : List Nat) (one : Option (List Nat)), m < 5 → d.active (ethPage m)
     = true → (d.ethM m).line = none → d.ethLink m = true → (d.ethM m).next true = some (q, t) → (∀ b, t.basket = some b → (look
     d.pkt.chains b).isSome = true ∧ d.frameBad b = none) → e = d.setEth m ((d.ethM m).pop q) → ts = ballQ + d.rd (ethPage m)
     ETH_TS_ASYM.EGR_DLY → one = (if d.rdB (ethPage m) ETH_CFG.ONE_STEP then oneStep (padTo60 (e.txTag m t.octets)) ts else none)
     → l = one.getD (padTo60 (e.txTag m t.octets)) → Gives (.ethTxStart m ballQ) d (e.setEth m
     { (d.ethM m).pop q with line := some { tx := { t with octets := if t.ven then patch l ((if outerTagged l then 18 else 14) + 12) (beBytes 4 (ts / 4 % 2 ^ 32)) else l }, ts := ts, oneStep := one.isSome, whole := decide ((if t.ven then patch l ((if outerTagged l then 18 else 14) + 12) (beBytes 4 (ts / 4 % 2 ^ 32)) else l).length ≤ d.rd (ethPage m) ETH_TX_THR.START_THR) } }))
  ∧ (∀ (d : Dev) (m sent : Nat) (g : EthLine) (e f : Dev), (d.ethM m).line = some g → g.whole = false → sent < g.tx.octets.length
     → e = (((d.setEth m { d.ethM m with line := none }).emit (.ethSent m (padTo60 (g.tx.octets.take sent)) false)).ethCnt m
     18).ev (ethPage m) 10 → f = e.wr (ethPage m) ETH_TX_THR.START_THR (min 9732 (e.rd (ethPage m) ETH_TX_THR.START_THR + e.rd
     (ethPage m) ETH_TX_THR.THR_STEP * 64)) → Gives (.ethTxUnderrun m sent) d (((f.txFree g.tx).crumb m g.tx g.ts g.oneStep true
     false).lineFree m))
  ∧ (∀ (d : Dev) (m : Nat) (g : EthLine) (e f h : Dev), (d.ethM m).line = some g → e = (((d.setEth m
     { d.ethM m with line := none }).emit (.ethSent m g.tx.octets true)).ethCnt m 12).ethOct m true (g.tx.octets.length + 4) → f =
     (if isBroadcast g.tx.octets then e.ethCnt m 16 else if isGroup g.tx.octets then e.ethCnt m 15 else e) → h = (if g.tx.ven &&
     decide (nth 0 g.tx.octets ((if outerTagged g.tx.octets then 18 else 14) + 2) = 1) then
     { f with ven := { f.ven with sent := (g.ts / 4 % 2 ^ 32 :: f.ven.sent).take 4 } } else f) → Gives (.ethTxDone m) d
     (((h.txFree g.tx).crumb m g.tx g.ts g.oneStep false false).lineFree m))
  ∧ (∀ (d : Dev) (m speed : Nat) (deskewed up : Bool) (e : Dev), m < 5 → d.inReset (ethPage m) = false → up = d.linkCond m
     deskewed → up ≠ d.ethLink m → e = ((d.wr (ethPage m) ETH_LINK.LINK (b2n up)).wr (ethPage m) ETH_LINK.SPEED (if m = 4 ∧ d.rdB
     0x06D ETH_SERDES_MODE.E4_SGMII then min 2 speed else 2)).ev (ethPage m) 9 → Gives (.ethLinkChange m deskewed speed) d (if up
     then e else e.lineLost m))
  ∧ (∀ (d : Dev) (c45 : Bool) (phyad reg data : Nat), d.answers 0x06C = true → d.rdB 0x06C ETH_MDIO_STAT.BUSY = false →
     d.inService 0x06C = true → Gives (.mdioAddress c45 phyad reg data) d (d.mdioSent 0 c45 phyad reg data))
  ∧ (∀ (d : Dev) (c45 : Bool) (phyad reg data : Nat), d.answers 0x06C = true → d.rdB 0x06C ETH_MDIO_STAT.BUSY = false →
     d.inService 0x06C = true → Gives (.mdioWrite c45 phyad reg data) d (d.mdioSent 1 c45 phyad reg data))
  ∧ (∀ (d : Dev) (c45 : Bool) (phyad reg : Nat), d.answers 0x06C = true → d.rdB 0x06C ETH_MDIO_STAT.BUSY = false → d.inService
     0x06C = true → Gives (.mdioReadInc c45 phyad reg) d (d.mdioSent 2 c45 phyad reg (d.rd 0x06C ETH_MDIO_CMD.DATA)))
  ∧ (∀ (d : Dev) (c45 : Bool) (phyad reg : Nat), d.answers 0x06C = true → d.rdB 0x06C ETH_MDIO_STAT.BUSY = false → d.inService
     0x06C = true → Gives (.mdioRead c45 phyad reg) d (d.mdioSent 3 c45 phyad reg (d.rd 0x06C ETH_MDIO_CMD.DATA)))
  ∧ (∀ (d : Dev) (rdata op : Nat) (e f : Dev), (d.ethM 4).mdio = some op → e = d.setEth 4 { d.ethM 4 with mdio := none } → f = (if
     2 ≤ op then (if e.mdioOwned then e.wr 0x06C ETH_MDIO_STAT.RDATA rdata else e.wrFree 0x06C ETH_MDIO_STAT.RDATA) else e) →
     Gives (.mdioDone rdata) d (((f.wr 0x06C ETH_MDIO_STAT.BUSY 0).wr 0x06C ETH_MDIO_CMD.GO 0).ev 0x06C 13))
  ∧ (∀ (d : Dev) (m : Nat) (k : List Nat) (e f : Dev), m < 5 → d.answers (0x068 + m) = true → k = nth [0, 0, 0, 0] (d.ethM
     m).crumbs 0 → e = (d.setEth m { d.ethM m with crumbs := (d.ethM m).crumbs.drop 1 }).wr (ethPage m) ETH_CRUMB_STAT.COUNT
     ((d.ethM m).crumbs.length - 1) → f = (e.wrW (ethPage m) ETH_CRUMB0.word.off (BitVec.ofNat 32 (nth 0 k 0))).wrW (ethPage m)
     ETH_CRUMB1.word.off (BitVec.ofNat 32 (nth 0 k 1)) → Gives (.ethCrumb0Read m) d (((f.wrW (ethPage m) ETH_CRUMB2.word.off
     (BitVec.ofNat 32 (nth 0 k 2))).wrW (ethPage m) ETH_CRUMB3.word.off (BitVec.ofNat 32 (nth 0 k 3))).complete .okay (nth 0 k 0)))
  ∧ (∀ (d : Dev) (m : Nat) (tx : Bool) (n : Nat), m < 5 → d.answers (0x068 + m) = true → n = (if tx then (d.ethM m).txOct else
     (d.ethM m).rxOct) → Gives (.ethOctLoRead m tx) d ((d.wr (ethPage m) ⟨if tx then 0x138 else 0x108, 0, 0, 32⟩ (n / 2 ^
     32)).complete .okay (n % 2 ^ 32)))
  ∧ (∀ (d : Dev) (lane status : Nat), lane < 5 → d.active 0x06D = true → d.rd 0x06D ⟨0x98, 0, 6 * lane, 6⟩ ≠ status % 64 → Gives
     (.serdesLaneStatusChange lane status) d ((d.wr 0x06D ⟨0x98, 0, 6 * lane, 6⟩ status).ev 0x06D 8))

/-- Device time and the servo: A SET with a legal nanosecond value steps device time to the staged value and ends with RESULT 0;
a STEP adds the staged signed amount; a read of PTP_TIME_NS captures the five words and returns the nanoseconds; a sample
with the servo on and SRC 0, not in the cycle of a time command, is tracked or makes a step; LOCKED or TRACKING servos
without samples enter holdover with the proportional term at 0; an enabled timer fires; its output pulse ends; an accepted
edge of an event input is captured, and one of input 0 with SRC 1 is a sample; a read of an input returns word 0, captures
word 1 and clears VALID. -/
def Obligations.TimeCommandsComplete : Prop :=
  (∀ (s u : State) (e : Dev), s.dev.inService ptpPage = true → s.dev.rd ptpPage PTP_SET_NS.VALUE < 1000000000 → u =
     ({ s with dev := s.dev.wr ptpPage PTP_TIME_CMD.OP 1 } : State).stepTo (timeOf (s.dev.rd ptpPage PTP_SET_SEC_LO.VALUE +
     s.dev.rd ptpPage PTP_SET_HI.VALUE % 2 ^ 16 * 2 ^ 32) (s.dev.rd ptpPage PTP_SET_NS.VALUE) 0 + s.dev.setFrac) → e =
     u.dev.timeUnstick → exec .timeSet s = .next { u with dev := e.timeDone 0 })
  ∧ (∀ (s u : State) (e : Dev), s.dev.inService ptpPage = true → u = ({ s with dev := s.dev.wr ptpPage PTP_TIME_CMD.OP 2 } :
     State).stepTo (((s.dev.now : Int) + toSigned 32 (s.dev.rd ptpPage PTP_SET_NS.VALUE) * (nsU : Int) + (s.dev.setFrac : Int)) %
     ((2 ^ 48 * secU : Nat) : Int)).toNat → e = u.dev.timeUnstick → exec .timeStep s = .next { u with dev := e.timeDone 0 })
  ∧ (∀ (d : Dev) (e : Dev), d.answers ptpPage = true → e = ((d.wr ptpPage PTP_TIME_NS.NS (nsOf d.now)).wr ptpPage
     PTP_TIME_SEC_LO.VALUE (secOf d.now)).wr ptpPage PTP_TIME_SEC_HI.VALUE (secOf d.now / 2 ^ 32) → Gives (.ptpTimeNsRead) d
     (((e.wr ptpPage PTP_TIME_FRAC.VALUE (fracOf d.now)).wr ptpPage PTP_TIME_NS32.VALUE (d.ns % 2 ^ 32)).complete .okay (nsOf
     d.now)))
  ∧ (∀ (s : State) (ns : Nat) (e : Int) (f : Dev), s.dev.answers ptpPage = true → f = s.dev.complete .okay → f.rdB ptpPage
     PTP_SERVO_CFG.SRC = false → f.servoOn = true → f.time.cmdAt ≠ some f.now → e = toSigned 32 ns * 65536 + f.rd ptpPage
     PTP_SERVO_OFS_FRAC.OFS_FRAC → (f.servoNote e).servoSteps e = false → exec (.servoSample ns) s = .next
     { s with dev := (f.servoNote e).servoTrack e })
  ∧ (∀ (s u : State) (ns : Nat) (e : Int) (f g : Dev), s.dev.answers ptpPage = true → f = s.dev.complete .okay → f.rdB ptpPage
     PTP_SERVO_CFG.SRC = false → f.servoOn = true → f.time.cmdAt ≠ some f.now → e = toSigned 32 ns * 65536 + f.rd ptpPage
     PTP_SERVO_OFS_FRAC.OFS_FRAC → (f.servoNote e).servoSteps e = true → u = ({ s with dev := f.servoNote e } : State).stepTo
     ((((f.servoNote e).now : Int) - e * (fracU : Int)) % ((2 ^ 48 * secU : Nat) : Int)).toNat → g = (u.dev.wr ptpPage
     PTP_SERVO_STAT.LOCK_CNT 0).servoEnter 1 → exec (.servoSample ns) s = .next
     { u with dev := { g with time := { g.time with lastSample := g.now } } })
  ∧ (∀ (d : Dev) (e : Dev), d.sstate = 1 ∨ d.sstate = 2 → e = (d.reach d.holdAt).servoEnter 3 → Gives (.servoHoldoverTimeout) d
     (({ e with time := { e.time with slew := 0 } } : Dev).adjSync))
  ∧ (∀ (d : Dev) (timer : Nat), timer < 16 → d.bstate ptpPage = .running → d.rdB ptpPage (PTP_TMR.EN.at timer) = true → Gives
     (.eventTimerFire timer) d ((d.reach (d.tmrAt timer)).tmrFire timer false))
  ∧ (∀ (d : Dev) (timer t : Nat) (e : Dev), look d.time.pulses timer = some t → e = d.reach t → Gives (.eventTimerPulseEnd timer)
     d (({ e with time := { e.time with pulses := del e.time.pulses timer } } : Dev).emit (.timerOut timer false)))
  ∧ (∀ (s t : State) (input ball ns frac : Nat) (falling : Bool) (e f : Dev), e = s.dev.reach (s.dev.now + ns * nsU + frac % 2 ^
     16 * fracU) → f = { e with balls := { e.balls with gpio := put e.balls.gpio ball (!falling) } } → f.eviTakes input ball
     falling f.now = true → t = { s with dev := f.eviCapture input f.now } → exec (.eventInputEdge input ball falling ns frac) s =
     .next (if input = 0 ∧ f.rdB ptpPage PTP_SERVO_CFG.SRC then t.servoSample (eviSample f.now) else t))
  ∧ (∀ (d : Dev) (input : Nat) (e : Dev), input < 2 → d.answers ptpPage = true → e = d.wrW ptpPage (PTP_EVI.FRAC.at input).off
     (BitVec.ofNat 32 (nth 0 d.time.eviNew input)) → Gives (.ptpEviRead input) d ((e.wr ptpPage (PTP_EVI.VALID.at input)
     0).complete .okay (d.rdW ptpPage (PTP_EVI.NS.at input).off).toNat))

/-- Control cores: A core that runs software, waits for nothing and stands at an instruction no trigger stops fetches it through
the caches and runs it (R540), a corrected error counted first (R545); an inline cache-block operation runs as the
instruction it is; the interrupt of highest rank is taken as a trap; a parked core, or one held in reset since Nap, whose
MSIP is set clears it and jumps to the address in its mailbox entry. -/
def Obligations.HartCommandsComplete : Prop :=
  (∀ (s u t : State) (core w len raw : Nat) (ecc : EccFact), s.runs core = true → (s.hart core).wait = none → (s.hart core).wfi
     = false ∨ s.wfiEnds core = true → (s.hart core).trigger 2 (s.hart core).pc.toNat = none → (u = s.onHart core fun h =>
     { h with wfi := false }) → t = (if ecc = .corrected then u.onHart core (·.corrected) else u) → (t.fetch core).2 = .ok (some
     w, len, raw) → ecc = .clean ∨ ecc = .corrected ∨ ecc = .uncorrectable 0 → exec (.hartInstruction core ecc) s = .next
     ((t.fetch core).1.runIns core w len raw (decide (ecc = .uncorrectable 0))))
  ∧ (∀ (s : State) (core rs1 : Nat), s.runs core = true → (s.hart core).wait = none → (s.hart core).wfi = false → exec (.cboClean
     core rs1) s = .next (s.runIns core (encI 0x0F 2 0 (rs1 % 32) 1) 4 (encI 0x0F 2 0 (rs1 % 32) 1) false))
  ∧ (∀ (s : State) (core rs1 : Nat), s.runs core = true → (s.hart core).wait = none → (s.hart core).wfi = false → exec (.cboFlush
     core rs1) s = .next (s.runIns core (encI 0x0F 2 0 (rs1 % 32) 2) 4 (encI 0x0F 2 0 (rs1 % 32) 2) false))
  ∧ (∀ (s : State) (core rs1 : Nat), s.runs core = true → (s.hart core).wait = none → (s.hart core).wfi = false → exec (.cboInval
     core rs1) s = .next (s.runIns core (encI 0x0F 2 0 (rs1 % 32) 0) 4 (encI 0x0F 2 0 (rs1 % 32) 0) false))
  ∧ (∀ (s : State) (core i : Nat), s.runs core = true → (s.hart core).wait = none → (s.hart core).wfi = false ∨ s.dev.pstate ≠ 2 →
     s.nextIrq core = some i → exec (.hartInterruptEntry core) s = .next (s.onHart core fun h => ({ h with wfi := false } :
     Hart).trap i 0 true))
  ∧ (∀ (s : State) (hart : Nat) (h : Hart) (f : Dev × Bool), hart < 8 → s.awake = true → (s.hart hart).halted = false → (s.hart
     hart).parked = true ∨ (s.hart hart).running = false → bit s.dev.ctl.msip hart = true → h = (if (s.hart hart).parked then
     s.hart hart else Hart.parkedAt) → f = (s.dev.setMsip hart false).fillLine (lineOf (mailbox + 0x40 + 8 * hart)) → exec
     (.parkedHartMsip hart) s = .next (({ s with dev := f.1 } : State).setHart hart
     { h with parked := false, wfi := false, pc := BitVec.ofNat 64 (ofLeBytes (f.1.cachedBytes (mailbox + 0x40 + 8 * hart) 8)) }))

/-- PLIC and ACLINT: A claim by a context with a pending source returns it, clears its edge and holds a level source until it is
completed; a completion by a context that has the source enabled lets it pend again; a read of the low half of MTIME
captures the high half; MTIME can reach a compare value. -/
def Obligations.InterruptControllerCommandsComplete : Prop :=
  (∀ (d : Dev) (context src : Nat), context < 16 → d.plicBest context = some src → Gives (.plicClaim context) d
     (({ d with ctl := { d.ctl with edge := d.ctl.edge.filter (· ≠ src), claimed := if src < 776 ∨ 808 ≤ src then d.ctl.claimed ++ [src] else d.ctl.claimed } }
     : Dev).complete .okay src))
  ∧ (∀ (d : Dev) (context source : Nat), context < 16 → source < 1024 → d.plicEnabled context source = true → Gives (.plicComplete
     context source) d (({ d with ctl := { d.ctl with claimed := d.ctl.claimed.filter (· ≠ source) } } : Dev).complete .okay))
  ∧ (∀ (d : Dev), Gives (.mtimeLoRead) d (({ d with ctl := { d.ctl with mtimeHi := d.mtime / 2 ^ 32 } } : Dev).complete .okay
     (d.mtime % 2 ^ 32)))
  ∧ (∀ (d : Dev) (hart : Nat), hart < 8 → Gives (.mtimerCompare hart) d
     ({ d with ctl := { d.ctl with refNs := max d.ctl.refNs (100 * nth 0 d.ctl.cmp hart) } }))

/-- PCI Express: A link that may come up is shown with its rate, width and event, and a link that goes down is cleared and ends
the requests that wait; a waiting read takes the outcome of its completion, or a data error after CPL_TO with its count and
event, and is delivered in its turn; an INTx message sets or clears its level; a mapped pending source of an unmasked vector
sends its message; a function-level reset and PERST_N reset the function, PERST_N also wakes; a configuration request to a
bus the bridge forwards is sent, with its status posted, and one it does not forward reads all ones with status UR; an L1
entry that ASPM_L1 allows is shown, an exit too, and an exit request wakes; an error message sets its event. -/
def Obligations.PcieCommandsComplete : Prop :=
  (∀ (d : Dev) (gen width : Nat) (reversed : Bool), d.linkUp = false → d.rdB 0x130 PCIE_CTL.LTSSM_EN = true → d.pcie.perst =
     false → 1 ≤ gen → gen ≤ d.rd 0x130 PCIE_CTL.MAX_GEN + 1 → 1 ≤ width → width ≤ (if d.rdB 0x130 PCIE_CTL.X1 then 1 else 2) →
     Gives (.pcieLinkChange true gen width reversed) d (((((d.wr 0x130 PCIE_LINK.UP 1).wr 0x130 PCIE_LINK.GEN gen).wr 0x130
     PCIE_LINK.WIDTH width).wr 0x130 PCIE_LINK.REVERSED (b2n reversed)).pcieInt 0))
  ∧ (∀ (d : Dev) (gen width : Nat) (reversed : Bool), d.linkUp = true → Gives (.pcieLinkChange false gen width reversed) d
     (((d.wrW 0x130 PCIE_LINK.word.off 0).pcieInt 1).outDrop))
  ∧ (∀ (d : Dev) (index outcome data : Nat) (r : OutRead) (a : Code × Nat), d.pcie.reads[index]? = some r → r.answer = none → a =
     (outcomeCode outcome, if outcomeCode outcome = .okay then data % 256 ^ r.size else 0) → Gives (.pcieOutboundCompletion index
     outcome data) d (({ d with pcie := { d.pcie with reads := setAt d.pcie.reads index { r with answer := some a } } } :
     Dev).outDeliver))
  ∧ (∀ (d : Dev) (index : Nat) (r : OutRead) (e : Dev), d.pcie.reads[index]? = some r → r.answer = none → e = ((d.reach ((r.since
     + d.cplTo * 1000) * nsU)).cnt 0x130 PCIE_ERR_CNT.CPL_TO_CNT).pcieInt 2 → Gives (.pcieCplTimeout index) d (e.outEnd index
     .dataError 0))
  ∧ (∀ (d : Dev) (pin : Nat) (high : Bool), d.endpoint = false → d.linkUp = true → pin < 4 → Gives (.pcieIntxMessage pin high) d
     ({ d with ctl := { d.ctl with intx := if high then d.ctl.intx ||| 2 ^ pin else d.ctl.intx &&& (15 - 2 ^ pin) } }))
  ∧ (∀ (d : Dev) (v : Nat), v < 64 → d.endpoint = true → d.linkUp = true → d.rdB 0x132 (PCIE_MSIX_MAP.EN.at v) = true →
     d.plicRaised (d.rd 0x132 (PCIE_MSIX_MAP.SOURCE.at v)) = true → Gives (.msixVectorSignal v) d (if bit (d.msixW v 3) 0 then
     { d with pcie := { d.pcie with pba := d.pcie.pba ||| 2 ^ v } } else
     { d.emit (.msix v (d.msixW v 0 + d.msixW v 1 * 2 ^ 32) (d.msixW v 2)) with pcie := { d.pcie with pba := if bit d.pcie.pba v then d.pcie.pba - 2 ^ v else d.pcie.pba } }))
  ∧ (∀ (d : Dev), d.endpoint = true → d.linkUp = true → Gives (.pcieFlr) d (d.functionReset 4))
  ∧ (∀ (d : Dev), d.pcie.perst = false → Gives (.perstAssert) d
     (({ d.functionReset 5 with pcie := { (d.functionReset 5).pcie with perst := true } } : Dev).raiseWake 6))
  ∧ (∀ (d : Dev), d.pcie.perst = true → Gives (.perstRelease) d (({ d with pcie := { d.pcie with perst := false } } :
     Dev).raiseWake 6))
  ∧ (∀ (d : Dev) (status data ty : Nat), d.answers 0x133 = true → d.cfgType = some ty → Gives (.pcieCfgRead status data) d
     (((d.emit (.cfgRequest none ty (d.rd 0x133 PCIE_CFG_ADDR.BUS) (d.rd 0x133 PCIE_CFG_ADDR.DEV) (d.rd 0x133 PCIE_CFG_ADDR.FUNC)
     (d.rd 0x133 PCIE_CFG_ADDR.REG))).wr 0x133 PCIE_CFG_STAT.STATUS (min 3 status)).complete .okay (if min 3 status = 0 then data
     % 2 ^ 32 else 2 ^ 32 - 1)))
  ∧ (∀ (d : Dev) (value status ty : Nat), d.answers 0x133 = true → d.cfgType = some ty → Gives (.pcieCfgWrite value status) d
     (((d.emit (.cfgRequest (some (value % 2 ^ 32)) ty (d.rd 0x133 PCIE_CFG_ADDR.BUS) (d.rd 0x133 PCIE_CFG_ADDR.DEV) (d.rd 0x133
     PCIE_CFG_ADDR.FUNC) (d.rd 0x133 PCIE_CFG_ADDR.REG))).wr 0x133 PCIE_CFG_STAT.STATUS (min 3 status)).complete .okay 0))
  ∧ (∀ (d : Dev) (status data : Nat), d.answers 0x133 = true → d.cfgType = none → Gives (.pcieCfgRead status data) d ((d.wr 0x133
     PCIE_CFG_STAT.STATUS 1).complete .okay (2 ^ 32 - 1)))
  ∧ (∀ (d : Dev), d.linkUp = true → Gives (.pcieL1Change 0) d (d.wr 0x130 PCIE_LINK.L1 0))
  ∧ (∀ (d : Dev) (kind : Nat), 2 ≤ kind → d.linkUp = true → d.rdB 0x130 PCIE_LINK.L1 = true → Gives (.pcieL1Change kind) d
     (d.raiseWake 6))
  ∧ (∀ (d : Dev), d.linkUp = true → d.rdB 0x130 PCIE_CTL.ASPM_L1 = true → Gives (.pcieL1Change 1) d (d.wr 0x130 PCIE_LINK.L1 1))
  ∧ (∀ (d : Dev), d.linkUp = true ∨ d.endpoint = true → Gives (.pcieErrorMessage) d (d.pcieInt 3))

/-- Thread dispatcher: A post of a thread the configuration names with the page in service is counted and acts by the thread's
state; so is a cancel; an ask or yield of a port that is not waiting answers its word or waits; a wait that reaches ASK_WAIT
ends empty, counting threads the floor held back; an interrupt ends a wait empty; a write of the firmware floor is taken; a
write of a port's EN by its own core is taken. -/
def Obligations.DispatcherCommandsComplete : Prop :=
  (∀ (d : Dev) (handle level aff : Nat), d.inService dspPage = true → d.handleOk handle = true → handle < 65536 → level < 64 →
     aff < 256 → Gives (.threadPost handle level aff) d ((d.threadPost handle level aff).complete .okay))
  ∧ (∀ (d : Dev) (handle : Nat), d.inService dspPage = true → d.handleOk handle = true → handle < 65536 → Gives (.threadCancel
     handle) d ((d.threadCancel handle).complete .okay))
  ∧ (∀ (d : Dev) (core : Nat) (r : Dev × Option Nat), core < 8 → d.active dspPage = true → (d.port core).wait = none → r = d.ask
     core false → Gives (.dspAsk core) d (match r.2 with | some w => r.1.complete .okay w | none => r.1))
  ∧ (∀ (d : Dev) (core : Nat) (r : Dev × Option Nat), core < 8 → d.active dspPage = true → (d.port core).wait = none → r = d.ask
     core true → Gives (.dspYield core) d (match r.2 with | some w => r.1.complete .okay w | none => r.1))
  ∧ (∀ (d : Dev) (core t : Nat) (e : Dev), core < 8 → (d.port core).wait = some t → e = d.reach ((t + 1000 * d.rd dspPage
     DSP_CFG.ASK_WAIT) * nsU) → Gives (.askTimeout core) d ((if e.dsp.ready.any fun h => e.mayTake core h && decide ((e.thread
     h).level < e.floor) then e.cnt dspPage DSP_CNT_FLOOR_HELD.COUNT else e).endWaitEmpty core))
  ∧ (∀ (d : Dev) (core t : Nat), core < 8 → (d.port core).wait = some t → Gives (.askInterrupted core) d (((d.endWait core (some
     0)).cnt dspPage DSP_CNT_EMPTY.COUNT).dspSync))
  ∧ (∀ (d : Dev) (value : Nat), d.answers dspPage = true → Gives (.dspFloorWrite value) d ((d.setFloor (d.rd dspPage
     DSP_FLOOR.GOV_FLOOR) (value % 64)).complete .okay))
  ∧ (∀ (d : Dev) (core : Nat) (en : Bool), core < 8 → d.answers dspPage = true → Gives (.dspCoreEnWrite core core en) d
     ((d.portEnable core en).complete .okay))

/-- Shared SRAM and the hamper: A scrub read that finds a corrected error counts it, and one that finds an uncorrectable word
records it; a write of SRM_THERMOS is taken; a group whose wake or zeroing is done serves accesses again; an idle group
woken by an access goes back to standby; a wipe asked for in machine mode empties the hamper and starts, and its end posts
the cause and counts. -/
def Obligations.MemoryCommandsComplete : Prop :=
  (∀ (d : Dev) (addr : Nat), d.bstate srmPage = .running → d.rdB srmPage SRM_SCRUB.SCRUB_EN = true → (sramBase ≤ addr ∧ addr <
     hamperBase ∧ d.group (d.groupOf addr) = 0) ∨ (hamperBase ≤ addr ∧ addr < hamperBase + 0x100000 ∧ d.rdB srmPage
     SRM_HAMPER.WIPING = false) → Gives (.scrubStep addr .corrected) d (d.cnt srmPage SRM_CNT_CORR.COUNT))
  ∧ (∀ (d : Dev) (addr o : Nat), d.bstate srmPage = .running → d.rdB srmPage SRM_SCRUB.SCRUB_EN = true → (sramBase ≤ addr ∧ addr <
     hamperBase ∧ d.group (d.groupOf addr) = 0) ∨ (hamperBase ≤ addr ∧ addr < hamperBase + 0x100000 ∧ d.rdB srmPage
     SRM_HAMPER.WIPING = false) → Gives (.scrubStep addr (.uncorrectable o)) d
     (({ d with ms := { d.ms with bad := (d.cell addr / 8 :: d.ms.bad).eraseDups } } : Dev).srmUncorr addr))
  ∧ (∀ (d : Dev) (value : Nat), d.answers srmPage = true → Gives (.srmThermosWrite value) d ((d.thermosWrite value).complete
     .okay))
  ∧ (∀ (d : Dev) (group : Nat) (e : Dev), group < 8 → d.group group = 1 → e = (d.setGroup group 0).heldServe → Gives
     (.groupWakeDone group) d (if e.groupMode group = 1 ∧ group ∈ e.ms.woken then e else e.applyMode group (e.groupMode group)))
  ∧ (∀ (d : Dev) (group : Nat), group < 8 → d.group group = 4 → Gives (.groupZeroingDone group) d (((d.clearGroup group).setGroup
     group 0).applyMode group (d.groupMode group)))
  ∧ (∀ (d : Dev) (group : Nat), group < 8 → d.bstate srmPage = .running → d.group group = 0 → d.groupMode group = 1 → group ∈
     d.ms.woken → d.rd srmPage SRM_THERMOS_CFG.IDLE_RET ≠ 0 → Gives (.groupIdleReturn group) d
     ({ d.setGroup group 2 with ms := { d.ms with woken := d.ms.woken.filter (· ≠ group) } }))
  ∧ (∀ (d : Dev) (e : Dev), d.answers 0x078 = true → e = d.freshCells hamperBase (hamperBase + 0x100000) → Gives
     (.hamperWipeRequest true) d ((({ e with ms := { e.ms with wipe := 3 } } : Dev).wr srmPage SRM_HAMPER.WIPING 1).complete
     .okay))
  ∧ (∀ (d : Dev) (e : Dev), d.rdB srmPage SRM_HAMPER.WIPING = true → e = d.freshCells hamperBase (hamperBase + 0x100000) → Gives
     (.hamperWipeDone) d
     (((({ (e.wr srmPage SRM_HAMPER.WIPING 0).wr srmPage SRM_HAMPER.CAUSE e.ms.wipe with ms := { e.ms with wipe := 0 } } :
     Dev).cnt srmPage SRM_HAMPER.WIPES).cnt srmPage SRM_CNT_WIPE.COUNT).ev srmPage 10))

/-- DRAM controller: A refresh is postponed, with its count, only per bank, for a bank that a request of level 3 waits for and
within POSTPONE, and otherwise closes its rows and ends its bank's postponement; a poll of MR4 shows the rate and its
events; an idle channel enters power-down, and in Doze self-refresh; the data of a channel's read on its way returns after
its latency, which is counted, compared and kept, and the channel goes on; a WCK-to-DQ update is counted; a training, save
or restore is taken by a free machine with the page STOPPED and its PHYs running, and its end posts each channel's result; a
read of DRM_ERR_LO captures DRM_ERR_HI. -/
def Obligations.DramCommandsComplete : Prop :=
  (∀ (d : Dev) (channel rank bg ba k : Nat), d.active drmPage = true → k = channel * 32 + rank * 16 + bg * 4 + ba → d.bankUrgent
     k = false ∨ d.rdB drmPage DRM_REFRESH.PER_BANK = false ∨ min 8 (d.rd drmPage DRM_REFRESH.POSTPONE) ≤ lookOr 0 d.ms.postponed
     k → Gives (.dramRefreshDue channel rank bg ba) d (({ d with ms := { d.ms with postponed := del d.ms.postponed k } } :
     Dev).closeRows k))
  ∧ (∀ (d : Dev) (channel rank bg ba k : Nat), d.active drmPage = true → k = channel * 32 + rank * 16 + bg * 4 + ba → d.bankUrgent
     k = true → d.rdB drmPage DRM_REFRESH.PER_BANK = true → lookOr 0 d.ms.postponed k < min 8 (d.rd drmPage DRM_REFRESH.POSTPONE)
     → Gives (.dramRefreshDue channel rank bg ba) d
     (({ d with ms := { d.ms with postponed := put d.ms.postponed k (lookOr 0 d.ms.postponed k + 1) } } : Dev).cnt drmPage
     DRM_CNT_REF_POSTPONE.COUNT))
  ∧ (∀ (d : Dev) (channel rate : Nat) (high trip : Bool) (e f : Dev), channel < 4 → d.active drmPage = true → e = d.wr (phyPage
     channel) DRM_PHY_STAT.REF_RATE rate → f = (if high then e.ev drmPage 12 else e) → Gives (.mr4Poll channel rate high trip) d
     (if trip then f.ev drmPage 13 else f))
  ∧ (∀ (d : Dev) (channel : Nat), channel < 4 → d.active drmPage = true → d.rd drmPage DRM_SR.PD_IDLE ≠ 0 → d.channelIdle channel
     = true → Gives (.dramPowerDownEntry channel) d (d.wr (phyPage channel) DRM_PHY_STAT.POWER_DOWN 1))
  ∧ (∀ (d : Dev) (channel : Nat) (e : Dev), channel < 4 → d.active drmPage = true → d.pstate = 2 → d.channelIdle channel = true →
     (e = { d with ms := { d.ms with rows := d.ms.rows.filter fun r => decide (r.1 / 32 ≠ channel) } }) → Gives
     (.dramSelfRefreshEntry channel) d ((e.wr (phyPage channel) DRM_PHY_STAT.SELF_REFRESH 1).wr (phyPage channel)
     DRM_PHY_STAT.POWER_DOWN 0))
  ∧ (∀ (d : Dev) (channel ns i data : Nat) (near : NearFact) (ecc : EccFact) (r : DramReq) (e : Dev), d.active drmPage = true →
     (d.ms.dq.zipIdx.find? (fun r => decide (r.1.ch = channel) && r.1.issued.isSome && r.1.answer.isNone) = some (r, i)) →
     r.issued = some data → e = (((d.reach ((r.atNs + ns) * nsU)).dramLatency (dramPort r.who) ns).dramReturn i r data ecc) →
     Gives (.dramReadReturn channel ns near ecc) d ((e.dramIssue near channel e.ms.dq.length).dramDeliver))
  ∧ (∀ (d : Dev) (channel : Nat) (zq : Bool), channel < 4 → d.active drmPage = true → Gives (.dramPeriodicUpdate channel zq) d (if
     zq then d else d.cnt drmPage DRM_CNT_RETRAIN.COUNT))
  ∧ (∀ (d : Dev) (steps ch : Nat) (e f : Dev), d.rdB drmPage DRM_TRAIN_STAT.BUSY = false → d.bstate drmPage = .stopped → (∀ k < 4,
     bit ch k = true → d.bstate (phyPage k) = .running) → d.answers 0x079 = true → e = ((d.wr drmPage DRM_TRAIN_CMD.OP 0).wr
     drmPage DRM_TRAIN_CMD.STEPS steps).wr drmPage DRM_TRAIN_CMD.CH ch → f = (e.wr drmPage DRM_TRAIN_STAT.REFUSED 0).wr drmPage
     DRM_TRAIN_STAT.BUSY 1 → Gives (.dramTrain steps ch) d
     ({ f.wr drmPage DRM_TRAIN_CMD.GO 1 with ms := { f.ms with train := some (0, steps % 64, ch % 16) } }))
  ∧ (∀ (d : Dev) (ch : Nat) (e f : Dev), d.rdB drmPage DRM_TRAIN_STAT.BUSY = false → d.bstate drmPage = .stopped → (∀ k < 4, bit
     ch k = true → d.bstate (phyPage k) = .running) → d.answers 0x079 = true → e = ((d.wr drmPage DRM_TRAIN_CMD.OP 1).wr drmPage
     DRM_TRAIN_CMD.STEPS 0).wr drmPage DRM_TRAIN_CMD.CH ch → f = (e.wr drmPage DRM_TRAIN_STAT.REFUSED 0).wr drmPage
     DRM_TRAIN_STAT.BUSY 1 → Gives (.dramTrainSave ch) d
     ({ f.wr drmPage DRM_TRAIN_CMD.GO 1 with ms := { f.ms with train := some (1, 0, ch % 16) } }))
  ∧ (∀ (d : Dev) (ch : Nat) (e f : Dev), d.rdB drmPage DRM_TRAIN_STAT.BUSY = false → d.bstate drmPage = .stopped → (∀ k < 4, bit
     ch k = true → d.bstate (phyPage k) = .running) → d.answers 0x079 = true → e = ((d.wr drmPage DRM_TRAIN_CMD.OP 2).wr drmPage
     DRM_TRAIN_CMD.STEPS 0).wr drmPage DRM_TRAIN_CMD.CH ch → f = (e.wr drmPage DRM_TRAIN_STAT.REFUSED 0).wr drmPage
     DRM_TRAIN_STAT.BUSY 1 → Gives (.dramTrainRestore ch) d
     ({ f.wr drmPage DRM_TRAIN_CMD.GO 1 with ms := { f.ms with train := some (2, 0, ch % 16) } }))
  ∧ (∀ (d : Dev) (fails : List Nat) (op steps ch : Nat), d.ms.train = some (op, steps, ch) → Gives (.dramTrainDone fails) d
     ((d.forAll ((List.range 4).filter (bit ch)) fun k e => e.trainChannel op steps k (nth 0 fails k)).trainEnd))
  ∧ (∀ (d : Dev), d.answers 0x079 = true → Gives (.drmErrLoRead) d ((d.wrW drmPage DRM_ERR_HI.VALID.off (BitVec.ofNat 32
     d.ms.errHi)).complete .okay (d.rd drmPage DRM_ERR_LO.OFS_LO)))

/-- Commands of the security island are taken: With no command in progress, the island in service, not TAMPERED and no
life-cycle change pending (the last two not asked of RAND), GO sets BUSY, reads the command block and keeps it with its
opcode until the command completes; SLOT_LOAD whose checks pass also makes its slot LOADING with its cipher, key identifier
and key. -/
def Obligations.SecurityCommandsStart : Prop :=
  (∀ (d : Dev) (e g : Dev) (l : List Nat), d.answers secPage = true → d.rdB secPage SEC_CMD_STAT.BUSY = false → e = (((d.wr
     secPage SEC_CMD.OP 1).wr secPage SEC_CMD.GO 1).wr secPage SEC_CMD_STAT.BUSY 1).wr secPage SEC_CMD_STAT.OP 1 → e.inService
     secPage = true → e.secRead (e.rd secPage SEC_CMD_ADDR.ADDR * 64) 64 = (g, some l) → Gives (.rand) d
     ({ g with sec := { g.sec with cmd := some { op := 1, words := toWords l 16, early := none } } }))
  ∧ (∀ (d : Dev) (e g : Dev) (l : List Nat), d.answers secPage = true → d.rdB secPage SEC_CMD_STAT.BUSY = false → e = (((d.wr
     secPage SEC_CMD.OP 2).wr secPage SEC_CMD.GO 1).wr secPage SEC_CMD_STAT.BUSY 1).wr secPage SEC_CMD_STAT.OP 2 → e.inService
     secPage = true → e.rdB secPage SEC_STATUS.TAMPERED = false → e.rdB secPage SEC_STATUS.LC_PENDING = false → e.secRead (e.rd
     secPage SEC_CMD_ADDR.ADDR * 64) 64 = (g, some l) → Gives (.genKey) d
     ({ g with sec := { g.sec with cmd := some { op := 2, words := toWords l 16, early := none } } }))
  ∧ (∀ (d : Dev) (e g : Dev) (l : List Nat), d.answers secPage = true → d.rdB secPage SEC_CMD_STAT.BUSY = false → e = (((d.wr
     secPage SEC_CMD.OP 3).wr secPage SEC_CMD.GO 1).wr secPage SEC_CMD_STAT.BUSY 1).wr secPage SEC_CMD_STAT.OP 3 → e.inService
     secPage = true → e.rdB secPage SEC_STATUS.TAMPERED = false → e.rdB secPage SEC_STATUS.LC_PENDING = false → e.secRead (e.rd
     secPage SEC_CMD_ADDR.ADDR * 64) 64 = (g, some l) → Gives (.derive) d
     ({ g with sec := { g.sec with cmd := some { op := 3, words := toWords l 16, early := none } } }))
  ∧ (∀ (d : Dev) (e g : Dev) (l : List Nat), d.answers secPage = true → d.rdB secPage SEC_CMD_STAT.BUSY = false → e = (((d.wr
     secPage SEC_CMD.OP 4).wr secPage SEC_CMD.GO 1).wr secPage SEC_CMD_STAT.BUSY 1).wr secPage SEC_CMD_STAT.OP 4 → e.inService
     secPage = true → e.rdB secPage SEC_STATUS.TAMPERED = false → e.rdB secPage SEC_STATUS.LC_PENDING = false → e.secRead (e.rd
     secPage SEC_CMD_ADDR.ADDR * 64) 64 = (g, some l) → Gives (.importKey) d
     ({ g with sec := { g.sec with cmd := some { op := 4, words := toWords l 16, early := none } } }))
  ∧ (∀ (d : Dev) (e g : Dev) (l : List Nat), d.answers secPage = true → d.rdB secPage SEC_CMD_STAT.BUSY = false → e = (((d.wr
     secPage SEC_CMD.OP 5).wr secPage SEC_CMD.GO 1).wr secPage SEC_CMD_STAT.BUSY 1).wr secPage SEC_CMD_STAT.OP 5 → e.inService
     secPage = true → e.rdB secPage SEC_STATUS.TAMPERED = false → e.rdB secPage SEC_STATUS.LC_PENDING = false → e.secRead (e.rd
     secPage SEC_CMD_ADDR.ADDR * 64) 64 = (g, some l) → Gives (.wrap) d
     ({ g with sec := { g.sec with cmd := some { op := 5, words := toWords l 16, early := none } } }))
  ∧ (∀ (d : Dev) (e g : Dev) (l : List Nat), d.answers secPage = true → d.rdB secPage SEC_CMD_STAT.BUSY = false → e = (((d.wr
     secPage SEC_CMD.OP 6).wr secPage SEC_CMD.GO 1).wr secPage SEC_CMD_STAT.BUSY 1).wr secPage SEC_CMD_STAT.OP 6 → e.inService
     secPage = true → e.rdB secPage SEC_STATUS.TAMPERED = false → e.rdB secPage SEC_STATUS.LC_PENDING = false → e.secRead (e.rd
     secPage SEC_CMD_ADDR.ADDR * 64) 64 = (g, some l) → Gives (.loadKey) d
     ({ g with sec := { g.sec with cmd := some { op := 6, words := toWords l 16, early := none } } }))
  ∧ (∀ (d : Dev) (e g : Dev) (l : List Nat), d.answers secPage = true → d.rdB secPage SEC_CMD_STAT.BUSY = false → e = (((d.wr
     secPage SEC_CMD.OP 7).wr secPage SEC_CMD.GO 1).wr secPage SEC_CMD_STAT.BUSY 1).wr secPage SEC_CMD_STAT.OP 7 → e.inService
     secPage = true → e.rdB secPage SEC_STATUS.TAMPERED = false → e.rdB secPage SEC_STATUS.LC_PENDING = false → e.secRead (e.rd
     secPage SEC_CMD_ADDR.ADDR * 64) 64 = (g, some l) → Gives (.clearEntry) d
     ({ g with sec := { g.sec with cmd := some { op := 7, words := toWords l 16, early := none } } }))
  ∧ (∀ (d : Dev) (e g : Dev) (l : List Nat), d.answers secPage = true → d.rdB secPage SEC_CMD_STAT.BUSY = false → e = (((d.wr
     secPage SEC_CMD.OP 9).wr secPage SEC_CMD.GO 1).wr secPage SEC_CMD_STAT.BUSY 1).wr secPage SEC_CMD_STAT.OP 9 → e.inService
     secPage = true → e.rdB secPage SEC_STATUS.TAMPERED = false → e.rdB secPage SEC_STATUS.LC_PENDING = false → e.secRead (e.rd
     secPage SEC_CMD_ADDR.ADDR * 64) 64 = (g, some l) → Gives (.slotClear) d
     ({ g with sec := { g.sec with cmd := some { op := 9, words := toWords l 16, early := none } } }))
  ∧ (∀ (d : Dev) (e g : Dev) (l : List Nat), d.answers secPage = true → d.rdB secPage SEC_CMD_STAT.BUSY = false → e = (((d.wr
     secPage SEC_CMD.OP 10).wr secPage SEC_CMD.GO 1).wr secPage SEC_CMD_STAT.BUSY 1).wr secPage SEC_CMD_STAT.OP 10 → e.inService
     secPage = true → e.rdB secPage SEC_STATUS.TAMPERED = false → e.rdB secPage SEC_STATUS.LC_PENDING = false → e.secRead (e.rd
     secPage SEC_CMD_ADDR.ADDR * 64) 64 = (g, some l) → Gives (.ctxSetup) d
     ({ g with sec := { g.sec with cmd := some { op := 10, words := toWords l 16, early := none } } }))
  ∧ (∀ (d : Dev) (e g : Dev) (l : List Nat), d.answers secPage = true → d.rdB secPage SEC_CMD_STAT.BUSY = false → e = (((d.wr
     secPage SEC_CMD.OP 11).wr secPage SEC_CMD.GO 1).wr secPage SEC_CMD_STAT.BUSY 1).wr secPage SEC_CMD_STAT.OP 11 → e.inService
     secPage = true → e.rdB secPage SEC_STATUS.TAMPERED = false → e.rdB secPage SEC_STATUS.LC_PENDING = false → e.secRead (e.rd
     secPage SEC_CMD_ADDR.ADDR * 64) 64 = (g, some l) → Gives (.ctxSave) d
     ({ g with sec := { g.sec with cmd := some { op := 11, words := toWords l 16, early := none } } }))
  ∧ (∀ (d : Dev) (e g : Dev) (l : List Nat), d.answers secPage = true → d.rdB secPage SEC_CMD_STAT.BUSY = false → e = (((d.wr
     secPage SEC_CMD.OP 12).wr secPage SEC_CMD.GO 1).wr secPage SEC_CMD_STAT.BUSY 1).wr secPage SEC_CMD_STAT.OP 12 → e.inService
     secPage = true → e.rdB secPage SEC_STATUS.TAMPERED = false → e.rdB secPage SEC_STATUS.LC_PENDING = false → e.secRead (e.rd
     secPage SEC_CMD_ADDR.ADDR * 64) 64 = (g, some l) → Gives (.ctxRestore) d
     ({ g with sec := { g.sec with cmd := some { op := 12, words := toWords l 16, early := none } } }))
  ∧ (∀ (d : Dev) (e g : Dev) (l : List Nat), d.answers secPage = true → d.rdB secPage SEC_CMD_STAT.BUSY = false → e = (((d.wr
     secPage SEC_CMD.OP 13).wr secPage SEC_CMD.GO 1).wr secPage SEC_CMD_STAT.BUSY 1).wr secPage SEC_CMD_STAT.OP 13 → e.inService
     secPage = true → e.rdB secPage SEC_STATUS.TAMPERED = false → e.rdB secPage SEC_STATUS.LC_PENDING = false → e.secRead (e.rd
     secPage SEC_CMD_ADDR.ADDR * 64) 64 = (g, some l) → Gives (.forerunner) d
     ({ g with sec := { g.sec with cmd := some { op := 13, words := toWords l 16, early := none } } }))
  ∧ (∀ (d : Dev) (e g : Dev) (l : List Nat), d.answers secPage = true → d.rdB secPage SEC_CMD_STAT.BUSY = false → e = (((d.wr
     secPage SEC_CMD.OP 14).wr secPage SEC_CMD.GO 1).wr secPage SEC_CMD_STAT.BUSY 1).wr secPage SEC_CMD_STAT.OP 14 → e.inService
     secPage = true → e.rdB secPage SEC_STATUS.TAMPERED = false → e.rdB secPage SEC_STATUS.LC_PENDING = false → e.secRead (e.rd
     secPage SEC_CMD_ADDR.ADDR * 64) 64 = (g, some l) → Gives (.otpProg) d
     ({ g with sec := { g.sec with cmd := some { op := 14, words := toWords l 16, early := none } } }))
  ∧ (∀ (d : Dev) (e g : Dev) (l : List Nat), d.answers secPage = true → d.rdB secPage SEC_CMD_STAT.BUSY = false → e = (((d.wr
     secPage SEC_CMD.OP 15).wr secPage SEC_CMD.GO 1).wr secPage SEC_CMD_STAT.BUSY 1).wr secPage SEC_CMD_STAT.OP 15 → e.inService
     secPage = true → e.rdB secPage SEC_STATUS.TAMPERED = false → e.rdB secPage SEC_STATUS.LC_PENDING = false → e.secRead (e.rd
     secPage SEC_CMD_ADDR.ADDR * 64) 64 = (g, some l) → Gives (.lcAdvance) d
     ({ g with sec := { g.sec with cmd := some { op := 15, words := toWords l 16, early := none } } }))
  ∧ (∀ (d : Dev) (e g : Dev) (l : List Nat), d.answers secPage = true → d.rdB secPage SEC_CMD_STAT.BUSY = false → e = (((d.wr
     secPage SEC_CMD.OP 16).wr secPage SEC_CMD.GO 1).wr secPage SEC_CMD_STAT.BUSY 1).wr secPage SEC_CMD_STAT.OP 16 → e.inService
     secPage = true → e.rdB secPage SEC_STATUS.TAMPERED = false → e.rdB secPage SEC_STATUS.LC_PENDING = false → e.secRead (e.rd
     secPage SEC_CMD_ADDR.ADDR * 64) 64 = (g, some l) → Gives (.ctxClear) d
     ({ g with sec := { g.sec with cmd := some { op := 16, words := toWords l 16, early := none } } }))
  ∧ (∀ (d : Dev) (e f g : Dev) (l k : List Nat), d.answers secPage = true → d.rdB secPage SEC_CMD_STAT.BUSY = false → e = (((d.wr
     secPage SEC_CMD.OP 8).wr secPage SEC_CMD.GO 1).wr secPage SEC_CMD_STAT.BUSY 1).wr secPage SEC_CMD_STAT.OP 8 → e.inService
     secPage = true → e.rdB secPage SEC_STATUS.TAMPERED = false → e.rdB secPage SEC_STATUS.LC_PENDING = false → e.secRead (e.rd
     secPage SEC_CMD_ADDR.ADDR * 64) 64 = (f, some l) → f.slotLoadCheck (secArgs (toWords l 16)) = (g, .ok k) → Gives (.slotLoad)
     d
     (({ ((g.wr 0x033 (MAC_KEYSLOT.STATE.at (secArgs (toWords l 16)).slot) 1).wr 0x033 (MAC_KEYSLOT.CIPHER.at (secArgs (toWords l 16)).slot) (secArgs (toWords l 16)).cipher).wr 0x033 (MAC_KEYSLOT.KEYID.at (secArgs (toWords l 16)).slot) (secArgs (toWords l 16)).keyid with mac := { g.mac with keys := put g.mac.keys (secArgs (toWords l 16)).slot (ofLeBytes k) }, sec := { g.sec with cmd := some { op := 8, words := toWords l 16, early := none } } }
     : Dev)))

/-- Commands and jobs of the security island end: A loading slot becomes READY with its packet number at 1, a pairwise one with
its replay counters cleared and what awaits retransmission encrypted again; a command that completes posts its result, one
decided before at once and every other one at its end, and an accepted LC_ADVANCE makes the transition: GENKEY above entry 3
fills its entry with drawn octets, CLEAR_ENTRY clears its entry, SLOT_CLEAR empties its slot, CTX_CLEAR clears its context,
LC_ADVANCE ends OK; a posted index that leaves the job ring no more than full is taken; a job carried out keeps its context
and ends with its status. -/
def Obligations.SecurityCommandsComplete : Prop :=
  (∀ (d : Dev) (k : Nat) (e : Dev), d.loadingSlot = some k → e = (d.wr 0x033 (MAC_KEYSLOT.STATE.at k) 2).setSlotPn k 1 → Gives
     (.slotReady) d (if k < 2048 then (e.replayReset k).reencrypt k else e))
  ∧ (∀ (d : Dev) (fact : SecFact) (r : SecRun) (a : SecArgs) (p : Dev × Nat), d.sec.cmd = some r → d.loadingSlot = none → r.early
     = none → a = secArgs r.words → p = d.secFinish r.op a fact → Gives (.secCmdComplete fact) d (if r.op = 15 ∧ p.2 = 0 then
     (p.1.secResult p.2).lcTransition a.target else p.1.secResult p.2))
  ∧ (∀ (d : Dev) (fact : SecFact) (r : SecRun) (code : Nat), d.sec.cmd = some r → d.loadingSlot = none → r.early = some code →
     Gives (.secCmdComplete fact) d (d.secResult code))
  ∧ (∀ (d : Dev) (fact : SecFact) (r : SecRun) (a : SecArgs), d.sec.cmd = some r → r.op = 2 → r.early = none → a = secArgs r.words
     → fact.mismatch = false → 4 ≤ a.entry → Gives (.secCmdComplete fact) d (((d.drawOctets a.klen).1.setKey a.entry a.attr
     (d.drawOctets a.klen).2).secResult 0))
  ∧ (∀ (d : Dev) (fact : SecFact) (r : SecRun) (a : SecArgs), d.sec.cmd = some r → r.op = 7 → r.early = none → a = secArgs r.words
     → fact.mismatch = false → 4 ≤ a.entry → Gives (.secCmdComplete fact) d ((d.clearKey a.entry).secResult 0))
  ∧ (∀ (d : Dev) (fact : SecFact) (r : SecRun) (a : SecArgs), d.sec.cmd = some r → r.op = 9 → r.early = none → a = secArgs r.words
     → a.slot < 2304 → Gives (.secCmdComplete fact) d ((d.emptySlot a.slot).secResult 0))
  ∧ (∀ (d : Dev) (fact : SecFact) (r : SecRun) (a : SecArgs), d.sec.cmd = some r → r.op = 16 → r.early = none → a = secArgs
     r.words → fact.mismatch = false → Gives (.secCmdComplete fact) d ((d.clearCtx a.ctx).secResult 0))
  ∧ (∀ (d : Dev) (fact : SecFact) (r : SecRun) (a : SecArgs), d.sec.cmd = some r → r.op = 15 → r.early = none → a = secArgs
     r.words → d.lcByFirmware a.target = 0 → Gives (.secCmdComplete fact) d ((d.secResult 0).lcTransition a.target))
  ∧ (∀ (d : Dev) (sw : Nat), d.answers 0x004 = true → (sw % 65536 + 65536 - d.rd secPage SEC_JOB_HW.INDEX) % 65536 ≤ 2 ^ d.rd
     secPage SEC_JOB_CFG.LOG2 → Gives (.secJobPosted sw) d (d.wr secPage SEC_JOB_SW.INDEX sw))
  ∧ (∀ (d : Dev) (e f : Dev) (l : List Nat) (j : SecJob) (x : SecCtx) (r : Dev × SecCtx × Nat), d.secJobs ≠ 0 → d.inService
     secPage = true → d.secRead (d.rd secPage SEC_JOB_BASE.BASE * 64 + d.rd secPage SEC_JOB_HW.INDEX % 2 ^ d.rd secPage
     SEC_JOB_CFG.LOG2 * 64) 64 = (e, some l) → j = secJob (toWords l 16) → look e.sec.ctx j.ctx = some x → 1 ≤ j.op → j.op ≤ 6 →
     (modeOps x.mode).contains j.op = true → jobOk x j = true → r = e.runJob x j → f = (if r.2.2 = 1 then (r.1.setCtx j.ctx
     r.2.1).cnt secPage SEC_CNT_AUTHFAIL.COUNT else r.1.setCtx j.ctx r.2.1) → Gives (.secJobDone false) d
     ({ (f.secJobStatus (d.rd secPage SEC_JOB_HW.INDEX) r.2.2).secJobStep with sec := { f.sec with lastJob := false } }))

/-- Tamper, debug levels and the Debug Module: A tamper source that responds and trips sets its latch, event and count, and one
set to zeroise also zeroises the island, or in Hibernate at the return; a clear of latches ends TAMPERED with the last latch
of a zeroising source; the self-tests set SELFTEST_OK or fault; READ_NONCE draws a nonce; an UNLOCK by request or to a lower
level grants it, and one that needs a token waits for its check; a lower request lowers it; a life-cycle token waits for its
check, and a token accepted grants its level or makes its transition; a request at D1 or above is served by the Debug
Module: a bus access is an access of the debug bus, a halted hart resumes, its registers are read; an instruction of
boundary scan is in force at D2 and above outside Nap, else BYPASS. -/
def Obligations.TamperAndDebugCommandsComplete : Prop :=
  (∀ (d : Dev) (source : Nat) (e : Dev), source < 6 → d.tamperResp source ≠ 0 → source < 2 ∨ d.pstate < 4 → source ≠ 5 ∨
     d.fchkTrips = true → e = ((d.wr secPage (SEC_TAMPER_LATCH.LATCH.bitOf source) 1).ev secPage 10).cnt secPage
     SEC_CNT_TAMPER.COUNT → Gives (.tamperTrip source) d (if e.tamperResp source = 1 then e else if 4 ≤ d.pstate then
     { e with sec := { e.sec with owed := true } } else e.zeroiseNow))
  ∧ (∀ (d : Dev) (mask : Nat) (e : Dev), d.answers 0x004 = true → e = d.wr secPage SEC_TAMPER_LATCH.LATCH (d.rd secPage
     SEC_TAMPER_LATCH.LATCH - (d.rd secPage SEC_TAMPER_LATCH.LATCH &&& mask)) → Gives (.tamperLatchClear mask) d ((if (List.range
     6).any fun k => e.rdB secPage (SEC_TAMPER_LATCH.LATCH.bitOf k) && decide (2 ≤ e.tamperResp k) then e else e.wr secPage
     SEC_STATUS.TAMPERED 0).complete .okay))
  ∧ (∀ (d : Dev) (ok : Bool), Gives (.selftestDone ok) d (if ok then d.wr secPage SEC_STATUS.SELFTEST_OK 1 else d.fault secPage
     0x40))
  ∧ (∀ (d : Dev) (p : Dev × List Nat) (e : Dev), d.answers 0x004 = true → p = d.drawOctets 16 → (e = p.1.each 4 fun k e => e.wr
     secPage (SEC_DBG_NONCE.NONCE.at k) (ofLeBytes ((p.2.drop (4 * k)).take 4))) → Gives (.dbgReadNonce) d
     ({ (e.wr secPage SEC_DBG_STAT.NONCE_VALID 1).dbgResult 0 with sec := { e.sec with nonce := some p.2 } }))
  ∧ (∀ (s : State) (level : Nat) (token : List Nat), s.dev.answers secPage = true → level < 4 → level ≤ s.dev.rd secPage
     SEC_STATUS.DBG_LEVEL ∨ levelNeeds s.dev.lc level = 0 → exec (.dbgUnlock level token) s = .next
     ({ s with dev := (s.dev.setLevel level).dbgResult 0 } : State).afterLevel)
  ∧ (∀ (s : State) (level : Nat) (token : List Nat) (k : TokCheck), s.dev.answers secPage = true → level < 4 → s.dev.rd secPage
     SEC_STATUS.DBG_LEVEL < level → levelNeeds s.dev.lc level ≠ 0 → token ≠ [] → s.dev.sec.check = none → k =
     { unlock := true, arg := level, token := token, nonce := s.dev.sec.nonce } → exec (.dbgUnlock level token) s = .next
     ({ s with dev := { s.dev.wr secPage SEC_DBG_STAT.CHECKING 1 with sec := { s.dev.sec with check := some k } } } :
     State).afterLevel)
  ∧ (∀ (s : State) (level : Nat), s.dev.answers secPage = true → level < s.dev.rd secPage SEC_STATUS.DBG_LEVEL → s.dev.rd secPage
     SEC_STATUS.DBG_LEVEL < 4 → exec (.dbgLower level) s = .next ({ s with dev := (s.dev.setLevel level).dbgResult 0 } :
     State).afterLevel)
  ∧ (∀ (d : Dev) (token : List Nat), d.answers secPage = true → d.sec.check = none → Gives (.dbgLifeCycle token) d
     (({ d.wr secPage SEC_DBG_STAT.CHECKING 1 with sec := { d.sec with check := some { unlock := false, arg := nth 0 token 2, token := token, nonce := d.sec.nonce } } }
     : Dev)))
  ∧ (∀ (s : State) (k : TokCheck) (e f g : Dev), s.dev.sec.check = some k → e =
     { s.dev.wr secPage SEC_DBG_STAT.CHECKING 0 with sec := { s.dev.sec with check := none, nonce := if s.dev.sec.nonce ≠ k.nonce then s.dev.sec.nonce else none } }
     → f = e.wr secPage SEC_DBG_STAT.NONCE_VALID (b2n e.sec.nonce.isSome) → g = (if k.unlock then f.setLevel k.arg else
     f.lcTransition k.arg) → exec (.tokenCheckDone false) s = .next
     ({ s with dev := if f.tokenOk k then g.dbgResult 0 else (f.cnt secPage SEC_CNT_TOKEN_BAD.COUNT).dbgResult 0x0F } :
     State).afterLevel)
  ∧ (∀ (s : State) (q : DbgReq), s.dev.balls.resetLow = false → s.dev.pstate < 3 → s.dev.actLevel ≠ 0 → exec (.debugModuleAccess
     q) s = .next (s.dmServe q))
  ∧ (∀ (s : State) (c r : Nat) (a : Access), c < 8 → (s.hart c).running = true → (s.hart c).halted = true → s.dmServe (.bus a) =
     s.access { who := .debugBus, priv := 3, debug := false } a ∧ s.dmServe (.resume c) = (s.onHart c (·.resume)).on (·.complete
     .okay) ∧ s.dmServe (.readReg c r) = (s.dmRead c r).elim (s.on (·.complete .decodeError)) fun v => s.on (·.complete .okay v))
  ∧ (∀ (d : Dev) (inst : Nat), d.pstate < 4 → Gives (.boundaryScanInstruction inst) d
     ({ d with sec := { d.sec with bscan := if 2 ≤ d.actLevel ∧ d.pstate < 3 ∧ inst ≤ 4 then inst else 0 } }))

/-- Sleep and wake: A sleep request by machine mode with no transition under way, every page quiet and, for Nap and Hibernate, a
wake source enabled is accepted: RESULT 0, the entry begins and is counted; an entry ends in its state, with no core running
from Nap on, and a wake seen during it starts the return at once; a wake writes its record and starts the return; the return
ends in Run with its event, from Doze with the domains it had off on their way up, from Nap with what Nap lost, and from
Hibernate as a release of reset; a wake ball and a host write are wake events. -/
def Obligations.SleepCommandsComplete : Prop :=
  (∀ (d : Dev) (e f : Dev), d.answers pwrPage = true → d.dark = false → d.rd pwrPage PWR_STATE.PHASE = 0 → e = (d.wr pwrPage
     PWR_SLEEP.TARGET 1).wr pwrPage PWR_SLEEP.NAP_XO_OFF (b2n false) → e.notQuiet 1 = none → f = ((e.wr pwrPage PWR_STATE.RESULT
     0).wr pwrPage PWR_STATE.PHASE 1).cnt pwrPage PWR_CNT_SLEEP.COUNT → Gives (.sleepIdle true) d
     ({ f.complete .okay with gov := { f.gov with target := 1, xoOff := false, seen := f.wakeMask f.wakeLevels 1 } }))
  ∧ (∀ (d : Dev) (e f : Dev), d.answers pwrPage = true → d.dark = false → d.rd pwrPage PWR_STATE.PHASE = 0 → e = (d.wr pwrPage
     PWR_SLEEP.TARGET 2).wr pwrPage PWR_SLEEP.NAP_XO_OFF (b2n false) → e.notQuiet 2 = none → f = ((e.wr pwrPage PWR_STATE.RESULT
     0).wr pwrPage PWR_STATE.PHASE 1).cnt pwrPage PWR_CNT_SLEEP.COUNT → Gives (.sleepDoze true) d
     ({ f.complete .okay with gov := { f.gov with target := 2, xoOff := false, seen := f.wakeMask f.wakeLevels 2 } }))
  ∧ (∀ (d : Dev) (xoOff : Bool) (e f : Dev), d.answers pwrPage = true → d.dark = false → d.rd pwrPage PWR_STATE.PHASE = 0 → e =
     (d.wr pwrPage PWR_SLEEP.TARGET 3).wr pwrPage PWR_SLEEP.NAP_XO_OFF (b2n xoOff) → e.notQuiet 3 = none → e.wakeMask 0xFFFF 3 ≠ 0
     → f = ((e.wr pwrPage PWR_STATE.RESULT 0).wr pwrPage PWR_STATE.PHASE 1).cnt pwrPage PWR_CNT_SLEEP.COUNT → Gives (.sleepNap
     true xoOff) d
     ({ f.complete .okay with gov := { f.gov with target := 3, xoOff := xoOff, seen := f.wakeMask f.wakeLevels 3 } }))
  ∧ (∀ (d : Dev) (e f : Dev), d.answers pwrPage = true → d.dark = false → d.rd pwrPage PWR_STATE.PHASE = 0 → e = (d.wr pwrPage
     PWR_SLEEP.TARGET 4).wr pwrPage PWR_SLEEP.NAP_XO_OFF (b2n false) → e.notQuiet 4 = none → e.wakeMask 0xFFFF 4 ≠ 0 → f = ((e.wr
     pwrPage PWR_STATE.RESULT 0).wr pwrPage PWR_STATE.PHASE 1).cnt pwrPage PWR_CNT_SLEEP.COUNT → Gives (.sleepHibernate true) d
     ({ f.complete .okay with gov := { f.gov with target := 4, xoOff := false, seen := f.wakeMask f.wakeLevels 4 } }))
  ∧ (∀ (d : Dev) (e f : Dev), d.answers pwrPage = true → d.dark = false → d.rd pwrPage PWR_STATE.PHASE = 0 → e = (d.wr pwrPage
     PWR_SLEEP.TARGET 5).wr pwrPage PWR_SLEEP.NAP_XO_OFF (b2n false) → e.notQuiet 5 = none → f = ((e.wr pwrPage PWR_STATE.RESULT
     0).wr pwrPage PWR_STATE.PHASE 1).cnt pwrPage PWR_CNT_SLEEP.COUNT → Gives (.sleepOff true) d
     ({ f.complete .okay with gov := { f.gov with target := 5, xoOff := false, seen := f.wakeMask f.wakeLevels 5 } }))
  ∧ (∀ (s : State) (t : Nat) (e f : Dev), s.dev.rd pwrPage PWR_STATE.PHASE = 1 → t = s.dev.gov.target → e = ((s.dev.enterState
     t).wr pwrPage PWR_STATE.PHASE 0).wr pwrPage PWR_STATE.STATE t → f = (if e.gov.seen ≠ 0 then (e.cnt pwrPage
     PWR_CNT_WAKE_RACE.COUNT).wakeDetect true else e) → exec .sleepEntryDone s = .next (if 3 ≤ t then ({ s with dev := f } :
     State).hartsOff else { s with dev := f }))
  ∧ (∀ (d : Dev) (n m : Nat) (e f g h : Dev), n = d.pstate → 1 ≤ n → n ≠ 5 → d.rd pwrPage PWR_STATE.PHASE = 0 → m = d.gov.seen |||
     d.wakeMask d.wakeLevels n → m ≠ 0 → e = ((d.wr pwrPage PWR_WAKE_REC0.SOURCE (((List.range 16).find? (bit m)).getD 0)).wr
     pwrPage PWR_WAKE_REC0.FROM n).wr pwrPage PWR_WAKE_REC0.DURING_ENTRY 0 → f = e.wr pwrPage PWR_WAKE_REC0.ASSERTED m → g =
     ((f.wr pwrPage PWR_WAKE_REC1.TICKS f.ticks).wr pwrPage PWR_WAKE_REC2.TICKS (f.ticks / 2 ^ 32)).wr pwrPage PWR_STATE.PHASE 2 →
     h = (if 3 ≤ n then g.wr pwrPage PWR_STATE.STATE 0 else g) → Gives (.wakeDetected) d
     ({ h with gov := { h.gov with seen := 0, rails := [0, 1, 2, 3], xo := true } }))
  ∧ (∀ (s : State) (tau : Nat) (e : Dev), s.dev.rd pwrPage PWR_STATE.PHASE = 2 → s.dev.rd pwrPage PWR_WAKE_REC0.FROM = 1 ∨
     s.dev.rd pwrPage PWR_WAKE_REC0.FROM = 2 → e = ((s.dev.wr pwrPage PWR_STATE.PHASE 0).wr pwrPage PWR_STATE.STATE 0).ev pwrPage
     8 → exec (.returnToRun tau) s = .next
     { s with dev := if s.dev.rd pwrPage PWR_WAKE_REC0.FROM = 1 then e.levelsUpdate else ({ e with gov := { e.gov with domUp := e.gov.domUp.filter (fun k => decide (1 < k)) ++ [0, 1].filter fun k => e.rdB pwrPage (PWR_DOM.KOV.bitOf k) } } : Dev).levelsUpdate })
  ∧ (∀ (s : State) (tau : Nat), s.dev.rd pwrPage PWR_STATE.PHASE = 2 → s.dev.rd pwrPage PWR_WAKE_REC0.FROM = 3 → exec
     (.returnToRun tau) s = .next
     (({ s with dev := ((s.dev.wr pwrPage PWR_STATE.PHASE 0).wr pwrPage PWR_STATE.STATE 0).ev pwrPage 8 } : State).napReturn tau))
  ∧ (∀ (s : State) (tau : Nat), s.dev.rd pwrPage PWR_STATE.PHASE = 2 → s.dev.rd pwrPage PWR_WAKE_REC0.FROM = 4 → exec
     (.returnToRun tau) s = .next ((s.deviceReset.released tau).on (·.ev pwrPage 8)))
  ∧ (∀ (d : Dev) (pin : Nat), pin < 2 → Gives (.wakePin pin) d
     (({ d with balls := { d.balls with wakeLow := d.balls.wakeLow ||| 2 ^ pin } } : Dev).raiseWake (2 + pin)))
  ∧ (∀ (d : Dev), d.answers 0x001 = true → Gives (.hostWakeWrite) d ((d.raiseWake 10).complete .okay))

/-- Power levels, budget and shutdown: A write of PWR_PL_REQ is taken and the levels follow; the transaction of a level change
is noted, or the change fails with its count and event, and under an emergency the level goes on down; its settling ends the
change; a class strobe is a wake event and, outside Nap and Hibernate, samples the code: a lower class withdraws what was
negotiated and declares an emergency; a low undervoltage ball declares an emergency with no allowance; a service mode is
selected with its preset, and Listen silences the transmitters; a thermal shutdown takes the device to Off. -/
def Obligations.PowerCommandsComplete : Prop :=
  (∀ (d : Dev) (value : Nat), d.answers 0x001 = true → Gives (.plReqWrite value) d (((d.each 4 fun k e => e.wr pwrPage
     (PWR_PL_REQ.LEVEL k) (bits value (3 * k) 3)).levelsUpdate).complete .okay))
  ∧ (∀ (d : Dev) (dom : Nat) (ack : Bool) (k : LevelChange) (e : Dev), look d.gov.change dom = some k → k.acked = false → e = (if
     ack then { d with gov := { d.gov with change := put d.gov.change dom { k with acked := true } } } else ((d.levelFails
     dom).cnt pwrPage PWR_CNT_PMB_ERR.COUNT).ev pwrPage 14) → Gives (.pmbusTxnDone dom ack) d (if e.gov.trip ∧ dom < 3 ∧
     e.inService pwrPage = true then e.emergencyLevel dom else e))
  ∧ (∀ (d : Dev) (dom : Nat) (k : LevelChange), look d.gov.change dom = some k → k.acked = true → Gives (.vsettleDone dom) d
     ((d.levelDone dom k.target).levelUpdate dom))
  ∧ (∀ (d : Dev) (code : Nat) (e : Dev), e = ({ d with balls := { d.balls with cls := code % 8 } } : Dev).raiseWake 9 → Gives
     (.classStrobe code) d (if e.dark then e else e.classSample (code % 8)))
  ∧ (∀ (d e : Dev) (code : Nat), code < 8 → code < d.rd pwrPage PWR_CLASS.CODE → e = (((d.wr pwrPage PWR_CLASS.CODE code).wr
     pwrPage PWR_CLASS.CLASS_MW (classMw code)).wr pwrPage PWR_LLDP.VALID 0).wr pwrPage PWR_AUX.VALID 0 → d.classSample code =
     (e.ev pwrPage 12).budgetSync.emergency (e.ev pwrPage 12).budgetSync.emergencyFloors)
  ∧ (∀ (d : Dev) (low : Bool), Gives (.undervoltage low) d (if low then ({ d with gov := { d.gov with uv := true } } :
     Dev).emergency [0, 0, 0] else { d with gov := { d.gov with uv := false } }))
  ∧ (∀ (d : Dev) (mode : Nat) (e f g : Dev), d.answers 0x001 = true → mode ≤ 5 → e = (((d.wr pwrPage PWR_MODE.MODE mode).wr
     pwrPage PWR_SHARE.SHARE_A (nth 0 (pwrPreset mode) 0)).wr pwrPage PWR_SHARE.SHARE_B (nth 0 (pwrPreset mode) 1)).wr pwrPage
     PWR_SHARE.SHARE_C (nth 0 (pwrPreset mode) 2) → f = ((e.wr pwrPage PWR_GOV_CFG.MARGIN (nth 0 (pwrPreset mode) 3)).wr pwrPage
     PWR_THROT.FLOOR_THROT (nth 0 (pwrPreset mode) 4)).wr pwrPage PWR_THROT.CHIP_CAP (nth 0 (pwrPreset mode) 8) → g = (if mode = 5
     then f.silence else f) → Gives (.modeSelect mode) d (((g.each 3 fun k e => e.wr pwrPage (PWR_PL_CAP.LEVEL k) (nth 0
     (pwrPreset mode) (5 + k))).levelsUpdate).complete .okay))
  ∧ (∀ (s : State) (e : Dev), s.dev.pstate < 4 → e = (s.dev.enterOff.wr pwrPage PWR_STATE.PHASE 0).wr pwrPage PWR_STATE.STATE 5 →
     exec .thermalShutdown s = .next
     { s with dev := { e with gov := { e.gov with shutdown := true } }, harts := s.harts.map fun _ => { Hart.reset with running := false } })

/-- Real-time clock: Outside the lockout a set or add is staged, and a cancel ends it with result 2; a staged command is applied
at the next crystal edge, with result 1 for a sum below 0, and alarms follow; a read of RTC_CNT_LO captures the count;
OSC_STOP is set when the edges stop, which no longer count, and may be cleared when they are back; a write of an alarm
compare arms it, and the other words set its period, its enables and clear its flags; the count advances to the compare of
an armed alarm, and every alarm due there fires; changes of supply set ON_BATT with its event and BATT_USED; the lockout
ends a staged command with result 3; the battery measurement is kept; a trim window spoilt by a step, by a servo that is not
LOCKED or by OSC_STOP is skipped and counted, and any other moves TRIM and posts ERROR with its event. -/
def Obligations.ClockCommandsComplete : Prop :=
  (∀ (d : Dev) (e : Dev), d.answers 0x002 = true → d.rtc.staged = none → e = d.wr rtcPage RTC_SET_CMD.OP 1 → Gives (.rtcSet) d
     (({ e.wr rtcPage RTC_SET_CMD.BUSY 1 with rtc := { e.rtc with staged := some 1 } } : Dev).complete .okay))
  ∧ (∀ (d : Dev) (e : Dev), d.answers 0x002 = true → d.rtc.staged = none → e = d.wr rtcPage RTC_SET_CMD.OP 2 → Gives (.rtcAdd) d
     (({ e.wr rtcPage RTC_SET_CMD.BUSY 1 with rtc := { e.rtc with staged := some 2 } } : Dev).complete .okay))
  ∧ (∀ (d : Dev) (op n r : Nat) (e f g : Dev), d.rtc.staged = some op → d.rtc.edges = true → d.rtc.powered = true → n = (if op = 1
     then d.rtcStagedCount else d.rtcSum.toNat) → r = (if op = 2 ∧ d.rtcSum < 0 then 1 else 0) → e = (d.setCount n).rtcEnd r → f =
     { e with rtc := { e.rtc with spoilt := true } } → g = (if f.rtc.count < d.rtc.count then f.alarmsBack else f) → Gives
     (.rtcCmdApply) d (g.alarmsDue true))
  ∧ (∀ (d : Dev) (op : Nat), d.answers 0x002 = true → d.rtc.staged = some op → Gives (.rtcCancel) d ((d.rtcEnd 2).complete .okay))
  ∧ (∀ (d : Dev) (e : Dev), d.answers 0x002 = true → e = (d.wr rtcPage RTC_CNT_HI.VALUE (d.ticks / 2 ^ 32)).wr rtcPage
     RTC_CNT_FRAC.VALUE (d.rtc.count / 2 ^ 16 % 2 ^ 16) → Gives (.rtcCntLoRead) d ((e.wr rtcPage RTC_CNT_LO.TICKS_LO
     d.ticks).complete .okay (d.ticks % 2 ^ 32)))
  ∧ (∀ (d : Dev), Gives (.oscStopDetect) d
     ({ (d.wr rtcPage RTC_STAT.OSC_STOP 1).ev rtcPage 9 with rtc := { d.rtc with edges := false, spoilt := true, stopSince := true } }))
  ∧ (∀ (d : Dev), d.answers 0x002 = true → d.rtc.edges = true → Gives (.oscStopClear) d ((d.wr rtcPage RTC_STAT.OSC_STOP
     0).complete .okay))
  ∧ (∀ (d : Dev) (alarm : Nat), alarm < 4 → d.rtc.staged = none → d.rtc.edges = true → d.rtc.powered = true → d.rdB rtcPage
     (RTC_ALARM.EN.at alarm) = true → d.rdB rtcPage (RTC_ALARM.ARMED.at alarm) = true → Gives (.alarmFire alarm) d ((d.crystal
     (max 1 (ceilDiv (d.alarmCmp alarm * 2 ^ 32 - d.rtc.count) d.rtcInc))).each 4 fun k e => if e.alarmDue k then e.alarmFires k
     false else e))
  ∧ (∀ (d : Dev) (alarm word value : Nat) (e : Dev), d.answers 0x002 = true → alarm < 4 → word < 2 → e = d.wr rtcPage (if word = 0
     then RTC_ALARM.CMP_LO.at alarm else RTC_ALARM.CMP_HI.at alarm) value → Gives (.alarmArm alarm word value) d (((e.wr rtcPage
     (RTC_ALARM.ARMED.at alarm) 1).wr rtcPage (RTC_ALARM.MISSED.at alarm) 0).complete .okay))
  ∧ (∀ (d : Dev) (alarm value : Nat), d.answers 0x002 = true → alarm < 4 → Gives (.alarmArm alarm 2 value) d ((d.wr rtcPage
     (RTC_ALARM.PERIOD.at alarm) value).complete .okay))
  ∧ (∀ (d : Dev) (alarm value : Nat) (e f g : Dev), d.answers 0x002 = true → alarm < 4 → e = (d.wr rtcPage (RTC_ALARM.EN.at alarm)
     value).wr rtcPage (RTC_ALARM.WAKE.at alarm) (value / 2) → f = (if bit value 3 then e.wr rtcPage (RTC_ALARM.FIRED.at alarm) 0
     else e) → g = (if bit value 4 then f.wr rtcPage (RTC_ALARM.BY_WRITE.at alarm) 0 else f) → Gives (.alarmArm alarm 3 value) d
     ((if bit value 0 then g.wr rtcPage (RTC_ALARM.ARMED.at alarm) 1 else g).complete .okay))
  ∧ (∀ (d : Dev), Gives (.vbatSwitch) d ((if d.rdB rtcPage RTC_STAT.ON_BATT then d else (d.wr rtcPage RTC_STAT.ON_BATT 1).ev
     rtcPage 10).wr rtcPage RTC_STAT.BATT_USED 1))
  ∧ (∀ (d : Dev), d.rdB rtcPage RTC_STAT.ON_BATT = true → Gives (.vaonReturn) d ((d.wr rtcPage RTC_STAT.ON_BATT 0).ev rtcPage 10))
  ∧ (∀ (d : Dev) (e : Dev), e = (if d.rtc.staged.isSome then d.rtcEnd 3 else d) → Gives (.aonLockoutBegin) d
     ({ e with rtc := { e.rtc with lockout := true } }))
  ∧ (∀ (d : Dev), Gives (.aonLockoutEnd) d ({ d with rtc := { d.rtc with lockout := false } }))
  ∧ (∀ (d : Dev) (low : Bool), d.rdB rtcPage RTC_STAT.BATT_LOW ≠ low → Gives (.vbatMeasure low) d ((d.wr rtcPage RTC_STAT.BATT_LOW
     (b2n low)).ev rtcPage 10))
  ∧ (∀ (d : Dev) (dc dd : Nat) (e f : Dev) (err t : Int), d.bstate rtcPage = .running → d.rdB rtcPage RTC_TRIM_CFG.AUTO_TRIM =
     true → dd ≠ 0 → e = (d.setCount (d.rtc.count + dc * 2 ^ 16)).reach (d.now + dd * nsU) → f =
     { e with rtc := { e.rtc with spoilt := false } } → err = roundDiv (((dc : Int) * 1000000000 - (dd : Int) * 2 ^ 31) *
     1000000000) (2 ^ 31 * dd) → t = clampInt (-128000000) 128000000 (f.rdS rtcPage RTC_TRIM.TRIM - roundDiv (err * 256) (2 ^ f.rd
     rtcPage RTC_TRIM_CFG.ALPHA)) → Gives (.trimWindowEnd dc dd) d (if e.rtc.spoilt ∨ e.sstate ≠ 2 ∨ e.rdB rtcPage
     RTC_STAT.OSC_STOP then f.cnt rtcPage RTC_TRIM_MEAS.SKIPPED else ((f.wrS rtcPage RTC_TRIM.TRIM t).wrS rtcPage
     RTC_TRIM_MEAS.ERROR (clampInt (-(2 ^ 23)) (2 ^ 23 - 1) err)).ev rtcPage 12))
  ∧ (∀ (d : Dev) (temps : List Int) (drifts : List Nat) (n : Nat) (e f : Dev), d.bstate agePage = .running → n = max 1 (d.rd
     agePage AGE_CFG.AGE_PERIOD) → e = d.ageClock n → (f = e.each 4 fun k g => g.ageDomain k n (nth 0 temps k) (nth 0 drifts k)) →
     Gives (.ageUpdate temps drifts) d (f.each 24 fun k g => g.agePa k n))
  ∧ (∀ (d : Dev), Gives (.crystalEdgesResume) d ({ d with rtc := { d.rtc with edges := true } }))

/-- Frames of the Tuibivy link: Once a beat in service a PAIRING controller, or an Active outside an exchange, sends its HELLO,
and one in an exchange its heartbeat, and an Active whose heartbeat carries YIELD is DEPOSED; a frame that arrives on an
enabled lane and passes the checks of R728 in their order is kept and acts by its type: a HELLO is taken, a heartbeat
acknowledges and reports, a STA frame is issued at the Shadow, KEY and USER frames go to the receive ring, marks are held,
and a Shadow keeps a stream frame of the cycle of a boundary until that boundary; a KEY or USER request heading the ring
joins the queue; with no acknowledgement for RETX_BEATS beats the window is sent again and counted. -/
def Obligations.TwinFrameCommandsComplete : Prop :=
  (∀ (d : Dev) (e : Dev), d.inService twnPage = true → d.role = rolePairing ∨ (d.role = roleActive ∧ d.paired = false) →
     d.twin.helloBeat ≠ some d.beat → (e = (d.reach (d.beat * beatU + d.rd twnPage TWN_CFG.HB_OFS * usU)).setTwin fun t =>
     { t with helloBeat := some d.beat, helloSent := true }) → Gives (.helloSend) d (e.twinSend 1 0 (beBytes 8 e.uid ++ beBytes 8
     e.twin.nonce ++ [e.rd twnPage TWN_CFG.PREF_ACTIVE + 2 * b2n (decide (e.role = roleActive)), 0, 0, 0])))
  ∧ (∀ (d : Dev) (b : Nat) (t : Twin) (e f g : Dev), d.active twnPage = true → d.twin.hbFrom = some b → b ≤ d.beat → d.role ≠
     roleNone → d.role ≠ roleDeposed → d.twin.hbBeat ≠ some d.beat → t = d.twin → (e = (d.reach (d.beat * beatU + d.rd twnPage
     TWN_CFG.HB_OFS * usU)).setTwin fun u => { u with hbBeat := some d.beat, resync := false, yieldOut := false }) → f = e.cnt
     twnPage TWN_CNT_HB_TX.COUNT → g = f.twinSend 2 (d.beat % 2 ^ 32) (beBytes 4 t.rxSeq ++ [d.rd 0x001 PWR_MODE.MODE, d.rd
     twnPage TWN_ROLE.MIR_OK + 2 * b2n t.resync + 4 * b2n t.yieldOut + 8 * b2n ((t.win ++ t.queue).any (·.snap))] ++ beBytes 2
     (t.win.length + t.queue.length) ++ zeros 8) → Gives (.heartbeatSend) d (if t.yieldOut then g.setRole roleDeposed else g))
  ∧ (∀ (d : Dev) (lane atNs : Nat) (octets : List Nat) (e : Dev) (g : TwinFrame), e = (d.twinCheck 1 lane atNs octets).1 →
     (d.twinCheck 1 lane atNs octets).2 = some g → Gives (.helloReceived lane atNs octets) d (e.helloTaken g))
  ∧ (∀ (d : Dev) (lane atNs : Nat) (octets : List Nat) (e : Dev) (g : TwinFrame), e = (d.twinCheck 2 lane atNs octets).1 →
     (d.twinCheck 2 lane atNs octets).2 = some g → Gives (.heartbeatReceived lane atNs octets) d (e.heartbeatTaken g))
  ∧ (∀ (d : Dev) (lane atNs : Nat) (octets : List Nat) (e : Dev) (g : TwinFrame), e = (d.twinCheck 3 lane atNs octets).1 →
     (d.twinCheck 3 lane atNs octets).2 = some g → g.typ = 3 → Gives (.staFrameReceived lane atNs octets) d (if e.role =
     roleShadow ∧ e.now = (e.beat + 1) * beatU then e.setTwin fun t =>
     { t with late := t.late ++ [{ typ := g.typ, payload := g.payload, snap := false, req := none, seq := g.seq }] } else
     e.staTaken g))
  ∧ (∀ (d : Dev) (lane atNs : Nat) (octets : List Nat) (e : Dev) (g : TwinFrame), e = (d.twinCheck 4 lane atNs octets).1 →
     (d.twinCheck 4 lane atNs octets).2 = some g → g.typ = 4 → Gives (.keyFrameReceived lane atNs octets) d (if e.role =
     roleShadow ∧ e.now = (e.beat + 1) * beatU then e.setTwin fun t =>
     { t with late := t.late ++ [{ typ := g.typ, payload := g.payload, snap := false, req := none, seq := g.seq }] } else
     e.ringTaken g))
  ∧ (∀ (d : Dev) (lane atNs : Nat) (octets : List Nat) (e : Dev) (g : TwinFrame), e = (d.twinCheck 5 lane atNs octets).1 →
     (d.twinCheck 5 lane atNs octets).2 = some g → g.typ = 5 → Gives (.markFrameReceived lane atNs octets) d (if e.role =
     roleShadow ∧ e.now = (e.beat + 1) * beatU then e.setTwin fun t =>
     { t with late := t.late ++ [{ typ := g.typ, payload := g.payload, snap := false, req := none, seq := g.seq }] } else
     e.markTaken g))
  ∧ (∀ (d : Dev) (lane atNs : Nat) (octets : List Nat) (e : Dev) (g : TwinFrame), e = (d.twinCheck 6 lane atNs octets).1 →
     (d.twinCheck 6 lane atNs octets).2 = some g → g.typ = 6 → Gives (.userFrameReceived lane atNs octets) d (if e.role =
     roleShadow ∧ e.now = (e.beat + 1) * beatU then e.setTwin fun t =>
     { t with late := t.late ++ [{ typ := g.typ, payload := g.payload, snap := false, req := none, seq := g.seq }] } else
     e.ringTaken g))
  ∧ (∀ (d : Dev) (i a w p : Nat) (e : Dev), d.active twnPage = true → i = d.twin.ringNext → i ≠ d.rd twnPage TWN_TXQ_WR.INDEX → a
     = d.rd twnPage TWN_TXQ_BASE.BASE * 4096 + i % 2 ^ d.rd twnPage TWN_RING_CFG.TXQ_LOG2 * 16 → d.rdOk a 16 = true → w = d.ld a 4
     → w % 256 = 4 → d.role = roleActive → twinLenOk 4 (bits w 16 10) = true → d.paired = true → d.twin.queue.length < 4096 → p =
     d.ld (a + 4) 4 + d.ld (a + 8) 4 % 16 * 2 ^ 32 → d.rdOk p (bits w 16 10) = true → (e = d.setTwin fun t =>
     { t with ringNext := (i + 1) % 65536, reqs := t.reqs ++ [i], queue := t.queue ++ [{ typ := 4, payload := d.ldBytes p (bits w 16 10), snap := false, req := some i, seq := 0 }] })
     → Gives (.twinKeyRequest) d (e.twinRingRd.twinPush))
  ∧ (∀ (d : Dev) (i a w p : Nat) (e : Dev), d.active twnPage = true → i = d.twin.ringNext → i ≠ d.rd twnPage TWN_TXQ_WR.INDEX → a
     = d.rd twnPage TWN_TXQ_BASE.BASE * 4096 + i % 2 ^ d.rd twnPage TWN_RING_CFG.TXQ_LOG2 * 16 → d.rdOk a 16 = true → w = d.ld a 4
     → w % 256 = 6 → twinLenOk 6 (bits w 16 10) = true → d.paired = true → d.twin.queue.length < 4096 → p = d.ld (a + 4) 4 + d.ld
     (a + 8) 4 % 16 * 2 ^ 32 → d.rdOk p (bits w 16 10) = true → (e = d.setTwin fun t =>
     { t with ringNext := (i + 1) % 65536, reqs := t.reqs ++ [i], queue := t.queue ++ [{ typ := 6, payload := d.ldBytes p (bits w 16 10), snap := false, req := some i, seq := 0 }] })
     → Gives (.twinUserRequest) d (e.twinRingRd.twinPush))
  ∧ (∀ (d : Dev) (e : Dev), d.active twnPage = true → d.paired = true → d.twin.win ≠ [] → d.twin.ackBeat + max 1 (d.rd twnPage
     TWN_TIMING.RETX_BEATS) ≤ d.beat → (e = (d.cnt twnPage TWN_CNT_RETX.COUNT).setTwin fun t => { t with ackBeat := d.beat }) →
     Gives (.retxTimeout) d (e.forAll d.twin.win fun r f => f.twinSend r.typ r.seq r.payload))

/-- Roles of the twin pair: A controller PAIRING alone long enough and not fenced serves solo as Active; an Active without a
KICK for KICK_BEATS beats and with no HANDOVER in hand is DEPOSED; KICK restarts the count, HANDOVER asks the Shadow to take
over at the next heartbeat, RESYNC asks for a snapshot; a change of the fence ball is followed, and a fence newly asserted
cuts what is on the air; a lane whose state changes is shown with its event. -/
def Obligations.TwinRoleCommandsComplete : Prop :=
  (∀ (d : Dev), d.inService twnPage = true → d.role = rolePairing → d.twin.hello = none → d.twin.since + d.soloWait ≤ d.beat →
     d.balls.fenceLow = false → Gives (.soloWaitExpiry) d ((d.wr twnPage TWN_ROLE.SOLO 1).setRole roleActive))
  ∧ (∀ (d : Dev), d.inService twnPage = true → d.role = roleActive → d.rd twnPage TWN_TIMING.KICK_BEATS ≠ 0 → d.twin.kicked + d.rd
     twnPage TWN_TIMING.KICK_BEATS ≤ d.beat → (d.twin.yieldOut && d.twin.hbFrom.isSome) = false → Gives (.kickTimeout) d
     (d.setRole roleDeposed))
  ∧ (∀ (d : Dev), d.answers 0x080 = true → d.inService twnPage = true → d.role = roleActive → Gives (.kick) d ((d.setTwin fun t =>
     { t with kicked := d.beat }).complete .okay))
  ∧ (∀ (d : Dev), d.answers 0x080 = true → d.inService twnPage = true → d.role = roleActive → Gives (.handover) d ((d.setTwin fun
     t => { t with yieldOut := true }).complete .okay))
  ∧ (∀ (d : Dev), d.answers 0x080 = true → d.inService twnPage = true → d.role = roleShadow → Gives (.resync) d ((d.setTwin fun t
     => { t with resync := true }).complete .okay))
  ∧ (∀ (d : Dev) (low : Bool) (e f g : Dev), e = { d with balls := { d.balls with fenceLow := low } } → f = (e.wr twnPage
     TWN_ROLE.FENCE_OUT (b2n (decide (e.role = roleActive)))).wr twnPage TWN_ROLE.SELF_FENCE (b2n (e.twin.started && !decide
     (e.role = roleActive))) → g = f.wr twnPage TWN_ROLE.FENCE_IN (b2n low) → Gives (.fenceInChange low) d (if g.fenced ∧ d.fenced
     = false then g.fenceCut else g))
  ∧ (∀ (d : Dev) (lane : Nat) (up : Bool), lane < 2 → d.rdB twnPage (TWN_ROLE.LANE_UP.bitOf lane) ≠ up → Gives (.twnLaneChange
     lane up) d ((d.wr twnPage (TWN_ROLE.LANE_UP.bitOf lane) (b2n up)).ev twnPage 15))

/-- Supply, reset and boot: The power-on of the always-on domain, and a device reset, take the device and the cores to their
reset states; with every rail on, the release of the reset takes the straps and starts C0 in the ROM and the others in its
parking path; the rails come on in the order of R761, from Off with the reset of the device; in Blank or another state that
boots, an image that the ROM accepts from its preferred slot is entered with the boot status written; the recovery doorbell,
while C0 is in the recovery flow, clears its mailbox word and then enters the image in SRAM when its header and body pass
every check, else writes the first failure code. -/
def Obligations.BootCommandsComplete : Prop :=
  (∀ (s : State), exec .aonPowerOn s = .next
     { s with dev := s.dev.aonPowerOn, seq := { last := none, first := 0 }, harts := s.harts.map fun _ => { Hart.reset with running := false } })
  ∧ (∀ (s : State), exec .deviceReset s = .next
     { s with dev := s.dev.deviceReset, seq := { last := none, first := 0 }, harts := s.harts.map fun _ => { Hart.reset with running := false } })
  ∧ (∀ (s : State) (pcieEp xspi1s testmode : Bool) (cls tau : Nat) (e : Dev), s.dev.balls.resetLow = true → s.dev.gov.rails.length
     = 4 → e =
     { s.dev with balls := { s.dev.balls with pcieEp := pcieEp, xspi1s := xspi1s, testmode := testmode, cls := cls % 8 } } → exec
     (.sysRstRelease pcieEp xspi1s testmode cls tau) s = .next
     { s with dev := e.released.hibernateTime tau, harts := Hart.reset :: List.replicate 7 Hart.parkedAt })
  ∧ (∀ (s : State) (l : List Nat), s.dev.pstate ≠ 5 → s.dev.balls.resetLow = true → l = (if 3 ∈ s.dev.gov.rails then (if 1 ∈
     s.dev.gov.rails then [0, 1, 2, 3] else [1, 3]) else [3]) → exec .railEnableStep s = .next
     { s with dev := { s.dev with gov := { s.dev.gov with rails := l, xo := true, shutdown := false } } })
  ∧ (∀ (s : State) (e : Dev), s.dev.pstate = 5 → e = s.dev.deviceReset.wrW pwrPage PWR_WAKE_REC0.word.off (BitVec.ofNat 32 ((if
     s.dev.gov.shutdown then 14 else 15) + 80)) → exec .railEnableStep s = .next
     { s with dev := { e with gov := { e.gov with rails := [3], xo := true, shutdown := false }, ms := { e.ms with wipe := 4 } }, seq := { last := none, first := 0 }, harts := s.harts.map fun _ => { Hart.reset with running := false } })
  ∧ (∀ (s : State) (flash : BootFlash) (b : List Nat) (e f : Dev) (pb : Bool) (x y : Option BootImg) (hx hy : List Nat) (r q : Dev
     × Option Nat), s.inRom .flow = true → s.dev.balls.testmode = false → s.dev.lc ≠ 5 → e = s.dev.romStart secPage → e.rdB
     secPage SEC_STATUS.SELFTEST_OK = true → flash.dir = some b → dirOk b = true → pb = decide (nth 0 b 7 = 1) → x = (if pb then
     flash.b else flash.a) → y = (if pb then flash.a else flash.b) → hx = (x.getD { header := [], body := [] }).header → hy =
     (y.getD { header := [], body := [] }).header → f = (e.wr srmPage SRM_MAP.ILV_GROUPS (nth 0 b 6)).romStart srmPage → f.bstate
     srmPage = .running → r = f.checkSlot x → q = r.1.checkSlot y → exec (.bootImageAccepted flash) s = .next (if r.2.isNone then
     ({ s with dev := r.1.bootStatus (b2n pb) 0 0 (hdrNum hx 8 4) } : State).romLeaves (hdrNum hx 24 4) (some mailbox) else if
     q.2.isNone then
     ({ s with dev := q.1.bootStatus (b2n (!pb)) (if pb then 0 else r.2.getD 0) (if pb then r.2.getD 0 else 0) (hdrNum hy 8 4) } :
     State).romLeaves (hdrNum hy 24 4) (some mailbox) else ({ s with dev := q.1 } : State).romRecovers 0x11 (if pb then q.2.getD 0
     else r.2.getD 0) (if pb then r.2.getD 0 else q.2.getD 0)))
  ∧ (∀ (s t : State) (h : List Nat) (k : Option Nat), s.inRom .recovery = true → s.dev.dark = false → t =
     { s with dev := (s.dev.st (mailbox + 12) 4 0x52454356).st (mailbox + 12) 4 0 } → h = t.dev.ldBytes 0x10FFFC00 512 → (k =
     (t.dev.headerCheck h).orElse fun _ => bodyCheck h (t.dev.ldBytes (hdrNum h 16 4) (hdrNum h 20 4))) → exec (.recoveryDoorbell
     0x52454356) s = .next (if k.isNone then
     ({ t with dev := t.dev.bootStatus 0x02 (t.dev.ld (mailbox + 1) 1) (t.dev.ld (mailbox + 2) 1) (hdrNum h 8 4) } :
     State).romLeaves (hdrNum h 24 4) (some mailbox) else { t with dev := t.dev.st (mailbox + 2) 1 (k.getD 0) }))
  ∧ (∀ (s : State) (value : Nat), s.dev.dark = false → value ≠ 0x52454356 → exec (.recoveryDoorbell value) s = .next
     { s with dev := s.dev.st (mailbox + 12) 4 value })

/-- Every command completes: exec of every command in every state, and every step, answers a next state: no command ends in a
fault or a refusal. -/
def Obligations.EveryCommandAnswersANextState : Prop :=
  (∀ (c : Instr) (s : State), ∃ t, exec c s = .next t) ∧ ∀ s : State, s.stepsSafely

/-- A command leaves the queue of waiting commands as it was: exec of any command answers a state with the same waiting
commands; a step takes the front command off the queue and nothing else, and an idle step leaves the queue empty. -/
def Obligations.CommandsLeaveTheQueue : Prop :=
  (∀ (c : Instr) (s t : State), exec c s = .next t → t.pending = s.pending)
  ∧ ∀ s t : State, step s = .next t → t.pending = s.pending.tail

/-- What moves the beat sequencer: Only a beat boundary, a write of BEAT_EN, the resets, the returns of supply and to Run, the
commands that step device time, and the commands that reach the registers through the fabric change the state of the beat
sequencer. -/
def Obligations.OnlyTheseCommandsMoveTheSequencer : Prop :=
  ∀ (c : Instr) (s t : State), exec c s = .next t → t.seq ≠ s.seq →
    (∃ f, c = .beatBoundary f) ∨ c = .beatEnSet ∨ c = .deviceReset ∨ c = .aonPowerOn ∨ c = .railEnableStep ∨ (∃ tau, c = .returnToRun tau)
      ∨ c = .timeSet ∨ c = .timeStep ∨ (∃ ns, c = .servoSample ns) ∨ (∃ i b f ns fr, c = .eventInputEdge i b f ns fr)
      ∨ (∃ p o v, c = .registerWrite p o v) ∨ (∃ w m a, c = .fabricRequest w m a) ∨ (∃ a n w, c = .pcieInboundRequest a n w)
      ∨ (∃ k e, c = .hartInstruction k e) ∨ ∃ q, c = .debugModuleAccess q

/-- What touches the control cores: Only the commands of the cores themselves, the debug commands, the software interrupts, the
requests that reach the registers, the boot flow and the resets and power transitions change the state of a control core;
every other command leaves all eight as they were. -/
def Obligations.OnlyTheseCommandsTouchTheCores : Prop :=
  ∀ (c : Instr) (s t : State), exec c s = .next t → t.harts ≠ s.harts →
    (∃ k e, c = .hartInstruction k e) ∨ (∃ k r, c = .cboInval k r) ∨ (∃ k r, c = .cboClean k r) ∨ (∃ k r, c = .cboFlush k r)
      ∨ (∃ k, c = .hartInterruptEntry k) ∨ (∃ k, c = .parkedHartMsip k) ∨ (∃ q, c = .debugModuleAccess q) ∨ (∃ k v, c = .setssipWrite k v)
      ∨ (∃ p o v, c = .registerWrite p o v) ∨ (∃ w m a, c = .fabricRequest w m a) ∨ (∃ a n w, c = .pcieInboundRequest a n w)
      ∨ (∃ l k, c = .dbgUnlock l k) ∨ (∃ l, c = .dbgLower l) ∨ (∃ b, c = .tokenCheckDone b) ∨ (∃ f, c = .bootImageAccepted f)
      ∨ (∃ v, c = .recoveryDoorbell v) ∨ (∃ a b d k tau, c = .sysRstRelease a b d k tau) ∨ c = .deviceReset ∨ c = .aonPowerOn
      ∨ c = .railEnableStep ∨ c = .sleepEntryDone ∨ c = .thermalShutdown ∨ ∃ tau, c = .returnToRun tau

/-- No beat index is issued twice between two device resets: From every state in which boundary m was the last issued, a step
leaves the last index at m or above, unless it is a device reset, a return of supply or a return from Hibernate, which clear
it; and a boundary that is issued has an index above m. -/
def Obligations.BoundaryIndexOnlyRises : Prop :=
  (∀ (s t : State) (m : Nat), step s = .next t → s.seq.last = some m →
      (t.seq.last = none ∧ ∃ (c : Instr) (r : List Instr), s.pending = c :: r
          ∧ (c = .deviceReset ∨ c = .aonPowerOn ∨ c = .railEnableStep ∨ ∃ tau, c = .returnToRun tau))
        ∨ ∃ n, t.seq.last = some n ∧ m ≤ n)
  ∧ ∀ (f : BeatFact) (s : State) (m : Nat), s.dev.rdB 0x008 PTP_BEAT_CTL.BEAT_EN = true → s.dev.dark = false → s.seq.last = some m →
      ∃ t n, exec (.beatBoundary f) s = .next t ∧ t.seq.last = some n ∧ m < n

/-- Every step keeps the eight cores well-formed: In every state with eight cores that each have 32 integer and 32 float
registers, x0 reading as zero, a privilege of U, S or M and a legal MPP, every step answers a state of which the same holds. -/
def Obligations.CoresStayWellFormed : Prop :=
  ∀ s t : State, s.hartsWf → step s = .next t → t.hartsWf

/-- What reset leaves: After reset the cores are well-formed and in machine mode at address 0, C1 to C7 parked in WFI with MSIP
alone enabled (R772), every page with a header is STOPPED, no boundary was issued, BEAT_EN is 0, no command waits, and
memory lists nothing. -/
def Obligations.ResetLeaves : Prop :=
  State.reset.hartsWf
  ∧ (∀ h ∈ State.reset.harts, h.priv = 3 ∧ h.pc = 0)
  ∧ (∀ k, 1 ≤ k → k < 8 → (State.reset.hart k).parked = true ∧ (State.reset.hart k).wfi = true ∧ (State.reset.hart k).csrW 0x304 = 8)
  ∧ (∀ p, p < 0x100 → State.reset.dev.bstate p = .stopped)
  ∧ State.reset.seq.last = none ∧ State.reset.dev.rdB 0x008 PTP_BEAT_CTL.BEAT_EN = false
  ∧ State.reset.pending = [] ∧ State.reset.dev.mem = []

/-- R70: what each refused claim or release leaves: With the pin page answering, a claim of a resource that another holds or
that cannot take the function, a release by another than its owner, and a release of a ball index that names no ball are
refused: PIN_CLAIM_REJ_RES holds index, kind and requester, a read of it answers them and captures the holder in
PIN_CLAIM_REJ_OWN, PIN_CLAIM_REJ_CNT is incremented (saturating) and bit 8 of INT_RAW of the pin page is 1. -/
def Obligations.RefusedClaimsAreRecorded : Prop :=
  (∀ (d : Dev) (kind index owner func : Nat), d.answers 0x000 = true → resourceExists kind index = true →
      d.claimable kind index (owner % 0x10000) (func % 64) = false →
      ∃ e, Gives (.ownerClaim kind index owner func) d e ∧ e.recordsRefusal d kind index (owner % 0x10000))
  ∧ (∀ (d : Dev) (kind index owner : Nat), d.answers 0x000 = true → resourceExists kind index = true →
      ((kind = 0 ∧ ballExists index = false) ∨ (d.owner kind index ≠ owner % 0x10000 ∧ d.owner kind index ≠ 0)) →
      ∃ e, Gives (.ownerRelease kind index owner) d e ∧ e.recordsRefusal d kind index (owner % 0x10000))

/-- R42: any other size or alignment completes with DECODE_ERROR: A request to the register pages that is not a naturally
aligned 32-bit access completes with DECODE_ERROR and changes nothing else in the machine, whoever makes it and whatever
state it stands in; so does a register write at a misaligned offset. -/
def Obligations.RegisterNetworkTakesAlignedWords : Prop :=
  (∀ (s : State) (who : Initiator) (machine : Bool) (a : Access) (ecc : EccFact), regionOf a.addr = .regs → a.size ≠ 4 ∨ a.addr % 4 ≠ 0 →
      exec (.fabricRequest who machine ⟨a, ecc⟩) s = .next { s with dev := s.dev.complete .decodeError })
  ∧ ∀ (s : State) (page off value : Nat), off % 4 ≠ 0 →
      exec (.registerWrite page off value) s = .next { s with dev := s.dev.complete .decodeError }

/-- R38: the addresses of a page: An address lies in page p of the register pages exactly when it stands from 0x2000_0000 + p ×
0x1_0000 up to 0x2000_FFFF + p × 0x1_0000. -/
def Obligations.PageAddresses : Prop :=
  ∀ p a : Nat, p < 4096 →
    ((regionOf a = .regs ∧ pageOf a = p) ↔ (0x20000000 + p * 0x10000 ≤ a ∧ a ≤ 0x2000FFFF + p * 0x10000))

/-- R20: BEAT_EN stays 1 while a beat-driven radio page is not STOPPED: With page 0x008 answering, a write that clears BEAT_EN
while one of the fourteen beat-driven radio pages is not STOPPED leaves BEAT_EN 1, is recorded in CFG_REJECT of page 0x008
with VALID 1, CAUSE 0, the offset of PTP_BEAT_CTL and the low half of the value written, and sets CFG_REFUSED in INT_RAW;
when all fourteen are STOPPED, whatever any other page is, BEAT_EN becomes 0 and nothing but the completion changes with it. -/
def Obligations.BeatEnClearIsRefusedWhileRadioPagesRun : Prop :=
  (∀ (d : Dev) (value p : Nat),
      p ∈ [0x020, 0x021, 0x022, 0x028, 0x029, 0x02A, 0x030, 0x031, 0x032, 0x038, 0x039, 0x03A, 0x023, 0x041] →
      d.bstate p ≠ .stopped → d.answers 0x008 = true → d.rdB 0x008 PTP_BEAT_CTL.BEAT_EN = true → value % 2 = 0 →
      ∃ e, Gives (.beatEnClear value) d e ∧ e.rdB 0x008 PTP_BEAT_CTL.BEAT_EN = true ∧ e.rdB 0x008 CFG_REJECT.VALID = true
        ∧ e.rd 0x008 CFG_REJECT.CAUSE = 0 ∧ e.rd 0x008 CFG_REJECT.OFFSET * 4 = 0x408
        ∧ e.rd 0x008 CFG_REJECT.VALUE_LO = value % 0x10000 ∧ e.rdB 0x008 INT_RAW.CFG_REFUSED = true)
  ∧ ∀ (d : Dev) (value : Nat),
      (∀ p ∈ [0x020, 0x021, 0x022, 0x028, 0x029, 0x02A, 0x030, 0x031, 0x032, 0x038, 0x039, 0x03A, 0x023, 0x041], d.bstate p = .stopped) →
      d.answers 0x008 = true → Gives (.beatEnClear value) d ((d.wr 0x008 PTP_BEAT_CTL.BEAT_EN 0).complete .okay)

/-- R664: a PMBus transaction of a level change that ends without an acknowledgement: The domain stays at its old level, which
stands for clock and voltage, and its change is over; ERR of the domain and PMB_ERR are set and PWR_CNT_PMB_ERR is
incremented (saturating). Where an emergency governs the domain (R73), its own voltage command goes out after that. -/
def Obligations.LevelChangeWithoutAcknowledgement : Prop :=
  ∀ (d : Dev) (dom : Nat) (c : LevelChange), dom < 4 → look d.gov.change dom = some c → c.acked = false →
    ∃ e, Gives (.pmbusTxnDone dom false) d (if e.gov.trip ∧ dom < 3 ∧ e.inService pwrPage = true then e.emergencyLevel dom else e)
      ∧ e.rd pwrPage (PWR_PL_STAT.LEVEL dom) = c.old % 8 ∧ look e.gov.change dom = none
      ∧ e.rdB pwrPage (PWR_PL_STAT.BUSY.bitOf dom) = false ∧ e.rdB pwrPage (PWR_PL_STAT.ERR.bitOf dom) = true
      ∧ e.rd pwrPage PWR_CNT_PMB_ERR.COUNT = min (d.rd pwrPage PWR_CNT_PMB_ERR.COUNT + 1) (2 ^ PWR_CNT_PMB_ERR.COUNT.w - 1)
      ∧ e.rdB pwrPage (INT_RAW.word.bitOf 14) = true

/-- R645: what PCI Express inbound requests never reach: A PCI Express inbound request to the hamper, to page 0x004, to the boot
ROM or to the xSPI window completes ACCESS_DENIED, and while PCIE_REG_DENY is 1 so does one to any register page: the
requester is told, the refusal is counted, and no register of another page, no byte of memory, no core and no waiting
command changes. (The OTP window lies in page 0x004.) -/
def Obligations.PcieRequestsAreShutOut : Prop :=
  ∀ (s : State) (addr size f : Nat) (write : Option Nat), s.dev.linkUp = true → s.dev.pcie.perst = false → s.dev.dark = false →
    s.dev.inWindow addr = some f →
    (s.dev.endpoint = true ∨ addr ≠ s.dev.rd 0x132 PCIE_MSI_LO.ADDR / 4 * 4 + 2 ^ 32 * s.dev.rd 0x132 PCIE_MSI_HI.ADDR) →
    size ≠ 0 → regionOf (f + size - 1) = regionOf f → (regionOf f = .regs → size = 4 ∧ f % 4 = 0) →
    (regionOf f = .hamper ∨ regionOf f = .rom ∨ regionOf f = .xspi ∨ (regionOf f = .regs ∧ pageOf f = 0x004)
      ∨ (regionOf f = .regs ∧ s.dev.rdB secPage SEC_ACCESS.PCIE_REG_DENY = true)) →
    exec (.pcieInboundRequest addr size write) s
      = .next { s with dev := ((s.dev.complete .denied).cnt 0x130 PCIE_ERR_CNT.INBOUND_ERR).emit (.inbound 2 0) }

/-- R573: every word of shared SRAM has a cell of its own: Under each interleaving, 1, 2, 4 or 8 groups, the bank is below 64
and the row below 32768, and two offsets whose words stand in one bank and row lie in the same 64-bit word. -/
def Obligations.SramMappingIsOneToOne : Prop :=
  ∀ k ∈ [1, 2, 4, 8], ∀ o : Nat, o < 0x1000000 → (sramPlace k o).1 < 64 ∧ (sramPlace k o).2 < 0x8000
    ∧ ∀ o' : Nat, o' < 0x1000000 → sramPlace k o' = sramPlace k o → o' / 8 = o / 8

/-- A store to shared SRAM writes its own bytes and no others: A write request to shared SRAM by an initiator the rules do not
refuse, with no earlier access held, in a group that is ON and with no uncorrectable word among those it covers in part,
completes OKAY: the bytes stored read back little-endian, every other byte of the whole address space reads as before, and
no register but the count of a corrected error, no sequencer state, core or waiting command changes. -/
def Obligations.SramStoreFrame : Prop :=
  ∀ (s : State) (who : Initiator) (machine : Bool) (a : Access) (v : Nat) (ecc : EccFact), a.write = some v → a.size ≠ 0 →
    regionOf a.addr = .sram → regionOf (a.addr + a.size - 1) = .sram → s.dev.dark = false → s.dev.denies (s.reqOf who machine) a = false →
    s.dev.ilv ∈ [1, 2, 4, 8] → s.dev.inReset srmPage = false → (∀ h ∈ s.dev.ms.held, h.who ≠ who) →
    s.dev.group (s.dev.groupOf a.addr) = 0 → (∀ b ∈ readBytes a, s.dev.wordBad b = false) → ecc = .clean ∨ ecc = .corrected →
    ∃ t, exec (.fabricRequest who machine ⟨a, ecc⟩) s = .next t ∧ t.dev.lastCode = .okay
      ∧ (∀ i, i < a.size → t.dev.ldB (a.addr + i) = BitVec.ofNat 8 (v / 256 ^ i % 256))
      ∧ (∀ b, b < 0xC00000000 → b < a.addr ∨ a.addr + a.size ≤ b → t.dev.ldB b = s.dev.ldB b)
      ∧ t.dev.regs = (if ecc = .corrected ∧ readBytes a ≠ [] then (s.dev.cnt srmPage SRM_CNT_CORR.COUNT).regs else s.dev.regs)
      ∧ t.seq = s.seq ∧ t.harts = s.harts ∧ t.pending = s.pending

/-- A request on the data network keeps the canonical form of memory: Whatever a request to shared SRAM, the hamper or a Koveton
memory does, and whoever makes it, memory that lists rising addresses and no entry equal to what an unlisted address reads
as is such a memory afterwards. -/
def Obligations.FabricRequestsKeepMemoryForm : Prop :=
  ∀ (s t : State) (who : Initiator) (machine : Bool) (a : Access) (ecc : EccFact),
    (regionOf a.addr = .sram ∨ regionOf a.addr = .hamper ∨ regionOf a.addr = .kov) → Memory.wf s.dev.mem = true →
    exec (.fabricRequest who machine ⟨a, ecc⟩) s = .next t → Memory.wf t.dev.mem = true

/-- R732: a Start of page 0x080 without its key or without a lane: While page 0x080 is STARTING, the checks fail when AUTH_CTX
names no context that is READY in mode 5, or when both lanes are disabled: the page enters FAULT with code 0x03 and its
FAULT interrupt is set. -/
def Obligations.TwinStartNeedsKeyAndLane : Prop :=
  ∀ d : Dev, d.runs twnPage = true → d.bstate twnPage = .starting → look d.disc twnPage ≠ some true →
    ((d.svcKey (d.rd twnPage TWN_CFG.AUTH_CTX)).isNone = true
      ∨ (d.rdB twnPage TWN_CFG.LANE0_EN = false ∧ d.rdB twnPage TWN_CFG.LANE1_EN = false)) →
    Gives (.startChecksPassed twnPage) d (d.fault twnPage 0x03).settle
      ∧ (d.fault twnPage 0x03).bstate twnPage = .fault ∧ (d.fault twnPage 0x03).rd twnPage FAULT_CODE.CODE = 3
      ∧ (d.fault twnPage 0x03).rdB twnPage INT_RAW.FAULT = true

/-- R48: the interrupt line of a page: For a page with the common header that is powered and not held in reset, the PLIC source
of its number plus one is asserted exactly while any bit of INT_STAT, which reads INT_RAW masked by INT_EN, is 1. -/
def Obligations.PageInterruptLine : Prop :=
  ∀ (d : Dev) (q : Req) (p : Nat), hasHeader p = true → (pageKind p).isSome = true → d.shut p = false → d.inReset p = false →
    d.unpowered p = false →
    (d.regRead q p 0x18).lastCode = .okay
      ∧ ((d.plicLevel (p + 1) = true) ↔ ∃ b, b < 32 ∧ (BitVec.ofNat 32 (d.regRead q p 0x18).lastData).getLsbD b = true)
end

