-- ==== Sys2Proof/Laws/Map.lean ====
section
/-! SUPPORT. Laws of the sparse maps: what a key reads after an update, and that updates keep the canonical form. -/

namespace Sys2Proof.Machine

variable {α : Type}

@[simp] theorem look_nil (k : Nat) : look ([] : List (Nat × α)) k = none := rfl

theorem look_put_same (m : List (Nat × α)) (k : Nat) (v : α) : look (put m k v) k = some v := by
  induction m with
  | nil => simp [put, look]
  | cons e r ih =>
    obtain ⟨k', v'⟩ := e
    simp only [put]
    split
    · simp [look]
    · split
      · simp [look]
      · rename_i h
        simp [look, h, ih]

theorem look_put_ne (m : List (Nat × α)) {k j : Nat} (v : α) (h : j ≠ k) : look (put m k v) j = look m j := by
  induction m with
  | nil => simp [put, look, Ne.symm h]
  | cons e r ih =>
    obtain ⟨k', v'⟩ := e
    simp only [put]
    split
    · simp [look, Ne.symm h]
    · split
      · rename_i hk
        subst hk
        simp [look, Ne.symm h]
      · simp [look, ih]

theorem look_del_same (m : List (Nat × α)) (k : Nat) : look (del m k) k = none := by
  induction m with
  | nil => rfl
  | cons e r ih =>
    obtain ⟨k', v'⟩ := e
    by_cases h : k' = k
    · simpa [del, h] using ih
    · simp only [del, List.filter_cons] at ih ⊢
      simp [h, look]
      simpa [del] using ih

theorem look_del_ne (m : List (Nat × α)) {k j : Nat} (h : j ≠ k) : look (del m k) j = look m j := by
  induction m with
  | nil => rfl
  | cons e r ih =>
    obtain ⟨k', v'⟩ := e
    by_cases hk : k' = k
    · subst hk
      have : look (del ((k', v') :: r) k') j = look (del r k') j := by simp [del]
      rw [this, ih]
      simp [look, Ne.symm h]
    · have : del ((k', v') :: r) k = (k', v') :: del r k := by simp [del, hk]
      rw [this]
      simp [look, ih]

variable [DecidableEq α]

/-- A key reads what was set. -/
@[simp] theorem lookD_putD_same (f : Nat → α) (m : List (Nat × α)) (k : Nat) (v : α) : lookD f (putD f m k v) k = v := by
  unfold lookD putD
  split
  · rename_i h
    simp [look_del_same, h]
  · simp [look_put_same]

/-- Every other key reads as before. -/
theorem lookD_putD_ne (f : Nat → α) (m : List (Nat × α)) {k j : Nat} (v : α) (h : j ≠ k) :
    lookD f (putD f m k v) j = lookD f m j := by
  unfold lookD putD
  split
  · simp [look_del_ne m h]
  · simp [look_put_ne m v h]

/-! ### The canonical form -/

omit [DecidableEq α] in
/-- `rising` as a chain of keys. -/
theorem rising_iff (m : List (Nat × α)) : rising m = true ↔ (m.map Prod.fst).Pairwise (· < ·) := by
  induction m with
  | nil => simp [rising]
  | cons a r ih =>
    cases r with
    | nil => simp [rising]
    | cons b r =>
      simp only [rising, Bool.and_eq_true, decide_eq_true_eq, ih, List.map_cons, List.pairwise_cons, List.mem_cons, List.mem_map]
      constructor
      · rintro ⟨h1, h2, h3⟩
        refine ⟨?_, h2, h3⟩
        rintro x (rfl | h)
        · exact h1
        · exact lt_trans h1 (h2 x h)
      · rintro ⟨h1, h2, h3⟩
        exact ⟨h1 _ (Or.inl rfl), h2, h3⟩

theorem canonical_iff (f : Nat → α) (m : List (Nat × α)) :
    canonical f m = true ↔ (m.map Prod.fst).Pairwise (· < ·) ∧ ∀ e ∈ m, e.2 ≠ f e.1 := by
  simp [canonical, rising_iff, List.all_eq_true]

omit [DecidableEq α] in
theorem mem_put {m : List (Nat × α)} {k : Nat} {v : α} {e : Nat × α} (h : e ∈ put m k v) : e = (k, v) ∨ e ∈ m := by
  induction m with
  | nil => simpa [put] using h
  | cons a r ih =>
    obtain ⟨k', v'⟩ := a
    simp only [put] at h
    split at h
    · simpa using h
    · split at h
      · rcases List.mem_cons.1 h with h | h
        · exact Or.inl h
        · exact Or.inr (List.mem_cons_of_mem _ h)
      · rcases List.mem_cons.1 h with h | h
        · exact Or.inr (by simp [h])
        · rcases ih h with h | h
          · exact Or.inl h
          · exact Or.inr (List.mem_cons_of_mem _ h)

omit [DecidableEq α] in
theorem put_pairwise (m : List (Nat × α)) (k : Nat) (v : α) (h : (m.map Prod.fst).Pairwise (· < ·)) :
    ((put m k v).map Prod.fst).Pairwise (· < ·) := by
  induction m with
  | nil => simp [put]
  | cons a r ih =>
    obtain ⟨k', v'⟩ := a
    rw [List.map_cons, List.pairwise_cons] at h
    obtain ⟨h1, h2⟩ := h
    simp only [put]
    split
    · rename_i hk
      simp only [List.map_cons, List.pairwise_cons, List.mem_cons]
      refine ⟨?_, h1, h2⟩
      rintro x (rfl | hx)
      · exact hk
      · exact lt_trans hk (h1 x hx)
    · split
      · rename_i hk
        subst hk
        simp only [List.map_cons, List.pairwise_cons]
        exact ⟨h1, h2⟩
      · rename_i hk1 hk2
        simp only [List.map_cons, List.pairwise_cons]
        refine ⟨?_, ih h2⟩
        intro x hx
        obtain ⟨e, he, rfl⟩ := List.mem_map.1 hx
        rcases mem_put he with rfl | he
        · simp only
          omega
        · exact h1 _ (List.mem_map.2 ⟨e, he, rfl⟩)

theorem filter_canonical (f : Nat → α) (m : List (Nat × α)) (p : Nat × α → Bool) (h : canonical f m = true) :
    canonical f (m.filter p) = true := by
  rw [canonical_iff] at h ⊢
  refine ⟨?_, fun e he => h.2 e (List.mem_filter.1 he).1⟩
  have hs : ((m.filter p).map Prod.fst).Sublist (m.map Prod.fst) := (List.filter_sublist).map _
  exact List.Pairwise.sublist hs h.1

/-- Setting a key keeps the canonical form. -/
theorem putD_canonical (f : Nat → α) (m : List (Nat × α)) (k : Nat) (v : α) (h : canonical f m = true) :
    canonical f (putD f m k v) = true := by
  unfold putD
  split
  · exact filter_canonical f m _ h
  · rename_i hv
    rw [canonical_iff] at h ⊢
    refine ⟨put_pairwise m k v h.1, fun e he => ?_⟩
    rcases mem_put he with rfl | he
    · exact hv
    · exact h.2 e he

/-- Taking keys off keeps the canonical form. -/
theorem delRange_canonical (f : Nat → α) (m : List (Nat × α)) (lo hi : Nat) (h : canonical f m = true) :
    canonical f (delRange m lo hi) = true := filter_canonical f m _ h

end Sys2Proof.Machine
end

