-- ==== Sys2Proof/Laws/State.lean ====
section
/-! SUPPORT. One lemma per field of the device for each basic update: what the update leaves as it was, and what it sets. -/

namespace Sys2Proof.Machine

variable (d : Dev)

/-! ### wrW -/

@[simp] theorem Dev.wrW_mem (p o : Nat) (v : BitVec 32) : (d.wrW p o v).mem = d.mem := by cases d; rfl
@[simp] theorem Dev.wrW_now (p o : Nat) (v : BitVec 32) : (d.wrW p o v).now = d.now := by cases d; rfl
@[simp] theorem Dev.wrW_draws (p o : Nat) (v : BitVec 32) : (d.wrW p o v).draws = d.draws := by cases d; rfl
@[simp] theorem Dev.wrW_lastCode (p o : Nat) (v : BitVec 32) : (d.wrW p o v).lastCode = d.lastCode := by cases d; rfl
@[simp] theorem Dev.wrW_lastData (p o : Nat) (v : BitVec 32) : (d.wrW p o v).lastData = d.lastData := by cases d; rfl
@[simp] theorem Dev.wrW_out (p o : Nat) (v : BitVec 32) : (d.wrW p o v).out = d.out := by cases d; rfl
@[simp] theorem Dev.wrW_beat (p o : Nat) (v : BitVec 32) : (d.wrW p o v).beat = d.beat := by cases d; rfl
@[simp] theorem Dev.wrW_disc (p o : Nat) (v : BitVec 32) : (d.wrW p o v).disc = d.disc := by cases d; rfl
@[simp] theorem Dev.wrW_rejOwn (p o : Nat) (v : BitVec 32) : (d.wrW p o v).rejOwn = d.rejOwn := by cases d; rfl
@[simp] theorem Dev.wrW_pool (p o : Nat) (v : BitVec 32) : (d.wrW p o v).pool = d.pool := by cases d; rfl
@[simp] theorem Dev.wrW_rx (p o : Nat) (v : BitVec 32) : (d.wrW p o v).rx = d.rx := by cases d; rfl
@[simp] theorem Dev.wrW_tx (p o : Nat) (v : BitVec 32) : (d.wrW p o v).tx = d.tx := by cases d; rfl
@[simp] theorem Dev.wrW_mac (p o : Nat) (v : BitVec 32) : (d.wrW p o v).mac = d.mac := by cases d; rfl
@[simp] theorem Dev.wrW_cpls (p o : Nat) (v : BitVec 32) : (d.wrW p o v).cpls = d.cpls := by cases d; rfl
@[simp] theorem Dev.wrW_air (p o : Nat) (v : BitVec 32) : (d.wrW p o v).air = d.air := by cases d; rfl
@[simp] theorem Dev.wrW_ven (p o : Nat) (v : BitVec 32) : (d.wrW p o v).ven = d.ven := by cases d; rfl
@[simp] theorem Dev.wrW_tag (p o : Nat) (v : BitVec 32) : (d.wrW p o v).tag = d.tag := by cases d; rfl
@[simp] theorem Dev.wrW_kov (p o : Nat) (v : BitVec 32) : (d.wrW p o v).kov = d.kov := by cases d; rfl
@[simp] theorem Dev.wrW_pkt (p o : Nat) (v : BitVec 32) : (d.wrW p o v).pkt = d.pkt := by cases d; rfl
@[simp] theorem Dev.wrW_eth (p o : Nat) (v : BitVec 32) : (d.wrW p o v).eth = d.eth := by cases d; rfl
@[simp] theorem Dev.wrW_time (p o : Nat) (v : BitVec 32) : (d.wrW p o v).time = d.time := by cases d; rfl
@[simp] theorem Dev.wrW_ctl (p o : Nat) (v : BitVec 32) : (d.wrW p o v).ctl = d.ctl := by cases d; rfl
@[simp] theorem Dev.wrW_pcie (p o : Nat) (v : BitVec 32) : (d.wrW p o v).pcie = d.pcie := by cases d; rfl
@[simp] theorem Dev.wrW_dsp (p o : Nat) (v : BitVec 32) : (d.wrW p o v).dsp = d.dsp := by cases d; rfl
@[simp] theorem Dev.wrW_ms (p o : Nat) (v : BitVec 32) : (d.wrW p o v).ms = d.ms := by cases d; rfl
@[simp] theorem Dev.wrW_sec (p o : Nat) (v : BitVec 32) : (d.wrW p o v).sec = d.sec := by cases d; rfl
@[simp] theorem Dev.wrW_gov (p o : Nat) (v : BitVec 32) : (d.wrW p o v).gov = d.gov := by cases d; rfl
@[simp] theorem Dev.wrW_rtc (p o : Nat) (v : BitVec 32) : (d.wrW p o v).rtc = d.rtc := by cases d; rfl
@[simp] theorem Dev.wrW_age (p o : Nat) (v : BitVec 32) : (d.wrW p o v).age = d.age := by cases d; rfl
@[simp] theorem Dev.wrW_marks (p o : Nat) (v : BitVec 32) : (d.wrW p o v).marks = d.marks := by cases d; rfl
@[simp] theorem Dev.wrW_twin (p o : Nat) (v : BitVec 32) : (d.wrW p o v).twin = d.twin := by cases d; rfl
@[simp] theorem Dev.wrW_balls (p o : Nat) (v : BitVec 32) : (d.wrW p o v).balls = d.balls := by cases d; rfl

/-! ### wr -/

@[simp] theorem Dev.wr_mem (p : Nat) (f : Fld) (n : Nat) : (d.wr p f n).mem = d.mem := by cases d; rfl
@[simp] theorem Dev.wr_now (p : Nat) (f : Fld) (n : Nat) : (d.wr p f n).now = d.now := by cases d; rfl
@[simp] theorem Dev.wr_draws (p : Nat) (f : Fld) (n : Nat) : (d.wr p f n).draws = d.draws := by cases d; rfl
@[simp] theorem Dev.wr_lastCode (p : Nat) (f : Fld) (n : Nat) : (d.wr p f n).lastCode = d.lastCode := by cases d; rfl
@[simp] theorem Dev.wr_lastData (p : Nat) (f : Fld) (n : Nat) : (d.wr p f n).lastData = d.lastData := by cases d; rfl
@[simp] theorem Dev.wr_out (p : Nat) (f : Fld) (n : Nat) : (d.wr p f n).out = d.out := by cases d; rfl
@[simp] theorem Dev.wr_beat (p : Nat) (f : Fld) (n : Nat) : (d.wr p f n).beat = d.beat := by cases d; rfl
@[simp] theorem Dev.wr_disc (p : Nat) (f : Fld) (n : Nat) : (d.wr p f n).disc = d.disc := by cases d; rfl
@[simp] theorem Dev.wr_rejOwn (p : Nat) (f : Fld) (n : Nat) : (d.wr p f n).rejOwn = d.rejOwn := by cases d; rfl
@[simp] theorem Dev.wr_pool (p : Nat) (f : Fld) (n : Nat) : (d.wr p f n).pool = d.pool := by cases d; rfl
@[simp] theorem Dev.wr_rx (p : Nat) (f : Fld) (n : Nat) : (d.wr p f n).rx = d.rx := by cases d; rfl
@[simp] theorem Dev.wr_tx (p : Nat) (f : Fld) (n : Nat) : (d.wr p f n).tx = d.tx := by cases d; rfl
@[simp] theorem Dev.wr_mac (p : Nat) (f : Fld) (n : Nat) : (d.wr p f n).mac = d.mac := by cases d; rfl
@[simp] theorem Dev.wr_cpls (p : Nat) (f : Fld) (n : Nat) : (d.wr p f n).cpls = d.cpls := by cases d; rfl
@[simp] theorem Dev.wr_air (p : Nat) (f : Fld) (n : Nat) : (d.wr p f n).air = d.air := by cases d; rfl
@[simp] theorem Dev.wr_ven (p : Nat) (f : Fld) (n : Nat) : (d.wr p f n).ven = d.ven := by cases d; rfl
@[simp] theorem Dev.wr_tag (p : Nat) (f : Fld) (n : Nat) : (d.wr p f n).tag = d.tag := by cases d; rfl
@[simp] theorem Dev.wr_kov (p : Nat) (f : Fld) (n : Nat) : (d.wr p f n).kov = d.kov := by cases d; rfl
@[simp] theorem Dev.wr_pkt (p : Nat) (f : Fld) (n : Nat) : (d.wr p f n).pkt = d.pkt := by cases d; rfl
@[simp] theorem Dev.wr_eth (p : Nat) (f : Fld) (n : Nat) : (d.wr p f n).eth = d.eth := by cases d; rfl
@[simp] theorem Dev.wr_time (p : Nat) (f : Fld) (n : Nat) : (d.wr p f n).time = d.time := by cases d; rfl
@[simp] theorem Dev.wr_ctl (p : Nat) (f : Fld) (n : Nat) : (d.wr p f n).ctl = d.ctl := by cases d; rfl
@[simp] theorem Dev.wr_pcie (p : Nat) (f : Fld) (n : Nat) : (d.wr p f n).pcie = d.pcie := by cases d; rfl
@[simp] theorem Dev.wr_dsp (p : Nat) (f : Fld) (n : Nat) : (d.wr p f n).dsp = d.dsp := by cases d; rfl
@[simp] theorem Dev.wr_ms (p : Nat) (f : Fld) (n : Nat) : (d.wr p f n).ms = d.ms := by cases d; rfl
@[simp] theorem Dev.wr_sec (p : Nat) (f : Fld) (n : Nat) : (d.wr p f n).sec = d.sec := by cases d; rfl
@[simp] theorem Dev.wr_gov (p : Nat) (f : Fld) (n : Nat) : (d.wr p f n).gov = d.gov := by cases d; rfl
@[simp] theorem Dev.wr_rtc (p : Nat) (f : Fld) (n : Nat) : (d.wr p f n).rtc = d.rtc := by cases d; rfl
@[simp] theorem Dev.wr_age (p : Nat) (f : Fld) (n : Nat) : (d.wr p f n).age = d.age := by cases d; rfl
@[simp] theorem Dev.wr_marks (p : Nat) (f : Fld) (n : Nat) : (d.wr p f n).marks = d.marks := by cases d; rfl
@[simp] theorem Dev.wr_twin (p : Nat) (f : Fld) (n : Nat) : (d.wr p f n).twin = d.twin := by cases d; rfl
@[simp] theorem Dev.wr_balls (p : Nat) (f : Fld) (n : Nat) : (d.wr p f n).balls = d.balls := by cases d; rfl

/-! ### cnt -/

@[simp] theorem Dev.cnt_mem (p : Nat) (f : Fld) (n : Nat) : (d.cnt p f n).mem = d.mem := by cases d; rfl
@[simp] theorem Dev.cnt_now (p : Nat) (f : Fld) (n : Nat) : (d.cnt p f n).now = d.now := by cases d; rfl
@[simp] theorem Dev.cnt_draws (p : Nat) (f : Fld) (n : Nat) : (d.cnt p f n).draws = d.draws := by cases d; rfl
@[simp] theorem Dev.cnt_lastCode (p : Nat) (f : Fld) (n : Nat) : (d.cnt p f n).lastCode = d.lastCode := by cases d; rfl
@[simp] theorem Dev.cnt_lastData (p : Nat) (f : Fld) (n : Nat) : (d.cnt p f n).lastData = d.lastData := by cases d; rfl
@[simp] theorem Dev.cnt_out (p : Nat) (f : Fld) (n : Nat) : (d.cnt p f n).out = d.out := by cases d; rfl
@[simp] theorem Dev.cnt_beat (p : Nat) (f : Fld) (n : Nat) : (d.cnt p f n).beat = d.beat := by cases d; rfl
@[simp] theorem Dev.cnt_disc (p : Nat) (f : Fld) (n : Nat) : (d.cnt p f n).disc = d.disc := by cases d; rfl
@[simp] theorem Dev.cnt_rejOwn (p : Nat) (f : Fld) (n : Nat) : (d.cnt p f n).rejOwn = d.rejOwn := by cases d; rfl
@[simp] theorem Dev.cnt_pool (p : Nat) (f : Fld) (n : Nat) : (d.cnt p f n).pool = d.pool := by cases d; rfl
@[simp] theorem Dev.cnt_rx (p : Nat) (f : Fld) (n : Nat) : (d.cnt p f n).rx = d.rx := by cases d; rfl
@[simp] theorem Dev.cnt_tx (p : Nat) (f : Fld) (n : Nat) : (d.cnt p f n).tx = d.tx := by cases d; rfl
@[simp] theorem Dev.cnt_mac (p : Nat) (f : Fld) (n : Nat) : (d.cnt p f n).mac = d.mac := by cases d; rfl
@[simp] theorem Dev.cnt_cpls (p : Nat) (f : Fld) (n : Nat) : (d.cnt p f n).cpls = d.cpls := by cases d; rfl
@[simp] theorem Dev.cnt_air (p : Nat) (f : Fld) (n : Nat) : (d.cnt p f n).air = d.air := by cases d; rfl
@[simp] theorem Dev.cnt_ven (p : Nat) (f : Fld) (n : Nat) : (d.cnt p f n).ven = d.ven := by cases d; rfl
@[simp] theorem Dev.cnt_tag (p : Nat) (f : Fld) (n : Nat) : (d.cnt p f n).tag = d.tag := by cases d; rfl
@[simp] theorem Dev.cnt_kov (p : Nat) (f : Fld) (n : Nat) : (d.cnt p f n).kov = d.kov := by cases d; rfl
@[simp] theorem Dev.cnt_pkt (p : Nat) (f : Fld) (n : Nat) : (d.cnt p f n).pkt = d.pkt := by cases d; rfl
@[simp] theorem Dev.cnt_eth (p : Nat) (f : Fld) (n : Nat) : (d.cnt p f n).eth = d.eth := by cases d; rfl
@[simp] theorem Dev.cnt_time (p : Nat) (f : Fld) (n : Nat) : (d.cnt p f n).time = d.time := by cases d; rfl
@[simp] theorem Dev.cnt_ctl (p : Nat) (f : Fld) (n : Nat) : (d.cnt p f n).ctl = d.ctl := by cases d; rfl
@[simp] theorem Dev.cnt_pcie (p : Nat) (f : Fld) (n : Nat) : (d.cnt p f n).pcie = d.pcie := by cases d; rfl
@[simp] theorem Dev.cnt_dsp (p : Nat) (f : Fld) (n : Nat) : (d.cnt p f n).dsp = d.dsp := by cases d; rfl
@[simp] theorem Dev.cnt_ms (p : Nat) (f : Fld) (n : Nat) : (d.cnt p f n).ms = d.ms := by cases d; rfl
@[simp] theorem Dev.cnt_sec (p : Nat) (f : Fld) (n : Nat) : (d.cnt p f n).sec = d.sec := by cases d; rfl
@[simp] theorem Dev.cnt_gov (p : Nat) (f : Fld) (n : Nat) : (d.cnt p f n).gov = d.gov := by cases d; rfl
@[simp] theorem Dev.cnt_rtc (p : Nat) (f : Fld) (n : Nat) : (d.cnt p f n).rtc = d.rtc := by cases d; rfl
@[simp] theorem Dev.cnt_age (p : Nat) (f : Fld) (n : Nat) : (d.cnt p f n).age = d.age := by cases d; rfl
@[simp] theorem Dev.cnt_marks (p : Nat) (f : Fld) (n : Nat) : (d.cnt p f n).marks = d.marks := by cases d; rfl
@[simp] theorem Dev.cnt_twin (p : Nat) (f : Fld) (n : Nat) : (d.cnt p f n).twin = d.twin := by cases d; rfl
@[simp] theorem Dev.cnt_balls (p : Nat) (f : Fld) (n : Nat) : (d.cnt p f n).balls = d.balls := by cases d; rfl

/-! ### bump -/

@[simp] theorem Dev.bump_mem (p : Nat) (f : Fld) (n : Nat) : (d.bump p f n).mem = d.mem := by cases d; rfl
@[simp] theorem Dev.bump_now (p : Nat) (f : Fld) (n : Nat) : (d.bump p f n).now = d.now := by cases d; rfl
@[simp] theorem Dev.bump_draws (p : Nat) (f : Fld) (n : Nat) : (d.bump p f n).draws = d.draws := by cases d; rfl
@[simp] theorem Dev.bump_lastCode (p : Nat) (f : Fld) (n : Nat) : (d.bump p f n).lastCode = d.lastCode := by cases d; rfl
@[simp] theorem Dev.bump_lastData (p : Nat) (f : Fld) (n : Nat) : (d.bump p f n).lastData = d.lastData := by cases d; rfl
@[simp] theorem Dev.bump_out (p : Nat) (f : Fld) (n : Nat) : (d.bump p f n).out = d.out := by cases d; rfl
@[simp] theorem Dev.bump_beat (p : Nat) (f : Fld) (n : Nat) : (d.bump p f n).beat = d.beat := by cases d; rfl
@[simp] theorem Dev.bump_disc (p : Nat) (f : Fld) (n : Nat) : (d.bump p f n).disc = d.disc := by cases d; rfl
@[simp] theorem Dev.bump_rejOwn (p : Nat) (f : Fld) (n : Nat) : (d.bump p f n).rejOwn = d.rejOwn := by cases d; rfl
@[simp] theorem Dev.bump_pool (p : Nat) (f : Fld) (n : Nat) : (d.bump p f n).pool = d.pool := by cases d; rfl
@[simp] theorem Dev.bump_rx (p : Nat) (f : Fld) (n : Nat) : (d.bump p f n).rx = d.rx := by cases d; rfl
@[simp] theorem Dev.bump_tx (p : Nat) (f : Fld) (n : Nat) : (d.bump p f n).tx = d.tx := by cases d; rfl
@[simp] theorem Dev.bump_mac (p : Nat) (f : Fld) (n : Nat) : (d.bump p f n).mac = d.mac := by cases d; rfl
@[simp] theorem Dev.bump_cpls (p : Nat) (f : Fld) (n : Nat) : (d.bump p f n).cpls = d.cpls := by cases d; rfl
@[simp] theorem Dev.bump_air (p : Nat) (f : Fld) (n : Nat) : (d.bump p f n).air = d.air := by cases d; rfl
@[simp] theorem Dev.bump_ven (p : Nat) (f : Fld) (n : Nat) : (d.bump p f n).ven = d.ven := by cases d; rfl
@[simp] theorem Dev.bump_tag (p : Nat) (f : Fld) (n : Nat) : (d.bump p f n).tag = d.tag := by cases d; rfl
@[simp] theorem Dev.bump_kov (p : Nat) (f : Fld) (n : Nat) : (d.bump p f n).kov = d.kov := by cases d; rfl
@[simp] theorem Dev.bump_pkt (p : Nat) (f : Fld) (n : Nat) : (d.bump p f n).pkt = d.pkt := by cases d; rfl
@[simp] theorem Dev.bump_eth (p : Nat) (f : Fld) (n : Nat) : (d.bump p f n).eth = d.eth := by cases d; rfl
@[simp] theorem Dev.bump_time (p : Nat) (f : Fld) (n : Nat) : (d.bump p f n).time = d.time := by cases d; rfl
@[simp] theorem Dev.bump_ctl (p : Nat) (f : Fld) (n : Nat) : (d.bump p f n).ctl = d.ctl := by cases d; rfl
@[simp] theorem Dev.bump_pcie (p : Nat) (f : Fld) (n : Nat) : (d.bump p f n).pcie = d.pcie := by cases d; rfl
@[simp] theorem Dev.bump_dsp (p : Nat) (f : Fld) (n : Nat) : (d.bump p f n).dsp = d.dsp := by cases d; rfl
@[simp] theorem Dev.bump_ms (p : Nat) (f : Fld) (n : Nat) : (d.bump p f n).ms = d.ms := by cases d; rfl
@[simp] theorem Dev.bump_sec (p : Nat) (f : Fld) (n : Nat) : (d.bump p f n).sec = d.sec := by cases d; rfl
@[simp] theorem Dev.bump_gov (p : Nat) (f : Fld) (n : Nat) : (d.bump p f n).gov = d.gov := by cases d; rfl
@[simp] theorem Dev.bump_rtc (p : Nat) (f : Fld) (n : Nat) : (d.bump p f n).rtc = d.rtc := by cases d; rfl
@[simp] theorem Dev.bump_age (p : Nat) (f : Fld) (n : Nat) : (d.bump p f n).age = d.age := by cases d; rfl
@[simp] theorem Dev.bump_marks (p : Nat) (f : Fld) (n : Nat) : (d.bump p f n).marks = d.marks := by cases d; rfl
@[simp] theorem Dev.bump_twin (p : Nat) (f : Fld) (n : Nat) : (d.bump p f n).twin = d.twin := by cases d; rfl
@[simp] theorem Dev.bump_balls (p : Nat) (f : Fld) (n : Nat) : (d.bump p f n).balls = d.balls := by cases d; rfl

/-! ### ev -/

@[simp] theorem Dev.ev_mem (p b : Nat) : (d.ev p b).mem = d.mem := by cases d; rfl
@[simp] theorem Dev.ev_now (p b : Nat) : (d.ev p b).now = d.now := by cases d; rfl
@[simp] theorem Dev.ev_draws (p b : Nat) : (d.ev p b).draws = d.draws := by cases d; rfl
@[simp] theorem Dev.ev_lastCode (p b : Nat) : (d.ev p b).lastCode = d.lastCode := by cases d; rfl
@[simp] theorem Dev.ev_lastData (p b : Nat) : (d.ev p b).lastData = d.lastData := by cases d; rfl
@[simp] theorem Dev.ev_out (p b : Nat) : (d.ev p b).out = d.out := by cases d; rfl
@[simp] theorem Dev.ev_beat (p b : Nat) : (d.ev p b).beat = d.beat := by cases d; rfl
@[simp] theorem Dev.ev_disc (p b : Nat) : (d.ev p b).disc = d.disc := by cases d; rfl
@[simp] theorem Dev.ev_rejOwn (p b : Nat) : (d.ev p b).rejOwn = d.rejOwn := by cases d; rfl
@[simp] theorem Dev.ev_pool (p b : Nat) : (d.ev p b).pool = d.pool := by cases d; rfl
@[simp] theorem Dev.ev_rx (p b : Nat) : (d.ev p b).rx = d.rx := by cases d; rfl
@[simp] theorem Dev.ev_tx (p b : Nat) : (d.ev p b).tx = d.tx := by cases d; rfl
@[simp] theorem Dev.ev_mac (p b : Nat) : (d.ev p b).mac = d.mac := by cases d; rfl
@[simp] theorem Dev.ev_cpls (p b : Nat) : (d.ev p b).cpls = d.cpls := by cases d; rfl
@[simp] theorem Dev.ev_air (p b : Nat) : (d.ev p b).air = d.air := by cases d; rfl
@[simp] theorem Dev.ev_ven (p b : Nat) : (d.ev p b).ven = d.ven := by cases d; rfl
@[simp] theorem Dev.ev_tag (p b : Nat) : (d.ev p b).tag = d.tag := by cases d; rfl
@[simp] theorem Dev.ev_kov (p b : Nat) : (d.ev p b).kov = d.kov := by cases d; rfl
@[simp] theorem Dev.ev_pkt (p b : Nat) : (d.ev p b).pkt = d.pkt := by cases d; rfl
@[simp] theorem Dev.ev_eth (p b : Nat) : (d.ev p b).eth = d.eth := by cases d; rfl
@[simp] theorem Dev.ev_time (p b : Nat) : (d.ev p b).time = d.time := by cases d; rfl
@[simp] theorem Dev.ev_ctl (p b : Nat) : (d.ev p b).ctl = d.ctl := by cases d; rfl
@[simp] theorem Dev.ev_pcie (p b : Nat) : (d.ev p b).pcie = d.pcie := by cases d; rfl
@[simp] theorem Dev.ev_dsp (p b : Nat) : (d.ev p b).dsp = d.dsp := by cases d; rfl
@[simp] theorem Dev.ev_ms (p b : Nat) : (d.ev p b).ms = d.ms := by cases d; rfl
@[simp] theorem Dev.ev_sec (p b : Nat) : (d.ev p b).sec = d.sec := by cases d; rfl
@[simp] theorem Dev.ev_gov (p b : Nat) : (d.ev p b).gov = d.gov := by cases d; rfl
@[simp] theorem Dev.ev_rtc (p b : Nat) : (d.ev p b).rtc = d.rtc := by cases d; rfl
@[simp] theorem Dev.ev_age (p b : Nat) : (d.ev p b).age = d.age := by cases d; rfl
@[simp] theorem Dev.ev_marks (p b : Nat) : (d.ev p b).marks = d.marks := by cases d; rfl
@[simp] theorem Dev.ev_twin (p b : Nat) : (d.ev p b).twin = d.twin := by cases d; rfl
@[simp] theorem Dev.ev_balls (p b : Nat) : (d.ev p b).balls = d.balls := by cases d; rfl

/-! ### setState -/

@[simp] theorem Dev.setState_mem (p : Nat) (b : BState) : (d.setState p b).mem = d.mem := by cases d; rfl
@[simp] theorem Dev.setState_now (p : Nat) (b : BState) : (d.setState p b).now = d.now := by cases d; rfl
@[simp] theorem Dev.setState_draws (p : Nat) (b : BState) : (d.setState p b).draws = d.draws := by cases d; rfl
@[simp] theorem Dev.setState_lastCode (p : Nat) (b : BState) : (d.setState p b).lastCode = d.lastCode := by cases d; rfl
@[simp] theorem Dev.setState_lastData (p : Nat) (b : BState) : (d.setState p b).lastData = d.lastData := by cases d; rfl
@[simp] theorem Dev.setState_out (p : Nat) (b : BState) : (d.setState p b).out = d.out := by cases d; rfl
@[simp] theorem Dev.setState_beat (p : Nat) (b : BState) : (d.setState p b).beat = d.beat := by cases d; rfl
@[simp] theorem Dev.setState_disc (p : Nat) (b : BState) : (d.setState p b).disc = d.disc := by cases d; rfl
@[simp] theorem Dev.setState_rejOwn (p : Nat) (b : BState) : (d.setState p b).rejOwn = d.rejOwn := by cases d; rfl
@[simp] theorem Dev.setState_pool (p : Nat) (b : BState) : (d.setState p b).pool = d.pool := by cases d; rfl
@[simp] theorem Dev.setState_rx (p : Nat) (b : BState) : (d.setState p b).rx = d.rx := by cases d; rfl
@[simp] theorem Dev.setState_tx (p : Nat) (b : BState) : (d.setState p b).tx = d.tx := by cases d; rfl
@[simp] theorem Dev.setState_mac (p : Nat) (b : BState) : (d.setState p b).mac = d.mac := by cases d; rfl
@[simp] theorem Dev.setState_cpls (p : Nat) (b : BState) : (d.setState p b).cpls = d.cpls := by cases d; rfl
@[simp] theorem Dev.setState_air (p : Nat) (b : BState) : (d.setState p b).air = d.air := by cases d; rfl
@[simp] theorem Dev.setState_ven (p : Nat) (b : BState) : (d.setState p b).ven = d.ven := by cases d; rfl
@[simp] theorem Dev.setState_tag (p : Nat) (b : BState) : (d.setState p b).tag = d.tag := by cases d; rfl
@[simp] theorem Dev.setState_kov (p : Nat) (b : BState) : (d.setState p b).kov = d.kov := by cases d; rfl
@[simp] theorem Dev.setState_pkt (p : Nat) (b : BState) : (d.setState p b).pkt = d.pkt := by cases d; rfl
@[simp] theorem Dev.setState_eth (p : Nat) (b : BState) : (d.setState p b).eth = d.eth := by cases d; rfl
@[simp] theorem Dev.setState_time (p : Nat) (b : BState) : (d.setState p b).time = d.time := by cases d; rfl
@[simp] theorem Dev.setState_ctl (p : Nat) (b : BState) : (d.setState p b).ctl = d.ctl := by cases d; rfl
@[simp] theorem Dev.setState_pcie (p : Nat) (b : BState) : (d.setState p b).pcie = d.pcie := by cases d; rfl
@[simp] theorem Dev.setState_dsp (p : Nat) (b : BState) : (d.setState p b).dsp = d.dsp := by cases d; rfl
@[simp] theorem Dev.setState_ms (p : Nat) (b : BState) : (d.setState p b).ms = d.ms := by cases d; rfl
@[simp] theorem Dev.setState_sec (p : Nat) (b : BState) : (d.setState p b).sec = d.sec := by cases d; rfl
@[simp] theorem Dev.setState_gov (p : Nat) (b : BState) : (d.setState p b).gov = d.gov := by cases d; rfl
@[simp] theorem Dev.setState_rtc (p : Nat) (b : BState) : (d.setState p b).rtc = d.rtc := by cases d; rfl
@[simp] theorem Dev.setState_age (p : Nat) (b : BState) : (d.setState p b).age = d.age := by cases d; rfl
@[simp] theorem Dev.setState_marks (p : Nat) (b : BState) : (d.setState p b).marks = d.marks := by cases d; rfl
@[simp] theorem Dev.setState_twin (p : Nat) (b : BState) : (d.setState p b).twin = d.twin := by cases d; rfl
@[simp] theorem Dev.setState_balls (p : Nat) (b : BState) : (d.setState p b).balls = d.balls := by cases d; rfl

/-! ### complete -/

@[simp] theorem Dev.complete_regs (c : Code) (n : Nat) : (d.complete c n).regs = d.regs := by cases d; rfl
@[simp] theorem Dev.complete_mem (c : Code) (n : Nat) : (d.complete c n).mem = d.mem := by cases d; rfl
@[simp] theorem Dev.complete_now (c : Code) (n : Nat) : (d.complete c n).now = d.now := by cases d; rfl
@[simp] theorem Dev.complete_draws (c : Code) (n : Nat) : (d.complete c n).draws = d.draws := by cases d; rfl
@[simp] theorem Dev.complete_out (c : Code) (n : Nat) : (d.complete c n).out = d.out := by cases d; rfl
@[simp] theorem Dev.complete_beat (c : Code) (n : Nat) : (d.complete c n).beat = d.beat := by cases d; rfl
@[simp] theorem Dev.complete_disc (c : Code) (n : Nat) : (d.complete c n).disc = d.disc := by cases d; rfl
@[simp] theorem Dev.complete_rejOwn (c : Code) (n : Nat) : (d.complete c n).rejOwn = d.rejOwn := by cases d; rfl
@[simp] theorem Dev.complete_pool (c : Code) (n : Nat) : (d.complete c n).pool = d.pool := by cases d; rfl
@[simp] theorem Dev.complete_rx (c : Code) (n : Nat) : (d.complete c n).rx = d.rx := by cases d; rfl
@[simp] theorem Dev.complete_tx (c : Code) (n : Nat) : (d.complete c n).tx = d.tx := by cases d; rfl
@[simp] theorem Dev.complete_mac (c : Code) (n : Nat) : (d.complete c n).mac = d.mac := by cases d; rfl
@[simp] theorem Dev.complete_cpls (c : Code) (n : Nat) : (d.complete c n).cpls = d.cpls := by cases d; rfl
@[simp] theorem Dev.complete_air (c : Code) (n : Nat) : (d.complete c n).air = d.air := by cases d; rfl
@[simp] theorem Dev.complete_ven (c : Code) (n : Nat) : (d.complete c n).ven = d.ven := by cases d; rfl
@[simp] theorem Dev.complete_tag (c : Code) (n : Nat) : (d.complete c n).tag = d.tag := by cases d; rfl
@[simp] theorem Dev.complete_kov (c : Code) (n : Nat) : (d.complete c n).kov = d.kov := by cases d; rfl
@[simp] theorem Dev.complete_pkt (c : Code) (n : Nat) : (d.complete c n).pkt = d.pkt := by cases d; rfl
@[simp] theorem Dev.complete_eth (c : Code) (n : Nat) : (d.complete c n).eth = d.eth := by cases d; rfl
@[simp] theorem Dev.complete_time (c : Code) (n : Nat) : (d.complete c n).time = d.time := by cases d; rfl
@[simp] theorem Dev.complete_ctl (c : Code) (n : Nat) : (d.complete c n).ctl = d.ctl := by cases d; rfl
@[simp] theorem Dev.complete_pcie (c : Code) (n : Nat) : (d.complete c n).pcie = d.pcie := by cases d; rfl
@[simp] theorem Dev.complete_dsp (c : Code) (n : Nat) : (d.complete c n).dsp = d.dsp := by cases d; rfl
@[simp] theorem Dev.complete_ms (c : Code) (n : Nat) : (d.complete c n).ms = d.ms := by cases d; rfl
@[simp] theorem Dev.complete_sec (c : Code) (n : Nat) : (d.complete c n).sec = d.sec := by cases d; rfl
@[simp] theorem Dev.complete_gov (c : Code) (n : Nat) : (d.complete c n).gov = d.gov := by cases d; rfl
@[simp] theorem Dev.complete_rtc (c : Code) (n : Nat) : (d.complete c n).rtc = d.rtc := by cases d; rfl
@[simp] theorem Dev.complete_age (c : Code) (n : Nat) : (d.complete c n).age = d.age := by cases d; rfl
@[simp] theorem Dev.complete_marks (c : Code) (n : Nat) : (d.complete c n).marks = d.marks := by cases d; rfl
@[simp] theorem Dev.complete_twin (c : Code) (n : Nat) : (d.complete c n).twin = d.twin := by cases d; rfl
@[simp] theorem Dev.complete_balls (c : Code) (n : Nat) : (d.complete c n).balls = d.balls := by cases d; rfl

/-! ### emit -/

@[simp] theorem Dev.emit_regs (e : Emit) : (d.emit e).regs = d.regs := by cases d; rfl
@[simp] theorem Dev.emit_mem (e : Emit) : (d.emit e).mem = d.mem := by cases d; rfl
@[simp] theorem Dev.emit_now (e : Emit) : (d.emit e).now = d.now := by cases d; rfl
@[simp] theorem Dev.emit_draws (e : Emit) : (d.emit e).draws = d.draws := by cases d; rfl
@[simp] theorem Dev.emit_lastCode (e : Emit) : (d.emit e).lastCode = d.lastCode := by cases d; rfl
@[simp] theorem Dev.emit_lastData (e : Emit) : (d.emit e).lastData = d.lastData := by cases d; rfl
@[simp] theorem Dev.emit_beat (e : Emit) : (d.emit e).beat = d.beat := by cases d; rfl
@[simp] theorem Dev.emit_disc (e : Emit) : (d.emit e).disc = d.disc := by cases d; rfl
@[simp] theorem Dev.emit_rejOwn (e : Emit) : (d.emit e).rejOwn = d.rejOwn := by cases d; rfl
@[simp] theorem Dev.emit_pool (e : Emit) : (d.emit e).pool = d.pool := by cases d; rfl
@[simp] theorem Dev.emit_rx (e : Emit) : (d.emit e).rx = d.rx := by cases d; rfl
@[simp] theorem Dev.emit_tx (e : Emit) : (d.emit e).tx = d.tx := by cases d; rfl
@[simp] theorem Dev.emit_mac (e : Emit) : (d.emit e).mac = d.mac := by cases d; rfl
@[simp] theorem Dev.emit_cpls (e : Emit) : (d.emit e).cpls = d.cpls := by cases d; rfl
@[simp] theorem Dev.emit_air (e : Emit) : (d.emit e).air = d.air := by cases d; rfl
@[simp] theorem Dev.emit_ven (e : Emit) : (d.emit e).ven = d.ven := by cases d; rfl
@[simp] theorem Dev.emit_tag (e : Emit) : (d.emit e).tag = d.tag := by cases d; rfl
@[simp] theorem Dev.emit_kov (e : Emit) : (d.emit e).kov = d.kov := by cases d; rfl
@[simp] theorem Dev.emit_pkt (e : Emit) : (d.emit e).pkt = d.pkt := by cases d; rfl
@[simp] theorem Dev.emit_eth (e : Emit) : (d.emit e).eth = d.eth := by cases d; rfl
@[simp] theorem Dev.emit_time (e : Emit) : (d.emit e).time = d.time := by cases d; rfl
@[simp] theorem Dev.emit_ctl (e : Emit) : (d.emit e).ctl = d.ctl := by cases d; rfl
@[simp] theorem Dev.emit_pcie (e : Emit) : (d.emit e).pcie = d.pcie := by cases d; rfl
@[simp] theorem Dev.emit_dsp (e : Emit) : (d.emit e).dsp = d.dsp := by cases d; rfl
@[simp] theorem Dev.emit_ms (e : Emit) : (d.emit e).ms = d.ms := by cases d; rfl
@[simp] theorem Dev.emit_sec (e : Emit) : (d.emit e).sec = d.sec := by cases d; rfl
@[simp] theorem Dev.emit_gov (e : Emit) : (d.emit e).gov = d.gov := by cases d; rfl
@[simp] theorem Dev.emit_rtc (e : Emit) : (d.emit e).rtc = d.rtc := by cases d; rfl
@[simp] theorem Dev.emit_age (e : Emit) : (d.emit e).age = d.age := by cases d; rfl
@[simp] theorem Dev.emit_marks (e : Emit) : (d.emit e).marks = d.marks := by cases d; rfl
@[simp] theorem Dev.emit_twin (e : Emit) : (d.emit e).twin = d.twin := by cases d; rfl
@[simp] theorem Dev.emit_balls (e : Emit) : (d.emit e).balls = d.balls := by cases d; rfl

/-! ### reach -/

@[simp] theorem Dev.reach_regs (t : Nat) : (d.reach t).regs = d.regs := by cases d; rfl
@[simp] theorem Dev.reach_mem (t : Nat) : (d.reach t).mem = d.mem := by cases d; rfl
@[simp] theorem Dev.reach_draws (t : Nat) : (d.reach t).draws = d.draws := by cases d; rfl
@[simp] theorem Dev.reach_lastCode (t : Nat) : (d.reach t).lastCode = d.lastCode := by cases d; rfl
@[simp] theorem Dev.reach_lastData (t : Nat) : (d.reach t).lastData = d.lastData := by cases d; rfl
@[simp] theorem Dev.reach_out (t : Nat) : (d.reach t).out = d.out := by cases d; rfl
@[simp] theorem Dev.reach_beat (t : Nat) : (d.reach t).beat = d.beat := by cases d; rfl
@[simp] theorem Dev.reach_disc (t : Nat) : (d.reach t).disc = d.disc := by cases d; rfl
@[simp] theorem Dev.reach_rejOwn (t : Nat) : (d.reach t).rejOwn = d.rejOwn := by cases d; rfl
@[simp] theorem Dev.reach_pool (t : Nat) : (d.reach t).pool = d.pool := by cases d; rfl
@[simp] theorem Dev.reach_rx (t : Nat) : (d.reach t).rx = d.rx := by cases d; rfl
@[simp] theorem Dev.reach_tx (t : Nat) : (d.reach t).tx = d.tx := by cases d; rfl
@[simp] theorem Dev.reach_mac (t : Nat) : (d.reach t).mac = d.mac := by cases d; rfl
@[simp] theorem Dev.reach_cpls (t : Nat) : (d.reach t).cpls = d.cpls := by cases d; rfl
@[simp] theorem Dev.reach_air (t : Nat) : (d.reach t).air = d.air := by cases d; rfl
@[simp] theorem Dev.reach_ven (t : Nat) : (d.reach t).ven = d.ven := by cases d; rfl
@[simp] theorem Dev.reach_tag (t : Nat) : (d.reach t).tag = d.tag := by cases d; rfl
@[simp] theorem Dev.reach_kov (t : Nat) : (d.reach t).kov = d.kov := by cases d; rfl
@[simp] theorem Dev.reach_pkt (t : Nat) : (d.reach t).pkt = d.pkt := by cases d; rfl
@[simp] theorem Dev.reach_eth (t : Nat) : (d.reach t).eth = d.eth := by cases d; rfl
@[simp] theorem Dev.reach_time (t : Nat) : (d.reach t).time = d.time := by cases d; rfl
@[simp] theorem Dev.reach_ctl (t : Nat) : (d.reach t).ctl = d.ctl := by cases d; rfl
@[simp] theorem Dev.reach_pcie (t : Nat) : (d.reach t).pcie = d.pcie := by cases d; rfl
@[simp] theorem Dev.reach_dsp (t : Nat) : (d.reach t).dsp = d.dsp := by cases d; rfl
@[simp] theorem Dev.reach_ms (t : Nat) : (d.reach t).ms = d.ms := by cases d; rfl
@[simp] theorem Dev.reach_sec (t : Nat) : (d.reach t).sec = d.sec := by cases d; rfl
@[simp] theorem Dev.reach_gov (t : Nat) : (d.reach t).gov = d.gov := by cases d; rfl
@[simp] theorem Dev.reach_rtc (t : Nat) : (d.reach t).rtc = d.rtc := by cases d; rfl
@[simp] theorem Dev.reach_age (t : Nat) : (d.reach t).age = d.age := by cases d; rfl
@[simp] theorem Dev.reach_marks (t : Nat) : (d.reach t).marks = d.marks := by cases d; rfl
@[simp] theorem Dev.reach_twin (t : Nat) : (d.reach t).twin = d.twin := by cases d; rfl
@[simp] theorem Dev.reach_balls (t : Nat) : (d.reach t).balls = d.balls := by cases d; rfl

/-! ### stB -/

@[simp] theorem Dev.stB_regs (a : Nat) (v : BitVec 8) : (d.stB a v).regs = d.regs := by cases d; rfl
@[simp] theorem Dev.stB_now (a : Nat) (v : BitVec 8) : (d.stB a v).now = d.now := by cases d; rfl
@[simp] theorem Dev.stB_draws (a : Nat) (v : BitVec 8) : (d.stB a v).draws = d.draws := by cases d; rfl
@[simp] theorem Dev.stB_lastCode (a : Nat) (v : BitVec 8) : (d.stB a v).lastCode = d.lastCode := by cases d; rfl
@[simp] theorem Dev.stB_lastData (a : Nat) (v : BitVec 8) : (d.stB a v).lastData = d.lastData := by cases d; rfl
@[simp] theorem Dev.stB_out (a : Nat) (v : BitVec 8) : (d.stB a v).out = d.out := by cases d; rfl
@[simp] theorem Dev.stB_beat (a : Nat) (v : BitVec 8) : (d.stB a v).beat = d.beat := by cases d; rfl
@[simp] theorem Dev.stB_disc (a : Nat) (v : BitVec 8) : (d.stB a v).disc = d.disc := by cases d; rfl
@[simp] theorem Dev.stB_rejOwn (a : Nat) (v : BitVec 8) : (d.stB a v).rejOwn = d.rejOwn := by cases d; rfl
@[simp] theorem Dev.stB_pool (a : Nat) (v : BitVec 8) : (d.stB a v).pool = d.pool := by cases d; rfl
@[simp] theorem Dev.stB_rx (a : Nat) (v : BitVec 8) : (d.stB a v).rx = d.rx := by cases d; rfl
@[simp] theorem Dev.stB_tx (a : Nat) (v : BitVec 8) : (d.stB a v).tx = d.tx := by cases d; rfl
@[simp] theorem Dev.stB_mac (a : Nat) (v : BitVec 8) : (d.stB a v).mac = d.mac := by cases d; rfl
@[simp] theorem Dev.stB_cpls (a : Nat) (v : BitVec 8) : (d.stB a v).cpls = d.cpls := by cases d; rfl
@[simp] theorem Dev.stB_air (a : Nat) (v : BitVec 8) : (d.stB a v).air = d.air := by cases d; rfl
@[simp] theorem Dev.stB_ven (a : Nat) (v : BitVec 8) : (d.stB a v).ven = d.ven := by cases d; rfl
@[simp] theorem Dev.stB_tag (a : Nat) (v : BitVec 8) : (d.stB a v).tag = d.tag := by cases d; rfl
@[simp] theorem Dev.stB_kov (a : Nat) (v : BitVec 8) : (d.stB a v).kov = d.kov := by cases d; rfl
@[simp] theorem Dev.stB_pkt (a : Nat) (v : BitVec 8) : (d.stB a v).pkt = d.pkt := by cases d; rfl
@[simp] theorem Dev.stB_eth (a : Nat) (v : BitVec 8) : (d.stB a v).eth = d.eth := by cases d; rfl
@[simp] theorem Dev.stB_time (a : Nat) (v : BitVec 8) : (d.stB a v).time = d.time := by cases d; rfl
@[simp] theorem Dev.stB_ctl (a : Nat) (v : BitVec 8) : (d.stB a v).ctl = d.ctl := by cases d; rfl
@[simp] theorem Dev.stB_pcie (a : Nat) (v : BitVec 8) : (d.stB a v).pcie = d.pcie := by cases d; rfl
@[simp] theorem Dev.stB_dsp (a : Nat) (v : BitVec 8) : (d.stB a v).dsp = d.dsp := by cases d; rfl
@[simp] theorem Dev.stB_ms (a : Nat) (v : BitVec 8) : (d.stB a v).ms = d.ms := by cases d; rfl
@[simp] theorem Dev.stB_sec (a : Nat) (v : BitVec 8) : (d.stB a v).sec = d.sec := by cases d; rfl
@[simp] theorem Dev.stB_gov (a : Nat) (v : BitVec 8) : (d.stB a v).gov = d.gov := by cases d; rfl
@[simp] theorem Dev.stB_rtc (a : Nat) (v : BitVec 8) : (d.stB a v).rtc = d.rtc := by cases d; rfl
@[simp] theorem Dev.stB_age (a : Nat) (v : BitVec 8) : (d.stB a v).age = d.age := by cases d; rfl
@[simp] theorem Dev.stB_marks (a : Nat) (v : BitVec 8) : (d.stB a v).marks = d.marks := by cases d; rfl
@[simp] theorem Dev.stB_twin (a : Nat) (v : BitVec 8) : (d.stB a v).twin = d.twin := by cases d; rfl
@[simp] theorem Dev.stB_balls (a : Nat) (v : BitVec 8) : (d.stB a v).balls = d.balls := by cases d; rfl

/-! ### What the updates set -/

@[simp] theorem Dev.complete_lastCode (c : Code) (n : Nat) : (d.complete c n).lastCode = c := rfl
@[simp] theorem Dev.complete_lastData (c : Code) (n : Nat) : (d.complete c n).lastData = n := rfl
@[simp] theorem Dev.complete_complete (c c' : Code) (n n' : Nat) : (d.complete c n).complete c' n' = d.complete c' n' := rfl
@[simp] theorem Dev.emit_out (e : Emit) : (d.emit e).out = d.out ++ [e] := rfl
@[simp] theorem Dev.reach_now (t : Nat) : (d.reach t).now = max d.now t := rfl

/-- A register word depends on the register file alone. -/
theorem Dev.rdW_of_regs {d e : Dev} (h : d.regs = e.regs) (p o : Nat) : d.rdW p o = e.rdW p o := by
  simp only [Dev.rdW, h]

/-- So does a field. -/
theorem Dev.rd_of_regs {d e : Dev} (h : d.regs = e.regs) (p : Nat) (f : Fld) : d.rd p f = e.rd p f := by
  simp only [Dev.rd, Dev.rdW, h]

@[simp] theorem Dev.rd_complete (c : Code) (n p : Nat) (f : Fld) : (d.complete c n).rd p f = d.rd p f := by cases d; rfl
@[simp] theorem Dev.rdW_complete (c : Code) (n p o : Nat) : (d.complete c n).rdW p o = d.rdW p o := by cases d; rfl
@[simp] theorem Dev.rd_emit (e : Emit) (p : Nat) (f : Fld) : (d.emit e).rd p f = d.rd p f := by cases d; rfl
@[simp] theorem Dev.rdW_emit (e : Emit) (p o : Nat) : (d.emit e).rdW p o = d.rdW p o := by cases d; rfl
@[simp] theorem Dev.rd_reach (t p : Nat) (f : Fld) : (d.reach t).rd p f = d.rd p f := by cases d; rfl
@[simp] theorem Dev.rdW_reach (t p o : Nat) : (d.reach t).rdW p o = d.rdW p o := by cases d; rfl
@[simp] theorem Dev.rd_stB (a : Nat) (v : BitVec 8) (p : Nat) (f : Fld) : (d.stB a v).rd p f = d.rd p f := by cases d; rfl
@[simp] theorem Dev.rdW_stB (a : Nat) (v : BitVec 8) (p o : Nat) : (d.stB a v).rdW p o = d.rdW p o := by cases d; rfl
@[simp] theorem Dev.when_true (f : Dev → Dev) : d.when true f = f d := rfl
@[simp] theorem Dev.when_false (f : Dev → Dev) : d.when false f = d := rfl

/-! ### The whole state -/

variable (s : State)

@[simp] theorem State.on_seq (f : Dev → Dev) : (s.on f).seq = s.seq := rfl
@[simp] theorem State.on_harts (f : Dev → Dev) : (s.on f).harts = s.harts := rfl
@[simp] theorem State.on_pending (f : Dev → Dev) : (s.on f).pending = s.pending := rfl
@[simp] theorem State.on_dev (f : Dev → Dev) : (s.on f).dev = f s.dev := rfl

/-- A command of the device leaves the beat sequencer, the harts and the queue as they were. -/
theorem State.onDev_next {s t : State} {f : Dev → Dev} (h : s.onDev f = .next t) :
    t.dev = f s.dev ∧ t.seq = s.seq ∧ t.harts = s.harts ∧ t.pending = s.pending := by
  cases h
  exact ⟨rfl, rfl, rfl, rfl⟩

theorem State.onDev_def (f : Dev → Dev) : s.onDev f = .next { s with dev := f s.dev } := rfl

end Sys2Proof.Machine
end

