-- ==== Sys2Proof/Laws/Harts.lean ====
section
/-! SUPPORT. What the operations of the control cores keep: the shape of a core, its hard-wired x0, its legal privilege and the
legal MPP of mstatus (`Hart.wf`), operation by operation, and the cluster (`State.hartsWf`). -/

namespace Sys2Proof.Machine

/-! ### Lists -/

@[simp] theorem length_setAt {α : Type} (l : List α) (i : Nat) (v : α) : (setAt l i v).length = l.length := by
  induction l generalizing i with
  | nil => rfl
  | cons a r ih => cases i with
    | zero => rfl
    | succ i => simp [setAt, ih]

theorem nth_setAt_zero {α : Type} (d : α) (l : List α) {i : Nat} (v : α) (h : i ≠ 0) : nth d (setAt l i v) 0 = nth d l 0 := by
  cases l with
  | nil => rfl
  | cons a r => cases i with
    | zero => exact absurd rfl h
    | succ i => rfl

theorem mem_setAt {α : Type} {l : List α} {i : Nat} {v e : α} (h : e ∈ setAt l i v) : e = v ∨ e ∈ l := by
  induction l generalizing i with
  | nil => cases h
  | cons a r ih =>
    cases i with
    | zero => rcases List.mem_cons.1 h with rfl | h
              · exact .inl rfl
              · exact .inr (List.mem_cons_of_mem _ h)
    | succ i => rcases List.mem_cons.1 h with rfl | h
                · exact .inr (List.mem_cons_self ..)
                · exact (ih h).imp id (List.mem_cons_of_mem _)

/-! ### CSRs -/

theorem Hart.csrW_setCsr_same (h : Hart) (n v : Nat) : (h.setCsr n v).csrW n = v % 2 ^ 64 := by
  have := lookD_putD_same (fun _ => (0 : BitVec 64)) h.csr n (BitVec.ofNat 64 v)
  simp only [Hart.csrW, Hart.setCsr, lookOr]
  simp only [lookD] at this
  rw [this]
  exact BitVec.toNat_ofNat v 64

theorem Hart.csrW_setCsr_ne (h : Hart) {n k : Nat} (v : Nat) (hk : k ≠ n) : (h.setCsr n v).csrW k = h.csrW k := by
  have := lookD_putD_ne (fun _ => (0 : BitVec 64)) h.csr (k := n) (j := k) (BitVec.ofNat 64 v) hk
  simp only [Hart.csrW, Hart.setCsr, lookOr]
  simp only [lookD] at this
  rw [this]

theorem Hart.csrW_lt (h : Hart) (n : Nat) : h.csrW n < 2 ^ 64 := (lookOr 0 h.csr n).isLt

/-! ### The MPP field -/

theorem bits_mod_mpp (v : Nat) : bits (v % 2 ^ 64) 11 2 = bits v 11 2 := by
  simp only [bits]
  omega

theorem mpp_putBits_1 (v n : Nat) : bits (putBits v 1 1 n) 11 2 = bits v 11 2 := by
  simp only [putBits, bits]
  omega

theorem mpp_putBits_3 (v n : Nat) : bits (putBits v 3 1 n) 11 2 = bits v 11 2 := by
  simp only [putBits, bits]
  omega

theorem mpp_putBits_5 (v n : Nat) : bits (putBits v 5 1 n) 11 2 = bits v 11 2 := by
  simp only [putBits, bits]
  omega

theorem mpp_putBits_7 (v n : Nat) : bits (putBits v 7 1 n) 11 2 = bits v 11 2 := by
  simp only [putBits, bits]
  omega

theorem mpp_putBits_8 (v n : Nat) : bits (putBits v 8 1 n) 11 2 = bits v 11 2 := by
  simp only [putBits, bits]
  omega

theorem mpp_putBits_17 (v n : Nat) : bits (putBits v 17 1 n) 11 2 = bits v 11 2 := by
  simp only [putBits, bits]
  omega

theorem mpp_putBits_11 (v n : Nat) : bits (putBits v 11 2 n) 11 2 = n % 4 := by
  simp only [putBits, bits]
  omega

/-- The MPP that `setStatus` puts in place of a reserved one. -/
theorem mpp_setMpp (v p : Nat) (hp : p < 4) : bits (Hart.setStatus.setMpp v p) 11 2 = p := by
  have h : bits (v &&& (0x1800 ^^^ mstatusMask)) 11 2 = 0 := by
    have e : (0x1800 ^^^ mstatusMask) / 2 ^ 11 % 2 ^ 2 = 0 := by decide
    rw [bits, Nat.and_div_two_pow, Nat.and_mod_two_pow, e, Nat.and_zero]
  simp only [Hart.setStatus.setMpp, bits] at *
  omega

/-! ### Operations on one core -/

/-- What the invariant reads of a core. -/
theorem Hart.wf_of_same {h g : Hart} (w : h.wf) (hx : g.x = h.x) (hf : g.f = h.f) (hp : g.priv = h.priv)
    (hm : g.csrW 0x300 = h.csrW 0x300) : g.wf := by
  obtain ⟨w1, w2, w3, w4, w5⟩ := w
  exact ⟨hx ▸ w1, hf ▸ w2, hx ▸ w3, hp ▸ w4, by simpa only [Hart.mstatus, hm] using w5⟩

theorem Hart.wf_setX {h : Hart} (w : h.wf) (r v : Nat) : (h.setX r v).wf := by
  obtain ⟨w1, w2, w3, w4, w5⟩ := w
  unfold Hart.setX
  split
  · exact ⟨w1, w2, w3, w4, w5⟩
  · next hr => exact ⟨by simpa using w1, w2, (nth_setAt_zero _ _ _ hr).trans w3, w4, w5⟩

theorem Hart.wf_setPc {h : Hart} (w : h.wf) (v : Nat) : (h.setPc v).wf := w

theorem Hart.wf_setCsr {h : Hart} (w : h.wf) {n : Nat} (v : Nat) (hn : n ≠ 0x300) : (h.setCsr n v).wf :=
  wf_of_same w rfl rfl rfl (h.csrW_setCsr_ne v hn.symm)

/-- mstatus takes a value whose MPP is legal. -/
theorem Hart.wf_setMstatus {h : Hart} (w : h.wf) {v : Nat} (hv : bits v 11 2 ≠ 2) : (h.setCsr 0x300 v).wf := by
  obtain ⟨w1, w2, w3, w4, -⟩ := w
  exact ⟨w1, w2, w3, w4, by rw [Hart.mstatus, Hart.csrW_setCsr_same, bits_mod_mpp]; exact hv⟩

theorem Hart.wf_setStatus {h : Hart} (w : h.wf) (v mask : Nat) : (h.setStatus v mask).wf := by
  have m := w.2.2.2.2
  refine wf_setMstatus w ?_
  split
  · rw [mpp_setMpp _ _ (by simp only [bits]; omega)]
    exact m
  · next hn => exact hn

theorem Hart.wf_priv {h : Hart} (w : h.wf) {p : Nat} (hp : p = 0 ∨ p = 1 ∨ p = 3) : ({ h with priv := p } : Hart).wf :=
  ⟨w.1, w.2.1, w.2.2.1, hp, w.2.2.2.2⟩

theorem Hart.wf_setF {h : Hart} (w : h.wf) (dbl : Bool) (r v : Nat) : (h.setF dbl r v).wf := by
  unfold Hart.setF
  refine wf_setStatus ?_ _ _
  exact ⟨w.1, by simpa using w.2.1, w.2.2.1, w.2.2.2.1, w.2.2.2.2⟩

theorem Hart.wf_raise {h : Hart} (w : h.wf) (fl : Nat) : (h.raise fl).wf := by
  unfold Hart.raise
  split
  · exact w
  · exact wf_setStatus (wf_setCsr w _ (by decide)) _ _

theorem Hart.wf_loaded {h : Hart} (w : h.wf) (f3 : Nat) (fp : Bool) (rd v : Nat) : (h.loaded f3 fp rd v).wf := by
  unfold Hart.loaded
  split
  · exact wf_setF w _ _ _
  · exact wf_setX w _ _

theorem Hart.wf_csrWrite {h : Hart} (w : h.wf) (n v : Nat) : (h.csrWrite n v).wf := by
  unfold Hart.csrWrite
  extract_lets v masked
  refine iteInduction (motive := Hart.wf) (fun _ => iteInduction (motive := Hart.wf) (fun _ => w) fun _ => wf_setCsr w _ (by omega)) fun _ => ?_
  refine iteInduction (motive := Hart.wf) (fun _ => wf_setCsr w _ (by omega)) fun _ => ?_
  refine iteInduction (motive := Hart.wf) (fun _ => wf_setCsr w _ (by omega)) fun _ => ?_
  refine iteInduction (motive := Hart.wf) (fun _ => wf_setCsr w _ (by omega)) fun _ => ?_
  have k (m a : Nat) (hm : m ≠ 0x300) : (h.setCsr m a).wf := wf_setCsr w a hm
  have s (a b : Nat) : (h.setStatus a b).wf := wf_setStatus w a b
  split
  all_goals first
    | with_reducible exact k _ _ (by decide)
    | with_reducible exact s _ _
    | with_reducible exact w
    | with_reducible exact wf_setStatus (k _ _ (by decide)) _ _
    | with_reducible exact k _ _ (by omega)
    | exact iteInduction (motive := Hart.wf) (fun _ => w) (fun _ => k _ _ (by omega))
    | exact iteInduction (motive := Hart.wf) (fun _ => k _ _ (by decide)) (fun _ => w)

theorem Hart.wf_enterDebug {h : Hart} (w : h.wf) (cause pc : Nat) : (h.enterDebug cause pc).wf :=
  wf_of_same w rfl rfl rfl (by
    refine (Hart.csrW_setCsr_ne _ _ (by decide)).trans (Hart.csrW_setCsr_ne _ _ (by decide)))

theorem Hart.wf_trap {h : Hart} (w : h.wf) (cause tval : Nat) (irq : Bool) : (h.trap cause tval irq).wf := by
  have m := w.2.2.2.2
  have p := w.2.2.2.1
  have w' (i j k a b c : Nat) (hi : i ≠ 0x300) (hj : j ≠ 0x300) (hk : k ≠ 0x300) : (((h.setCsr i a).setCsr j b).setCsr k c).wf :=
    wf_setCsr (wf_setCsr (wf_setCsr w _ hi) _ hj) _ hk
  unfold Hart.trap
  extract_lets pc code st h1 st1 k1 h2 st2 k2
  have g1 : k1.wf := by
    refine wf_setMstatus (w' 0x141 0x142 0x143 _ _ _ (by decide) (by decide) (by decide)) ?_
    rw [mpp_putBits_1, mpp_putBits_5, mpp_putBits_8]
    exact m
  have g2 : k2.wf := by
    refine wf_setMstatus (w' 0x341 0x342 0x343 _ _ _ (by decide) (by decide) (by decide)) ?_
    rw [mpp_putBits_3, mpp_putBits_7, mpp_putBits_11]
    omega
  clear_value k1 k2
  refine iteInduction (motive := Hart.wf) (fun _ => ?_) fun _ => ?_
  · exact wf_priv (h := { k1 with pc := _ }) g1 (.inr (.inl rfl))
  · exact wf_priv (h := { k2 with pc := _ }) g2 (.inr (.inr rfl))

theorem Hart.wf_takes {h : Hart} (w : h.wf) (cause tval : Nat) : (h.takes cause tval).wf := by
  unfold Hart.takes
  split
  · exact wf_enterDebug w _ _
  · exact wf_trap w _ _ _

theorem Hart.wf_mret {h : Hart} (w : h.wf) : h.mret.wf := by
  have m := w.2.2.2.2
  unfold Hart.mret
  extract_lets st p st' st'' k
  have m' : bits st' 11 2 = 0 := mpp_putBits_11 _ _
  have m'' : bits st'' 11 2 = 0 := by
    simp only [st'']
    split
    · exact m'
    · rw [mpp_putBits_17]; exact m'
  have hp : p < 4 := by simp only [p, bits]; omega
  have hq : p ≠ 2 := m
  have hr : p = 0 ∨ p = 1 ∨ p = 3 := by omega
  have g : k.wf := wf_setMstatus w (by omega)
  clear_value k
  exact wf_priv (h := { k with pc := _ }) g hr

theorem Hart.wf_sret {h : Hart} (w : h.wf) : h.sret.wf := by
  have m := w.2.2.2.2
  unfold Hart.sret
  extract_lets st p st' k
  have m' : bits st' 11 2 = bits st 11 2 := by
    simp only [st']
    rw [mpp_putBits_17, mpp_putBits_8, mpp_putBits_5, mpp_putBits_1]
  have hp : p < 2 := by simp only [p, bits]; omega
  have hr : p = 0 ∨ p = 1 ∨ p = 3 := by omega
  have g : k.wf := wf_setMstatus w (by rw [m']; exact m)
  clear_value k
  exact wf_priv (h := { k with pc := _ }) g hr

theorem Hart.wf_count {h : Hart} (w : h.wf) (k n : Nat) : (h.count k n).wf := by
  unfold Hart.count
  split
  · exact w
  · exact wf_setCsr w _ (by omega)

theorem Hart.wf_corrected {h : Hart} (w : h.wf) : h.corrected.wf := wf_setCsr w _ (by decide)

theorem Hart.wf_resume {h : Hart} (w : h.wf) : h.resume.wf := by
  have hp : bits (h.csrW 0x7B0) 0 2 < 4 := by simp only [bits]; omega
  refine ⟨w.1, w.2.1, w.2.2.1, ?_, w.2.2.2.2⟩
  show (if bits (h.csrW 0x7B0) 0 2 = 2 then 3 else bits (h.csrW 0x7B0) 0 2) = 0 ∨ (if bits (h.csrW 0x7B0) 0 2 = 2 then 3 else bits (h.csrW 0x7B0) 0 2) = 1
    ∨ (if bits (h.csrW 0x7B0) 0 2 = 2 then 3 else bits (h.csrW 0x7B0) 0 2) = 3
  split <;> omega

theorem Hart.wf_reset : Hart.reset.wf := ⟨rfl, rfl, rfl, .inr (.inr rfl), by decide⟩

theorem Hart.wf_parkedAt : Hart.parkedAt.wf := ⟨rfl, rfl, rfl, .inr (.inr rfl), by decide⟩

/-! ### The cluster -/

theorem State.hartsWf_of_harts {s t : State} (w : s.hartsWf) (h : t.harts = s.harts) : t.hartsWf := by
  unfold State.hartsWf
  rw [h]
  exact w

theorem State.wf_hart {s : State} (w : s.hartsWf) (c : Nat) : (s.hart c).wf := by
  unfold State.hart
  cases h : s.harts[c]? with
  | none => exact Hart.wf_reset
  | some g => exact w.2 g (List.mem_of_getElem? h)

theorem State.hartsWf_setHart {s : State} (w : s.hartsWf) (c : Nat) {h : Hart} (hw : h.wf) : (s.setHart c h).hartsWf := by
  refine ⟨by simpa [State.setHart] using w.1, fun g hg => ?_⟩
  rcases mem_setAt hg with rfl | hg
  · exact hw
  · exact w.2 g hg

theorem State.hartsWf_onHart {s : State} (w : s.hartsWf) (c : Nat) {f : Hart → Hart} (hf : ∀ h : Hart, h.wf → (f h).wf) :
    (s.onHart c f).hartsWf :=
  hartsWf_setHart w c (hf _ (wf_hart w c))

theorem State.hartsWf_breakResv {s : State} (w : s.hartsWf) (c a n : Nat) : (s.breakResv c a n).hartsWf := by
  refine ⟨by simpa [State.breakResv] using w.1, fun g hg => ?_⟩
  simp only [State.breakResv, List.mem_map] at hg
  obtain ⟨e, he, rfl⟩ := hg
  have : e.1.wf := w.2 e.1 (List.fst_mem_of_mem_zipIdx he)
  split
  · split
    · exact this
    · exact this
  · exact this

theorem State.hartsWf_lineError {s : State} (w : s.hartsWf) (c a : Nat) : (s.lineError c a).hartsWf :=
  hartsWf_onHart (s := s.on _) w c fun _ h => Hart.wf_setCsr h _ (by decide)

theorem State.hartsWf_setSsip {s : State} (w : s.hartsWf) (k : Nat) : (s.setSsip k).hartsWf := by
  unfold State.setSsip
  split
  · next t ht =>
    refine hartsWf_setHart w k (Hart.wf_of_same (w.2 t (List.mem_of_getElem? ht)) rfl rfl rfl ?_)
    simp only [Hart.csrW, lookOr]
    rw [look_put_ne _ _ (by decide)]
  · exact w

theorem State.hartsWf_hartsOff {s : State} (w : s.hartsWf) : s.hartsOff.hartsWf := by
  refine ⟨by simpa [State.hartsOff] using w.1, fun g hg => ?_⟩
  simp only [State.hartsOff, List.mem_map] at hg
  obtain ⟨_, _, rfl⟩ := hg
  exact Hart.wf_reset

theorem State.hartsWf_hartsStart (s : State) : s.hartsStart.hartsWf := by
  refine ⟨rfl, fun g hg => ?_⟩
  simp only [State.hartsStart, List.mem_cons, List.mem_replicate] at hg
  rcases hg with rfl | ⟨-, rfl⟩
  · exact Hart.wf_reset
  · exact Hart.wf_parkedAt

theorem State.hartsWf_napHarts (s : State) : s.napHarts.hartsWf := by
  refine ⟨rfl, fun g hg => ?_⟩
  simp only [State.napHarts, List.mem_cons, List.mem_replicate] at hg
  rcases hg with rfl | ⟨-, rfl⟩
  · exact Hart.wf_reset
  · exact Hart.wf_reset

/-- What the debugger leaves of a core's CSRs keeps mstatus. -/
theorem look_filter_mstatus (m : List (Nat × BitVec 64)) :
    look (m.filter fun e => decide (e.1 ≠ 0x7B0) && !(decide (0x17A1 ≤ e.1) && e.2.getLsbD 59)) 0x300 = look m 0x300 := by
  induction m with
  | nil => rfl
  | cons e r ih =>
    obtain ⟨n, v⟩ := e
    by_cases hn : n = 0x300
    · subst hn
      rw [List.filter_cons_of_pos (by simp)]
      simp [look]
    · by_cases hp : (decide (n ≠ 0x7B0) && !(decide (0x17A1 ≤ n) && v.getLsbD 59)) = true
      · rw [List.filter_cons_of_pos (by exact hp), look, if_neg hn, ih, look, if_neg hn]
      · rw [List.filter_cons_of_neg (by exact hp), ih, look, if_neg hn]

theorem Hart.wf_undebug {h : Hart} (w : h.wf) : h.undebug.wf := by
  have g : ∀ g : Hart, g.wf →
      ({ g with csr := g.csr.filter fun e => decide (e.1 ≠ 0x7B0) && !(decide (0x17A1 ≤ e.1) && e.2.getLsbD 59) } : Hart).wf := by
    intro g hg
    refine wf_of_same hg rfl rfl rfl ?_
    simp only [Hart.csrW, lookOr]
    rw [look_filter_mstatus]
  refine g _ ?_
  split
  · refine wf_priv (h := { h with halted := false, pc := lookOr 0 h.csr 0x7B1 }) w ?_
    have b : bits (lookOr 0 h.csr 0x7B0).toNat 0 2 < 4 := by
      simp only [bits]
      omega
    split <;> omega
  · exact w

theorem State.hartsWf_afterLevel {s : State} (w : s.hartsWf) : s.afterLevel.hartsWf := by
  unfold State.afterLevel
  split
  · refine ⟨by simpa using w.1, fun g hg => ?_⟩
    simp only [List.mem_map] at hg
    obtain ⟨h, hh, rfl⟩ := hg
    exact Hart.wf_undebug (w.2 h hh)
  · exact w

end Sys2Proof.Machine
end

