-- ==== Sys2Proof/Laws/Memory.lean ====
section
/-! SUPPORT. Laws of memory: what a byte reads after a store, and that every memory operation keeps the canonical form. -/

namespace Sys2Proof.Machine

/-! ### Read after write -/

theorem Dev.cell_of_regs {d e : Dev} (h : d.regs = e.regs) (hl : d.ms.loss = e.ms.loss) (a : Nat) : d.cell a = e.cell a := by
  have hi : d.ilv = e.ilv := Dev.rd_of_regs h _ _
  have hs : ∀ o, d.dramSeg o = e.dramSeg o := by
    intro o
    unfold Dev.dramSeg Dev.dramR
    rw [Dev.rd_of_regs h]
  unfold Dev.cell
  rw [hi, hl]
  simp only [hs]

@[simp] theorem Dev.cell_stB (d : Dev) (a b : Nat) (v : BitVec 8) : (d.stB a v).cell b = d.cell b :=
  Dev.cell_of_regs (by simp) (by simp) b

/-- A byte reads what was stored to it. -/
theorem Dev.ldB_stB_same (d : Dev) (a : Nat) (v : BitVec 8) : (d.stB a v).ldB a = v := by
  unfold Dev.ldB
  rw [Dev.cell_stB]
  exact lookD_putD_same _ _ _ _

/-- A byte in another cell reads as before. -/
theorem Dev.ldB_stB_ne (d : Dev) {a b : Nat} (v : BitVec 8) (h : d.cell b ≠ d.cell a) : (d.stB a v).ldB b = d.ldB b := by
  unfold Dev.ldB
  rw [Dev.cell_stB]
  exact lookD_putD_ne _ _ _ h

theorem Dev.stBytes_regs (l : List Nat) (d : Dev) (a : Nat) : (d.stBytes a l).regs = d.regs := by
  induction l generalizing d a with
  | nil => rfl
  | cons b r ih => simp only [Dev.stBytes, ih, Dev.stB_regs]

theorem Dev.stBytes_ms (l : List Nat) (d : Dev) (a : Nat) : (d.stBytes a l).ms = d.ms := by
  induction l generalizing d a with
  | nil => rfl
  | cons b r ih => simp only [Dev.stBytes, ih, Dev.stB_ms]

/-- Bytes outside the stored ones read as before. -/
theorem Dev.ldB_stBytes_ne (l : List Nat) (d : Dev) {a b : Nat} (h : ∀ i, i < l.length → d.cell b ≠ d.cell (a + i)) :
    (d.stBytes a l).ldB b = d.ldB b := by
  induction l generalizing d a with
  | nil => rfl
  | cons v r ih =>
    simp only [Dev.stBytes]
    rw [ih]
    · exact d.ldB_stB_ne _ (by simpa using h 0 (by simp))
    · intro i hi
      simp only [Dev.cell_stB]
      have := h (i + 1) (by simpa using hi)
      rwa [Nat.add_assoc, Nat.add_comm 1 i]

/-! ### The canonical form -/

theorem Dev.stBytes_ctl (l : List Nat) (d : Dev) (a : Nat) : (d.stBytes a l).ctl = d.ctl := by
  induction l generalizing d a with
  | nil => rfl
  | cons b l ih => rw [Dev.stBytes, ih, Dev.stB_ctl]

theorem Dev.stBytes_balls (l : List Nat) (d : Dev) (a : Nat) : (d.stBytes a l).balls = d.balls := by
  induction l generalizing d a with
  | nil => rfl
  | cons b l ih => rw [Dev.stBytes, ih, Dev.stB_balls]

/-- A store does not change whether the control cluster answers. -/
theorem Dev.dark_st (d : Dev) (a n v : Nat) : (d.st a n v).dark = d.dark := by
  unfold Dev.dark Dev.pstate Dev.rd Dev.rdW Dev.st
  rw [Dev.stBytes_regs, Dev.stBytes_balls]

theorem Dev.stB_wf (d : Dev) (a : Nat) (v : BitVec 8) (h : Memory.wf d.mem = true) : Memory.wf (d.stB a v).mem = true :=
  putD_canonical _ _ _ _ h

theorem Dev.stBytes_wf (l : List Nat) (d : Dev) (a : Nat) (h : Memory.wf d.mem = true) : Memory.wf (d.stBytes a l).mem = true := by
  induction l generalizing d a with
  | nil => exact h
  | cons v r ih => exact ih _ _ (d.stB_wf _ _ h)

theorem Dev.st_wf (d : Dev) (a n v : Nat) (h : Memory.wf d.mem = true) : Memory.wf (d.st a n v).mem = true :=
  Dev.stBytes_wf _ _ _ h

theorem Dev.stWords_wf (d : Dev) (a : Nat) (l : List Nat) (h : Memory.wf d.mem = true) : Memory.wf (d.stWords a l).mem = true :=
  Dev.stBytes_wf _ _ _ h

/-- Zeroing a thermos group. -/
theorem Dev.clearGroup_wf (d : Dev) (g : Nat) (h : Memory.wf d.mem = true) : Memory.wf (d.clearGroup g).mem = true :=
  delRange_canonical _ _ _ _ h

/-- The start of a wipe of the hamper. -/
theorem Dev.startWipe_wf (d : Dev) (cause : Nat) (h : Memory.wf d.mem = true) : Memory.wf (d.startWipe cause).mem = true := by
  have : (d.startWipe cause).mem = delRange d.mem hamperBase (hamperBase + 0x100000) := by
    cases d
    rfl
  rw [this]
  exact delRange_canonical _ _ _ _ h

/-- Memory after reset lists nothing. -/
theorem reset_memory_wf : Memory.wf State.reset.dev.mem = true := rfl

end Sys2Proof.Machine
end

