-- ==== Sys2Proof/Laws/Regs.lean ====
section
/-! SUPPORT. Laws of register words and fields: a field reads what was written to it, and every other field as before. -/

namespace Sys2Proof.Machine

/-! ### Words -/

@[simp] theorem Dev.rdW_wrW_same (d : Dev) (p o : Nat) (v : BitVec 32) : (d.wrW p o v).rdW p o = v := by
  simp [Dev.rdW, Dev.wrW]

theorem Dev.rdW_wrW_ne (d : Dev) {p o p' o' : Nat} (v : BitVec 32) (h : regKey p' o' ≠ regKey p o) :
    (d.wrW p o v).rdW p' o' = d.rdW p' o' := by
  simp only [Dev.rdW, Dev.wrW]
  exact lookD_putD_ne _ _ _ h

/-! ### Bits -/

theorem getLsbD_fieldMask (lo w i : Nat) :
    (fieldMask lo w).getLsbD i = (decide (i < 32) && decide (lo ≤ i) && decide (i < lo + w)) := by
  unfold fieldMask
  simp only [BitVec.getLsbD_shiftLeft, BitVec.getLsbD_setWidth, BitVec.getLsbD_allOnes]
  by_cases h1 : i < 32
  · by_cases h2 : i < lo
    · have h3 : ¬ lo ≤ i := by omega
      simp [h1, h2, h3]
    · have h3 : lo ≤ i := by omega
      have h4 : i - lo < 32 := by omega
      have h5 : (i - lo < w) = (i < lo + w) := by
        apply propext
        omega
      simp [h1, h2, h3, h4, h5]
  · simp [h1]

theorem getLsbD_setBits (v : BitVec 32) (lo w n i : Nat) (h : lo + w ≤ 32) :
    (setBits v lo w n).getLsbD i =
      (if lo ≤ i ∧ i < lo + w then (BitVec.ofNat w n).getLsbD (i - lo) else v.getLsbD i) := by
  unfold setBits
  simp only [BitVec.getLsbD_or, BitVec.getLsbD_and, BitVec.getLsbD_not, getLsbD_fieldMask, BitVec.getLsbD_shiftLeft,
    BitVec.getLsbD_setWidth]
  by_cases h1 : i < 32
  · by_cases h2 : lo ≤ i
    · by_cases h3 : i < lo + w
      · have h4 : ¬ i < lo := by omega
        have h5 : i - lo < 32 := by omega
        simp [h1, h2, h3, h4, h5]
      · have h4 : ¬ i < lo := by omega
        have h5 : w ≤ i - lo := by omega
        simp [h1, h2, h3, h4, h5]
    · have h4 : i < lo := by omega
      simp [h1, h2, h4]
  · have h3 : ¬ (lo ≤ i ∧ i < lo + w) := by omega
    have h4 : v.getLsbD i = false := BitVec.getLsbD_of_ge v i (by omega)
    rw [if_neg h3]
    simp [h1, h4]

/-- The field written. -/
theorem extract_setBits_same (v : BitVec 32) (lo w n : Nat) (h : lo + w ≤ 32) :
    (setBits v lo w n).extractLsb' lo w = BitVec.ofNat w n := by
  apply BitVec.eq_of_getLsbD_eq
  intro i hi
  have h1 : lo ≤ lo + i ∧ lo + i < lo + w := ⟨by omega, by omega⟩
  rw [BitVec.getLsbD_extractLsb', getLsbD_setBits _ _ _ _ _ h, if_pos h1]
  simp [hi]

/-- A field that shares no bit with the one written. -/
theorem extract_setBits_ne (v : BitVec 32) {lo w lo' w' : Nat} (n : Nat) (h : lo + w ≤ 32) (hd : lo' + w' ≤ lo ∨ lo + w ≤ lo') :
    (setBits v lo w n).extractLsb' lo' w' = v.extractLsb' lo' w' := by
  apply BitVec.eq_of_getLsbD_eq
  intro i hi
  have h1 : ¬ (lo ≤ lo' + i ∧ lo' + i < lo + w) := by omega
  rw [BitVec.getLsbD_extractLsb', getLsbD_setBits _ _ _ _ _ h, if_neg h1, BitVec.getLsbD_extractLsb']

/-! ### Fields -/

/-- A field reads what was written. -/
theorem Dev.rd_wr_same (d : Dev) (p : Nat) (f : Fld) (n : Nat) (h : f.lo + f.w ≤ 32) : (d.wr p f n).rd p f = n % 2 ^ f.w := by
  simp [Dev.rd, Dev.wr, extract_setBits_same _ _ _ _ h, BitVec.toNat_ofNat]

/-- A field in another word reads as before. -/
theorem Dev.rd_wr_word (d : Dev) {p p' : Nat} {f f' : Fld} (n : Nat) (h : regKey p' f'.off ≠ regKey p f.off) :
    (d.wr p f n).rd p' f' = d.rd p' f' := by
  simp [Dev.rd, Dev.wr, Dev.rdW_wrW_ne _ _ h]

/-- A field of the same word that shares no bit reads as before. -/
theorem Dev.rd_wr_bits (d : Dev) (p : Nat) {f f' : Fld} (n : Nat) (ho : f'.off = f.off) (h : f.lo + f.w ≤ 32)
    (hd : f'.lo + f'.w ≤ f.lo ∨ f.lo + f.w ≤ f'.lo) : (d.wr p f n).rd p f' = d.rd p f' := by
  simp [Dev.rd, Dev.wr, ho, extract_setBits_ne _ _ h hd]

/-- The two cases in one. -/
theorem Dev.rd_wr_ne (d : Dev) {p p' : Nat} {f f' : Fld} (n : Nat) (h : f.lo + f.w ≤ 32)
    (hd : regKey p' f'.off ≠ regKey p f.off ∨ (p' = p ∧ f'.off = f.off ∧ (f'.lo + f'.w ≤ f.lo ∨ f.lo + f.w ≤ f'.lo))) :
    (d.wr p f n).rd p' f' = d.rd p' f' := by
  rcases hd with hd | ⟨rfl, ho, hd⟩
  · exact d.rd_wr_word n hd
  · exact d.rd_wr_bits p' n ho h hd

theorem Dev.rdB_wr_ne (d : Dev) {p p' : Nat} {f f' : Fld} (n : Nat) (h : f.lo + f.w ≤ 32)
    (hd : regKey p' f'.off ≠ regKey p f.off ∨ (p' = p ∧ f'.off = f.off ∧ (f'.lo + f'.w ≤ f.lo ∨ f.lo + f.w ≤ f'.lo))) :
    (d.wr p f n).rdB p' f' = d.rdB p' f' := by
  simp [Dev.rdB, d.rd_wr_ne n h hd]

/-- A bit reads what was written. -/
theorem Dev.rdB_wr_same (d : Dev) (p : Nat) (f : Fld) (b : Bool) (h : f.lo + f.w ≤ 32) (hw : f.w = 1) :
    (d.wr p f (b2n b)).rdB p f = b := by
  cases b <;> simp [Dev.rdB, d.rd_wr_same p f _ h, hw, b2n]

/-- A page whose registers answer is neither held in reset nor unpowered. -/
theorem Dev.answers_open {d : Dev} {p : Nat} (h : d.answers p = true) (hp : hasHeader p = true) :
    d.inReset p = false ∧ d.unpowered p = false := by
  simp only [Dev.answers, Dev.shut, hp, Bool.true_and, Bool.and_eq_true, Bool.not_eq_true', Bool.or_eq_false_iff] at h
  exact h.2.1.1

/-- Whether a page answers rests on its STATE word and three words of the power page alone. -/
theorem Dev.answers_wr (d : Dev) {p q : Nat} {f : Fld} (n : Nat)
    (h : ∀ k ∈ [regKey q STATE.IN_RESET.off, regKey 0x001 PWR_DOM_STAT.PCIE.off, regKey 0x001 PWR_STATE.PHASE.off,
      regKey 0x001 PWR_WAKE_REC0.FROM.off], k ≠ regKey p f.off) : (d.wr p f n).answers q = d.answers q := by
  have g : ∀ q' (f' : Fld), regKey q' f'.off ≠ regKey p f.off → (d.wr p f n).rd q' f' = d.rd q' f' := fun q' f' => d.rd_wr_word n
  simp only [List.mem_cons, List.not_mem_nil, or_false, forall_eq_or_imp, forall_eq] at h
  have a : (d.wr p f n).dark = d.dark := by
    simp only [Dev.dark, Dev.pstate, g _ PWR_STATE.STATE h.2.2.1, g _ PWR_STATE.PHASE h.2.2.1, g _ PWR_WAKE_REC0.FROM h.2.2.2]; rfl
  simp only [Dev.answers, Dev.shut, Dev.inReset, Dev.unpowered, Dev.rdB, g q STATE.IN_RESET h.1, g q STATE.UNPOWERED h.1,
    g _ PWR_DOM_STAT.PCIE h.2.1, a]
  rfl

/-- Where the real-time clock answers, the interface to the always-on domain is not locked out. -/
theorem Dev.answers_clock {d : Dev} (h : d.answers 0x002 = true) : d.rtc.lockout = false := by
  simp only [Dev.answers, Dev.shut, Bool.and_eq_true, Bool.not_eq_true', Bool.or_eq_false_iff, Bool.and_eq_false_iff,
    decide_eq_false_iff_not, not_true_eq_false, false_or] at h
  simpa using h.2.1.2

/-- The state of a page does not see a write to another word. -/
theorem Dev.bstate_wr_ne (d : Dev) {p q : Nat} {f : Fld} (n : Nat) (h : regKey q STATE.STATE.off ≠ regKey p f.off) :
    (d.wr p f n).bstate q = d.bstate q := by
  unfold Dev.bstate
  rw [d.rd_wr_word n h]

/-- The state of a page after it is set. -/
@[simp] theorem Dev.bstate_setState (d : Dev) (p : Nat) (b : BState) : (d.setState p b).bstate p = b := by
  have h : (STATE.STATE).lo + (STATE.STATE).w ≤ 32 := by decide
  unfold Dev.bstate Dev.setState
  rw [d.rd_wr_same p STATE.STATE _ h]
  cases b <;> rfl

end Sys2Proof.Machine
end

