-- ==== Sys2Proof/Laws/Safety.lean ====
section
/-! SUPPORT. What the predicates of Safety.lean unfold to. -/

namespace Sys2Proof.Machine

theorem Dev.staTakes_iff {d : Dev} {s : Nat} : d.staTakes s = true ↔
    d.answers 0x033 = true ∧ d.rdB 0x033 MAC_STA_STAT.BUSY = false ∧ d.bstate 0x033 = .running ∧ d.inService 0x033 = true ∧ s < 2048
      ∧ (d.rdOk (d.staAddr s) 64 && d.wrOk (d.staAddr s) 64) = true := by
  simp [Dev.staTakes, and_assoc]

theorem Dev.kovReady_iff {d : Dev} {k o : Nat} {ecc : EccFact} : d.kovReady k o ecc = true ↔
    d.kovAt k o = true ∧ d.coreWait k = 0
      ∧ kIllegal ((d.kovEcc k ecc).core k) ((d.kovEcc k ecc).coreRun k) ((d.kovEcc k ecc).bundle k ((d.kovEcc k ecc).corePc k)) = false
      ∧ ∀ a, ecc ≠ .uncorrectable a := by
  cases ecc <;> simp [Dev.kovReady, and_assoc]

/-- A core that is ready issues its bundle. -/
theorem Dev.kovIssue_of_ready {d : Dev} {k o : Nat} {ecc : EccFact} (h : d.kovReady k o ecc = true)
    (f : Dev → Nat → KCore → Nat → KRes) : d.kovIssue k o ecc f = (d.kovEcc k ecc).kovDo k f := by
  obtain ⟨h1, h2, h3, h4⟩ := Dev.kovReady_iff.1 h
  cases ecc with
  | uncorrectable a => exact absurd rfl (h4 a)
  | clean => simp [Dev.kovIssue, Dev.kovRead, h1, h2, h3]
  | corrected => simp [Dev.kovIssue, Dev.kovRead, h1, h2, h3]

/-- A command of the device completes with what its meaning makes of the device. -/
theorem gives_of_onDev {i : Instr} {f : Dev → Dev} {d : Dev} (h : ∀ s : State, exec i s = s.onDev f) : Gives i d (f d) := by
  intro s hs
  subst hs
  exact h s

end Sys2Proof.Machine
end

