-- ==== Sys2Proof/Machine/Pins.lean ====
section
/-! DEFINITION. Dedicated output balls (R736, R755, R758, R760): what each carries is read off the state, none at high impedance. -/

namespace Sys2Proof.Machine

/-- PWR_RAIL_EN`k` is active (R760, R761). -/
def Dev.railEn (d : Dev) (k : Nat) : Bool := d.gov.rails.contains k

/-- PWR_XO_EN is active (R670, R761). -/
def Dev.xoEn (d : Dev) : Bool := d.gov.xo

/-- PWR_SRAM_RET is high: the SRAM rail is at its retention set point, in Nap (R666, R758). -/
def Dev.sramRet (d : Dev) : Bool := decide (d.pstate = 3)

/-- DRM_RESET_N is high while any DRAM PHY page is STARTING or RUNNING (R755). -/
def Dev.dramResetN (d : Dev) : Bool :=
  (List.range 4).any fun c =>
    (decide (d.bstate (phyPage c) = .starting) || decide (d.bstate (phyPage c) = .running))
      && !d.inReset (phyPage c) && !d.unpowered (phyPage c)

/-- TWN_FENCE_OUT_N: driven low while ROLE is ACTIVE, else at high impedance (R736). -/
def Dev.fenceOutBall (d : Dev) : Option Bool := if d.rd 0x080 TWN_ROLE.ROLE = 3 then some false else none

/-- SEC_TAMP_OUT`k` is driven low outside pattern mode (R755); the pattern's bits are given nowhere. -/
def Dev.tampOutLow (d : Dev) (k : Nat) : Bool :=
  decide (d.rd secPage (if k = 0 then SEC_TAMPER_CFG.MODE0 else SEC_TAMPER_CFG.MODE1) < 2)

end Sys2Proof.Machine
end

