-- ==== Sys2Proof/WellFormed.lean ====
section
/-! DEFINITION. Commands whose operands name something the device has. The meanings are total: a command that names nothing has no
effect, or the completion the spec gives such a request. -/

namespace Sys2Proof

/-- Names a control core (R540). -/
def ctlCore (n : Nat) : Bool := decide (n < 0x8)

/-- Names a Koveton core. -/
def kovCore (n : Nat) : Bool := decide (n < 0x10)

/-- Names a register page (R41). -/
def pageNo (n : Nat) : Bool := decide (n < 0x1000)

/-- Names a station handle. -/
def station (n : Nat) : Bool := decide (n < 0x800)

/-- Names a TID. -/
def tidNo (n : Nat) : Bool := decide (n < 0x10)

/-- Names a ring. -/
def ringNo (n : Nat) : Bool := decide (n < 0x100)

/-- Names an Ethernet MAC. -/
def macNo (n : Nat) : Bool := decide (n < 0x5)

/-- Names a group of PWR_BLK_RST (R58) or a thermos group (R579). -/
def groupNo (n : Nat) : Bool := decide (n < 0x8)

/-- Names a DRAM channel (R593). -/
def channelNo (n : Nat) : Bool := decide (n < 0x4)

/-- Names an alarm. -/
def alarmNo (n : Nat) : Bool := decide (n < 0x4)

/-- Names a PLIC context (R546). -/
def contextNo (n : Nat) : Bool := decide (n < 0x10)

/-- Names a DVFS domain. -/
def domainNo (n : Nat) : Bool := decide (n < 0x4)

/-- Names an event timer. -/
def timerNo (n : Nat) : Bool := decide (n < 0x10)

/-- Names an event input. -/
def inputNo (n : Nat) : Bool := decide (n < 0x2)

/-- Names a lane of the twin link. -/
def laneNo (n : Nat) : Bool := decide (n < 0x2)

/-- Names a SerDes lane. -/
def serdesNo (n : Nat) : Bool := decide (n < 0x5)

/-- Names a chain, 24 the monitor. -/
def chainNo (n : Nat) : Bool := decide (n < 0x19)

/-- Names a quad. -/
def quadNo (n : Nat) : Bool := decide (n < 0x6)

/-- Names a radio. -/
def radioNo (n : Nat) : Bool := decide (n < 0x3)

/-- Names a receive instance or synthesiser, 3 the monitor. -/
def instNo (n : Nat) : Bool := decide (n < 0x4)

/-- Names a packet pipe. -/
def pipeNo (n : Nat) : Bool := decide (n < 0x2)

/-- Names a barrier. -/
def barrierNo (n : Nat) : Bool := decide (n < 0x8)

/-- Names an integer register (R540). -/
def regNo (n : Nat) : Bool := decide (n < 0x20)

/-- Names a tamper source. -/
def tamperNo (n : Nat) : Bool := decide (n < 0x6)

/-- Names a register word. -/
def word32 (n : Nat) : Bool := decide (n < 0x100000000)

/-- An access stays inside the address space and its value inside its size (R37). -/
def accessOk (a : Access) : Bool :=
  decide (0 < a.size) && decide (a.addr + a.size ≤ 0xC00000000) && (match a.write with | some v => decide (v < 256 ^ a.size) | none => true)

/-- An initiator the device has. -/
def initiatorOk : Initiator → Bool
  | .hart c => ctlCore c
  | .koveton k => kovCore k
  | _ => true

/-- The operands of a command name something the device has. -/
def Instr.wf (i : Instr) : Bool :=
  match i with
  | .beatBoundary _ => true
  | .beatEnSet => true
  | .beatEnClear value => word32 value
  | .ptpBeatLoRead => true
  | .queueSnapshot => true
  | .planFreeze x _ _ _ => radioNo x
  | .planFreezeMissed radio => radioNo radio
  | .allowanceMissed => true
  | .fabricRequest who _ fact => initiatorOk who && accessOk fact.acc
  | .registerWrite page _ value => pageNo page && word32 value
  | .start page => pageNo page
  | .drain page => pageNo page
  | .stop page => pageNo page
  | .abort page => pageNo page
  | .startChecksPassed page => pageNo page
  | .drainComplete page => pageNo page
  | .faultDetected page _ => pageNo page
  | .discardComplete page => pageNo page
  | .blockReset group value => groupNo group && word32 value
  | .ownerClaim _ _ _ _ => true
  | .ownerRelease _ _ _ => true
  | .forcedRelease _ _ _ => true
  | .pinClaimRejResRead => true
  | .hopCommand x _ _ => instNo x
  | .synOffHop x => instNo x
  | .lockDetected x => instNo x
  | .synCalibrationDone x _ => instNo x
  | .lockLost x => instNo x
  | .settlingTimeout x => instNo x
  | .relockTimeout x => instNo x
  | .txCommand x => radioNo x
  | .txDropPoint x => radioNo x
  | .txSequenceStart x => radioNo x
  | .txPpduEnd x _ _ => radioNo x
  | .paOverPower chain => chainNo chain
  | .quadLockTimeout quad => quadNo quad
  | .fullCalDone _ _ _ => true
  | .calCmd _ _ _ => true
  | .calCmdDone _ => true
  | .energyRise x _ => instNo x
  | .packetDetection x _ => instNo x
  | .agcIdleReturn x => instNo x
  | .sigFieldDecided x _ => instNo x
  | .restartRise x _ _ => instNo x
  | .ltfEnd x _ _ => instNo x
  | .obssHoldEnd x => instNo x
  | .tbWindowExpiry x => instNo x
  | .mpduDecoded x _ _ _ => instNo x
  | .ppduRxEnd x _ _ _ _ => instNo x
  | .backoffSlot x _ => radioNo x
  | .navExpiry x => radioNo x
  | .txopEnd x => radioNo x
  | .windowMissed x => radioNo x
  | .dataUnderrun x fact => radioNo x && station fact.sta
  | .responseCut x => radioNo x
  | .responseHandover x _ => radioNo x
  | .respLate x => radioNo x
  | .responseTimeout x => radioNo x
  | .emlsrNoCts x sta => radioNo x && station sta
  | .reorderTimeout sta tid => station sta && tidNo tid
  | .fragmentTimeout sta tid => station sta && tidNo tid
  | .uapsdSpExpiry x sta => radioNo x && station sta
  | .staAdd sta => station sta
  | .staSuspend sta => station sta
  | .staSuspendDone => true
  | .staResume sta => station sta
  | .staRemove sta => station sta
  | .staFlush sta _ => station sta
  | .enqueueRequest _ => true
  | .admAdd sta _ _ _ _ => station sta
  | .admRemove _ => true
  | .airLast0Read x => radioNo x
  | .planSend => true
  | .planReceived => true
  | .leaveReceived => true
  | .timeOkExpiry => true
  | .nbrAdd _ _ => true
  | .nbrRemove _ => true
  | .tagFrameDetected _ _ => true
  | .tagFrameEnd _ => true
  | .tagImmAckSend => true
  | .tagAckTimeout => true
  | .tagTxRequest => true
  | .tagCcaSlot _ _ => true
  | .tagWakeBurst => true
  | .tagTrainMove => true
  | .tagOccupancyEnd => true
  | .tagBeaconSlot => true
  | .tagBeaconLost => true
  | .tagRxChanWrite _ => true
  | .tagRetuneDone => true
  | .nop core _ => kovCore core
  | .cmul core _ => kovCore core
  | .cmulj core _ => kovCore core
  | .cmac core _ => kovCore core
  | .cmacj core _ => kovCore core
  | .cmsu core _ => kovCore core
  | .cmsuj core _ => kovCore core
  | .rmul core _ => kovCore core
  | .rmac core _ => kovCore core
  | .rdmac core _ => kovCore core
  | .aext core _ => kovCore core
  | .ald core _ => kovCore core
  | .aadd core _ => kovCore core
  | .asub core _ => kovCore core
  | .ared core _ => kovCore core
  | .aexp core _ => kovCore core
  | .anorm core _ => kovCore core
  | .vexp core _ => kovCore core
  | .vnorm core _ => kovCore core
  | .sexp core _ => kovCore core
  | .vadd core _ => kovCore core
  | .vsub core _ => kovCore core
  | .vshr core _ => kovCore core
  | .vshl core _ => kovCore core
  | .vmax core _ => kovCore core
  | .vmin core _ => kovCore core
  | .vabs2 core _ => kovCore core
  | .vconj core _ => kovCore core
  | .vneg core _ => kovCore core
  | .vmov core _ => kovCore core
  | .vbc core _ => kovCore core
  | .vilv core _ => kovCore core
  | .vrcp core _ => kovCore core
  | .vrsq core _ => kovCore core
  | .vins core _ => kovCore core
  | .vext core _ => kovCore core
  | .sadd core _ => kovCore core
  | .ssub core _ => kovCore core
  | .sand core _ => kovCore core
  | .sor core _ => kovCore core
  | .sxor core _ => kovCore core
  | .sshl core _ => kovCore core
  | .sshr core _ => kovCore core
  | .smul core _ => kovCore core
  | .scmp core _ => kovCore core
  | .saddi core _ => kovCore core
  | .sli core _ => kovCore core
  | .slui core _ => kovCore core
  | .smva core _ => kovCore core
  | .sld core _ => kovCore core
  | .sst core _ => kovCore core
  | .br core _ => kovCore core
  | .call core _ => kovCore core
  | .ret core _ => kovCore core
  | .loop core _ => kovCore core
  | .loopCountExhausted core => kovCore core
  | .reti core _ => kovCore core
  | .retf core _ => kovCore core
  | .mbs core _ => kovCore core
  | .mbsRoom core => kovCore core
  | .mbr core _ => kovCore core
  | .mbrEntryArrives core => kovCore core
  | .bar core _ => kovCore core
  | .barrierRelease bar' => barrierNo bar'
  | .dmq core _ => kovCore core
  | .dmqRoom core => kovCore core
  | .dmw core _ => kovCore core
  | .dmwWaitEnds core => kovCore core
  | .jend core _ => kovCore core
  | .halt core _ => kovCore core
  | .fastInterruptEntry core => kovCore core
  | .normalInterruptEntry core => kovCore core
  | .kovMbxInWrite core _ => kovCore core
  | .kovSoftIrq core => kovCore core
  | .kovTimerExpiry core => kovCore core
  | .barrierMaskWrite bar' _ => barrierNo bar'
  | .dmaFabricPost _ _ _ => true
  | .dmaDescriptorDone _ _ => true
  | .dmaWaitExpiry core _ => kovCore core
  | .kovJobPost _ _ => true
  | .jobStart => true
  | .jobDueExpiry => true
  | .jobLimitExpiry core => kovCore core
  | .firstPass pipe _ => pipeNo pipe
  | .secondPass pipe _ => pipeNo pipe
  | .menuSwap => true
  | .menuDrainDone => true
  | .tcWrite _ _ _ => true
  | .tcInvalidate _ _ => true
  | .tcRead _ _ => true
  | .tcWriteHdr _ => true
  | .tcReadHdr _ => true
  | .tcWriteDirect _ => true
  | .tcReadDirect _ => true
  | .ctrRead _ => true
  | .ctrReadClear _ => true
  | .ringEnable ring _ => ringNo ring
  | .ringDisable ring _ => ringNo ring
  | .ringSwWrite ring _ => ringNo ring
  | .txRingFrameStart ring _ => ringNo ring
  | .wlanCompletion => true
  | .ringIrqTimer ring => ringNo ring
  | .ethFrameReceived m _ _ _ _ _ _ => macNo m
  | .pauseTimeExpiry m _ => macNo m
  | .pauseRepeat m => macNo m
  | .fifoBelowXon m => macNo m
  | .ethTxStart m _ => macNo m
  | .ethTxUnderrun m _ => macNo m
  | .ethTxDone m => macNo m
  | .ethLinkChange m _ _ => macNo m
  | .mdioAddress _ _ _ _ => true
  | .mdioWrite _ _ _ _ => true
  | .mdioReadInc _ _ _ => true
  | .mdioRead _ _ _ => true
  | .mdioDone _ => true
  | .ethCrumb0Read m => macNo m
  | .ethOctLoRead m _ => macNo m
  | .timeSet => true
  | .timeStep => true
  | .ptpTimeNsRead => true
  | .servoSample _ => true
  | .servoHoldoverTimeout => true
  | .eventTimerFire timer => timerNo timer
  | .eventTimerPulseEnd timer => timerNo timer
  | .eventInputEdge input _ _ _ _ => inputNo input
  | .ptpEviRead input => inputNo input
  | .hartInstruction core _ => ctlCore core
  | .cboClean core rs1 => ctlCore core && regNo rs1
  | .cboFlush core rs1 => ctlCore core && regNo rs1
  | .cboInval core rs1 => ctlCore core && regNo rs1
  | .plicClaim context => contextNo context
  | .plicComplete context _ => contextNo context
  | .mtimeLoRead => true
  | .setssipWrite hart value => ctlCore hart && word32 value
  | .mtimerCompare hart => ctlCore hart
  | .pcieLinkChange _ _ _ _ => true
  | .pcieOutboundCompletion _ _ _ => true
  | .pcieCplTimeout _ => true
  | .pcieInboundRequest _ _ _ => true
  | .pcieIntxMessage _ _ => true
  | .msixVectorSignal _ => true
  | .pcieFlr => true
  | .perstAssert => true
  | .pcieCfgRead _ _ => true
  | .pcieCfgWrite value _ => word32 value
  | .threadPost _ _ _ => true
  | .threadCancel _ => true
  | .dspAsk core => ctlCore core
  | .dspYield core => ctlCore core
  | .askTimeout core => ctlCore core
  | .askInterrupted core => ctlCore core
  | .dspFloorWrite value => word32 value
  | .dspCoreEnWrite core _ _ => ctlCore core
  | .scrubStep _ _ => true
  | .srmThermosWrite value => word32 value
  | .groupWakeDone group => groupNo group
  | .groupZeroingDone group => groupNo group
  | .groupIdleReturn group => groupNo group
  | .hamperWipeRequest _ => true
  | .hamperWipeDone => true
  | .dramRefreshDue channel _ _ _ => channelNo channel
  | .mr4Poll channel _ _ _ => channelNo channel
  | .dramPowerDownEntry channel => channelNo channel
  | .dramSelfRefreshEntry channel => channelNo channel
  | .dramReadReturn channel _ _ _ => channelNo channel
  | .dramPeriodicUpdate channel _ => channelNo channel
  | .dramTrain _ _ => true
  | .dramTrainSave _ => true
  | .dramTrainRestore _ => true
  | .dramTrainDone _ => true
  | .drmErrLoRead => true
  | .rand => true
  | .genKey => true
  | .derive => true
  | .importKey => true
  | .wrap => true
  | .loadKey => true
  | .clearEntry => true
  | .slotLoad => true
  | .slotReady => true
  | .slotClear => true
  | .ctxSetup => true
  | .ctxSave => true
  | .ctxRestore => true
  | .forerunner => true
  | .otpProg => true
  | .lcAdvance => true
  | .ctxClear => true
  | .secCmdComplete _ => true
  | .secJobPosted _ => true
  | .secJobDone _ => true
  | .tamperTrip source => tamperNo source
  | .tamperLatchClear _ => true
  | .selftestDone _ => true
  | .dbgReadNonce => true
  | .dbgUnlock _ _ => true
  | .dbgLower _ => true
  | .dbgLifeCycle _ => true
  | .tokenCheckDone _ => true
  | .plReqWrite value => word32 value
  | .pmbusTxnDone dom _ => domainNo dom
  | .vsettleDone dom => domainNo dom
  | .sleepIdle _ => true
  | .sleepDoze _ => true
  | .sleepNap _ _ => true
  | .sleepHibernate _ => true
  | .sleepOff _ => true
  | .sleepEntryDone => true
  | .wakeDetected => true
  | .returnToRun _ => true
  | .wakePin _ => true
  | .hostWakeWrite => true
  | .classStrobe _ => true
  | .undervoltage _ => true
  | .thermalShutdown => true
  | .modeSelect _ => true
  | .domainSwitchWrite value => word32 value
  | .domainPowerUpDone dom => domainNo dom
  | .rtcSet => true
  | .rtcAdd => true
  | .rtcCmdApply => true
  | .rtcCancel => true
  | .rtcCntLoRead => true
  | .oscStopDetect => true
  | .oscStopClear => true
  | .alarmFire alarm => alarmNo alarm
  | .alarmArm alarm _ value => alarmNo alarm && word32 value
  | .vbatSwitch => true
  | .vaonReturn => true
  | .aonLockoutBegin => true
  | .aonLockoutEnd => true
  | .vbatMeasure _ => true
  | .trimWindowEnd _ _ => true
  | .ageUpdate _ _ => true
  | .helloSend => true
  | .heartbeatSend => true
  | .helloReceived lane _ _ => laneNo lane
  | .heartbeatReceived lane _ _ => laneNo lane
  | .staFrameReceived lane _ _ => laneNo lane
  | .keyFrameReceived lane _ _ => laneNo lane
  | .markFrameReceived lane _ _ => laneNo lane
  | .userFrameReceived lane _ _ => laneNo lane
  | .twinKeyRequest => true
  | .twinUserRequest => true
  | .retxTimeout => true
  | .soloWaitExpiry => true
  | .kickTimeout => true
  | .kick => true
  | .handover => true
  | .resync => true
  | .fenceInChange _ => true
  | .twnLaneChange lane _ => laneNo lane
  | .aonPowerOn => true
  | .railEnableStep => true
  | .deviceReset => true
  | .sysRstRelease _ _ _ _ _ => true
  | .bootImageAccepted _ => true
  | .recoveryDoorbell value => word32 value
  | .parkedHartMsip hart => ctlCore hart
  | .msipWrite hart value => ctlCore hart && word32 value
  | .rcalCmd x _ => radioNo x
  | .rcalDone x _ _ => radioNo x
  | .perstRelease => true
  | .pcieL1Change _ => true
  | .pcieErrorMessage => true
  | .debugModuleAccess _ => true
  | .boundaryScanInstruction _ => true
  | .hartInterruptEntry core => ctlCore core
  | .serdesLaneStatusChange lane _ => serdesNo lane
  | .crystalEdgesResume => true
  | .tagTrainDataFrame => true
  | .tagIdlePeriodEnd => true
  | .tagAtReached => true

end Sys2Proof
end

