-- ==== Sys2Proof/Tests/Slice0.lean ====
section
/-! SUPPORT. Tests: terms that are not well-formed and are refused, small facts the spec states of single commands, and for each
statement with hypotheses states that meet them. -/

open Sys2Proof Sys2Proof.Machine

namespace Sys2Proof.Tests

set_option Elab.async false

/-! ### States the tests start from -/

/-- The device after reset. -/
abbrev D0 : Dev := Dev.reset

/-- The row of a register that the page has. -/
def rowAt (p o : Nat) : RegRow :=
  (findRow p o).getD { off := 0, stride := 0, count := 0, reset := [], rw := 0, wo := 0, w1c := 0, w1s := 0, cfg := 0, lck := 0, ro := 0 }

/-- A snapshot for beat `m` with no queue in it. -/
def snapOf (m : Nat) : Snap :=
  { beat := m, mode := 0, typ := 0, floor := 1000, left := 0, pol := 0, pol2 := 0, ul := 0, ulClass := 0, classes := [],
    eligible := [], failed := [], nulls := [] }

/-- A regulatory slot that lets the device transmit everywhere. -/
def regAll : RegTab :=
  { indoor := true, gains := [],
    entries := [{ lo := 2000, hi := 8000, eirp := 120, psd := none, dutyMax := 0, disallowed := false, dfs := false,
                  indoorOnly := false, noTx := false, dutyWindow := 0 }] }

/-- Radio 0 builds the plan of beat 5 in beat 3. -/
def dPlan : Dev :=
  let d := ((D0.setState 0x03B .running).setState 0x038 .running).wr 0x038 AIR_PLAN_BASE.BASE 0x800
  let e := d.setBuf 0 5 { st := .building, plan := none }
  { e with beat := 3, air := { e.air with snap := [(0, snapOf 5)] } }

/-- The chain pool in service; the whole of 5 GHz may be used. -/
def dSyn : Dev :=
  let d := (D0.setState synPage .running).setState calPage .running
  { d with pool := { d.pool with reg := some regAll } }

/-- A transmit request. -/
def req0 : TxReq :=
  { isResponse := false, index := 0, chains := 1, powers := List.replicate 16 0, start := 1000, latest := 2000, dur := 100, sent := 100, scale := 0,
    ru := [], short := false, ndp := none, ndpa := none }

/-- A transmit command in phase `p`. -/
def cmdIn (p : TxPhase) : TxCmd :=
  { kind := .planned 0, beat := 0, chains := 1, asked := List.replicate 16 0, powers := List.replicate 16 0, start := 1000, latest := 2000, dur := 100,
    planned := 100, phase := p, wasHeld := false, first := 1000, clamped := false, scale := 0, chainLost := false, paOver := 0,
    underrun := false, ru := [], ndp := none, ndpa := none }

/-- Radio 0 locked with an armed command, under the fence. -/
def dFenced : Dev := ((dSyn.wr synPage (CHP_SYN_STAT.SSTATE.at 0) 3).wr 0x080 TWN_ROLE.FENCE_IN 1).setTx 0 (cmdIn .armed)

/-- Radio 0 locked on channel 36 with quad 0 of its own, in the field. -/
def dLocked : Dev :=
  ((((((dSyn.setState 0x010 .running).wr 0x010 CHP_QUAD_OWNER.OWNER 1).wr 0x010 CHP_QUAD_STAT.OWNER_ACT 1).wr synPage
    (CHP_SYN_STAT.SSTATE.at 0) 3).wr synPage (CHP_SYN_STAT.CURRENT.at 0) 5180).wr 0x004 SEC_STATUS.LC 2)

/-- Radio 0 locked with an armed command, its first chain ready. -/
def dArmed : Dev :=
  dLocked.setTx 0 (cmdIn .armed)

/-- Radio 0 locked, a request readied for it. -/
def dReady : Dev :=
  { dLocked with tx := { dLocked.tx with ready := [(0, req0)] } }

/-- Radio 0 owns quad 0 and sends on its first chain. -/
def dPa : Dev :=
  let d := (((D0.setState 0x010 .running).wr 0x010 CHP_QUAD_OWNER.OWNER 1).wr 0x010 CHP_QUAD_STAT.OWNER_ACT 1).setTx 0 (cmdIn .sending)
  { d with pool := { d.pool with overs := [(0, (9, 1))] } }

/-- An endpoint with its link up and BAR0 open. -/
def sPcie : State :=
  { State.reset with
    dev := ((D0.wr 0x130 PCIE_CTL.MODE 1).wr 0x130 PCIE_LINK.UP 1).wr 0x132 (PCIE_INWIN.EN.at 0) 1 }

/-! ### The receive path -/

/-- Radio 0 receives on its first chain. -/
def dRx : Dev :=
  let d := ((((D0.setState 0x020 .running).setState 0x010 .running).wr 0x010 CHP_QUAD_OWNER.OWNER 1).wr 0x010
    CHP_QUAD_STAT.OWNER_ACT 1).wr synPage (CHP_SYN_STAT.SSTATE.at 0) 3
  { d with pool := { d.pool with fem := (List.range 4).map fun c => (c, { live := true, tx := false, rx := true, pa := false, lnab := false }) } }

def rise0 : Rise := { startNs := 1000, startFrac := 0, power := 0, levels := [0, 0, 0, 0] }
def det0 : Detect := { level := 0, steps := 2, dsss := false, rise := rise0, coarse := 0, fine := 0 }
def sigFail : SigFact :=
  { field := .lSig, endNs := 20000, fail := 1, lLen := 0, format := 0, bw := 0, ldpc := false, punct := 0, mcs := 0, nss := 1, giLtf := 0,
    ruSize := 0, ruPos := 0, psduLen := 0, dur01 := 0, colour := 0, versionBad := false, last := false, rise := none }
def tb0 : TbParams := { expect := 1000, ulLen := 100, eht := true, giLtf := 0, nltf := 1, users := [] }
def mpdu0 : Mpdu :=
  { kind := .ack, ta := 0, toUs := true, mcast := false, bssid := 0, sn := 0, fn := 0, retry := false, moreFrag := false, pm := false,
    prot := false, pn := 0, micOk := true, solicits := none, duration := 0, queueSize := none, bsr := none, amsdu := false, msdus := [], rssi := 0, snr := 0 }

/-! ### The MAC -/

def ppduOne : PlanPpdu :=
  { kind := 0, trig := 0, pad := 0, ndpa := 0, align := none, ac := 0, bssid := 0, ofs := 0, dur := 100, resp := 0, bw := 0, punct := 0, chains := 1, energy := 0,
    ulDur := 0, ulGiLtf := 0, ulNltf := 0, ulTarget := 0, rus := [] }
def planOne : Plan :=
  { beat := 1, quads := 1, fallback := false, skip := false, ladder := 0, mode := 0, typ := 0, cost := 0, floor := 0, airtime := 0,
    ppdus := [ppduOne] }
/-- Radio 0 executes a plan of one PPDU. -/
def dExec : Dev := { D0 with air := { D0.air with exec := [(0, { plan := planOne, next := 0, outcomes := [] })] } }
def onAir0 : OnAir :=
  { index := 0, beat := 0, ac := 0, kind := 0, users := [{ ru := 0, sta := 5, queue := 40, ids := [1], degraded := false }],
    solicits := true, undelivered := [], trig := 0, beacon := none, muRtsTo := [5], awaiting := true, acked := [] }
/-- Radio 0 sends a PPDU that asks for a response. -/
def dOnAir : Dev := (D0.setTx 0 (cmdIn .sending)).setMacR 0 { MacRadio.reset with onAir := some onAir0 }
def resp0 : Resp := { form := 0, tEnd := 5000, cut := true, complete := true, acks := [(5, true)], leftOut := false, handed := false }
/-- Radio 0 owes a response. -/
def dResp : Dev := D0.setMacR 0 { MacRadio.reset with resp := some resp0 }
/-- And may send it. -/
def dMayResp : Dev :=
  ((dRx.setState 0x028 .running).setState 0x030 .running).setMacR 0 { MacRadio.reset with resp := some resp0 }
def med0 : Medium := { atNs := 9000, primary := -100, energy := [] }
def held0 : Held := { sn := 3, atNs := 7, mpdu := mpdu0, radio := 0, startNs := 0, startFrac := 0, repSeq := 0 }
def frag0 : Held := held0
/-- Station 5 holds an MPDU out of order in TID 1 and a fragment in TID 2. -/
def dHeld : Dev :=
  ((D0.setState 0x033 .running).setTidRec 5 1 { TidRec.empty with held := [held0] }).setTidRec 5 2 { TidRec.empty with frags := [frag0] }

/-! ### Stations, queues and flows -/

/-- The shared MAC page runs, BSSID 0 of radio 0 is enabled, and station 5's record in SRAM holds `w` in word 0. -/
def dStaW (w : Nat) : Dev :=
  let d := (((D0.setState 0x033 .running).setState 0x030 .running).wr 0x033 MAC_STA_BASE.BASE 0x400000).wr 0x030 (MAC_BSSID.EN.at 0) 1
  ((d.st 0x10000140 4 w).st 0x1000015C 4 0x10000).st 0x10000160 4 1
def dSta : Dev := dStaW 0x0FFF0004
def dStaValid : Dev := dStaW 0x0FFF0005
def dStaSusp : Dev := dStaW 0x0FFF0007
/-- A SUSPEND of station 5 waits. -/
def dStaCmd : Dev := { dStaValid.wr 0x033 MAC_STA_STAT.BUSY 1 with mac := { dStaValid.mac with cmd := some ⟨5, 2⟩ } }
/-- The queue engine runs; station 0 is valid; class 0 may hold one entry. -/
def dQueue : Dev :=
  let d := ((D0.setState 0x033 .running).setState 0x03B .running).wr 0x033 MAC_STA_BASE.BASE 0x400000
  ((d.st 0x10000000 4 5).wrW 0x03B 0x104 1).wr 0x03B AIR_QPOOL_CFG.ENTRIES 4
/-- The queue engine runs and station 5 is valid on radio 0. -/
def dAdm : Dev := dStaValid.setState 0x03B .running

/-- Station 5 is an EMLSR station, asked by the MU-RTS that radio 0 sent. -/
def dEmlsr : Dev := (dStaW 0x0FFF0045).setMacR 0 { MacRadio.reset with onAir := some onAir0 }
/-- Radio 0 may contend for the PPDU of its plan, with backoff 0. -/
def dGrant : Dev :=
  let d := ((dRx.setState 0x028 .running).setState 0x030 .running).setMacR 0 { MacRadio.reset with backoff := [some 0, none, none, none] }
  { d with air := dExec.air }
/-- The slot in which it wins. -/
def slotL : Dev × Bool := (dGrant.reach ({ med0 with atNs := 300000 }.atNs * nsU)).listenSlot 0 { med0 with atNs := 300000 }
def slotF : Dev × List Nat := slotL.1.countDown 0 { med0 with atNs := 300000 }.atNs slotL.2
theorem dGrant_cond :
    (slotF.1.drawBackoff 0 ppduOne.ac).grantCond 0 { med0 with atNs := 300000 }.atNs planOne.beat ppduOne slotL.2
      = some (true, none) := by
  have h : ∀ d : Dev, d.secondaries 0 ppduOne = [] := by
    intro d
    simp [Dev.secondaries, ppduOne, Nat.mod_one]
  unfold Dev.grantCond
  simp only [h]
  decide +kernel

/-! ### Venue coordination and the tag lane -/

/-- Venue coordination runs, at the position where it sends. -/
def dVen : Dev := (D0.setState venPage .running).wr venPage VEN_TIMING.SEND_POS 0
/-- A venue message whose third octet is `n` was delivered. -/
def dVenMsg (n : Nat) : Dev :=
  { dVen with ven := { dVen.ven with inbox := [(List.replicate 12 0 ++ [0x88, 0xB5, 0, 0, n], 77)] } }
/-- TIME_OK in holdover, with no rounds left. -/
def dVenHold : Dev :=
  ((dVen.wr venPage VEN_STAT.TIME_OK 1).wr 0x008 PTP_SERVO_STAT.HOLDOVER 1).wr venPage VEN_TIMING.HOLD_ROUNDS 0

/-- The tag lane runs with O-QPSK on; the device may transmit everywhere. -/
def dTag : Dev :=
  let d := (((D0.setState tagPage .running).wr tagPage TAG_CFG.OQPSK_EN 1).wr tagPage TAG_LBT.COT_MAX 10).wr tagPage TAG_BCN.BCN_BEATS 0
  let d := d.wr 0x004 SEC_STATUS.LC 2
  { d with pool := { d.pool with reg := some regAll } }
def tagFrame0 : TagFrame := { endNs := 9000, octets := [], sync := 0, samples := [], rssi := 0, snr := 0, cfo := 0 }
/-- An Imm-Ack of sequence number 7 is owed. -/
def dTagAck : Dev := dTag.setTag { Tag.reset with ack := some (7, 9) }
/-- A request in phase `p`. -/
def tagReq (p : TagPhase) : TagReq :=
  { words := [], octets := [], kind := 0, chan := 2440, mod := 0, retry := 0, used := 0, phase := p, atNs := 0, from_ := 0, k := 0,
    start := 0, fin := 0, next := 0, bursts := 0, first := none }
def dReq (p : TagPhase) : Dev := dTag.setTag { Tag.reset with req := some (tagReq p) }
def tagFcs : List Nat := leBytes 2 (fcs16 [2, 0, 7])
/-- A request waits for the acknowledgement of sequence number 7, and an O-QPSK frame comes in. -/
def dTagAwait : Dev := dTag.setTag { Tag.reset with req := some { tagReq .ackWait with octets := [0x21, 0, 7] }, rx := some (0, 5) }
/-- A GFSK burst without payload comes in; the tag table stands in SRAM. -/
def dGfsk : Dev :=
  ((dTag.wr tagPage TAG_TABLE_BASE.BASE 0x800000).wr tagPage TAG_DFE.DFE_EN 0).setTag { Tag.reset with rx := some (1, 5) }
def gfskFr : TagFrame :=
  let c := crc24 (bitsOf [0, 2, 3, 0, 0, 0])
  { tagFrame0 with octets := [0, 2, 3, 0, 0, 0] ++ (List.range 3).map (fun i =>
      (List.range 8).foldl (fun a j => a + b2n (bit c (23 - 8 * i - j)) * 2 ^ j) 0), sync := 0x8E3A6C5D }
/-- A request in phase `p` in an occupancy begun at 0. -/
def dOcc (p : TagPhase) : Dev := dTag.setTag { Tag.reset with req := some (tagReq p), occ := some (0, false) }
/-- A request ring in SRAM holds one request. -/
def dTagQ : Dev := (dTag.wr tagPage TAG_TXQ_BASE.BASE 0x800000).wr tagPage TAG_TXQ_WR.INDEX 1
/-- The beacon slot of beat 0 is open for 900 microseconds. -/
def dTagBcn : Dev :=
  (((dTag.wr tagPage TAG_BCN_WIN.BCN_OFS 0).wr tagPage TAG_BCN_WIN.BCN_WIN 900).wr tagPage TAG_LBT.CCA_SLOT 18).setTag
    { Tag.reset with beacon := some 0 }
def dTrain : Dev := dOcc .train
def dTrainEnd : Dev := dTag.setTag { Tag.reset with req := some { tagReq .train with next := 500, fin := 400 }, occ := some (0, false) }
def dReq2 : Dev := dTag.setTag { Tag.reset with req := some { tagReq .cca with kind := 2, retry := 3 } }
/-- Beat 0 is a beacon slot. -/
def dBcnSlot : Dev := (dTag.wr tagPage TAG_BCN.BCN_BEATS 1).wr tagPage TAG_BCN.BCN_PHASE 0

/-! ### The Koveton cluster -/

/-- Core 0 stands in a job at a bundle of opcode `op` with no operands. -/
def dKov (op : Nat) : Dev :=
  let d := ((D0.setState 0x050 .running).setState kclPage .running).wr 0x050 KOV_CORE_STAT.RSTATE (if op = 0x3F then 2 else 1)
  (d.setCore 0 { KCore.reset with inN := decide (op = 0x37), inF := decide (op = 0x38) }).st 0x12040000 8 (op * 2 ^ 58)
/-- Core 0 stands at MBR with an entry in its mailbox. -/
def dKovMbx : Dev := (dKov 0x3A).setCore 0 { KCore.reset with mbx := [7] }
/-- Core 0 has a soft interrupt pending, on the fast route for `n` = 1. -/
def dKovIrq (n : Nat) : Dev :=
  ((((dKov 0).wr 0x050 KOV_IRQ_EN.SOFT 1).wr 0x050 KOV_IRQ_PEND.SOFT 1).wr 0x050 KOV_IRQ_FAST.SOFT n).setCore 0
    (KCore.reset.setFlag 8 true)
def kjob0 : KJob := { addr := 0x10000000, words := [], due := none, start := 0, bank := none, gens := [], busy := false }
/-- One job waits, and core 0 accepts jobs of its type. -/
def dKovJob : Dev :=
  let d := ((D0.setState 0x050 .running).setState kclPage .running).wr 0x050 KOV_CORE_CFG.ACCEPT 3
  { d with kov := { d.kov with jobs := [kjob0] } }
/-- Channel 16 holds a descriptor. -/
def dKovDma : Dev := (D0.setState kclPage .running).setChan 16 { queue := [([0, 0, 0, 0, 0, 0, 0, 0], 0x10000000)], bad := false }

/-! ### The packet engine, rings and Ethernet -/

def pkt0 : PFrame :=
  { basket := 3, src := 0, dot11 := false, info := 0, tsNs := 0, tsFrac := 0, cookie := 0, tsReq := none, direct := none, menu := 0,
    kt2 := 0xF, inner := false }
/-- The engine runs; a frame waits for each of the two passes. -/
def dPkt : Dev :=
  let d := ((D0.setState 0x060 .running).setState 0x061 .running).setState 0x063 .running
  { d with pkt := { d.pkt with inq := [pkt0], recirc := [pkt0] } }
def ringDesc : List Nat := [0x10000100, 0, 0x30001, 0, 0, 0, 0, 0]
/-- TX ring 0 in SRAM holds one descriptor of one octet. -/
def dRing : Dev :=
  let d := (((D0.setState 0x060 .running).setState 0x062 .running).wr 0x062 (PKT_RING_STAT.ACTIVE.at 0) 1).wr 0x062 (PKT_RING_CFG.TYPE.at 0) 2
  let d := ((d.wr 0x062 (PKT_RING_CFG.LOG2.at 0) 4).wr 0x062 (PKT_RING_BASE_LO.BASE.at 0) 0x800000).wr 0x062 (PKT_RING_SW.INDEX.at 0) 1
  ((d.st 0x10000000 4 0x10000100).st 0x10000008 4 0x30001).st 0x10000100 1 7
def cpl0 : Cpl :=
  { status := 0, tries := 1, outcome := 0, tid := 0, sta := 5, radio := 0, cookie := 0, timeNs := 0, sn := 0, ppduStatus := 0,
    ruOutcome := 0, basket := 9 }
def dCpl : Dev := { D0 with cpls := [cpl0] }
/-- Ring 255 has held a descriptor since 5 ns. -/
def dSince : Dev :=
  { D0.wr 0x062 (PKT_RING_IRQ.IRQ_USEC.at 255) 3 with pkt := { D0.pkt with since := [(255, (1, 5))] } }

/-- Port 0 is up and takes every address. -/
def dEth : Dev := ((D0.setState 0x068 .running).wr 0x068 ETH_LINK.LINK 1).wr 0x068 ETH_CFG.PROMISC 1
/-- A frame of 64 octets with its FCS. -/
def ethOct0 : List Nat := List.replicate 60 0 ++ leBytes 4 (crc32 (List.replicate 60 0))
/-- Port 0 is paused on all queues. -/
def dPaused : Dev := D0.setEth 0 { EthMac.reset with pause := [(8, 9)] }
/-- Port 0 has paused its partner; XON stands at `n`. -/
def dGen (n : Nat) : Dev := (dEth.setEth 0 { EthMac.reset with gen := some 9 }).wr 0x068 ETH_FIFO_THR.XON n
def ethTx0 : EthTx := { octets := List.replicate 60 0, basket := none, tsReq := none, ven := false }
def dEthTx : Dev := dEth.setEth 0 { EthMac.reset with queues := [(0, [ethTx0])] }
def line0 : EthLine := { tx := ethTx0, ts := 0, oneStep := false, whole := false }
def dLine : Dev := dEth.setEth 0 { EthMac.reset with line := some line0 }
/-- Lane 0 has its block lock. -/
def dLinkUp : Dev := (D0.setState 0x068 .running).wr 0x06D (ETH_SERDES_STAT.BLOCK_LOCK 0) 1

/-! ### Time -/

def sDev (d : Dev) : State := { State.reset with dev := d }
def sPtp : State := sDev (D0.setState ptpPage .running)
/-- The servo locks. -/
def sServo : State := sDev ((D0.setState ptpPage .running).wr ptpPage PTP_SERVO_STAT.SSTATE 1)
/-- The servo on and acquiring, with a step allowed above 1 µs. -/
def sServoStep : State :=
  sDev ((((D0.setState ptpPage .running).wr ptpPage PTP_SERVO_STAT.SSTATE 1).wr ptpPage PTP_SERVO_CFG.STEP_EN 1).wr ptpPage
    PTP_SERVO_THR.STEP_THR 1)
def dTmr : Dev := (D0.setState ptpPage .running).wr ptpPage (PTP_TMR.EN.at 15) 1
/-- Software claimed ball 5 for event input 0, which captures rising edges. -/
def sEvi : State :=
  sDev ((((D0.setState ptpPage .running).wr 0x000 (PIN_OWN_BALL.FUNC.at 5) 18).wr 0x000 (PIN_OWN_BALL.OWNER.at 5) 0xF000).wr ptpPage
    PTP_EVI_CFG.EN0 1)

/-! ### The control cores, the interrupt controller and PCI Express -/

/-- Core 1 runs software at the start of SRAM, the line with an ADDI in the caches. -/
def sHart : State :=
  let d : Dev := { D0 with ctl := { D0.ctl with lines := [(0x10000000, { bytes := [0x13, 0, 0, 0] ++ List.replicate 60 0, dirty := false })] } }
  (sDev d).setHart 1 { Hart.reset with pc := 0x10000000 }
/-- Core 1 is halted. -/
def sHalted : State := sHart.onHart 1 fun h => { h with halted := true }
/-- Core 1 runs in user mode with a software interrupt pending. -/
def sIrq : State :=
  (sDev { D0 with ctl := { D0.ctl with msip := 2 } }).setHart 1 { Hart.reset with priv := 0, csr := [(0x304, 8)] }
/-- Core 1 stands parked, its MSIP bit set. -/
def sParked : State := (sDev { D0 with ctl := { D0.ctl with msip := 2 } }).setHart 1 Hart.parkedAt
/-- Source 5 is pending, with priority 1, and enabled in context 1. -/
def dPlic : Dev :=
  let d := (D0.wrW 0x100 20 1).wrW 0x100 0x2080 0x20
  { d with ctl := { d.ctl with edge := [5] } }
def outRead0 : OutRead := { who := .hart 0, addr := 0x100000000, size := 4, since := 0, answer := none }
def dOutRead : Dev := { D0 with pcie := { D0.pcie with reads := [outRead0] } }
/-- An endpoint whose vector 0 signals source 5, which is pending. -/
def dMsix : Dev :=
  let d := (((D0.wr 0x130 PCIE_CTL.MODE 1).wr 0x130 PCIE_LINK.UP 1).wr 0x132 (PCIE_MSIX_MAP.EN.at 0) 1).wr 0x132 (PCIE_MSIX_MAP.SOURCE.at 0) 5
  { d with ctl := { d.ctl with edge := [5] } }
/-- Core 1 waits in an ask since 5 ns. -/
def dWait : Dev := D0.setPort 1 { cur := none, wait := some 5, answer := none, nudged := false }

/-! ### Memory -/

/-- A read at DRAM channel 0 that is on its way. -/
def dramReq0 : DramReq :=
  { who := .hart 0, acc := ⟨0x800000000, 8, none⟩, ch := 0, atNs := 0, passed := 0, issued := some 7, answer := none }
def dDq : Dev :=
  let d := D0.setState drmPage .running
  { d with ms := { d.ms with dq := [dramReq0] } }
/-- A request of level 3 waits for bank 0 while per-bank refresh may be postponed. -/
def dUrgent : Dev :=
  let d := (((D0.setState drmPage .running).wr drmPage DRM_REFRESH.PER_BANK 1).wr drmPage DRM_REFRESH.POSTPONE 4).reach (9000 * nsU)
  { d with ms := { d.ms with dq := [{ dramReq0 with issued := none }] } }
/-- SRAM group 7 works, woken by an access, in the mode that returns it to retention. -/
def dWoken : Dev :=
  let d := (((D0.setState srmPage .running).setGroup 7 0).wr srmPage SRM_THERMOS_CFG.IDLE_RET 1).wr srmPage (SRM_THERMOS.MODE 7) 1
  { d with ms := { d.ms with woken := [7] } }

/-! ### The security island -/

/-- The island runs; command blocks and jobs stand at the start of SRAM. -/
def dSec : Dev :=
  (((D0.setState secPage .running).wr secPage SEC_CMD_ADDR.ADDR 0x400000).wr secPage SEC_JOB_BASE.BASE 0x400000).wr secPage
    SEC_STATUS.SELFTEST_OK 1
def slotBlock : List Nat := List.replicate 8 0 ++ [0, 0, 0, 0x11] ++ List.replicate 52 0
/-- A command block that loads slot 0 from a key in the hamper. -/
def dSecSlot : Dev :=
  ((dSec.setState 0x033 .running).st 0x10000008 4 0x11000000).stBytes 0x11000000 (List.replicate 16 7)
def secRun (op : Nat) (words : List Nat) : SecRun := { op := op, words := words, early := none }
def dSecCmd (op : Nat) (words : List Nat) : Dev := { dSec with sec := { dSec.sec with cmd := some (secRun op words) } }
/-- SLOT_LOAD of slot 3 is under way. -/
def dSecLoading : Dev := (dSecCmd 8 [0, 0, 0, 0, 3]).wr 0x033 (MAC_KEYSLOT.STATE.at 3) 1
/-- A command that was refused because the island is TAMPERED. -/
def dSecEarly : Dev := { dSec with sec := { dSec.sec with cmd := some { secRun 2 [] with early := some 0x12 } } }
def secFact0 : SecFact := { progBad := none, mismatch := false }
/-- LC_ADVANCE to End, from Blank. -/
def dSecLc : Dev := dSecCmd 15 [0, 0, 0, 0, 0x14000000]
def ctx0 : SecCtx :=
  { mode := 7, dual := false, inMsg := false, key := [], key2 := [], clearSave := false, iv := [], aad := [], text := [] }
def secJobBlock : List Nat := [5, 3, 3, 0] ++ List.replicate 60 0
/-- A job waits: the hash of the empty message in context 3. -/
def dSecJob : Dev :=
  let d := (dSec.wr secPage SEC_JOB_SW.INDEX 1).st 0x10000000 4 0x30305
  { d with sec := { d.sec with ctx := [(3, ctx0)] } }
def tok0 : TokCheck := { unlock := true, arg := 1, token := [], nonce := none }
def sToken : State := sDev { D0 with sec := { D0.sec with check := some tok0 } }

/-! ### Power, clocks, the twin link and the boot -/

/-- Every wake source is enabled; no block works. -/
def dQuiet : Dev := D0.wr pwrPage PWR_WAKE_EN.EN 0xFFFF
/-- The device idles, and a wake ball goes low. -/
def dIdleWake : Dev :=
  let d := dQuiet.wr pwrPage PWR_STATE.STATE 1
  { d with balls := { d.balls with wakeLow := 1 } }
def plChange0 : LevelChange := { target := 3, old := 0, acked := false }
/-- Alarm 3 is armed. -/
def dAlarm : Dev :=
  let d := (D0.wr rtcPage (RTC_ALARM.EN.at 3) 1).wr rtcPage (RTC_ALARM.ARMED.at 3) 1
  { d with rtc := { d.rtc with edges := true, powered := true } }
/-- Automatic trimming, with a window spoilt. -/
def dTrim : Dev :=
  let d := (D0.setState rtcPage .running).wr rtcPage RTC_TRIM_CFG.AUTO_TRIM 1
  { d with rtc := { d.rtc with spoilt := true, powered := true, edges := true } }

/-- Twin frames of each type from a partner with UID 9, protected under the key 0, 1, ... 15; AUTH (AES-CMAC) and FCS were computed
outside the model. -/
def twinFr (t : Nat) : TwinFrame :=
  let f (seq : Nat) (len : List Nat) (payload auth : List Nat) : TwinFrame :=
    { typ := t, seq := seq, payload := payload, auth := auth, body := [0x54, 0x42, t, 1, 0, 0, 0, seq] ++ len ++ [0, 0] ++ payload }
  match t with
  | 1 => f 0 [0, 20] ([0, 0, 0, 0, 0, 0, 0, 9] ++ zeros 12) [247, 170, 155, 67, 149, 64, 207, 24]
  | 2 => f 0 [0, 16] (zeros 16) [84, 95, 40, 241, 201, 99, 173, 224]
  | 3 => f 1 [0, 68] (zeros 68) [106, 231, 120, 132, 60, 249, 47, 145]
  | 4 => f 1 [0, 72] (zeros 72) [42, 107, 224, 244, 99, 71, 98, 132]
  | 5 => f 1 [0, 12] (zeros 12) [21, 134, 128, 251, 128, 89, 96, 205]
  | _ => f 1 [0, 1] ([1]) [70, 20, 133, 5, 132, 230, 220, 198]
def twinOct (t : Nat) : List Nat :=
  (twinFr t).body ++ (twinFr t).auth ++ match t with
  | 1 => [66, 0, 1, 74]
  | 2 => [97, 58, 196, 103]
  | 3 => [125, 206, 107, 205]
  | 4 => [244, 80, 96, 194]
  | 5 => [233, 52, 84, 160]
  | _ => [26, 177, 85, 91]

/-- The twin controller receives on lane 0; its partner's HELLO was taken. -/
def dTwinRx : Dev :=
  let d := ((D0.setState twnPage .running).setState secPage .running).wr twnPage TWN_CFG.LANE0_EN 1
  let d : Dev := { d with sec := { d.sec with ctx := [(0, { mode := 5, dual := false, inMsg := false, key := List.range 16, key2 := [], clearSave := false, iv := [], aad := [], text := [] })] } }
  d.setTwin fun t => { t with hello := some { uid := 9, nonce := 0, flags := 0 } }
def dTwinRole (r : Nat) : Dev := (D0.setState twnPage .running).wr twnPage TWN_ROLE.ROLE r
def dTwinPair : Dev := dTwinRole rolePairing
def dTwinHb : Dev := (dTwinRole roleShadow).setTwin fun t => { t with hbFrom := some 0 }
def dTwinKick : Dev := { (dTwinRole roleActive).wr twnPage TWN_TIMING.KICK_BEATS 5 with beat := 100 }
/-- A paired Active with a request of type `t` at the head of its ring in SRAM. -/
def dTwinReq (t : Nat) : Dev :=
  let d := ((((dTwinRole roleActive).wr twnPage TWN_ROLE.PAIRED 1).wr twnPage TWN_TXQ_BASE.BASE 0x10000).wr twnPage TWN_TXQ_WR.INDEX 1)
  (d.st 0x10000000 4 (t + 72 * 65536)).st 0x10000004 4 0x10000100
/-- A paired controller with a frame unacknowledged for long. -/
def dTwinWin : Dev :=
  let d := { (dTwinRole roleActive).wr twnPage TWN_ROLE.PAIRED 1 with beat := 1000 }
  d.setTwin fun t => { t with win := [{ typ := 6, payload := [1], snap := false, req := none, seq := 1 }] }

/-- SYS_RST_N is low; all rails are on. -/
def sReset : State :=
  sDev { D0 with balls := { D0.balls with resetLow := true }, gov := { D0.gov with rails := [0, 1, 2, 3] } }
/-- A flash directory with slots A and B, for one interleaved group of SRAM; neither slot can be read. -/
def dir0 : List Nat := [68, 66, 77, 76, 1, 0, 1] ++ zeros 53 ++ [36, 230, 155, 14]
def flash0 : BootFlash := { dir := some dir0, a := none, b := none }
/-- The ROM waits in its recovery flow. -/
def sRecov : State := sDev { D0 with ctl := { D0.ctl with rom := .recovery } }
/-- C0 is in the ROM's flow, the self-tests passed. -/
def sBoot : State := sDev (D0.wr secPage SEC_STATUS.SELFTEST_OK 1)

/-! ### Ill-formed terms are refused -/

theorem test_wf_ctlCore : Instr.wf (.hartInterruptEntry 8) = false := by decide
theorem test_wf_kovCore : Instr.wf (.kovSoftIrq 16) = false := by decide
theorem test_wf_pageNo : Instr.wf (.start 0x1000) = false := by decide
theorem test_wf_station : Instr.wf (.staAdd 2048) = false := by decide
theorem test_wf_tidNo : Instr.wf (.reorderTimeout 5 16) = false := by decide
theorem test_wf_ringNo : Instr.wf (.ringEnable 256 0x21) = false := by decide
theorem test_wf_macNo : Instr.wf (.pauseRepeat 5) = false := by decide
theorem test_wf_groupNo : Instr.wf (.blockReset 8 0) = false := by decide
theorem test_wf_channelNo : Instr.wf (.dramPeriodicUpdate 4 true) = false := by decide
theorem test_wf_alarmNo : Instr.wf (.alarmFire 4) = false := by decide
theorem test_wf_contextNo : Instr.wf (.plicClaim 16) = false := by decide
theorem test_wf_domainNo : Instr.wf (.vsettleDone 4) = false := by decide
theorem test_wf_timerNo : Instr.wf (.eventTimerFire 16) = false := by decide
theorem test_wf_inputNo : Instr.wf (.ptpEviRead 2) = false := by decide
theorem test_wf_laneNo : Instr.wf (.twnLaneChange 2 true) = false := by decide
theorem test_wf_serdesNo : Instr.wf (.serdesLaneStatusChange 5 0) = false := by decide
theorem test_wf_chainNo : Instr.wf (.paOverPower 25) = false := by decide
theorem test_wf_quadNo : Instr.wf (.quadLockTimeout 6) = false := by decide
theorem test_wf_radioNo : Instr.wf (.navExpiry 3) = false := by decide
theorem test_wf_instNo : Instr.wf (.lockDetected 4) = false := by decide
theorem test_wf_pipeNo : Instr.wf (.firstPass 2 []) = false := by decide
theorem test_wf_barrierNo : Instr.wf (.barrierRelease 8) = false := by decide
theorem test_wf_regNo : Instr.wf (.cboClean 0 32) = false := by decide
theorem test_wf_tamperNo : Instr.wf (.tamperTrip 6) = false := by decide
theorem test_wf_word32 : Instr.wf (.registerWrite 0x008 0x20 0x100000000) = false := by decide
theorem test_wf_accessOk_size : Instr.wf (.fabricRequest (.hart 0) true ⟨⟨0x10000000, 0, none⟩, .clean⟩) = false := by decide
theorem test_wf_accessOk_value : Instr.wf (.fabricRequest (.hart 0) true ⟨⟨0x10000000, 1, some 256⟩, .clean⟩) = false := by decide
theorem test_wf_initiatorOk : Instr.wf (.fabricRequest (.koveton 16) false ⟨⟨0x10000000, 4, none⟩, .clean⟩) = false := by decide
theorem test_wf_good : Instr.wf (.fabricRequest (.koveton 15) false ⟨⟨0x10000000, 4, some 0xFFFFFFFF⟩, .clean⟩) = true := by decide

/-! ### Worked examples of the spec -/

/-- 00_scope.md: device time 1,000 s + 3,250,000 ns lies in beat 4,000,013. -/
theorem test_beat_index : (1000 * secU + 3250000 * nsU) / beatU = 4000013 := by decide
/-- 00_scope.md: beat 4,000,013 is at position 13 of round 250,000. -/
theorem test_beat_round : ({ D0 with beat := 4000013 } : Dev).round = 250000 ∧ ({ D0 with beat := 4000013 } : Dev).pos = 13 := by
  decide +kernel

/-- 14_memory.md: 16 Gb dies in two ranks with XOR_EN set; 0xA_5234_5678 lies in channel 2, bank group 0, bank 1, rank 1. -/
def dDram : Dev := ((D0.wr drmPage DRM_GEOM.DENSITY 2).wr drmPage DRM_GEOM.RANKS 1).wr drmPage DRM_GEOM.XOR_EN 1
theorem test_dram_place : dDram.dramPlace (0xA52345678 - dramBase) = (2, 0, 1, 1) := by decide +kernel
/-- 14_memory.md: the next 64 bytes go to channel 1. -/
theorem test_dram_next : (dDram.dramPlace (0xA52345678 + 0x40 - dramBase)).1 = 1 := by decide +kernel

/-- 16_power_budget.md: 0.792 V with an exponent of −12 is word 3,244. -/
theorem test_vout : (D0.wrS pwrPage (PWR_RAIL.EXP.at 0) (-12)).voutWord 0 792 = 3244 := by decide +kernel
/-- 16_power_budget.md: 71.3 W with MARGIN 30 give a beat 17,290 µJ. -/
def dBudget : Dev := (D0.wr pwrPage PWR_BUDGET.MW 71300).wr pwrPage PWR_GOV_CFG.MARGIN 30
theorem test_budget : dBudget.eBeat = 17290 := by decide +kernel

/-- 12_ethernet_time.md: a sample of +12 ns at INTEG +1,450 ppb leaves INTEG at 1,446.39 ppb and ADJ at 1,379.17 ppb (in 2^-8 ppb). -/
def dServo : Dev :=
  let d := (((D0.wr ptpPage PTP_SERVO_GAIN.KP 0x59A).wr ptpPage PTP_SERVO_GAIN.KI 0x4D).wr ptpPage PTP_SERVO_STAT.SSTATE 2).wr ptpPage
    PTP_FREQ_TRIM.PPB 0
  { d with time := { d.time with integ := 1450 * 256 } }
theorem test_servo_integ : (dServo.servoTrack (12 * 65536)).time.integ = 370276 := by decide +kernel
theorem test_servo_adj : (dServo.servoTrack (12 * 65536)).adj = 353068 := by decide +kernel

/-- 17_rtc_health.md: at 85 °C and 0.85 V the AF is 2^−1. -/
theorem test_age_af : exp2 (5 * (85 - 95)) 50 = 2 ^ 31 := by decide +kernel
/-- 17_rtc_health.md: CONSUMED 120,000 ppm and AF_AVG 0.5 (in 2^-8) leave 4,496 days; DRIFT 9,000 ppm after 26,280 hours 3,771. -/
theorem test_age_days : modelDays 120000 61320 128 = 4496 ∧ driftDays 26280 9000 40000 = 3771 := by decide +kernel

/-- 03_chain_pool.md: 16 chains at GAIN 80 on 320 MHz under EIRP 30.0 dBm and +5.0 dBm/MHz are clamped to −2.25 dBm; 8 to +0.75. -/
def clampTab : RegTab := { indoor := true, gains := List.replicate 120 80, entries := [] }
def clampEntry : RegEntry :=
  { lo := 5945, hi := 6265, eirp := 120, psd := some 20, dutyMax := 0, disallowed := false, dfs := false, indoorOnly := false,
    noTx := false, dutyWindow := 0 }
theorem test_clamp_16 : clampRaw clampTab [clampEntry] (List.range 16) 2 4 = -9 := by decide +kernel
theorem test_clamp_8 : clampRaw clampTab [clampEntry] (List.range 8) 2 4 = 3 := by decide +kernel

/-- 09_tag_lane.md: two octets at 2 Mb/s take 68 µs; with BURST_GAP at its reset value BURST_PER is 80 µs. -/
theorem test_tag_burst : wakeAir 2 = 68000 ∧ D0.burstPer 2 = 80000 := by decide +kernel

/-! ### Published check values of the standards the spec names -/

/-- CRC-32 of IEEE 802.3 over "123456789". -/
theorem test_crc32 : crc32 [0x31, 0x32, 0x33, 0x34, 0x35, 0x36, 0x37, 0x38, 0x39] = 0xCBF43926 := by decide +kernel
/-- FIPS 197, appendix C.1. -/
theorem test_aes128 :
    beNum (aesEnc (aesKeys (List.range 16)) ((List.range 16).map (· * 17))) = 0x69C4E0D86A7B0430D8CDB78070B4C55A := by decide +kernel
/-- RFC 4493, example 2. -/
theorem test_cmac :
    beNum (aesCmac (beBytes 16 0x2B7E151628AED2A6ABF7158809CF4F3C) (beBytes 16 0x6BC1BEE22E409F96E93D7E117393172A))
      = 0x070A16B46B4D4144F79BDD9DD04A287C := by decide +kernel
/-- FIPS 180-4: SHA-256 of "abc". -/
theorem test_sha256 :
    beNum (sha256 [0x61, 0x62, 0x63]) = 0xBA7816BF8F01CFEA414140DE5DAE2223B00361A396177A9CB410FF61F20015AD := by decide +kernel
/-- IEEE 754: 1 + 2 = 3, and 1/3 to nearest is inexact, in binary32. -/
theorem test_fadd : f32.add 0 0x3F800000 0x40000000 = (0x40400000, 0) := by decide +kernel
theorem test_fdiv : f32.div 0 0x3F800000 0x40400000 = (0x3EAAAAAB, nxFlag) := by decide +kernel
/-- RISC-V: C.ADDI a0, 1 stands for ADDI a0, a0, 1; C.EBREAK for EBREAK. -/
theorem test_c_addi : expandC 0x0505 = some 0x00150513 := by decide +kernel
theorem test_c_ebreak : expandC 0x9002 = some 0x00100073 := by decide +kernel

/-! ### Single commands -/

/-- R42: a register word may not be accessed by halves. -/
theorem test_half_register :
    (State.reset.access { who := .hart 0, priv := 3, debug := false } ⟨0x20000020, 2, none⟩).dev.lastCode = .decodeError := by decide +kernel
/-- R37: nothing answers in a hole of the address map. -/
theorem test_hole :
    (State.reset.access { who := .hart 0, priv := 3, debug := false } ⟨0x1000000, 4, none⟩).dev.lastCode = .decodeError := by decide +kernel
/-- The queue is first in, first out, and no word of the table spells a command. -/
theorem test_no_word : State.reset.withFetchWord 0 0 = State.reset := by decide +kernel
/-- KOV_JOB_POST: the word written posts the descriptor at 64 times itself. -/
def sJobPost : State := { State.reset with dev := (D0.setState kclPage .running).st 0x10000040 4 1 }
theorem test_job_post :
    ((sJobPost.access { who := .hart 0, priv := 3, debug := false } ⟨0x20480080, 4, some 0x400001⟩).dev.kov.jobs.map
      fun j => (j.addr, j.type)) = [(0x10000040, 1)] := by decide +kernel

/-! ### States that meet the hypotheses of the statements -/

set_option linter.unusedVariables false

theorem witness_IdleStepIsOneTclkCycle : State.reset.pending = [] := rfl

theorem witness_BeatCommandsComplete_1_beatBoundary : ∃ (s : State) (fact : BeatFact), (s.dev.rdB 0x008 PTP_BEAT_CTL.BEAT_EN =
    true) ∧ (s.dev.dark = false) :=
  ⟨{ State.reset with dev := D0.wr 0x008 PTP_BEAT_CTL.BEAT_EN 1 }, ⟨0, [], [], 0, [], true⟩, by decide +kernel, by decide +kernel⟩

theorem witness_BeatCommandsComplete_2_beatEnSet : ∃ (s : State), (s.dev.answers 0x008 = true) ∧ (s.dev.rdB 0x008
    PTP_BEAT_CTL.BEAT_EN = false) :=
  ⟨State.reset, by decide +kernel, by decide +kernel⟩

theorem witness_BeatCommandsComplete_3_beatEnClear : ∃ (d : Dev) (value : Nat), (d.answers 0x008 = true) ∧ (∀ p ∈ beatPages,
    d.bstate p = .stopped) :=
  ⟨D0, 0, by decide +kernel, by decide +kernel⟩

theorem witness_BeatCommandsComplete_4_ptpBeatLoRead : ∃ (d : Dev), (d.answers 0x008 = true) :=
  ⟨D0, by decide +kernel⟩

theorem witness_BeatCommandsComplete_5_allowanceMissed : ∃ (d : Dev), (d.rdB 0x008 PTP_BEAT_CTL.BEAT_EN = true) ∧ (d.rdB 0x008
    PTP_BEAT_STAGE.ALLOW_ISSUED = false) :=
  ⟨D0.wr 0x008 PTP_BEAT_CTL.BEAT_EN 1, by decide +kernel, by decide +kernel⟩

theorem witness_BeatCommandsComplete_6_airLast0Read : ∃ (d : Dev) (x : Nat), (x < 3) ∧ (d.answers (airPage x) = true) :=
  ⟨D0, 2, by decide +kernel, by decide +kernel⟩

theorem witness_PlanCommandsComplete_1_queueSnapshot : ∃ (d : Dev), (d.inService 0x03B = true) :=
  ⟨D0.setState 0x03B .running, by decide +kernel⟩

theorem witness_PlanCommandsComplete_2_planFreeze : ∃ (d : Dev) (x noLine : Nat) (draft : List PpduFact) (left : List (Nat ×
    Nat)) (sn : Snap), (x < 3) ∧ (look d.air.snap x = some sn) ∧ (look (d.planFreeze x draft left noLine).air.snap x = none) ∧
    (((d.planFreeze x draft left noLine).buf x sn.beat).st = .frozen) :=
  ⟨dPlan, 0, 0, [], [], snapOf 5, by decide +kernel, by decide +kernel, by decide +kernel, by decide +kernel⟩

theorem witness_PlanCommandsComplete_3_planFreezeMissed : ∃ (d : Dev) (radio : Nat) (sn : Snap) (e : Dev), (radio < 3) ∧ (look
    d.air.snap radio = some sn) ∧ ((d.buf radio sn.beat).st = .building) ∧ (d.beat + 2 = sn.beat) ∧ (e = ((((((d.reach ((beatNs
    (sn.beat - 2) + 4000) * nsU)).setBuf radio sn.beat { st := .free, plan := none }).cnt (airPage radio)
    AIR_CNT_PLANLATE.COUNT).ev (airPage radio) 8).wr 0x008 (PTP_BEAT_LATE.PLAN_LATE.bitOf radio) 1).ev 0x008 8).forAll sn.eligible
    fun q f => f.delayFirst q 0x15 []) :=
  ⟨dPlan, 0, snapOf 5, _, by decide +kernel, by decide +kernel, by decide +kernel, by decide +kernel, rfl⟩

theorem witness_RunControlCommandsComplete_1_start : ∃ (d : Dev) (page : Nat), (d.runs page = true) ∧ ((d.runBits page
    1).discarding page = false) ∧ ((d.runBits page 1).bstate page = .stopped) ∧ (page < 0x010 ∨ 0x015 < page) :=
  ⟨D0, 0x033, by decide +kernel, by decide +kernel, by decide +kernel, by decide +kernel⟩

theorem witness_RunControlCommandsComplete_2_start : ∃ (d : Dev) (page : Nat), (d.runs page = true) ∧ ((d.runBits page
    1).discarding page = false) ∧ ((d.runBits page 1).bstate page = .stopped) ∧ (0x010 ≤ page) ∧ (page ≤ 0x015) ∧ ((((d.runBits
    page 1).setState page .starting).bbFollow page).quadStartCheck (page - 0x010) = none) :=
  ⟨D0.setState calPage .running, 0x012, by decide +kernel, by decide +kernel, by decide +kernel, by decide +kernel, by decide +kernel, by decide +kernel⟩

theorem witness_RunControlCommandsComplete_3_drain : ∃ (d : Dev) (page : Nat), (d.runs page = true) ∧ ((d.runBits page
    2).discarding page = false) ∧ ((d.runBits page 2).bstate page = .starting) :=
  ⟨D0.setState 0x033 .starting, 0x033, by decide +kernel, by decide +kernel, by decide +kernel⟩

theorem witness_RunControlCommandsComplete_4_drain : ∃ (d : Dev) (page : Nat), (d.runs page = true) ∧ ((d.runBits page
    2).discarding page = false) ∧ ((d.runBits page 2).bstate page = .running) :=
  ⟨D0.setState 0x033 .running, 0x033, by decide +kernel, by decide +kernel, by decide +kernel⟩

theorem witness_RunControlCommandsComplete_5_stop : ∃ (d : Dev) (page : Nat), (d.runs page = true) ∧ ((d.runBits page
    0).discarding page = false) ∧ ((d.runBits page 0).bstate page = .running ∨ (d.runBits page 0).bstate page = .draining) :=
  ⟨D0.setState 0x033 .running, 0x033, by decide +kernel, by decide +kernel, Or.inl (by decide +kernel)⟩

theorem witness_RunControlCommandsComplete_6_stop : ∃ (d : Dev) (page : Nat), (d.runs page = true) ∧ ((d.runBits page
    0).discarding page = false) ∧ ((d.runBits page 0).bstate page = .starting) :=
  ⟨D0.setState 0x033 .starting, 0x033, by decide +kernel, by decide +kernel, by decide +kernel⟩

theorem witness_RunControlCommandsComplete_7_abort : ∃ (d : Dev) (page : Nat), (d.runs page = true) ∧ ((d.runBits page
    4).bstate page = .fault) :=
  ⟨D0.setState 0x033 .fault, 0x033, by decide +kernel, by decide +kernel⟩

theorem witness_RunControlCommandsComplete_8_startChecksPassed : ∃ (d : Dev) (page : Nat), (d.runs page = true) ∧ (d.bstate
    page = .starting) ∧ (d.startFault page = none) ∧ (page < 0x010 ∨ 0x015 < page) ∧ ((d.onStart page).bstate page = .starting) :=
  ⟨D0.setState 0x002 .starting, 0x002, by decide +kernel, by decide +kernel, by decide +kernel, by decide +kernel, by decide +kernel⟩

theorem witness_RunControlCommandsComplete_9_drainComplete : ∃ (d : Dev) (page : Nat), (d.runs page = true) ∧ (d.bstate page =
    .draining) ∧ (d.discarding page = false) ∧ (d.drained page = true) ∧ (page ≠ 0x033) :=
  ⟨D0.setState 0x03B .draining, 0x03B, by decide +kernel, by decide +kernel, by decide +kernel, by decide +kernel, by decide +kernel⟩

theorem witness_RunControlCommandsComplete_10_faultDetected : ∃ (d : Dev) (page : Nat) (fault : FaultRec), (d.runs page =
    true) ∧ (d.bstate page = .running) ∧ (((d.enterFault page fault).leave page).bstate page = .running) :=
  ⟨D0.setState 0x03B .running, 0x03B, ⟨0x40, 0, 0⟩, by decide +kernel, by decide +kernel, by decide +kernel⟩

theorem witness_RunControlCommandsComplete_11_discardComplete : ∃ (d : Dev) (page : Nat), (look d.disc page = some true) :=
  ⟨{ D0 with disc := [(0x03B, true)] }, 0x03B, by decide +kernel⟩

theorem witness_ResetAndDomainCommandsComplete_1_blockReset : ∃ (d : Dev) (group value v : Nat), (d.answers 0x001 = true) ∧
    (group < 8) ∧ (v = (if group = 0 then value / 32 * 32 else value)) :=
  ⟨D0, 1, 8, _, by decide +kernel, by decide +kernel, rfl⟩

theorem witness_ResetAndDomainCommandsComplete_2_domainSwitchWrite : ∃ (d : Dev) (value : Nat), (d.answers 0x001 = true) :=
  ⟨D0, 7, by decide +kernel⟩

theorem witness_ResetAndDomainCommandsComplete_3_domainSwitchWrite : ∃ (d : Dev) (k value : Nat), (bit value k = d.rdB pwrPage
    (PWR_DOM.KOV.bitOf k)) :=
  ⟨D0, 0, 7, by decide +kernel⟩

theorem witness_ResetAndDomainCommandsComplete_4_domainSwitchWrite : ∃ (d : Dev) (k value : Nat), (bit value k = true) ∧
    (d.rdB pwrPage (PWR_DOM.KOV.bitOf k) = false) :=
  ⟨D0.wr pwrPage (PWR_DOM.KOV.bitOf 2) 0, 2, 7, by decide +kernel, by decide +kernel⟩

theorem witness_ResetAndDomainCommandsComplete_5_domainSwitchWrite : ∃ (d : Dev) (k value : Nat), (bit value k = false) ∧
    (d.rdB pwrPage (PWR_DOM.KOV.bitOf k) = true) ∧ (∀ p ∈ domPages k, d.bstate p = .stopped) :=
  ⟨D0.wr pwrPage (PWR_DOM.KOV.bitOf 2) 1, 2, 3, by decide +kernel, by decide +kernel, by decide +kernel⟩

theorem witness_ResetAndDomainCommandsComplete_6_domainSwitchWrite : ∃ (d : Dev) (k value p : Nat), (bit value k = false) ∧
    (d.rdB pwrPage (PWR_DOM.KOV.bitOf k) = true) ∧ (((domPages k).find? fun p => decide (d.bstate p ≠ .stopped)) = some p) :=
  ⟨(D0.wr pwrPage (PWR_DOM.KOV.bitOf 0) 1).setState 0x048 .running, 0, 6, 0x048, by decide +kernel, by decide +kernel, by decide +kernel⟩

theorem witness_ResetAndDomainCommandsComplete_7_domainPowerUpDone : ∃ (d : Dev) (dom : Nat) (e : Dev), (d.gov.domUp.contains
    dom = true) ∧ (e = d.wr pwrPage (PWR_DOM_STAT.KOV.bitOf dom) 1) :=
  ⟨{ D0 with gov := { D0.gov with domUp := [0] } }, 0, _, by decide +kernel, rfl⟩

theorem witness_ClaimCommandsComplete_1_ownerClaim : ∃ (d : Dev) (kind index owner func : Nat), (d.answers 0x000 = true) ∧
    (resourceExists kind index = true) ∧ (d.claimable kind index (owner % 0x10000) (func % 64) = true) :=
  ⟨D0, 1, 3, 0xF001, 0, by decide +kernel, by decide +kernel, by decide +kernel⟩

theorem witness_ClaimCommandsComplete_2_ownerRelease : ∃ (d : Dev) (kind index owner : Nat), (d.answers 0x000 = true) ∧
    (resourceExists kind index = true) ∧ (kind ≠ 0 ∨ ballExists index = true) ∧ (d.owner kind index = owner % 0x10000) :=
  ⟨D0.wr 0x000 (ownerFld 1 3) 0xF001, 1, 3, 0xF001, by decide +kernel, by decide +kernel, by decide +kernel, by decide +kernel⟩

theorem witness_ClaimCommandsComplete_3_forcedRelease : ∃ (d : Dev) (index : Nat), (d.answers 0x000 = true) ∧ (resourceExists
    0 index = true) ∧ (ballExists index = false) :=
  ⟨D0, 63, by decide +kernel, by decide +kernel, by decide +kernel⟩

theorem witness_ClaimCommandsComplete_4_forcedRelease : ∃ (d : Dev) (kind index : Nat), (d.answers 0x000 = true) :=
  ⟨D0, 1, 3, by decide +kernel⟩

theorem witness_ClaimCommandsComplete_5_forcedRelease : ∃ (d : Dev) (kind index : Nat), (d.answers 0x000 = true) ∧
    (resourceExists kind index = true) ∧ (kind ≠ 0 ∨ ballExists index = true) :=
  ⟨D0, 1, 3, by decide +kernel, by decide +kernel, by decide +kernel⟩

theorem witness_ClaimCommandsComplete_6_pinClaimRejResRead : ∃ (d : Dev), (d.answers 0x000 = true) :=
  ⟨D0, by decide +kernel⟩

theorem witness_FabricCommandsComplete_1_fabricRequest : ∃ (s : State) (who : Initiator) (machine : Bool) (fact : AccessFact)
    (acc : Access) (e : Dev), (acc = fact.acc) ∧ (acc.size ≠ 0) ∧ (regionOf acc.addr = .sram) ∧ (regionOf (acc.addr + acc.size -
    1) = .sram) ∧ (s.dev.denies (s.reqOf who machine) acc = false) ∧ (s.dev.group (s.dev.groupOf acc.addr) = 0) ∧ (e =
    s.dev.eccFound acc fact.ecc) ∧ (e.dark = false) ∧ (e.denies (s.reqOf who machine) acc = false) ∧ (e.inReset srmPage = false) ∧
    (∀ h ∈ e.ms.held, h.who ≠ (s.reqOf who machine).who) ∧ (e.group (e.groupOf acc.addr) = 0) :=
  ⟨State.reset, .hart 0, true, ⟨⟨0x10000000, 8, none⟩, .corrected⟩, _, _, rfl, by decide +kernel, by decide +kernel, by decide +kernel, by decide +kernel, by decide +kernel, rfl, by decide +kernel, by decide +kernel, by decide +kernel, by decide +kernel, by decide +kernel⟩

theorem witness_FabricCommandsComplete_2_registerWrite : ∃ (s : State) (page off value v eff new : Nat) (r : RegRow), (off % 4
    = 0) ∧ (off < 0x80) ∧ (page < 0x100) ∧ (s.dev.dark = false) ∧ (hasHeader page = true) ∧ (s.dev.shut page = false) ∧ (off ≠
    0x08) ∧ (off ≠ 0x1C) ∧ (findRow page off = some r) ∧ (s.dev.bstate page = .stopped) ∧ (s.dev.pageLocked page = false) ∧ (v =
    value % 2 ^ 32) ∧ (eff = (r.rw ||| r.wo ||| r.cfg ||| r.lck) &&& 0xFFFFFFFF) ∧ (new = (((((s.dev.rdW page off).toNat &&& (eff
    ^^^ 0xFFFFFFFF)) ||| (v &&& eff)) &&& ((v &&& r.w1c) ^^^ 0xFFFFFFFF)) ||| (v &&& r.w1s))) :=
  ⟨State.reset, 0x033, 0x14, 5, 5, _, _, rowAt 0x033 0x14, by decide +kernel, by decide +kernel, by decide +kernel, by decide +kernel, by decide +kernel, by decide +kernel, by decide +kernel, by decide +kernel, by decide +kernel, by decide +kernel, by decide +kernel, by decide +kernel, rfl, rfl⟩

theorem witness_FabricCommandsComplete_3_registerWrite : ∃ (s : State) (page off value v eff new : Nat) (k : PageKind) (r :
    RegRow), (off % 4 = 0) ∧ (0x80 ≤ off) ∧ (off < 0x10000) ∧ (page < 4096) ∧ (page < 0x100 ∨ 0x120 < page) ∧ (page ≠ 0x128) ∧
    (s.dev.dark = false) ∧ (pageKind page = some k) ∧ (s.dev.shut page = false) ∧ ((goOffsets k).contains off = false) ∧ (k = .twn
    → off ≠ 0x90) ∧ (k = .pkp → off ≠ 0x80) ∧ (v = value % 2 ^ 32) ∧ (s.regOwn { who := .hart 0, priv := 3, debug := false } page
    off v = none) ∧ ((s.on (·.regPut page off v)).regCommand { who := .hart 0, priv := 3, debug := false } page off v = none) ∧
    (findRow page off = some r) ∧ (s.dev.bstate page = .stopped) ∧ (s.dev.pageLocked page = false) ∧ (eff = (r.rw ||| r.wo |||
    r.cfg ||| r.lck) &&& 0xFFFFFFFF) ∧ (new = (((((s.dev.rdW page off).toNat &&& (eff ^^^ 0xFFFFFFFF)) ||| (v &&& eff)) &&& ((v
    &&& r.w1c) ^^^ 0xFFFFFFFF)) ||| (v &&& r.w1s))) :=
  ⟨State.reset, 0x03B, 0x104, 7, 7, _, _, .ais, rowAt 0x03B 0x104, by decide +kernel, by decide +kernel, by decide +kernel, by decide +kernel, by decide +kernel, by decide +kernel, by decide +kernel, by decide +kernel, by decide +kernel, by decide +kernel, by decide +kernel, by decide +kernel, by decide +kernel, rfl, rfl, by decide +kernel, by decide +kernel, by decide +kernel, rfl, rfl⟩

theorem witness_FabricCommandsComplete_4_pcieInboundRequest : ∃ (s : State) (addr size f : Nat) (write : Option Nat),
    (s.dev.linkUp = true) ∧ (s.dev.pcie.perst = false) ∧ (s.dev.endpoint = true) ∧ (s.dev.inWindow addr = some f) ∧
    (s.dev.ms.held.length = (s.access { who := .pcieHost, priv := 0, debug := false }
    { addr := f, size := size, write := write }).dev.ms.held.length) ∧ (s.dev.ms.dq.length = (s.access
    { who := .pcieHost, priv := 0, debug := false } { addr := f, size := size, write := write }).dev.ms.dq.length) ∧
    (s.dev.pcie.reads.length = (s.access { who := .pcieHost, priv := 0, debug := false }
    { addr := f, size := size, write := write }).dev.pcie.reads.length) :=
  ⟨sPcie, 0, 4, 0x20000000, none, by decide +kernel, by decide +kernel, by decide +kernel, by decide +kernel, by decide +kernel, by decide +kernel, by decide +kernel⟩

theorem witness_FabricCommandsComplete_5_setssipWrite : ∃ (s : State) (hart value : Nat), (hart < 8) ∧ (bit value 0 = true) :=
  ⟨State.reset, 3, 1, by decide +kernel, by decide +kernel⟩

theorem witness_FabricCommandsComplete_6_msipWrite : ∃ (d : Dev) (hart value : Nat), (hart < 8) :=
  ⟨D0, 3, 1, by decide +kernel⟩

theorem witness_PoolCommandsComplete_1_hopCommand : ∃ (d : Dev) (x centre width : Nat), (d.answers 0x016 = true) ∧ (x < 4) ∧
    (x = 3 → d.pool.cal = none) ∧ (centre ≠ 0) ∧ (d.hopCheck x centre width = none) :=
  ⟨dSyn, 0, 5180, 0, by decide +kernel, by decide +kernel, by decide +kernel, by decide +kernel, by decide +kernel⟩

theorem witness_PoolCommandsComplete_2_synOffHop : ∃ (d : Dev) (x : Nat), (d.answers 0x016 = true) ∧ (x < 4) ∧ (x = 3 →
    d.pool.cal = none) ∧ (d.inService synPage = true) :=
  ⟨dSyn, 0, by decide +kernel, by decide +kernel, by decide +kernel, by decide +kernel⟩

theorem witness_PoolCommandsComplete_3_lockDetected : ∃ (d : Dev) (x : Nat), (d.synState x = 1) :=
  ⟨dSyn.wr synPage (CHP_SYN_STAT.SSTATE.at 0) 1, 0, by decide +kernel⟩

theorem witness_PoolCommandsComplete_4_lockDetected : ∃ (d : Dev) (x : Nat), (d.synState x = 4) ∧ ((d.synRec x).fromCal =
    false) :=
  ⟨dSyn.wr synPage (CHP_SYN_STAT.SSTATE.at 0) 4, 0, by decide +kernel, by decide +kernel⟩

theorem witness_PoolCommandsComplete_5_lockDetected : ∃ (d : Dev) (x : Nat), (d.synState x = 4) ∧ ((d.synRec x).fromCal =
    true) ∧ (x = 3 → d.pool.cal = none) ∧ (d.inService calPage = true) :=
  ⟨(dSyn.wr synPage (CHP_SYN_STAT.SSTATE.at 0) 4).setSyn 0 { dSyn.synRec 0 with fromCal := true }, 0, by decide +kernel, by decide +kernel, by decide +kernel, by decide +kernel⟩

theorem witness_PoolCommandsComplete_6_synCalibrationDone : ∃ (d : Dev) (x at' st : Nat) (failed bad : List Nat) (e f g :
    Dev), (d.synState x = 2) ∧ (x = 3 → d.pool.cal = none) ∧ (bad = (failed ++ (d.synRec x).failed).filter fun c => (d.synRec
    x).need.contains c) ∧ (at' = (if (d.synRec x).need.isEmpty then 18 else 902)) ∧ (st = (if bad.isEmpty then (if (d.synRec
    x).need.isEmpty then 0 else 1) else 9)) ∧ (e = (d.reach ((d.synRec x).entered + at' * usU)).forAll bad (fun c e => e.when
    (decide (c < 24)) (·.maskChain c))) ∧ (f = (if x = 3 then e else e.forAll (e.runningQuads x) fun q h => (h.wr (quadPage q)
    CHP_QUAD_STAT.CAL_VALID 15).wr (quadPage q) CHP_QUAD_STAT.CAL_BUSY 0)) ∧ (g = ((f.synEnter x 3).lastHop x st).takeLo x) :=
  ⟨dSyn.wr synPage (CHP_SYN_STAT.SSTATE.at 0) 2, 0, _, _, [], _, _, _, _, by decide +kernel, by decide +kernel, rfl, rfl, rfl, rfl, rfl, rfl⟩

theorem witness_PoolCommandsComplete_7_lockLost : ∃ (d : Dev) (x : Nat) (e g : Dev), (x < 4) ∧ (d.synState x = 2 ∨ d.synState
    x = 3) ∧ (e = ((d.cutTx x 7).holdTx x).rxAbandon x 10) ∧ (g = (e.loseLo x).synEnter x 4) :=
  ⟨dSyn.wr synPage (CHP_SYN_STAT.SSTATE.at 0) 3, 0, _, _, by decide, Or.inr (by decide +kernel), rfl, rfl⟩

theorem witness_PoolCommandsComplete_8_settlingTimeout : ∃ (d : Dev) (x : Nat), (x < 4) ∧ (d.synState x = 1) :=
  ⟨dSyn.wr synPage (CHP_SYN_STAT.SSTATE.at 0) 1, 0, by decide +kernel, by decide +kernel⟩

theorem witness_PoolCommandsComplete_9_relockTimeout : ∃ (d : Dev) (x : Nat), (x < 4) ∧ (d.synState x = 4) :=
  ⟨dSyn.wr synPage (CHP_SYN_STAT.SSTATE.at 0) 4, 0, by decide +kernel, by decide +kernel⟩

theorem witness_TransmitCommandsComplete_1_txCommand : ∃ (d : Dev) (x mask : Nat) (q : TxReq) (use : List (Nat × Nat)) (lim :
    Int) (clamped : Bool) (e : Dev), (x < 3) ∧ (look d.tx.ready x = some q) ∧ (q.isResponse = true → q.start ≤ q.latest) ∧
    (d.takesTx x = true) ∧ (e = { d with tx := { d.tx with ready := del d.tx.ready x } }) ∧ (e.synState x ≠ 0) ∧ (use = e.usableOf
    x q.chains) ∧ (mask = (use.map fun u => 2 ^ u.1).foldl (· + ·) 0) ∧ (lim = e.clampLimit x (use.map (·.2))) ∧ (e.txRefusal x
    use lim q.start q.dur = none) ∧ (clamped = e.clamps use lim q.powers) :=
  ⟨dReady, 0, _, req0, _, _, _, _, by decide +kernel, by decide +kernel, by decide +kernel, by decide +kernel, rfl, by decide +kernel, rfl, rfl, rfl, by decide +kernel, rfl⟩

theorem witness_TransmitCommandsComplete_2_txDropPoint : ∃ (d : Dev) (x : Nat) (c f : TxCmd) (l : List TxCmd) (e : Dev),
    (((d.txOf x).toList ++ d.txWaitOf x).filter (fun c => decide (c.phase = .held)) = c :: l) ∧ (f = l.foldl (fun a b => if
    b.latest < a.latest then b else a) c) ∧ (d.locksBy x ((f.latest - d.leadNs x) * nsU) = false) ∧ (e = d.reach ((f.latest -
    d.leadNs x) * nsU)) ∧ (e.txOf x = some f) :=
  ⟨D0.setTx 0 (cmdIn .held), 0, cmdIn .held, _, [], _, by decide +kernel, rfl, by decide +kernel, rfl, by decide +kernel⟩

theorem witness_TransmitCommandsComplete_3_txDropPoint : ∃ (d : Dev) (x : Nat) (c f : TxCmd) (l : List TxCmd) (e : Dev),
    (((d.txOf x).toList ++ d.txWaitOf x).filter (fun c => decide (c.phase = .held)) = c :: l) ∧ (f = l.foldl (fun a b => if
    b.latest < a.latest then b else a) c) ∧ (d.locksBy x ((f.latest - d.leadNs x) * nsU) = false) ∧ (e = d.reach ((f.latest -
    d.leadNs x) * nsU)) ∧ (e.txOf x ≠ some f) :=
  ⟨(D0.setTx 0 (cmdIn .held)).setTxWait 0 [{ cmdIn .held with latest := 1500 }], 0, cmdIn .held, _, [{ cmdIn .held with latest := 1500 }], _, by decide +kernel, rfl, by decide +kernel, rfl, by decide +kernel⟩

theorem witness_TransmitCommandsComplete_4_txSequenceStart : ∃ (d : Dev) (x st : Nat) (q : TxCmd) (use : List (Nat × Nat))
    (lim : Int) (e : Dev), (d.txOf x = some q) ∧ (q.phase = .armed) ∧ (d.locked x = true) ∧ (e = d.reach (q.start * nsU)) ∧ (use =
    e.usableOf x q.chains) ∧ (lim = e.clampLimit x (use.map (·.2))) ∧ (e.txRefusal x use lim q.start q.planned = some st) :=
  ⟨dFenced, 0, 5, cmdIn .armed, _, _, _, by decide +kernel, by decide +kernel, by decide +kernel, rfl, rfl, rfl, by decide +kernel⟩

theorem witness_TransmitCommandsComplete_5_txSequenceStart : ∃ (d : Dev) (x m : Nat) (q : TxCmd) (use : List (Nat × Nat)) (lim
    : Int) (clamped : Bool) (e : Dev), (d.txOf x = some q) ∧ (q.phase = .armed) ∧ (d.locked x = true) ∧ (e = d.reach (q.start *
    nsU)) ∧ (use = e.usableOf x q.chains) ∧ (lim = e.clampLimit x (use.map (·.2))) ∧ (e.txRefusal x use lim q.start q.planned =
    none) ∧ (m = (use.map fun u => 2 ^ u.1).foldl (· + ·) 0) ∧ (clamped = e.clamps use lim q.asked) :=
  ⟨dArmed, 0, _, cmdIn .armed, _, _, _, _, by decide +kernel, by decide +kernel, by decide +kernel, rfl, rfl, rfl, by decide +kernel, rfl, rfl⟩

theorem witness_TransmitCommandsComplete_6_txSequenceStart : ∃ (d : Dev) (x : Nat) (c : TxCmd) (use : List (Nat × Nat)) (e f g
    : Dev), (e = (d.rxAbandon x 5).forAll use fun u i => i.leadEdges u.2 c.start) ∧ (f = (e.setTx x c).when c.wasHeld (·.cnt
    synPage CHP_TX_HELD_CNT.COUNT)) ∧ (g = f.emit (.firstSample x c.start (use.map fun u => (u.2, nth 0 c.powers u.1)))) :=
  ⟨dArmed, 0, cmdIn .armed, [(0, 0)], _, _, _, rfl, rfl, rfl⟩

theorem witness_TransmitCommandsComplete_7_txPpduEnd : ∃ (d : Dev) (x : Nat) (pdet : List PdetFact) (temps : List Int) (q :
    TxCmd), (x < 3) ∧ (d.txOf x = some q) ∧ (q.phase = .sending) :=
  ⟨D0.setTx 0 (cmdIn .sending), 0, [], [], cmdIn .sending, by decide +kernel, by decide +kernel, by decide +kernel⟩

theorem witness_TransmitCommandsComplete_8_paOverPower : ∃ (d : Dev) (chain x r n : Nat) (t : TxCmd) (e f : Dev), (d.radioOf
    chain = some (x, r)) ∧ (d.txOf x = some t) ∧ (t.phase = .sending) ∧ (bit t.chains r = true) ∧ (e = (((d.maskCut chain).cnt
    (quadPage (chain / 4)) (CHP_PA_OVER_CNT.CNT (chain % 4))).ev (quadPage (chain / 4)) 8)) ∧ (n = (if (lookOr (0, 0) e.pool.overs
    chain).1 = e.round then (lookOr (0, 0) e.pool.overs chain).2 + 1 else 1)) ∧ (f =
    { e with pool := { e.pool with overs := put e.pool.overs chain (e.round, n) } }) :=
  ⟨dPa, 0, 0, 0, _, cmdIn .sending, _, _, by decide +kernel, by decide +kernel, by decide +kernel, by decide +kernel, rfl, rfl, rfl⟩

theorem witness_TransmitCommandsComplete_9_paOverPower : ∃ (d : Dev) (chain x r : Nat) (t : TxCmd), (d.radioOf chain = some
    (x, r)) ∧ (d.txOf x = some t) ∧ (t.phase = .sending) ∧ (bit t.chains r = true) :=
  ⟨dPa, 0, 0, 0, cmdIn .sending, by decide +kernel, by decide +kernel, by decide +kernel, by decide +kernel⟩

theorem witness_TransmitCommandsComplete_10_respLate : ∃ (d : Dev) (x : Nat) (q : TxReq), (look d.tx.ready x = some q) ∧
    (q.isResponse = true) ∧ (q.latest < q.start) :=
  ⟨{ D0 with tx := { D0.tx with ready := [(0, { req0 with isResponse := true, start := 9, latest := 8 })] } }, 0, { req0 with isResponse := true, start := 9, latest := 8 }, by decide +kernel, by decide +kernel, by decide +kernel⟩

theorem witness_TransmitCommandsComplete_11_rcalCmd : ∃ (d : Dev) (x ref : Nat) (e f : Dev), (x < 3) ∧ (d.answers (txPage x) =
    true) ∧ (d.rdB (txPage x) TXP_RCAL_STAT.BUSY = false) ∧ (e = d.wr (txPage x) TXP_RCAL_CMD.REF ref) ∧ (e.bstate (0x030 + x) =
    .stopped) ∧ (e.inService (txPage x) = true) ∧ (f = (e.wr (txPage x) TXP_RCAL_CMD.GO 1).wr (txPage x) TXP_RCAL_STAT.BUSY 1) :=
  ⟨D0.setState 0x028 .running, 0, 2, _, _, by decide +kernel, by decide +kernel, by decide +kernel, rfl, by decide +kernel, by decide +kernel, rfl⟩

theorem witness_TransmitCommandsComplete_12_rcalDone : ∃ (d : Dev) (x ref : Nat) (snrs : List RcalSnr) (loops : List RcalLoop)
    (bad : List Nat) (e : Dev), (look d.tx.rcal x = some ref) ∧ (bad = d.rcalBad x ref snrs loops) ∧ (e = (d.forAll ((d.rcalOthers
    x ref).filter fun c => !bad.contains c) fun c f => f.rcalChain x loops c).rcalRef x ref) :=
  ⟨{ D0 with tx := { D0.tx with rcal := [(0, 0)] } }, 0, 0, [], [], _, _, by decide +kernel, rfl, rfl⟩

theorem witness_CalibrationCommandsComplete_1_quadLockTimeout : ∃ (d : Dev) (quad t : Nat), (look d.pool.quadFrom quad = some
    t) ∧ (d.bstate (quadPage quad) = .starting) ∧ (d.rd (quadPage quad) CHP_QUAD_OWNER.OWNER ≠ 0) ∧ (d.locked (d.rd (quadPage
    quad) CHP_QUAD_OWNER.OWNER - 1) = false) :=
  ⟨(fun e : Dev => { e with pool := { e.pool with quadFrom := [(0, 5)] } }) ((D0.setState 0x010 .starting).wr 0x010 CHP_QUAD_OWNER.OWNER 1), 0, 5, by decide +kernel, by decide +kernel, by decide +kernel, by decide +kernel⟩

theorem witness_CalibrationCommandsComplete_2_fullCalDone : ∃ (d : Dev) (x o : Nat) (facts mine : List CalFact) (e f : Dev),
    (d.bstate (quadPage x) = .starting) ∧ (d.rdB (quadPage x) CHP_QUAD_STAT.CAL_BUSY = true) ∧ (o = d.rd (quadPage x)
    CHP_QUAD_OWNER.OWNER) ∧ (o ≠ 0) ∧ (mine = facts.filter fun f => decide (f.chain / 4 = x)) ∧ (e = d.calStoreAll mine (d.centre
    (o - 1)) (d.width (o - 1))) ∧ (f = (List.range 4).foldl (fun g j => if mine.any (fun f => decide (f.chain = 4 * x + j)) then g
    else if bit (g.rd (quadPage x) CHP_QUAD_STAT.CAL_VALID) j then g else g.maskChain (4 * x + j)) e) :=
  ⟨((D0.setState 0x010 .starting).wr 0x010 CHP_QUAD_OWNER.OWNER 1).wr 0x010 CHP_QUAD_STAT.CAL_BUSY 1, 0, _, [], _, _, _, by decide +kernel, by decide +kernel, rfl, by decide +kernel, rfl, rfl, rfl⟩

theorem witness_CalibrationCommandsComplete_3_fullCalDone : ∃ (d : Dev) (x : Nat) (facts mine : List CalFact) (e : Dev),
    (d.synState x = 2) ∧ ((d.synRec x).need.isEmpty = false) ∧ (mine = facts.filter fun f => (d.synRec x).need.contains f.chain) ∧
    (e = d.calStoreAll mine (d.centre x) (d.width x)) :=
  ⟨(dSyn.wr synPage (CHP_SYN_STAT.SSTATE.at 0) 2).setSyn 0 { dSyn.synRec 0 with need := [1] }, 0, [], _, _, by decide +kernel, by decide +kernel, rfl, rfl⟩

theorem witness_CalibrationCommandsComplete_4_calCmd : ∃ (d : Dev) (centre width quad : Nat) (e : Dev), (d.answers 0x017 =
    true) ∧ (d.inService calPage = true) ∧ (d.rdB calPage CHP_CAL_STAT.BUSY = false) ∧ (e = (((d.wr calPage CHP_CAL_CMD.CENTRE
    centre).wr calPage CHP_CAL_CMD.WIDTH width).wr calPage CHP_CAL_CMD.QUAD quad).wr calPage CHP_CAL_STAT.QUAD quad) ∧ (quad < 6)
    ∧ (e.rd (quadPage quad) CHP_QUAD_OWNER.OWNER = 0) ∧ (ieeeChannel centre width = true) :=
  ⟨D0.setState calPage .running, 5180, 0, 0, _, by decide +kernel, by decide +kernel, by decide +kernel, rfl, by decide +kernel, by decide +kernel, by decide +kernel⟩

theorem witness_CalibrationCommandsComplete_5_calCmd : ∃ (d : Dev) (centre width quad : Nat) (e f : Dev) (h : Option (Nat ×
    Nat)), (e = (d.wr calPage CHP_CAL_CMD.GO 1).wr calPage CHP_CAL_STAT.BUSY 1) ∧ (h = (if e.synState 3 ≠ 0 ∧ e.rd synPage
    (CHP_SYN_STAT.LAST_HOP.at 3) = 2 then some (e.centre 3, e.width 3) else none)) ∧ (f =
    ({ e with pool := { e.pool with cal := some { quad := quad, centre := centre, width := width, monCentre := e.centre 3, monWidth := e.width 3, heldHop := h } } }
    : Dev).rxAbandon 3 6) :=
  ⟨D0.setState calPage .running, 5180, 0, 0, _, _, _, rfl, rfl, rfl⟩

theorem witness_CalibrationCommandsComplete_6_calCmdDone : ∃ (d : Dev) (facts mine : List CalFact) (r : CalRun) (w : Dev ×
    Bool) (failed : Nat), (d.pool.cal = some r) ∧ (mine = facts.filter fun f => decide (f.chain / 4 = r.quad)) ∧ (w = mine.foldl
    (fun acc f => ((acc.1.calStore f r.centre r.width).1, acc.2 && (acc.1.calStore f r.centre r.width).2)) (d, true)) ∧ (failed =
    ((List.range 4).filter fun j => !(mine.any fun f => decide (f.chain = 4 * r.quad + j))).foldl (fun a j => a + 2 ^ j) 0) :=
  ⟨{ D0 with pool := { D0.pool with cal := some ⟨0, 5180, 0, 0, 0, none⟩ } }, [], _, ⟨0, 5180, 0, 0, 0, none⟩, _, _, by decide +kernel, rfl, rfl, rfl⟩

theorem witness_CalibrationCommandsComplete_7_calCmdDone : ∃ (d : Dev) (r : CalRun) (result failed : Nat) (e : Dev),
    (d.pool.cal = some r) ∧ (e = ({ d with pool := { d.pool with cal := none } } : Dev).wr calPage CHP_CAL_STAT.BUSY 0) :=
  ⟨{ D0 with pool := { D0.pool with cal := some ⟨0, 5180, 0, 0, 0, none⟩ } }, ⟨0, 5180, 0, 0, 0, none⟩, 2, 15, _, by decide +kernel, rfl⟩

theorem witness_ReceiveCommandsComplete_1_energyRise : ∃ (d : Dev) (x : Nat) (rise : Rise) (e f : Dev), (x < 4) ∧ (d.rxArmed x
    = true) ∧ (d.riseEnough x rise.power = true) ∧ (e = d.reach ((rise.startNs + 800) * nsU)) ∧ (f = e.setRx x
    { Rx.reset with phase := .agc, riseNs := rise.startNs + 400, acqNs := rise.startNs, startNs := rise.startNs, startFrac := rise.startFrac, levels := rise.levels, hold := (e.rxAt x).hold, ref := (e.rxAt x).ref, cca := (e.rxAt x).cca, tb := (e.rxAt x).tb })
    :=
  ⟨dRx, 0, rise0, _, _, by decide +kernel, by decide +kernel, by decide +kernel, rfl, rfl⟩

theorem witness_ReceiveCommandsComplete_3_packetDetection : ∃ (d : Dev) (x n : Nat) (det : Detect) (e : Dev), (x < 4) ∧
    (det.dsss = false) ∧ ((d.rxAt x).phase = .agc) ∧ (d.rdS (rxPage x) RXP_DET.MIN_DET ≤ det.level) ∧ (n = max 1 (min (d.rd
    (rxPage x) RXP_AGC.STEPS) det.steps)) ∧ (e = (d.each (n - 1) fun _ f => f.agcRun x).reach (((d.rxAt x).acqNs + detectDelayNs
    false n) * nsU)) :=
  ⟨D0.setRx 0 { Rx.reset with phase := .agc }, 0, _, det0, _, by decide +kernel, by decide +kernel, by decide +kernel, by decide +kernel, rfl, rfl⟩

theorem witness_ReceiveCommandsComplete_4_agcIdleReturn : ∃ (d : Dev) (x : Nat), (x < 4) ∧ ((d.rxAt x).phase = .agc) :=
  ⟨D0.setRx 0 { Rx.reset with phase := .agc }, 0, by decide +kernel, by decide +kernel⟩

theorem witness_ReceiveCommandsComplete_5_sigFieldDecided : ∃ (d : Dev) (x : Nat) (sig : SigFact), (x < 4) ∧ ((d.rxAt x).phase
    = .found ∨ (d.rxAt x).phase = .sig) ∧ (sig.fail ≠ 0) ∧ (sig.rise = none) :=
  ⟨D0.setRx 0 { Rx.reset with phase := .found }, 0, sigFail, by decide, Or.inl (by decide +kernel), by decide, rfl⟩

theorem witness_ReceiveCommandsComplete_6_sigFieldDecided : ∃ (d : Dev) (x : Nat) (sig : SigFact) (e f : Dev) (tb : Option
    TbParams), (x < 4) ∧ ((d.rxAt x).phase = .found ∨ (d.rxAt x).phase = .sig) ∧ (sig.fail = 0) ∧ (e = d.reach (((d.rxAt
    x).startNs + sigAtNs sig) * nsU)) ∧ (f = e.setRx x (e.noteSig x (d.rxAt x) sig)) ∧ (tb = (if (f.rxAt x).tbActive then (f.rxAt
    x).tb else none)) ∧ (tb.any (fun t => t.disagrees sig) = false) ∧ (f.unsupported x sig tb = none) :=
  ⟨dRx.setRx 0 { Rx.reset with phase := .found }, 0, { sigFail with fail := 0, last := true, dur01 := 1000 }, _, _, _, by decide, Or.inl (by decide +kernel), rfl, rfl, rfl, rfl, by decide +kernel, by decide +kernel⟩

theorem witness_ReceiveCommandsComplete_7_restartRise : ∃ (d : Dev) (x : Nat) (rise : Rise) (clip : Bool) (e : Dev), (x < 4) ∧
    ((d.rxAt x).receiving = true) ∧ ((d.rxAt x).endsIn rise = false) ∧ (d.restarts x rise clip = true) ∧ (e = d.reach
    ((rise.startNs + 800) * nsU)) :=
  ⟨dRx.setRx 0 { Rx.reset with phase := .ltf, ref := -80 }, 0, rise0, true, _, by decide +kernel, by decide +kernel, by decide +kernel, by decide +kernel, rfl⟩

theorem witness_ReceiveCommandsComplete_8_restartRise : ∃ (d : Dev) (x : Nat) (rise : Rise) (clip : Bool), (x < 4) ∧ ((d.rxAt
    x).receiving = false) ∧ ((d.rxAt x).hold.isSome = true) ∧ (d.restarts x rise clip = true) ∧ (d.rxArmed x = true) :=
  ⟨dRx.setRx 0 { Rx.reset with hold := some 5 }, 0, rise0, true, by decide +kernel, by decide +kernel, by decide +kernel, by decide +kernel, by decide +kernel⟩

theorem witness_ReceiveCommandsComplete_9_ltfEnd : ∃ (d : Dev) (x : Nat) (ltf : LtfFact) (foreign : List ForeignFact), (x < 4)
    ∧ ((d.rxAt x).phase = .ltf) ∧ ((d.rxAt x).obss = false) ∧ (ltf.rise = none) :=
  ⟨D0.setRx 0 { Rx.reset with phase := .ltf }, 0, ⟨[], [], none⟩, [], by decide +kernel, by decide +kernel, by decide +kernel, by decide +kernel⟩

theorem witness_ReceiveCommandsComplete_10_ltfEnd : ∃ (d : Dev) (x : Nat) (ltf : LtfFact) (foreign : List ForeignFact) (e :
    Dev), (x < 4) ∧ ((d.rxAt x).phase = .ltf) ∧ ((d.rxAt x).obss = true) ∧ (d.rdB (rxPage x) RXP_CFG.OBSS_DECODE = false) ∧
    (d.venWants x (d.rxAt x).colour = false) ∧ (ltf.rise = none) ∧ (e = d.setRx x { d.rxAt x with est := false }) :=
  ⟨D0.setRx 0 { Rx.reset with phase := .ltf, obss := true }, 0, ⟨[], [], none⟩, [], _, by decide +kernel, by decide +kernel, by decide +kernel, by decide +kernel, by decide +kernel, by decide +kernel, rfl⟩

theorem witness_ReceiveCommandsComplete_11_obssHoldEnd : ∃ (d : Dev) (x t : Nat), ((d.rxAt x).hold = some t) :=
  ⟨D0.setRx 0 { Rx.reset with hold := some 5 }, 0, 5, by decide +kernel⟩

theorem witness_ReceiveCommandsComplete_12_tbWindowExpiry : ∃ (d : Dev) (x : Nat) (t : TbParams), ((d.rxAt x).tb = some t) ∧
    ((d.rxAt x).tbActive = false) :=
  ⟨D0.setRx 3 { Rx.reset with tb := some tb0 }, 3, tb0, by decide +kernel, by decide +kernel⟩

theorem witness_ReceiveCommandsComplete_13_mpduDecoded : ∃ (d : Dev) (x user : Nat) (data : DataFact) (mpdu : Mpdu) (e : Dev),
    (d.rxDecoding x user = true) ∧ (dataCheck data = some false) ∧ (e = (d.rxSymbols x data.syms).rxCodewords x user data.cws) :=
  ⟨D0.setRx 0 { Rx.reset with phase := .data }, 0, 0, ⟨[], [], false, [1, 2, 3, 4]⟩, mpdu0, _, by decide +kernel, by decide +kernel, rfl⟩

theorem witness_ReceiveCommandsComplete_14_mpduDecoded : ∃ (d : Dev) (x user : Nat) (data : DataFact) (mpdu : Mpdu) (e : Dev),
    (d.rxDecoding x user = true) ∧ (dataCheck data = some true) ∧ (e = ((d.rxSymbols x data.syms).rxCodewords x user
    data.cws).rxMpdu x user true) :=
  ⟨((D0.setState 0x030 .running).setState 0x033 .running).setRx 0 { Rx.reset with phase := .data }, 0, 0, ⟨[], [], false, [0, 0, 0, 0]⟩, mpdu0, _, by decide +kernel, by decide +kernel, rfl⟩

theorem witness_ReceiveCommandsComplete_15_mpduDecoded : ∃ (d : Dev) (x user : Nat) (data : DataFact) (mpdu : Mpdu),
    (d.rxDecoding x user = true) ∧ (dataCheck data = none) :=
  ⟨D0.setRx 0 { Rx.reset with phase := .data }, 0, 0, ⟨[], [], true, []⟩, mpdu0, by decide +kernel, by decide +kernel⟩

theorem witness_ReceiveCommandsComplete_16_ppduRxEnd : ∃ (d : Dev) (x endNs lastNs : Nat) (meas : List RxMeas) (rise : Option
    (Rise × Bool)) (users : List TbUser) (e : Dev), ((d.rxAt x).phase = .data) ∧ (users = (if (d.rxAt x).tbActive then ((d.rxAt
    x).tb.map (fun t => t.users)).getD [] else [])) ∧ (e = (d.implicitRecords x users meas).rxPpduEnd x endNs lastNs meas rise) :=
  ⟨D0.setRx 0 { Rx.reset with phase := .data }, 0, 0, 0, [], none, _, _, by decide +kernel, rfl, rfl⟩

theorem witness_MacTimingCommandsComplete_1_backoffSlot : ∃ (d : Dev) (x : Nat) (med : Medium) (l : Dev × Bool) (f : Dev ×
    List Nat), (x < 3) ∧ (l = (d.reach (med.atNs * nsU)).listenSlot x med) ∧ (f = l.1.countDown x med.atNs l.2) ∧ (f.1.nextPpdu x
    = none) :=
  ⟨D0.setState 0x030 .running, 0, med0, _, _, by decide +kernel, rfl, rfl, by decide +kernel⟩

theorem witness_MacTimingCommandsComplete_2_backoffSlot : ∃ (d : Dev) (x i : Nat) (med : Medium) (l : Dev × Bool) (f : Dev ×
    List Nat) (plan : Plan) (p : PlanPpdu), (x < 3) ∧ (l = (d.reach (med.atNs * nsU)).listenSlot x med) ∧ (f = l.1.countDown x
    med.atNs l.2) ∧ (f.1.macFree x = true) ∧ (f.1.heldOff x = false) ∧ (f.1.nextPpdu x = some (plan, i, p)) ∧ ((f.1.drawBackoff x
    p.ac).grantCond x med.atNs plan.beat p l.2 = none) :=
  ⟨dGrant, 0, 0, med0, _, _, planOne, ppduOne, by decide +kernel, rfl, rfl, by decide +kernel, by decide +kernel, by decide +kernel, by decide +kernel⟩

theorem witness_MacTimingCommandsComplete_3_backoffSlot : ∃ (d : Dev) (x i : Nat) (med : Medium) (l : Dev × Bool) (f : Dev ×
    List Nat) (plan : Plan) (p : PlanPpdu) (counter : Bool) (dyn : Option Nat) (e g : Dev), (x < 3) ∧ (l = (d.reach (med.atNs *
    nsU)).listenSlot x med) ∧ (f = l.1.countDown x med.atNs l.2) ∧ (f.1.macFree x = true) ∧ (f.1.heldOff x = false) ∧
    (f.1.nextPpdu x = some (plan, i, p)) ∧ ((f.1.drawBackoff x p.ac).grantCond x med.atNs plan.beat p l.2 = some (counter, dyn)) ∧
    (e = (f.1.drawBackoff x p.ac).internalLoss x (if f.2.contains p.ac then f.2.filter fun a => decide (acRank a < acRank p.ac)
    else [])) ∧ (g = dyn.elim e (fun q => e.repuncture x q)) :=
  ⟨dGrant, 0, 0, { med0 with atNs := 300000 }, slotL, slotF, planOne, ppduOne, true, none, _, _, by decide, rfl, rfl, by decide +kernel, by decide +kernel, by decide +kernel, dGrant_cond, rfl, rfl⟩

theorem witness_MacTimingCommandsComplete_4_navExpiry : ∃ (d : Dev) (x : Nat), (x < 3) ∧ ((d.macR x).nav ≠ 0) :=
  ⟨D0.setMacR 0 { MacRadio.reset with nav := 7 }, 0, by decide +kernel, by decide +kernel⟩

theorem witness_MacTimingCommandsComplete_5_txopEnd : ∃ (d : Dev) (x a b fin : Nat), ((d.macR x).txop = some (a, b, fin)) :=
  ⟨D0.setMacR 0 { MacRadio.reset with txop := some (1, 2, 3) }, 0, 1, 2, 3, by decide +kernel⟩

theorem witness_MacTimingCommandsComplete_6_windowMissed : ∃ (d : Dev) (x i : Nat) (plan : Plan) (p : PlanPpdu) (e : Dev), (x
    < 3) ∧ (d.nextPpdu x = some (plan, i, p)) ∧ (e = d.reach ((p.latestNs plan.beat - d.leadNs x) * nsU)) :=
  ⟨dExec, 0, 0, planOne, ppduOne, _, by decide +kernel, by decide +kernel, rfl⟩

theorem witness_MacTimingCommandsComplete_7_windowMissed : ∃ (d : Dev) (x i : Nat) (plan : Plan) (p : PlanPpdu) (e : Exec),
    (look d.air.exec x = some e) ∧ (d.nextPpdu x = some (plan, i, p)) :=
  ⟨dExec, 0, 0, planOne, ppduOne, { plan := planOne, next := 0, outcomes := [] }, by decide +kernel, by decide +kernel⟩

theorem witness_MacTimingCommandsComplete_8_dataUnderrun : ∃ (d : Dev) (x sta : Nat) (ids : List Nat) (q : TxCmd) (o : OnAir)
    (late : List SentUser) (e : Dev), (x < 3) ∧ (d.txOf x = some q) ∧ ((d.macR x).onAir = some o) ∧ (q.phase = .sending) ∧
    ((o.users.any fun u => decide (u.sta = sta)) = true) ∧ (late = (o.users.filter fun u => decide (u.sta = sta)).map fun u =>
    { u with ids := u.ids.filter fun i => ids.contains i && !o.undelivered.contains i }) ∧ (e = (d.setTx x
    { q with underrun := true }).forAll late (fun u f => f.forAll u.ids fun i g => g.delay u.queue i 0x17)) :=
  ⟨dOnAir, 0, 5, [1], cmdIn .sending, onAir0, _, _, by decide +kernel, by decide +kernel, by decide +kernel, by decide +kernel, by decide +kernel, rfl, rfl⟩

theorem witness_MacTimingCommandsComplete_9_responseCut : ∃ (d : Dev) (x : Nat) (p : Resp) (e : Dev), ((d.macR x).resp = some
    p) ∧ (e = d.reach ((p.tEnd + d.sifsNs x - 4000) * nsU)) :=
  ⟨dResp, 0, resp0, _, by decide +kernel, rfl⟩

theorem witness_MacTimingCommandsComplete_10_responseHandover : ∃ (d : Dev) (x dur : Nat) (p : Resp), ((d.macR x).resp = some
    p) ∧ (p.handed = false) ∧ (p.complete = true ∨ p.cut = true) ∧ (d.mayRespond x = true) :=
  ⟨dMayResp, 0, 100, resp0, by decide +kernel, rfl, Or.inl rfl, by decide +kernel⟩

theorem witness_MacTimingCommandsComplete_11_responseTimeout : ∃ (d : Dev) (x : Nat) (o : OnAir) (last : Bool), (x < 3) ∧
    ((d.macR x).onAir = some o) ∧ (o.awaiting = true) ∧ (last = o.users.any (fun u => (d.queue u.queue).any fun e =>
    u.ids.contains e.id && decide (d.rd (macPage x) MAC_CFG.RETRY_MAX ≤ e.tries + 1))) :=
  ⟨dOnAir, 0, onAir0, _, by decide +kernel, by decide +kernel, by decide +kernel, rfl⟩

theorem witness_MacTimingCommandsComplete_12_emlsrNoCts : ∃ (d : Dev) (x sta : Nat) (o : OnAir), ((d.macR x).onAir = some o) ∧
    (o.awaiting = true) ∧ (o.muRtsTo.contains sta = true) ∧ (d.staEmlsr sta = true) ∧ ((d.macR x).noCts.contains sta = false) :=
  ⟨dEmlsr, 0, 5, onAir0, by decide +kernel, by decide +kernel, by decide +kernel, by decide +kernel, by decide +kernel⟩

theorem witness_StationCommandsComplete_1_reorderTimeout : ∃ (d : Dev) (sta tid a : Nat) (l : List Nat), (d.active 0x033 =
    true) ∧ (((d.tidRec sta (tid % 8)).held.map fun h => h.atNs) = a :: l) :=
  ⟨dHeld, 5, 1, 7, [], by decide +kernel, by decide +kernel⟩

theorem witness_StationCommandsComplete_2_fragmentTimeout : ∃ (d : Dev) (sta tid : Nat) (h : Held) (r : List Held), ((d.tidRec
    sta tid).frags = h :: r) :=
  ⟨dHeld, 5, 2, frag0, [], by decide +kernel⟩

theorem witness_StationCommandsComplete_3_uapsdSpExpiry : ∃ (d : Dev) (x sta b : Nat) (e : Dev), (look d.mac.sp (4 * sta + x)
    = some (2, b)) ∧ (e = d.reach (beatNs (b + 16) * nsU)) :=
  ⟨{ D0 with mac := { D0.mac with sp := [(20, (2, 9))] } }, 0, 5, 9, _, by decide +kernel, rfl⟩

theorem witness_StationCommandsComplete_4_staAdd : ∃ (d : Dev) (sta : Nat) (e : Dev), (d.staTakes sta = true) ∧ (d.staValid
    sta = false) ∧ (d.staFieldsOk sta = true) ∧ (d.staAddrsFree sta = true) ∧ (e = (((d.lookupEnter sta).dropRecs sta).setSta sta
    0 0 1 1).staPost sta 0) ∧ (e.rdB 0x033 MAC_STA_STAT.BUSY = false) ∧ (e.rd 0x033 MAC_STA_STAT.RESULT = 0) :=
  ⟨dSta, 5, _, by decide +kernel, by decide +kernel, by decide +kernel, by decide +kernel, rfl, by decide +kernel, by decide +kernel⟩

theorem witness_StationCommandsComplete_5_staSuspend : ∃ (d : Dev) (sta : Nat) (e : Dev), (d.staTakes sta = true) ∧
    (d.staValid sta = true) ∧ (d.staSuspended sta = false) ∧ (e = (d.wr 0x033 MAC_STA_STAT.BUSY 1).wr 0x033 MAC_STA_STAT.STA sta)
    :=
  ⟨dStaValid, 5, _, by decide +kernel, by decide +kernel, by decide +kernel, rfl⟩

theorem witness_StationCommandsComplete_6_staSuspendDone : ∃ (d : Dev) (q : StaCmd) (e : Dev), (d.mac.cmd = some q) ∧ (e =
    d.staSuspendDone) ∧ (e.rdB 0x033 MAC_STA_STAT.BUSY = false) ∧ (e.twin.own = false) ∧ (e.rd 0x033 MAC_STA_STAT.RESULT = 0) :=
  ⟨dStaCmd, ⟨5, 2⟩, _, by decide +kernel, rfl, by decide +kernel, by decide +kernel, by decide +kernel⟩

theorem witness_StationCommandsComplete_7_staResume : ∃ (d : Dev) (sta : Nat) (e : Dev), (d.staTakes sta = true) ∧
    (d.staSuspended sta = true) ∧ (d.staFieldsOk sta = true) ∧ (d.staAddrsFree sta = true) ∧ (e = (((d.lookupEnter sta).each 8 fun
    t f => f.endBa sta t).setSta sta 0 1 1 0).staPost sta 0) ∧ (e.rdB 0x033 MAC_STA_STAT.BUSY = false) ∧ (e.rd 0x033
    MAC_STA_STAT.RESULT = 0) :=
  ⟨dStaSusp, 5, _, by decide +kernel, by decide +kernel, by decide +kernel, by decide +kernel, rfl, by decide +kernel, by decide +kernel⟩

theorem witness_StationCommandsComplete_8_staRemove : ∃ (d : Dev) (sta : Nat) (e : Dev), (d.staTakes sta = true) ∧
    (d.staSuspended sta = true) ∧ (e = ((((d.staPurge sta 0xFF 3).dropRecs sta).lookupDrop sta).setSta sta 0 0 2 0).staPost sta 0)
    ∧ (e.rdB 0x033 MAC_STA_STAT.BUSY = false) ∧ (e.rd 0x033 MAC_STA_STAT.RESULT = 0) :=
  ⟨dStaSusp, 5, _, by decide +kernel, by decide +kernel, rfl, by decide +kernel, by decide +kernel⟩

theorem witness_StationCommandsComplete_9_staFlush : ∃ (d : Dev) (sta tids : Nat), (d.staTakes sta = true) ∧ (d.staSuspended
    sta = true) :=
  ⟨dStaSusp, 5, 3, by decide +kernel, by decide +kernel⟩

theorem witness_StationCommandsComplete_10_enqueueRequest : ∃ (d : Dev) (words : List Nat) (e f : Dev) (q q1 : QEntry),
    (d.inService 0x03B = true) ∧ (q = parseEntry words d.air.nextId) ∧ (e =
    { d with air := { d.air with nextId := d.air.nextId + 1 } }) ∧ (e.enqueueCheck q = (q1, none)) ∧ (q1.demoted = false) ∧ (f =
    e.setQueue q1.queue (e.queue q1.queue ++ [q1])) ∧ (f.rd 0x03B AIR_QPOOL_CFG.LOW_MARK * f.rd 0x03B AIR_QPOOL_CFG.ENTRIES / 256
    ≤ f.poolFree) :=
  ⟨dQueue, [], _, _, _, (dQueue.enqueueCheck (parseEntry [] 0)).1, by decide +kernel, rfl, rfl, by decide +kernel, by decide +kernel, rfl, by decide +kernel⟩

theorem witness_StationCommandsComplete_11_admAdd : ∃ (d : Dev) (sta cls dir radio resv a : Nat), (d.answers 0x03B = true) ∧
    (d.inService 0x03B = true) ∧ (d.staValid (sta % 2048) = true) ∧ (bit (d.staLinks (sta % 2048)) (radio % 4) = true) ∧
    (d.sameFlow (sta % 2048) (cls % 8) (dir % 2) (radio % 4) = none) ∧ (d.flowSum (radio % 4) + resv % 2 ^ 16 ≤ d.rd 0x03B
    AIR_ADM_LIMIT.ADM_LIMIT) ∧ (d.freeFlow = some a) :=
  ⟨dAdm, 5, 1, 0, 0, 7, 0, by decide +kernel, by decide +kernel, by decide +kernel, by decide +kernel, by decide +kernel, by decide +kernel, by decide +kernel⟩

theorem witness_StationCommandsComplete_12_admRemove : ∃ (d : Dev) (index : Nat), (d.answers 0x03B = true) ∧ (d.inService
    0x03B = true) ∧ (bit (d.flowW (index % 1024) 0) 0 = true) :=
  ⟨(D0.setState 0x03B .running).wrW 0x03B 0x1000 1, 0, by decide +kernel, by decide +kernel, by decide +kernel⟩

theorem witness_VenueCommandsComplete_1_planSend : ∃ (d : Dev) (e : Dev), (d.inService venPage = true) ∧ (d.pos = d.rd venPage
    VEN_TIMING.SEND_POS) ∧ (d.ven.sentRound ≠ some d.round) ∧ (e = d.reach ((beatNs d.beat + d.rd venPage VEN_CFG.AP_ID % 64 *
    2000) * nsU)) :=
  ⟨dVen, _, by decide +kernel, by decide +kernel, by decide +kernel, rfl⟩

theorem witness_VenueCommandsComplete_2_planReceived : ∃ (d : Dev) (l : List Nat) (at' : Nat), (d.venHead = some (l, at')) ∧
    (d.active venPage = true) ∧ (ob l 2 ≠ 2) :=
  ⟨dVenMsg 1, [0, 0, 1], 77, by decide +kernel, by decide +kernel, by decide +kernel⟩

theorem witness_VenueCommandsComplete_3_leaveReceived : ∃ (d : Dev) (l : List Nat) (at' : Nat), (d.venHead = some (l, at')) ∧
    (d.active venPage = true) ∧ (ob l 2 = 2) :=
  ⟨dVenMsg 2, [0, 0, 2], 77, by decide +kernel, by decide +kernel, by decide +kernel⟩

theorem witness_VenueCommandsComplete_4_timeOkExpiry : ∃ (d : Dev), (d.inService venPage = true) ∧ (d.venTimeOk = true) ∧
    (d.rdB 0x008 PTP_SERVO_STAT.HOLDOVER = true) ∧ (d.rd venPage VEN_TIMING.HOLD_ROUNDS ≤ d.rd venPage VEN_STAT.HOLD_CNT) :=
  ⟨dVenHold, by decide +kernel, by decide +kernel, by decide +kernel, by decide +kernel⟩

theorem witness_VenueCommandsComplete_5_nbrAdd : ∃ (d : Dev) (index apId : Nat) (e f : Dev), (d.answers 0x040 = true) ∧ (e =
    ((d.wr venPage VEN_NBR_CMD.INDEX (index % 32)).wr venPage VEN_NBR_CMD.AP_ID (apId % 2048)).wr venPage VEN_NBR_CMD.OP 1) ∧
    (e.venStatus (index % 32) = 0) ∧ ((∀ k < 32, e.venStatus k = 0 ∨ e.rd venPage (VEN_NBR.AP_ID.at k) ≠ apId % 2048)) ∧ (apId %
    2048 ≠ e.rd venPage VEN_CFG.AP_ID) ∧ (f = (((e.wrW venPage (VEN_NBR.word0.at (index % 32)).off 0).wrW venPage
    (VEN_NBR.word1.at (index % 32)).off 0).wrW venPage (VEN_NBR.word2.at (index % 32)).off 0).wrW venPage (VEN_NBR.word3.at (index
    % 32)).off 0) :=
  ⟨D0, 3, 9, _, _, by decide +kernel, rfl, by decide +kernel, by decide +kernel, by decide +kernel, rfl⟩

theorem witness_VenueCommandsComplete_6_nbrRemove : ∃ (d : Dev) (index : Nat) (e : Dev), (d.answers 0x040 = true) ∧ (e = (d.wr
    venPage VEN_NBR_CMD.INDEX (index % 32)).wr venPage VEN_NBR_CMD.OP 2) ∧ (e.venStatus (index % 32) ≠ 0) :=
  ⟨D0.venSetStatus 3 1, 3, _, by decide +kernel, rfl, by decide +kernel⟩

theorem witness_TagReceiveCommandsComplete_1_tagFrameDetected : ∃ (d : Dev) (mod startNs : Nat), (d.active tagPage = true) ∧
    (d.tagModOn mod = true) ∧ (d.tag.rx = none) ∧ (d.tag.retune = none) ∧ (d.tag.ack = none) ∧ (d.tag.occ = none) ∧ (d.tagSending
    startNs = false) :=
  ⟨dTag, 0, 5, by decide +kernel, by decide +kernel, by decide +kernel, by decide +kernel, by decide +kernel, by decide +kernel, by decide +kernel⟩

theorem witness_TagReceiveCommandsComplete_2_tagFrameDetected : ∃ (d : Dev) (mod startNs : Nat) (r : TagReq), (d.active
    tagPage = true) ∧ (d.tagModOn mod = true) ∧ (d.tag.rx = none) ∧ (d.tag.retune = none) ∧ (d.tag.ack = none) ∧ (d.tag.req = some
    r) ∧ (r.phase = .ackWait) ∧ (d.tagSending startNs = false) :=
  ⟨dOcc .ackWait, 0, 5, tagReq .ackWait, by decide +kernel, by decide +kernel, by decide +kernel, by decide +kernel, by decide +kernel, by decide +kernel, by decide +kernel, by decide +kernel⟩

theorem witness_TagReceiveCommandsComplete_3_tagFrameEnd : ∃ (d : Dev) (startNs : Nat) (frame : TagFrame) (e : Dev), (d.tag.rx
    = some (0, startNs)) ∧ (e = (d.reach (frame.endNs * nsU)).setTag
    { d.tag with rx := none, slotEnd := max d.tag.slotEnd frame.endNs }) ∧ ((e.psduOf frame.octets).2 = false) :=
  ⟨D0.setTag { Tag.reset with rx := some (0, 5) }, 5, tagFrame0, _, by decide +kernel, rfl, by decide +kernel⟩

theorem witness_TagReceiveCommandsComplete_4_tagFrameEnd : ∃ (d : Dev) (startNs : Nat) (frame : TagFrame) (r : TagReq) (e :
    Dev), (d.tag.rx = some (0, startNs)) ∧ (e = (d.reach (frame.endNs * nsU)).setTag
    { d.tag with rx := none, slotEnd := max d.tag.slotEnd frame.endNs }) ∧ ((e.psduOf frame.octets).2 = true) ∧ (e.tagAwaited
    (parseMhr (e.psduOf frame.octets).1) frame.endNs = true) ∧ (e.tag.req = some r) :=
  ⟨dTagAwait, 5, { tagFrame0 with octets := [2, 0, 7] ++ tagFcs }, { tagReq .ackWait with octets := [0x21, 0, 7] }, _, by decide +kernel, rfl, by decide +kernel, by decide +kernel, by decide +kernel⟩

theorem witness_TagReceiveCommandsComplete_5_tagFrameEnd : ∃ (d : Dev) (startNs : Nat) (frame : TagFrame) (m : Mhr) (e g :
    Dev), (d.tag.rx = some (0, startNs)) ∧ (e = (d.reach (frame.endNs * nsU)).setTag
    { d.tag with rx := none, slotEnd := max d.tag.slotEnd frame.endNs }) ∧ ((e.psduOf frame.octets).2 = true) ∧ (m = parseMhr
    (e.psduOf frame.octets).1) ∧ (e.tagAwaited m frame.endNs = false) ∧ (e.tagForUs m = true) ∧ (g = ((e.draw 32).1.cnt tagPage
    TAG_CNT_RX154.COUNT).tagRxEvent 0 0 startNs (e.draw 32).2 frame (e.psduOf frame.octets).1) :=
  ⟨(D0.wr tagPage TAG_CFG.PROMISC 1).setTag { Tag.reset with rx := some (0, 5) }, 5, { tagFrame0 with octets := [2, 0, 7] ++ tagFcs }, _, _, _, by decide +kernel, rfl, by decide +kernel, rfl, by decide +kernel, by decide +kernel, rfl⟩

theorem witness_TagReceiveCommandsComplete_6_tagFrameEnd : ∃ (d : Dev) (mod startNs : Nat) (frame : TagFrame) (e : Dev) (g :
    Dev × List Nat × Bool), (d.tag.rx = some (mod, startNs)) ∧ (mod ≠ 0) ∧ (e = (d.reach (frame.endNs * nsU)).setTag
    { d.tag with rx := none, slotEnd := max d.tag.slotEnd frame.endNs }) ∧ (g = e.gfskReceive mod frame) ∧ (g.2.2 = false) :=
  ⟨D0.setTag { Tag.reset with rx := some (1, 5) }, 1, 5, tagFrame0, _, _, by decide +kernel, by decide +kernel, rfl, rfl, by decide +kernel⟩

theorem witness_TagReceiveCommandsComplete_7_tagFrameEnd : ∃ (d : Dev) (mod startNs id : Nat) (frame : TagFrame) (e : Dev) (g
    : Dev × List Nat × Bool) (f : Dev), (d.tag.rx = some (mod, startNs)) ∧ (mod ≠ 0) ∧ (e = (d.reach (frame.endNs * nsU)).setTag
    { d.tag with rx := none, slotEnd := max d.tag.slotEnd frame.endNs }) ∧ (g = e.gfskReceive mod frame) ∧ (g.2.2 = true) ∧
    (g.1.syncErrors frame ≤ g.1.rd tagPage TAG_CFG.SYNC_ERR) ∧ (id = ofLeBytes ((g.2.1.drop 2).take 4)) ∧ (g.1.rdOk (g.1.tagAddr
    (id % 8192)) 32 = true) ∧ (g.1.wrOk (g.1.tagAddr (id % 8192)) 32 = true) ∧ (f = g.1.when (g.1.tagKnown id && decide (nth 0
    g.2.1 1 = 1)) (·.tagCheckin (id % 8192) (frame.endNs / 1000) frame.rssi)) :=
  ⟨dGfsk, 1, 5, _, gfskFr, _, _, _, by decide +kernel, by decide +kernel, rfl, rfl, by decide +kernel, by decide +kernel, rfl, by decide +kernel, by decide +kernel, rfl⟩

theorem witness_TagReceiveCommandsComplete_8_tagImmAckSend : ∃ (d : Dev) (seq due : Nat) (e : Dev), (d.tag.ack = some (seq,
    due)) ∧ (e = (d.reach (due * nsU)).setTag { d.tag with ack := none }) ∧ (e.tagRefusal e.tag.tuned due (tagAir 0 (3 +
    e.fcsLen)) = none) :=
  ⟨dTagAck, 7, 9, _, by decide +kernel, rfl, by decide +kernel⟩

theorem witness_TagReceiveCommandsComplete_9_tagRxChanWrite : ∃ (d : Dev) (centre : Nat) (e : Dev), (d.answers tagPage = true)
    ∧ (2402 ≤ centre % 4096) ∧ (centre % 4096 ≤ 2480) ∧ (e = d.wr tagPage TAG_RX_CHAN.CENTRE (centre % 4096)) :=
  ⟨D0, 2440, _, by decide +kernel, by decide +kernel, by decide +kernel, rfl⟩

theorem witness_TagReceiveCommandsComplete_10_tagRetuneDone : ∃ (d : Dev) (ch t : Nat) (e : Dev), (d.tag.retune = some (ch,
    t)) ∧ (e = d.reach (t * nsU)) :=
  ⟨D0.setTag { Tag.reset with retune := some (2440, 5) }, 2440, 5, _, by decide +kernel, rfl⟩

theorem witness_TagReceiveCommandsComplete_11_tagIdlePeriodEnd : ∃ (d : Dev), (d.tag.occ = none) ∧ (d.tag.quiet ≠ 0) :=
  ⟨D0.setTag { Tag.reset with quiet := 5 }, by decide +kernel, by decide +kernel⟩

theorem witness_TagReceiveCommandsComplete_12_tagAtReached : ∃ (d : Dev) (r : TagReq), (d.tag.req = some r) ∧ (r.phase =
    .waitAt) :=
  ⟨dReq .waitAt, tagReq .waitAt, by decide +kernel, by decide +kernel⟩

theorem witness_TagTransmitCommandsComplete_1_tagTxRequest : ∃ (d : Dev), (d.tag.event = none) ∧ (d.inService tagPage = true)
    ∧ (d.tag.req = none) ∧ (d.rd tagPage TAG_TXQ_RD.INDEX ≠ d.rd tagPage TAG_TXQ_WR.INDEX) ∧ (d.memOkN (d.rd tagPage
    TAG_TXQ_BASE.BASE * 32 + d.rd tagPage TAG_TXQ_RD.INDEX % 2 ^ d.rd tagPage TAG_RING_CFG.TXQ_LOG2 * 160) 160 = true) :=
  ⟨dTagQ, by decide +kernel, by decide +kernel, by decide +kernel, by decide +kernel, by decide +kernel⟩

theorem witness_TagTransmitCommandsComplete_2_tagCcaSlot : ∃ (d : Dev) (endNs b : Nat) (energy : Int) (e : Dev), (d.active
    tagPage = true) ∧ (d.tag.retune = none) ∧ (d.tag.occ = none) ∧ (d.tag.beacon = some b) ∧ (d.tag.slotEnd ≤ endNs - 1000 * d.rd
    tagPage TAG_LBT.CCA_SLOT) ∧ (max (d.bcnOpen b) d.tag.txEnd + 40000 ≤ endNs - 1000 * d.rd tagPage TAG_LBT.CCA_SLOT) ∧ (endNs ≤
    d.bcnEnd b) ∧ (d.tag.rx = none ∨ d.bcnOpen b ≤ d.tag.slotEnd) ∧ (e = (d.reach (endNs * nsU)).setTag
    { (d.reach (endNs * nsU)).tag with slotEnd := endNs, tuned := if d.tag.rx.isSome then d.tag.tuned else d.rd tagPage TAG_BCN_CHAN.PRI })
    ∧ (e.bcnLive = true) :=
  ⟨dTagBcn, 600000, 0, 0, _, by decide +kernel, by decide +kernel, by decide +kernel, by decide +kernel, by decide +kernel, by decide +kernel, by decide +kernel, by decide +kernel, rfl, by decide +kernel⟩

theorem witness_TagTransmitCommandsComplete_3_tagCcaSlot : ∃ (d : Dev) (endNs : Nat) (energy : Int) (r : TagReq) (e : Dev),
    (d.active tagPage = true) ∧ (d.tag.retune = none) ∧ (d.tag.occ = none) ∧ (d.tag.beacon = none) ∧ (d.tag.req = some r) ∧
    (r.phase = .cca) ∧ (d.tag.slotEnd ≤ endNs - 1000 * d.rd tagPage TAG_LBT.CCA_SLOT) ∧ (max (max r.from_ d.tag.txEnd) d.tag.quiet
    + 40000 ≤ endNs - 1000 * d.rd tagPage TAG_LBT.CCA_SLOT) ∧ (r.kind = 2 → r.start ≤ endNs) ∧ (e = (d.reach (endNs * nsU)).setTag
    { d.tag with slotEnd := endNs, tuned := if d.tag.rx.isSome then d.tag.tuned else r.chan }) :=
  ⟨(dReq .cca).wr tagPage TAG_LBT.CCA_SLOT 18, 600000, 0, tagReq .cca, _, by decide +kernel, by decide +kernel, by decide +kernel, by decide +kernel, by decide +kernel, by decide +kernel, by decide +kernel, by decide +kernel, by decide +kernel, rfl⟩

theorem witness_TagTransmitCommandsComplete_4_tagWakeBurst : ∃ (d : Dev) (r : TagReq) (o : Nat) (p : Dev × Nat) (e : Dev),
    (d.tag.req = some r) ∧ (d.tag.occ = some (o, false)) ∧ (r.phase = .train) ∧ (r.next ≤ r.fin) ∧ (d.tagFits o r.next (wakeAir
    r.mod) = true) ∧ (d.tagRefusal r.chan r.next (wakeAir r.mod) = none) ∧ (p = d.countdown r o r.next) ∧ (e = (p.1.reach (r.next
    * nsU)).tagSend r.mod r.chan r.next (wakeAir r.mod) ([2, 2] ++ leBytes 4 ((p.1.reach (r.next * nsU)).tagW (bits (nth 0 r.words
    1) 0 13) 0) ++ leBytes 2 p.2)) :=
  ⟨dTrain, tagReq .train, 0, _, _, by decide +kernel, by decide +kernel, by decide +kernel, by decide +kernel, by decide +kernel, by decide +kernel, rfl, rfl⟩

theorem witness_TagTransmitCommandsComplete_5_tagTrainDataFrame : ∃ (d : Dev) (r r2 : TagReq) (o : Nat) (e : Dev), (d.tag.req
    = some r) ∧ (d.tag.occ = some (o, false)) ∧ (r.phase = .train) ∧ (r.fin < r.next) ∧ (d.tagFits o (d.dataStart o) (d.frameAir
    r.mod r.octets.length) = true) ∧ (d.tagRefusal r.chan (d.dataStart o) (d.frameAir r.mod r.octets.length) = none) ∧ (e =
    (d.reach (d.dataStart o * nsU)).tagSend r.mod r.chan (d.dataStart o) (d.frameAir r.mod r.octets.length) ((r.octets.length - 5)
    :: r.octets)) ∧ (r2 = { r with phase := .data, first := some (r.first.getD (d.dataStart o)) }) :=
  ⟨dTrainEnd, { tagReq .train with next := 500, fin := 400 }, _, 0, _, by decide +kernel, by decide +kernel, by decide +kernel, by decide +kernel, by decide +kernel, by decide +kernel, rfl, rfl⟩

theorem witness_TagTransmitCommandsComplete_6_tagTrainMove : ∃ (d : Dev) (r : TagReq) (e : Dev), (d.tag.req = some r) ∧
    (r.phase = .cca) ∧ (r.kind = 2) ∧ (r.bursts = 0) ∧ (r.used < r.retry) ∧ (e = d.reach ((r.start + 1000 * bits (d.tagW (bits
    (nth 0 r.words 1) 0 13) 3) 0 16 - d.burstPer r.mod - wakeAir r.mod) * nsU)) :=
  ⟨dReq2, { tagReq .cca with kind := 2, retry := 3 }, _, by decide +kernel, by decide +kernel, by decide +kernel, by decide +kernel, by decide +kernel, rfl⟩

theorem witness_TagTransmitCommandsComplete_7_tagOccupancyEnd : ∃ (d : Dev) (r : TagReq) (o : Nat), (d.tag.req = some r) ∧
    (d.tag.occ = some (o, false)) ∧ (r.phase = .sent) :=
  ⟨dOcc .sent, tagReq .sent, 0, by decide +kernel, by decide +kernel, by decide +kernel⟩

theorem witness_TagTransmitCommandsComplete_8_tagAckTimeout : ∃ (d : Dev) (r : TagReq) (o : Nat) (e f : Dev), (d.tag.req =
    some r) ∧ (d.tag.occ = some (o, false)) ∧ (r.phase = .ackWait) ∧ (e = (d.reach ((d.tag.txEnd + 864000) * nsU)).tagQuiet o
    (d.tag.txEnd + 864000)) ∧ (f = e.setTag { e.tag with slotEnd := max e.tag.slotEnd (d.tag.txEnd + 864000) }) :=
  ⟨dOcc .ackWait, tagReq .ackWait, 0, _, _, by decide +kernel, by decide +kernel, by decide +kernel, rfl, rfl⟩

theorem witness_TagTransmitCommandsComplete_9_tagBeaconSlot : ∃ (d : Dev) (b : Nat) (e : Dev), (d.bcnDue = some b) ∧
    (d.inService tagPage = true) ∧ (d.bcnLive = true) ∧ (d.tag.lastSlot ≠ some b) ∧ (d.tag.beacon = none) ∧ (e = d.reach
    (d.bcnOpen b * nsU)) :=
  ⟨dBcnSlot, 0, _, by decide +kernel, by decide +kernel, by decide +kernel, by decide +kernel, by decide +kernel, rfl⟩

theorem witness_TagTransmitCommandsComplete_10_tagBeaconLost : ∃ (d : Dev) (b run pri alt : Nat) (e f g : Dev), (d.tag.beacon
    = some b) ∧ (d.tag.occ = none) ∧ (d.bcnLive = true) ∧ (e = (d.reach (d.bcnEnd b * nsU)).bcnOver) ∧ (run = e.rd tagPage
    TAG_BCN_STAT.LOST_RUN + 1) ∧ (pri = d.rd tagPage TAG_BCN_CHAN.PRI) ∧ (alt = d.rd tagPage TAG_BCN_CHAN.ALT) ∧ (f = (((e.cnt
    tagPage TAG_CNT_BCN_LOST.COUNT).ev tagPage 10).wr tagPage TAG_BCN_STAT.LOST_RUN run).tagBcnEvent b 1 pri) ∧ (g = (((f.wr
    tagPage TAG_BCN_CHAN.PRI alt).wr tagPage TAG_BCN_CHAN.ALT pri).wr tagPage TAG_BCN_STAT.LOST_RUN 0).cnt tagPage
    TAG_BCN_STAT.MOVES) :=
  ⟨dTag.setTag { Tag.reset with beacon := some 0 }, 0, _, _, _, _, _, _, by decide +kernel, by decide +kernel, by decide +kernel, rfl, rfl, rfl, rfl, rfl, rfl⟩

theorem witness_KovetonMultiplyAccumulateComplete_1_nop : ∃ (d : Dev) (k : Nat) (ecc : EccFact), (d.kovReady k 0x00 ecc =
    true) :=
  ⟨dKov 0x00, 0, .corrected, by decide +kernel⟩

theorem witness_KovetonMultiplyAccumulateComplete_2_cmul : ∃ (d : Dev) (k : Nat) (ecc : EccFact), (d.kovReady k 0x01 ecc =
    true) :=
  ⟨dKov 0x01, 0, .corrected, by decide +kernel⟩

theorem witness_KovetonMultiplyAccumulateComplete_3_cmulj : ∃ (d : Dev) (k : Nat) (ecc : EccFact), (d.kovReady k 0x02 ecc =
    true) :=
  ⟨dKov 0x02, 0, .corrected, by decide +kernel⟩

theorem witness_KovetonMultiplyAccumulateComplete_4_cmac : ∃ (d : Dev) (k : Nat) (ecc : EccFact), (d.kovReady k 0x03 ecc =
    true) :=
  ⟨dKov 0x03, 0, .corrected, by decide +kernel⟩

theorem witness_KovetonMultiplyAccumulateComplete_5_cmacj : ∃ (d : Dev) (k : Nat) (ecc : EccFact), (d.kovReady k 0x04 ecc =
    true) :=
  ⟨dKov 0x04, 0, .corrected, by decide +kernel⟩

theorem witness_KovetonMultiplyAccumulateComplete_6_cmsu : ∃ (d : Dev) (k : Nat) (ecc : EccFact), (d.kovReady k 0x05 ecc =
    true) :=
  ⟨dKov 0x05, 0, .corrected, by decide +kernel⟩

theorem witness_KovetonMultiplyAccumulateComplete_7_cmsuj : ∃ (d : Dev) (k : Nat) (ecc : EccFact), (d.kovReady k 0x06 ecc =
    true) :=
  ⟨dKov 0x06, 0, .corrected, by decide +kernel⟩

theorem witness_KovetonMultiplyAccumulateComplete_8_rmul : ∃ (d : Dev) (k : Nat) (ecc : EccFact), (d.kovReady k 0x07 ecc =
    true) :=
  ⟨dKov 0x07, 0, .corrected, by decide +kernel⟩

theorem witness_KovetonMultiplyAccumulateComplete_9_rmac : ∃ (d : Dev) (k : Nat) (ecc : EccFact), (d.kovReady k 0x08 ecc =
    true) :=
  ⟨dKov 0x08, 0, .corrected, by decide +kernel⟩

theorem witness_KovetonMultiplyAccumulateComplete_10_rdmac : ∃ (d : Dev) (k : Nat) (ecc : EccFact), (d.kovReady k 0x09 ecc =
    true) :=
  ⟨dKov 0x09, 0, .corrected, by decide +kernel⟩

theorem witness_KovetonMultiplyAccumulateComplete_11_aext : ∃ (d : Dev) (k : Nat) (ecc : EccFact), (d.kovReady k 0x0A ecc =
    true) :=
  ⟨dKov 0x0A, 0, .corrected, by decide +kernel⟩

theorem witness_KovetonMultiplyAccumulateComplete_12_ald : ∃ (d : Dev) (k : Nat) (ecc : EccFact), (d.kovReady k 0x0B ecc =
    true) :=
  ⟨dKov 0x0B, 0, .corrected, by decide +kernel⟩

theorem witness_KovetonMultiplyAccumulateComplete_13_aadd : ∃ (d : Dev) (k : Nat) (ecc : EccFact), (d.kovReady k 0x0C ecc =
    true) :=
  ⟨dKov 0x0C, 0, .corrected, by decide +kernel⟩

theorem witness_KovetonMultiplyAccumulateComplete_14_asub : ∃ (d : Dev) (k : Nat) (ecc : EccFact), (d.kovReady k 0x0D ecc =
    true) :=
  ⟨dKov 0x0D, 0, .corrected, by decide +kernel⟩

theorem witness_KovetonMultiplyAccumulateComplete_15_ared : ∃ (d : Dev) (k : Nat) (ecc : EccFact), (d.kovReady k 0x0E ecc =
    true) :=
  ⟨dKov 0x0E, 0, .corrected, by decide +kernel⟩

theorem witness_KovetonMultiplyAccumulateComplete_16_aexp : ∃ (d : Dev) (k : Nat) (ecc : EccFact), (d.kovReady k 0x0F ecc =
    true) :=
  ⟨dKov 0x0F, 0, .corrected, by decide +kernel⟩

theorem witness_KovetonMultiplyAccumulateComplete_17_anorm : ∃ (d : Dev) (k : Nat) (ecc : EccFact), (d.kovReady k 0x10 ecc =
    true) :=
  ⟨dKov 0x10, 0, .corrected, by decide +kernel⟩

theorem witness_KovetonMultiplyAccumulateComplete_18_vexp : ∃ (d : Dev) (k : Nat) (ecc : EccFact), (d.kovReady k 0x11 ecc =
    true) :=
  ⟨dKov 0x11, 0, .corrected, by decide +kernel⟩

theorem witness_KovetonMultiplyAccumulateComplete_19_vnorm : ∃ (d : Dev) (k : Nat) (ecc : EccFact), (d.kovReady k 0x12 ecc =
    true) :=
  ⟨dKov 0x12, 0, .corrected, by decide +kernel⟩

theorem witness_KovetonMultiplyAccumulateComplete_20_sexp : ∃ (d : Dev) (k : Nat) (ecc : EccFact), (d.kovReady k 0x13 ecc =
    true) :=
  ⟨dKov 0x13, 0, .corrected, by decide +kernel⟩

theorem witness_KovetonVectorOpsComplete_1_vadd : ∃ (d : Dev) (k : Nat) (ecc : EccFact), (d.kovReady k 0x14 ecc = true) :=
  ⟨dKov 0x14, 0, .corrected, by decide +kernel⟩

theorem witness_KovetonVectorOpsComplete_2_vsub : ∃ (d : Dev) (k : Nat) (ecc : EccFact), (d.kovReady k 0x15 ecc = true) :=
  ⟨dKov 0x15, 0, .corrected, by decide +kernel⟩

theorem witness_KovetonVectorOpsComplete_3_vshr : ∃ (d : Dev) (k : Nat) (ecc : EccFact), (d.kovReady k 0x16 ecc = true) :=
  ⟨dKov 0x16, 0, .corrected, by decide +kernel⟩

theorem witness_KovetonVectorOpsComplete_4_vshl : ∃ (d : Dev) (k : Nat) (ecc : EccFact), (d.kovReady k 0x17 ecc = true) :=
  ⟨dKov 0x17, 0, .corrected, by decide +kernel⟩

theorem witness_KovetonVectorOpsComplete_5_vmax : ∃ (d : Dev) (k : Nat) (ecc : EccFact), (d.kovReady k 0x18 ecc = true) :=
  ⟨dKov 0x18, 0, .corrected, by decide +kernel⟩

theorem witness_KovetonVectorOpsComplete_6_vmin : ∃ (d : Dev) (k : Nat) (ecc : EccFact), (d.kovReady k 0x19 ecc = true) :=
  ⟨dKov 0x19, 0, .corrected, by decide +kernel⟩

theorem witness_KovetonVectorOpsComplete_7_vabs2 : ∃ (d : Dev) (k : Nat) (ecc : EccFact), (d.kovReady k 0x1A ecc = true) :=
  ⟨dKov 0x1A, 0, .corrected, by decide +kernel⟩

theorem witness_KovetonVectorOpsComplete_8_vconj : ∃ (d : Dev) (k : Nat) (ecc : EccFact), (d.kovReady k 0x1B ecc = true) :=
  ⟨dKov 0x1B, 0, .corrected, by decide +kernel⟩

theorem witness_KovetonVectorOpsComplete_9_vneg : ∃ (d : Dev) (k : Nat) (ecc : EccFact), (d.kovReady k 0x1C ecc = true) :=
  ⟨dKov 0x1C, 0, .corrected, by decide +kernel⟩

theorem witness_KovetonVectorOpsComplete_10_vmov : ∃ (d : Dev) (k : Nat) (ecc : EccFact), (d.kovReady k 0x1D ecc = true) :=
  ⟨dKov 0x1D, 0, .corrected, by decide +kernel⟩

theorem witness_KovetonVectorOpsComplete_11_vbc : ∃ (d : Dev) (k : Nat) (ecc : EccFact), (d.kovReady k 0x1E ecc = true) :=
  ⟨dKov 0x1E, 0, .corrected, by decide +kernel⟩

theorem witness_KovetonVectorOpsComplete_12_vilv : ∃ (d : Dev) (k : Nat) (ecc : EccFact), (d.kovReady k 0x1F ecc = true) :=
  ⟨dKov 0x1F, 0, .corrected, by decide +kernel⟩

theorem witness_KovetonVectorOpsComplete_13_vrcp : ∃ (d : Dev) (k : Nat) (ecc : EccFact), (d.kovReady k 0x20 ecc = true) :=
  ⟨dKov 0x20, 0, .corrected, by decide +kernel⟩

theorem witness_KovetonVectorOpsComplete_14_vrsq : ∃ (d : Dev) (k : Nat) (ecc : EccFact), (d.kovReady k 0x21 ecc = true) :=
  ⟨dKov 0x21, 0, .corrected, by decide +kernel⟩

theorem witness_KovetonVectorOpsComplete_15_vins : ∃ (d : Dev) (k : Nat) (ecc : EccFact), (d.kovReady k 0x22 ecc = true) :=
  ⟨dKov 0x22, 0, .corrected, by decide +kernel⟩

theorem witness_KovetonVectorOpsComplete_16_vext : ∃ (d : Dev) (k : Nat) (ecc : EccFact), (d.kovReady k 0x23 ecc = true) :=
  ⟨dKov 0x23, 0, .corrected, by decide +kernel⟩

theorem witness_KovetonScalarOpsComplete_1_sadd : ∃ (d : Dev) (k : Nat) (ecc : EccFact), (d.kovReady k 0x24 ecc = true) :=
  ⟨dKov 0x24, 0, .corrected, by decide +kernel⟩

theorem witness_KovetonScalarOpsComplete_2_ssub : ∃ (d : Dev) (k : Nat) (ecc : EccFact), (d.kovReady k 0x25 ecc = true) :=
  ⟨dKov 0x25, 0, .corrected, by decide +kernel⟩

theorem witness_KovetonScalarOpsComplete_3_sand : ∃ (d : Dev) (k : Nat) (ecc : EccFact), (d.kovReady k 0x26 ecc = true) :=
  ⟨dKov 0x26, 0, .corrected, by decide +kernel⟩

theorem witness_KovetonScalarOpsComplete_4_sor : ∃ (d : Dev) (k : Nat) (ecc : EccFact), (d.kovReady k 0x27 ecc = true) :=
  ⟨dKov 0x27, 0, .corrected, by decide +kernel⟩

theorem witness_KovetonScalarOpsComplete_5_sxor : ∃ (d : Dev) (k : Nat) (ecc : EccFact), (d.kovReady k 0x28 ecc = true) :=
  ⟨dKov 0x28, 0, .corrected, by decide +kernel⟩

theorem witness_KovetonScalarOpsComplete_6_sshl : ∃ (d : Dev) (k : Nat) (ecc : EccFact), (d.kovReady k 0x29 ecc = true) :=
  ⟨dKov 0x29, 0, .corrected, by decide +kernel⟩

theorem witness_KovetonScalarOpsComplete_7_sshr : ∃ (d : Dev) (k : Nat) (ecc : EccFact), (d.kovReady k 0x2A ecc = true) :=
  ⟨dKov 0x2A, 0, .corrected, by decide +kernel⟩

theorem witness_KovetonScalarOpsComplete_8_smul : ∃ (d : Dev) (k : Nat) (ecc : EccFact), (d.kovReady k 0x2B ecc = true) :=
  ⟨dKov 0x2B, 0, .corrected, by decide +kernel⟩

theorem witness_KovetonScalarOpsComplete_9_scmp : ∃ (d : Dev) (k : Nat) (ecc : EccFact), (d.kovReady k 0x2C ecc = true) :=
  ⟨dKov 0x2C, 0, .corrected, by decide +kernel⟩

theorem witness_KovetonScalarOpsComplete_10_saddi : ∃ (d : Dev) (k : Nat) (ecc : EccFact), (d.kovReady k 0x2D ecc = true) :=
  ⟨dKov 0x2D, 0, .corrected, by decide +kernel⟩

theorem witness_KovetonScalarOpsComplete_11_sli : ∃ (d : Dev) (k : Nat) (ecc : EccFact), (d.kovReady k 0x2E ecc = true) :=
  ⟨dKov 0x2E, 0, .corrected, by decide +kernel⟩

theorem witness_KovetonScalarOpsComplete_12_slui : ∃ (d : Dev) (k : Nat) (ecc : EccFact), (d.kovReady k 0x2F ecc = true) :=
  ⟨dKov 0x2F, 0, .corrected, by decide +kernel⟩

theorem witness_KovetonScalarOpsComplete_13_smva : ∃ (d : Dev) (k : Nat) (ecc : EccFact), (d.kovReady k 0x30 ecc = true) :=
  ⟨dKov 0x30, 0, .corrected, by decide +kernel⟩

theorem witness_KovetonScalarOpsComplete_14_sld : ∃ (d : Dev) (k : Nat) (ecc : EccFact), (d.kovReady k 0x31 ecc = true) :=
  ⟨dKov 0x31, 0, .corrected, by decide +kernel⟩

theorem witness_KovetonScalarOpsComplete_15_sst : ∃ (d : Dev) (k : Nat) (ecc : EccFact), (d.kovReady k 0x32 ecc = true) :=
  ⟨dKov 0x32, 0, .corrected, by decide +kernel⟩

theorem witness_KovetonControlOpsComplete_1_br : ∃ (d : Dev) (k : Nat) (ecc : EccFact), (d.kovReady k 0x33 ecc = true) :=
  ⟨dKov 0x33, 0, .corrected, by decide +kernel⟩

theorem witness_KovetonControlOpsComplete_2_call : ∃ (d : Dev) (k : Nat) (ecc : EccFact), (d.kovReady k 0x34 ecc = true) :=
  ⟨dKov 0x34, 0, .corrected, by decide +kernel⟩

theorem witness_KovetonControlOpsComplete_3_ret : ∃ (d : Dev) (k : Nat) (ecc : EccFact), (d.kovReady k 0x35 ecc = true) :=
  ⟨dKov 0x35, 0, .corrected, by decide +kernel⟩

theorem witness_KovetonControlOpsComplete_4_loop : ∃ (d : Dev) (k : Nat) (ecc : EccFact), (d.kovReady k 0x36 ecc = true) :=
  ⟨dKov 0x36, 0, .corrected, by decide +kernel⟩

theorem witness_KovetonControlOpsComplete_5_reti : ∃ (d : Dev) (k : Nat) (ecc : EccFact), (d.kovReady k 0x37 ecc = true) :=
  ⟨dKov 0x37, 0, .corrected, by decide +kernel⟩

theorem witness_KovetonControlOpsComplete_6_retf : ∃ (d : Dev) (k : Nat) (ecc : EccFact), (d.kovReady k 0x38 ecc = true) :=
  ⟨dKov 0x38, 0, .corrected, by decide +kernel⟩

theorem witness_KovetonControlOpsComplete_7_jend : ∃ (d : Dev) (k : Nat) (ecc : EccFact), (d.kovReady k 0x3E ecc = true) :=
  ⟨dKov 0x3E, 0, .corrected, by decide +kernel⟩

theorem witness_KovetonControlOpsComplete_8_halt : ∃ (d : Dev) (k : Nat) (ecc : EccFact), (d.kovReady k 0x3F ecc = true) :=
  ⟨dKov 0x3F, 0, .corrected, by decide +kernel⟩

theorem witness_KovetonControlOpsComplete_9_mbs : ∃ (d : Dev) (k : Nat) (ecc : EccFact), (d.kovReady k 0x39 ecc = true) ∧
    (d.mbsRoom k = true) :=
  ⟨dKov 0x39, 0, .clean, by decide +kernel, by decide +kernel⟩

theorem witness_KovetonControlOpsComplete_10_mbr : ∃ (d : Dev) (k : Nat) (ecc : EccFact), (d.kovReady k 0x3A ecc = true) ∧
    ((d.core k).mbx.isEmpty = false) :=
  ⟨dKovMbx, 0, .clean, by decide +kernel, by decide +kernel⟩

theorem witness_KovetonControlOpsComplete_11_bar : ∃ (d : Dev) (k n : Nat) (ecc : EccFact) (e : Dev), (d.kovReady k 0x3B ecc =
    true) ∧ (n = (d.bundle k (d.corePc k)).1 % 8) ∧ (e = (d.kovEcc k ecc).setWait k 3) ∧ (e.coreWait k = 3) ∧ (bit (d.rd kclPage
    (KOV_BAR.MASK.at n)) k = true) :=
  ⟨(dKov 0x3B).wr kclPage (KOV_BAR.MASK.at 0) 1, 0, 0, .clean, _, by decide +kernel, by decide +kernel, rfl, by decide +kernel, by decide +kernel⟩

theorem witness_KovetonControlOpsComplete_12_dmq : ∃ (d : Dev) (k : Nat) (ecc : EccFact), (d.kovReady k 0x3C ecc = true) ∧
    ((d.chan k).queue.length < 16) :=
  ⟨dKov 0x3C, 0, .clean, by decide +kernel, by decide +kernel⟩

theorem witness_KovetonControlOpsComplete_13_dmw : ∃ (d : Dev) (k : Nat) (ecc : EccFact), (d.kovReady k 0x3D ecc = true) ∧
    (d.dmwDone k = true) :=
  ⟨dKov 0x3D, 0, .clean, by decide +kernel, by decide +kernel⟩

theorem witness_KovetonEventsComplete_1_mbsRoom : ∃ (d : Dev) (k : Nat) (v : Dev × Nat) (u : Dev × KCore), (d.mbsRoom k =
    true) ∧ (d.kovAt k 0x39 = true) ∧ (d.coreWait k ≠ 0) ∧ (v = d.draw 16) ∧ (u = v.1.coreTick k v.2 (v.1.core k)) :=
  ⟨(dKov 0x39).setWait 0 2, 0, _, _, by decide +kernel, by decide +kernel, by decide +kernel, rfl, rfl⟩

theorem witness_KovetonEventsComplete_2_mbrEntryArrives : ∃ (d : Dev) (k : Nat) (v : Dev × Nat) (u : Dev × KCore), ((d.core
    k).mbx.isEmpty = false) ∧ (d.kovAt k 0x3A = true) ∧ (d.coreWait k ≠ 0) ∧ (v = d.draw 16) ∧ (u = v.1.coreTick k v.2 (v.1.core
    k)) :=
  ⟨dKovMbx.setWait 0 2, 0, _, _, by decide +kernel, by decide +kernel, by decide +kernel, rfl, rfl⟩

theorem witness_KovetonEventsComplete_3_dmqRoom : ∃ (d : Dev) (k : Nat) (v : Dev × Nat) (u : Dev × KCore), ((d.chan
    k).queue.length < 16) ∧ (d.kovAt k 0x3C = true) ∧ (d.coreWait k ≠ 0) ∧ (v = d.draw 16) ∧ (u = v.1.coreTick k v.2 (v.1.core k))
    :=
  ⟨(dKov 0x3C).setWait 0 4, 0, _, _, by decide +kernel, by decide +kernel, by decide +kernel, rfl, rfl⟩

theorem witness_KovetonEventsComplete_4_dmwWaitEnds : ∃ (d : Dev) (k : Nat) (v : Dev × Nat) (u : Dev × KCore), (d.dmwDone k =
    true) ∧ (d.kovAt k 0x3D = true) ∧ (d.coreWait k ≠ 0) ∧ (v = d.draw 16) ∧ (u = v.1.coreTick k v.2 (v.1.core k)) :=
  ⟨(dKov 0x3D).setWait 0 4, 0, _, _, by decide +kernel, by decide +kernel, by decide +kernel, rfl, rfl⟩

theorem witness_KovetonEventsComplete_5_barrierRelease : ∃ (d : Dev) (bar : Nat), (bar < 8) ∧ (d.barComplete bar = true) :=
  ⟨(D0.wr kclPage (KOV_BAR.MASK.at 0) 1).wr kclPage (KOV_BAR.ARRIVED.at 0) 1, 0, by decide +kernel, by decide +kernel⟩

theorem witness_KovetonEventsComplete_6_barrierMaskWrite : ∃ (d : Dev) (bar mask : Nat), (bar < 8) ∧ (d.answers kclPage =
    true) ∧ (d.inReset kclPage = false) ∧ (d.unpowered kclPage = false) :=
  ⟨D0, 2, 3, by decide +kernel, by decide +kernel, by decide +kernel, by decide +kernel⟩

theorem witness_KovetonEventsComplete_7_loopCountExhausted : ∃ (d : Dev) (k : Nat) (r : KCore × Nat × Nat) (u : Dev × KCore),
    (k < 16) ∧ ((d.core k).exhaust = true) ∧ (d.active (corePage k) = true) ∧ (r = kExhaust (d.core k) (d.corePc k) 3) ∧ (u =
    d.coreTick k r.2.2 r.1) :=
  ⟨(D0.setState 0x050 .running).setCore 0 { KCore.reset with exhaust := true }, 0, _, _, by decide +kernel, by decide +kernel, by decide +kernel, rfl, rfl⟩

theorem witness_KovetonEventsComplete_8_fastInterruptEntry : ∃ (d : Dev) (k : Nat), (d.kovBetween k = true) ∧ (d.kovPending k
    true = true) ∧ ((d.core k).inF = false) :=
  ⟨dKovIrq 1, 0, by decide +kernel, by decide +kernel, by decide +kernel⟩

theorem witness_KovetonEventsComplete_9_normalInterruptEntry : ∃ (d : Dev) (k : Nat) (e : Dev), (d.kovBetween k = true) ∧
    (d.kovPending k false = true) ∧ ((d.core k).flag 8 = true) ∧ ((d.core k).inF = false) ∧ (d.kovPending k true = false) ∧ (e =
    (d.barWithdraw k).setCore k ({ d.core k with retN := d.corePc k, inN := true, ready := [] }.setFlag 8 false)) :=
  ⟨dKovIrq 0, 0, _, by decide +kernel, by decide +kernel, by decide +kernel, by decide +kernel, by decide +kernel, rfl⟩

theorem witness_KovetonEventsComplete_10_kovMbxInWrite : ∃ (d : Dev) (k data : Nat), (k < 16) ∧ (d.answers (corePage k) =
    true) ∧ (d.inService (corePage k) = true) ∧ ((d.core k).mbx.length < 8) :=
  ⟨D0.setState 0x050 .running, 0, 7, by decide +kernel, by decide +kernel, by decide +kernel, by decide +kernel⟩

theorem witness_KovetonEventsComplete_11_kovSoftIrq : ∃ (d : Dev) (k : Nat), (k < 16) ∧ (d.answers (corePage k) = true) ∧
    (d.inService (corePage k) = true) :=
  ⟨D0.setState 0x050 .running, 0, by decide +kernel, by decide +kernel, by decide +kernel⟩

theorem witness_KovetonEventsComplete_12_kovTimerExpiry : ∃ (d : Dev) (k : Nat) (u : Dev × KCore), (k < 16) ∧ (d.active
    (corePage k) = true) ∧ (u = d.coreTick k (d.rd (corePage k) KOV_TMR.COUNT) (d.core k)) :=
  ⟨D0.setState 0x050 .running, 0, _, by decide +kernel, by decide +kernel, rfl⟩

theorem witness_KovetonJobCommandsComplete_1_kovJobPost : ∃ (d : Dev) (addr : Nat) (host : List (Nat × Nat)) (w : Dev × List
    Nat), (d.inService kclPage = true) ∧ (w = d.readWords host (addr % 2 ^ 30 * 64) 16) :=
  ⟨D0.setState kclPage .running, 0x400000, [], _, by decide +kernel, rfl⟩

theorem witness_KovetonJobCommandsComplete_2_jobStart : ∃ (d : Dev) (k i : Nat) (j : KJob), (d.active kclPage = true) ∧
    (((List.range 16).findSome? fun k => if d.coreIdle k then (d.firstJob (d.coreAccepts k)).map fun e => (k, e) else none) = some
    (k, i, j)) :=
  ⟨dKovJob, 0, 0, kjob0, by decide +kernel, by decide +kernel⟩

theorem witness_KovetonJobCommandsComplete_3_jobDueExpiry : ∃ (d : Dev), (d.active kclPage = true) :=
  ⟨D0.setState kclPage .running, by decide +kernel⟩

theorem witness_KovetonJobCommandsComplete_4_jobLimitExpiry : ∃ (d : Dev) (k : Nat) (j : KJob), ((d.core k).job = some j) ∧
    (d.active (corePage k) = true) ∧ (d.rd kclPage KOV_JOB_LIMIT.LIMIT ≠ 0) :=
  ⟨((D0.setState 0x050 .running).setCore 0 { KCore.reset with job := some kjob0 }).wr kclPage KOV_JOB_LIMIT.LIMIT 5, 0, kjob0, by decide +kernel, by decide +kernel, by decide +kernel⟩

theorem witness_KovetonJobCommandsComplete_5_dmaFabricPost : ∃ (d : Dev) (ch addr : Nat) (host : List (Nat × Nat)) (w : Dev ×
    List Nat), (ch = 16 ∨ ch = 17) ∧ (d.inService kclPage = true) ∧ ((d.chan ch).queue.length < 16) ∧ (w = d.readWords host (addr
    % 2 ^ 31 * 32) 8) :=
  ⟨D0.setState kclPage .running, 16, 0x800000, [], _, by decide +kernel, by decide +kernel, by decide +kernel, rfl⟩

theorem witness_KovetonJobCommandsComplete_6_dmaDescriptorDone : ∃ (d : Dev) (ch : Nat) (host : List (Nat × Nat)), (ch < 18) ∧
    (d.chanActive ch = true) ∧ ((d.chan ch).queue ≠ []) :=
  ⟨dKovDma, 16, [], by decide +kernel, by decide +kernel, by decide +kernel⟩

theorem witness_KovetonJobCommandsComplete_7_dmaWaitExpiry : ∃ (d : Dev) (k : Nat) (u : Dev × KCore), (d.coreIssues k = true)
    ∧ (u = d.coreTick k 1 (d.core k)) :=
  ⟨dKov 0, 0, _, by decide +kernel, rfl⟩

theorem witness_MenuCommandsComplete_1_menuSwap : ∃ (d : Dev), (d.answers 0x060 = true) ∧ (d.menuDraining = false) :=
  ⟨D0, by decide +kernel, by decide +kernel⟩

theorem witness_MenuCommandsComplete_2_menuDrainDone : ∃ (d : Dev), (d.menuDraining = true) ∧ (∀ f ∈ d.pkt.recirc, f.menu =
    d.menuActive) :=
  ⟨D0.wr 0x060 PKT_MENU_CTL.OLD_STATE 1, by decide +kernel, by decide +kernel⟩

theorem witness_MenuCommandsComplete_3_tcWrite : ∃ (d : Dev) (menu index : Nat) (anomaly : Bool) (e : Dev), (menu < 2) ∧
    (index < 16384) ∧ (e = d.tcCmd index menu anomaly 1) ∧ (e.menuDrains menu = false) ∧ (actCheck (e.staged 0x200 8) false = 0) ∧
    (d.answers 0x060 = true) :=
  ⟨D0, 0, 0, false, _, by decide +kernel, by decide +kernel, rfl, by decide +kernel, by decide +kernel, by decide +kernel⟩

theorem witness_MenuCommandsComplete_4_tcInvalidate : ∃ (d : Dev) (menu index : Nat) (e : Dev), (menu < 2) ∧ (index < 16384) ∧
    (e = d.tcCmd index menu false 2) ∧ (e.menuDrains menu = false) ∧ (d.answers 0x060 = true) :=
  ⟨D0, 0, 0, _, by decide +kernel, by decide +kernel, rfl, by decide +kernel, by decide +kernel⟩

theorem witness_MenuCommandsComplete_5_tcRead : ∃ (d : Dev) (menu index : Nat) (e : Dev), (menu < 2) ∧ (index < 16384) ∧ (e =
    d.tcCmd index menu false 3) ∧ (d.answers 0x060 = true) :=
  ⟨D0, 1, 5, _, by decide +kernel, by decide +kernel, rfl, by decide +kernel⟩

theorem witness_MenuCommandsComplete_6_tcWriteHdr : ∃ (d : Dev) (menu : Nat) (e : Dev), (menu < 2) ∧ (e = d.tcCmd 0 menu false
    4) ∧ (e.menuIdle menu = true) ∧ (actCheck (e.staged 0x200 8) false = 0) ∧ (keySelBad (bits (e.rdW 0x060 0xA0).toNat 0 12) =
    false) ∧ (d.answers 0x060 = true) :=
  ⟨D0, 1, _, by decide +kernel, rfl, by decide +kernel, by decide +kernel, by decide +kernel, by decide +kernel⟩

theorem witness_MenuCommandsComplete_7_tcReadHdr : ∃ (d : Dev) (menu : Nat) (e : Dev), (menu < 2) ∧ (e = d.tcCmd 0 menu false
    5) ∧ (d.answers 0x060 = true) :=
  ⟨D0, 1, _, by decide +kernel, rfl, by decide +kernel⟩

theorem witness_MenuCommandsComplete_8_tcWriteDirect : ∃ (d : Dev) (index : Nat) (e : Dev), (index < 1024) ∧ (e = d.tcCmd
    index 0 false 6) ∧ (actCheck (e.staged 0x200 8) true = 0) ∧ (d.answers 0x060 = true) :=
  ⟨D0, 1023, _, by decide +kernel, rfl, by decide +kernel, by decide +kernel⟩

theorem witness_MenuCommandsComplete_9_tcReadDirect : ∃ (d : Dev) (index : Nat) (e : Dev), (index < 1024) ∧ (e = d.tcCmd index
    0 false 7) ∧ (d.answers 0x060 = true) :=
  ⟨D0, 1023, _, by decide +kernel, rfl, by decide +kernel⟩

theorem witness_MenuCommandsComplete_10_ctrRead : ∃ (d : Dev) (index : Nat), (d.answers 0x061 = true) :=
  ⟨D0, 5, by decide +kernel⟩

theorem witness_MenuCommandsComplete_11_ctrReadClear : ∃ (d : Dev) (index : Nat), (d.answers 0x061 = true) :=
  ⟨D0, 5, by decide +kernel⟩

theorem witness_MenuCommandsComplete_12_firstPass : ∃ (d : Dev) (pipe : Nat) (host : List (Nat × Nat)) (f : PFrame) (l : List
    PFrame), (d.pktRuns = true) ∧ (d.waiting pipe = f :: l) :=
  ⟨dPkt, 0, [], pkt0, [], by decide +kernel, by decide +kernel⟩

theorem witness_MenuCommandsComplete_13_secondPass : ∃ (d : Dev) (pipe : Nat) (host : List (Nat × Nat)) (f : PFrame) (l : List
    PFrame), (d.pktRuns = true) ∧ (d.pkt.recirc.filter (fun f => decide ((if f.src < 8 then 0 else 1) = pipe)) = f :: l) :=
  ⟨dPkt, 0, [], pkt0, [], by decide +kernel, by decide +kernel⟩

theorem witness_RingCommandsComplete_1_ringEnable : ∃ (d : Dev) (ring cfg : Nat) (e : Dev), (ring < 256) ∧ (cfg % 4 ≠ 0) ∧
    (d.rdB 0x062 (PKT_RING_STAT.ACTIVE.at ring) = false) ∧ (4 ≤ bits cfg 3 5) ∧ (bits cfg 3 5 ≤ 16) ∧ (e = d.wrW 0x062
    (PKT_RING_CFG.word.at ring).off (BitVec.ofNat 32 (cfg % 2 ^ 16 - bits cfg 2 1 * 4))) ∧ (d.answers 0x062 = true) :=
  ⟨D0, 255, 0x21, _, by decide +kernel, by decide +kernel, by decide +kernel, by decide +kernel, by decide +kernel, rfl, by decide +kernel⟩

theorem witness_RingCommandsComplete_2_ringDisable : ∃ (d : Dev) (ring cfg : Nat), (ring < 256) ∧ (cfg % 4 = 0) ∧ (d.rdB 0x062
    (PKT_RING_STAT.ACTIVE.at ring) = true) ∧ (d.answers 0x062 = true) :=
  ⟨D0.wr 0x062 (PKT_RING_STAT.ACTIVE.at 255) 1, 255, 0x20, by decide +kernel, by decide +kernel, by decide +kernel, by decide +kernel⟩

theorem witness_RingCommandsComplete_3_ringSwWrite : ∃ (d : Dev) (ring sw : Nat), (ring < 256) ∧ (sw < 131072) ∧ ((if
    d.ringType ring = 3 then (d.ringHw ring + 131072 - sw) % 131072 else (sw + 131072 - d.ringHw ring) % 131072) ≤ d.ringSize
    ring) ∧ (d.answers 0x062 = true) :=
  ⟨D0, 0, 1, by decide +kernel, by decide +kernel, by decide +kernel, by decide +kernel⟩

theorem witness_RingCommandsComplete_4_txRingFrameStart : ∃ (d : Dev) (ring : Nat) (host : List (Nat × Nat)) (ws : List (List
    Nat)) (o : List Nat) (q : Dev × Bool), (d.ringType ring = 2) ∧ (ring < 256) ∧ (d.inService 0x062 = true) ∧ (d.txLook ring host
    (d.ringHeld ring false) (d.ringHw ring) [] = .frame ws) ∧ ((ws.map fun v => bits (nth 0 v 2) 0 16).foldl (· + ·) 0 ≤ 9728) ∧
    (bit (nth 0 (nth [] ws 0) 2) 20 = false ∨ (bit (nth 0 (nth [] ws 0) 2) 18 = true ∧ actF (d.directAction (bits (nth 0 (nth []
    ws 0) 3) 0 10)) 0 0 3 = 2)) ∧ (d.txOctets host ws = some o) ∧ (d.inService 0x060 = true) ∧ (q = d.pktIn
    { basket := 0, src := 0x10, dot11 := bit (nth 0 (nth [] ws 0) 2) 20, info := nth 0 (nth [] ws 0) 4, tsNs := 0, tsFrac := 0, cookie := nth 0 (nth [] ws 0) 5, tsReq := if bit (nth 0 (nth [] ws 0) 2) 19 then some (ring, d.ringHw ring) else none, direct := if bit (nth 0 (nth [] ws 0) 2) 18 then some (bits (nth 0 (nth [] ws 0) 3) 0 10) else none, menu := 0, kt2 := 0xF, inner := false }
    o) :=
  ⟨dRing, 0, [], [ringDesc], [7], _, by decide +kernel, by decide +kernel, by decide +kernel, by decide +kernel, by decide +kernel, by decide +kernel, by decide +kernel, by decide +kernel, rfl⟩

theorem witness_RingCommandsComplete_5_wlanCompletion : ∃ (d : Dev) (k : Cpl) (rest : List Cpl) (e f g : Dev), (d.cpls = k ::
    rest) ∧ (e = ({ d with cpls := rest } : Dev).freeFrame k.basket) ∧ (f =
    { e with pkt := { e.pkt with sent := del e.pkt.sent k.basket } }) ∧ (g = (if k.status = 7 ∧ 0x20 ≤ k.outcome ∧ k.outcome ≤
    0x25 then f.cnt 0x061 PKT_CNT_WLAN_REFUSED.COUNT else f)) :=
  ⟨dCpl, cpl0, [], _, _, _, by decide +kernel, rfl, rfl, rfl⟩

theorem witness_RingCommandsComplete_6_ringIrqTimer : ∃ (d : Dev) (ring : Nat) (t : Nat × Nat), (ring < 256) ∧ (d.rd 0x062
    (PKT_RING_IRQ.IRQ_USEC.at ring) ≠ 0) ∧ (d.rdB 0x062 (PKT_RING_STAT.IRQ.at ring) = false) ∧ (look d.pkt.since ring = some t) :=
  ⟨dSince, 255, (1, 5), by decide +kernel, by decide +kernel, by decide +kernel, by decide +kernel⟩

theorem witness_EthernetCommandsComplete_1_ethFrameReceived : ∃ (d : Dev) (m ballNs ballFrac corr uncorr : Nat) (octets l :
    List Nat) (e f : Dev), (m < 5) ∧ (d.inService (ethPage m) = true) ∧ (d.ethLink m = true) ∧ (e = (if d.fecOn m then (d.ethCnt m
    22 corr).ethCnt m 23 uncorr else d)) ∧ (d.fecOn m = false ∨ uncorr = 0) ∧ (ethFcsOk octets = true) ∧ (64 ≤ octets.length) ∧
    (octets.length ≤ e.rd (ethPage m) ETH_MAX_LEN.MAX_LEN) ∧ (l = octets.take (octets.length - 4)) ∧ (ob2 l 12 ≠ 0x8808) ∧
    (e.ethFilter m l = true) ∧ (e.rxFill m + (e.rxTag m l).length ≤ 131072) ∧ (f = (e.ethCnt m 0).ethOct m false octets.length) :=
  ⟨dEth, 0, 10, 0, 0, 0, ethOct0, _, _, _, by decide +kernel, by decide +kernel, by decide +kernel, rfl, by decide +kernel, by decide +kernel, by decide +kernel, by decide +kernel, rfl, by decide +kernel, by decide +kernel, by decide +kernel, rfl⟩

theorem witness_EthernetCommandsComplete_2_pauseTimeExpiry : ∃ (d : Dev) (m queue t : Nat) (e : Dev), (look (d.ethM m).pause
    queue = some t) ∧ (e = d.reach t) :=
  ⟨dPaused, 0, 8, 9, _, by decide +kernel, rfl⟩

theorem witness_EthernetCommandsComplete_3_pauseRepeat : ∃ (d : Dev) (m t : Nat) (e : Dev), ((d.ethM m).gen = some t) ∧ (256 *
    d.rd (ethPage m) ETH_FIFO_THR.XON ≤ d.rxFill m) ∧ (d.active (ethPage m) = true) ∧ (e = d.reach (t + d.quantaU m (d.rd (ethPage
    m) ETH_PAUSE.QUANTA) / 2)) :=
  ⟨dGen 0, 0, 9, _, by decide +kernel, by decide +kernel, by decide +kernel, rfl⟩

theorem witness_EthernetCommandsComplete_4_fifoBelowXon : ∃ (d : Dev) (m t : Nat), ((d.ethM m).gen = some t) ∧ (d.rxFill m <
    256 * d.rd (ethPage m) ETH_FIFO_THR.XON) ∧ (d.active (ethPage m) = true) :=
  ⟨dGen 2, 0, 9, by decide +kernel, by decide +kernel, by decide +kernel⟩

theorem witness_EthernetCommandsComplete_5_ethTxStart : ∃ (d : Dev) (m ballQ q ts : Nat) (t : EthTx) (e : Dev) (l : List Nat)
    (one : Option (List Nat)), (m < 5) ∧ (d.active (ethPage m) = true) ∧ ((d.ethM m).line = none) ∧ (d.ethLink m = true) ∧
    ((d.ethM m).next true = some (q, t)) ∧ (∀ b, t.basket = some b → (look d.pkt.chains b).isSome = true ∧ d.frameBad b = none) ∧
    (e = d.setEth m ((d.ethM m).pop q)) ∧ (ts = ballQ + d.rd (ethPage m) ETH_TS_ASYM.EGR_DLY) ∧ (one = (if d.rdB (ethPage m)
    ETH_CFG.ONE_STEP then oneStep (padTo60 (e.txTag m t.octets)) ts else none)) ∧ (l = one.getD (padTo60 (e.txTag m t.octets))) :=
  ⟨dEthTx, 0, 40, 0, _, ethTx0, _, _, _, by decide +kernel, by decide +kernel, by decide +kernel, by decide +kernel, by decide +kernel, by decide +kernel, rfl, rfl, rfl, rfl⟩

theorem witness_EthernetCommandsComplete_6_ethTxUnderrun : ∃ (d : Dev) (m sent : Nat) (g : EthLine) (e f : Dev), ((d.ethM
    m).line = some g) ∧ (g.whole = false) ∧ (sent < g.tx.octets.length) ∧ (e = (((d.setEth m { d.ethM m with line := none }).emit
    (.ethSent m (padTo60 (g.tx.octets.take sent)) false)).ethCnt m 18).ev (ethPage m) 10) ∧ (f = e.wr (ethPage m)
    ETH_TX_THR.START_THR (min 9732 (e.rd (ethPage m) ETH_TX_THR.START_THR + e.rd (ethPage m) ETH_TX_THR.THR_STEP * 64))) :=
  ⟨dLine, 0, 20, line0, _, _, by decide +kernel, by decide +kernel, by decide +kernel, rfl, rfl⟩

theorem witness_EthernetCommandsComplete_7_ethTxDone : ∃ (d : Dev) (m : Nat) (g : EthLine) (e f h : Dev), ((d.ethM m).line =
    some g) ∧ (e = (((d.setEth m { d.ethM m with line := none }).emit (.ethSent m g.tx.octets true)).ethCnt m 12).ethOct m true
    (g.tx.octets.length + 4)) ∧ (f = (if isBroadcast g.tx.octets then e.ethCnt m 16 else if isGroup g.tx.octets then e.ethCnt m 15
    else e)) ∧ (h = (if g.tx.ven && decide (nth 0 g.tx.octets ((if outerTagged g.tx.octets then 18 else 14) + 2) = 1) then
    { f with ven := { f.ven with sent := (g.ts / 4 % 2 ^ 32 :: f.ven.sent).take 4 } } else f)) :=
  ⟨dLine, 0, line0, _, _, _, by decide +kernel, rfl, rfl, rfl⟩

theorem witness_EthernetCommandsComplete_8_ethLinkChange : ∃ (d : Dev) (m speed : Nat) (deskewed up : Bool) (e : Dev), (m < 5)
    ∧ (d.inReset (ethPage m) = false) ∧ (up = d.linkCond m deskewed) ∧ (up ≠ d.ethLink m) ∧ (e = ((d.wr (ethPage m) ETH_LINK.LINK
    (b2n up)).wr (ethPage m) ETH_LINK.SPEED (if m = 4 ∧ d.rdB 0x06D ETH_SERDES_MODE.E4_SGMII then min 2 speed else 2)).ev (ethPage
    m) 9) :=
  ⟨dLinkUp, 0, 0, false, _, _, by decide +kernel, by decide +kernel, rfl, by decide +kernel, rfl⟩

theorem witness_EthernetCommandsComplete_9_mdioAddress : ∃ (d : Dev) (c45 : Bool) (phyad reg data : Nat), (d.answers 0x06C =
    true) ∧ (d.rdB 0x06C ETH_MDIO_STAT.BUSY = false) ∧ (d.inService 0x06C = true) :=
  ⟨D0.setState 0x06C .running, true, 1, 2, 3, by decide +kernel, by decide +kernel, by decide +kernel⟩

theorem witness_EthernetCommandsComplete_10_mdioWrite : ∃ (d : Dev) (c45 : Bool) (phyad reg data : Nat), (d.answers 0x06C =
    true) ∧ (d.rdB 0x06C ETH_MDIO_STAT.BUSY = false) ∧ (d.inService 0x06C = true) :=
  ⟨D0.setState 0x06C .running, true, 1, 2, 3, by decide +kernel, by decide +kernel, by decide +kernel⟩

theorem witness_EthernetCommandsComplete_11_mdioReadInc : ∃ (d : Dev) (c45 : Bool) (phyad reg : Nat), (d.answers 0x06C = true)
    ∧ (d.rdB 0x06C ETH_MDIO_STAT.BUSY = false) ∧ (d.inService 0x06C = true) :=
  ⟨D0.setState 0x06C .running, true, 1, 2, by decide +kernel, by decide +kernel, by decide +kernel⟩

theorem witness_EthernetCommandsComplete_12_mdioRead : ∃ (d : Dev) (c45 : Bool) (phyad reg : Nat), (d.answers 0x06C = true) ∧
    (d.rdB 0x06C ETH_MDIO_STAT.BUSY = false) ∧ (d.inService 0x06C = true) :=
  ⟨D0.setState 0x06C .running, true, 1, 2, by decide +kernel, by decide +kernel, by decide +kernel⟩

theorem witness_EthernetCommandsComplete_13_mdioDone : ∃ (d : Dev) (rdata op : Nat) (e f : Dev), ((d.ethM 4).mdio = some op) ∧
    (e = d.setEth 4 { d.ethM 4 with mdio := none }) ∧ (f = (if 2 ≤ op then (if e.mdioOwned then e.wr 0x06C ETH_MDIO_STAT.RDATA
    rdata else e.wrFree 0x06C ETH_MDIO_STAT.RDATA) else e)) :=
  ⟨D0.setEth 4 { EthMac.reset with mdio := some 3 }, 77, 3, _, _, by decide +kernel, rfl, rfl⟩

theorem witness_EthernetCommandsComplete_14_ethCrumb0Read : ∃ (d : Dev) (m : Nat) (k : List Nat) (e f : Dev), (m < 5) ∧
    (d.answers (0x068 + m) = true) ∧ (k = nth [0, 0, 0, 0] (d.ethM m).crumbs 0) ∧ (e = (d.setEth m
    { d.ethM m with crumbs := (d.ethM m).crumbs.drop 1 }).wr (ethPage m) ETH_CRUMB_STAT.COUNT ((d.ethM m).crumbs.length - 1)) ∧ (f
    = (e.wrW (ethPage m) ETH_CRUMB0.word.off (BitVec.ofNat 32 (nth 0 k 0))).wrW (ethPage m) ETH_CRUMB1.word.off (BitVec.ofNat 32
    (nth 0 k 1))) :=
  ⟨D0, 4, _, _, _, by decide +kernel, by decide +kernel, rfl, rfl, rfl⟩

theorem witness_EthernetCommandsComplete_15_ethOctLoRead : ∃ (d : Dev) (m : Nat) (tx : Bool) (n : Nat), (m < 5) ∧ (d.answers
    (0x068 + m) = true) ∧ (n = (if tx then (d.ethM m).txOct else (d.ethM m).rxOct)) :=
  ⟨D0, 4, true, 0, by decide +kernel, by decide +kernel, by decide +kernel⟩

theorem witness_EthernetCommandsComplete_16_serdesLaneStatusChange : ∃ (d : Dev) (lane status : Nat), (lane < 5) ∧ (d.active
    0x06D = true) ∧ (d.rd 0x06D ⟨0x98, 0, 6 * lane, 6⟩ ≠ status % 64) :=
  ⟨D0.setState 0x06D .running, 4, 1, by decide +kernel, by decide +kernel, by decide +kernel⟩

theorem witness_TimeCommandsComplete_1_timeSet : ∃ (s u : State) (e : Dev), (s.dev.inService ptpPage = true) ∧ (s.dev.rd
    ptpPage PTP_SET_NS.VALUE < 1000000000) ∧ (u = ({ s with dev := s.dev.wr ptpPage PTP_TIME_CMD.OP 1 } : State).stepTo (timeOf
    (s.dev.rd ptpPage PTP_SET_SEC_LO.VALUE + s.dev.rd ptpPage PTP_SET_HI.VALUE % 2 ^ 16 * 2 ^ 32) (s.dev.rd ptpPage
    PTP_SET_NS.VALUE) 0 + s.dev.setFrac)) ∧ (e = u.dev.timeUnstick) :=
  ⟨sPtp, _, _, by decide +kernel, by decide +kernel, rfl, rfl⟩

theorem witness_TimeCommandsComplete_2_timeStep : ∃ (s u : State) (e : Dev), (s.dev.inService ptpPage = true) ∧ (u =
    ({ s with dev := s.dev.wr ptpPage PTP_TIME_CMD.OP 2 } : State).stepTo (((s.dev.now : Int) + toSigned 32 (s.dev.rd ptpPage
    PTP_SET_NS.VALUE) * (nsU : Int) + (s.dev.setFrac : Int)) % ((2 ^ 48 * secU : Nat) : Int)).toNat) ∧ (e = u.dev.timeUnstick) :=
  ⟨sPtp, _, _, by decide +kernel, rfl, rfl⟩

theorem witness_TimeCommandsComplete_3_ptpTimeNsRead : ∃ (d : Dev) (e : Dev), (d.answers ptpPage = true) ∧ (e = ((d.wr ptpPage
    PTP_TIME_NS.NS (nsOf d.now)).wr ptpPage PTP_TIME_SEC_LO.VALUE (secOf d.now)).wr ptpPage PTP_TIME_SEC_HI.VALUE (secOf d.now / 2
    ^ 32)) :=
  ⟨D0, _, by decide +kernel, rfl⟩

theorem witness_TimeCommandsComplete_4_servoSample : ∃ (s : State) (ns : Nat) (e : Int) (f : Dev), (s.dev.answers ptpPage =
    true) ∧ (f = s.dev.complete .okay) ∧ (f.rdB ptpPage PTP_SERVO_CFG.SRC = false) ∧ (f.servoOn = true) ∧ (f.time.cmdAt ≠ some
    f.now) ∧ (e = toSigned 32 ns * 65536 + f.rd ptpPage PTP_SERVO_OFS_FRAC.OFS_FRAC) ∧ ((f.servoNote e).servoSteps e = false) :=
  ⟨sServo, 5, _, _, by decide +kernel, rfl, by decide +kernel, by decide +kernel, by decide +kernel, rfl, by decide +kernel⟩

theorem witness_TimeCommandsComplete_5_servoSample : ∃ (s u : State) (ns : Nat) (e : Int) (f g : Dev), (s.dev.answers ptpPage
    = true) ∧ (f = s.dev.complete .okay) ∧ (f.rdB ptpPage PTP_SERVO_CFG.SRC = false) ∧ (f.servoOn = true) ∧ (f.time.cmdAt ≠ some
    f.now) ∧ (e = toSigned 32 ns * 65536 + f.rd ptpPage PTP_SERVO_OFS_FRAC.OFS_FRAC) ∧ ((f.servoNote e).servoSteps e = true) ∧ (u
    = ({ s with dev := f.servoNote e } : State).stepTo ((((f.servoNote e).now : Int) - e * (fracU : Int)) % ((2 ^ 48 * secU : Nat)
    : Int)).toNat) ∧ (g = (u.dev.wr ptpPage PTP_SERVO_STAT.LOCK_CNT 0).servoEnter 1) :=
  ⟨sServoStep, _, 2000, _, _, _, by decide +kernel, rfl, by decide +kernel, by decide +kernel, by decide +kernel, rfl, by decide +kernel, rfl, rfl⟩

theorem witness_TimeCommandsComplete_6_servoHoldoverTimeout : ∃ (d : Dev) (e : Dev), (d.sstate = 1 ∨ d.sstate = 2) ∧ (e =
    (d.reach d.holdAt).servoEnter 3) :=
  ⟨D0.wr ptpPage PTP_SERVO_STAT.SSTATE 2, _, by decide +kernel, rfl⟩

theorem witness_TimeCommandsComplete_7_eventTimerFire : ∃ (d : Dev) (timer : Nat), (timer < 16) ∧ (d.bstate ptpPage =
    .running) ∧ (d.rdB ptpPage (PTP_TMR.EN.at timer) = true) :=
  ⟨dTmr, 15, by decide +kernel, by decide +kernel, by decide +kernel⟩

theorem witness_TimeCommandsComplete_8_eventTimerPulseEnd : ∃ (d : Dev) (timer t : Nat) (e : Dev), (look d.time.pulses timer =
    some t) ∧ (e = d.reach t) :=
  ⟨{ D0 with time := { D0.time with pulses := [(3, 8)] } }, 3, 8, _, by decide +kernel, rfl⟩

theorem witness_TimeCommandsComplete_9_eventInputEdge : ∃ (s t : State) (input ball ns frac : Nat) (falling : Bool) (e f :
    Dev), (e = s.dev.reach (s.dev.now + ns * nsU + frac % 2 ^ 16 * fracU)) ∧ (f =
    { e with balls := { e.balls with gpio := put e.balls.gpio ball (!falling) } }) ∧ (f.eviTakes input ball falling f.now = true)
    ∧ (t = { s with dev := f.eviCapture input f.now }) :=
  ⟨sEvi, _, 0, 5, 0, 0, false, _, _, rfl, rfl, by decide +kernel, rfl⟩

theorem witness_TimeCommandsComplete_10_ptpEviRead : ∃ (d : Dev) (input : Nat) (e : Dev), (input < 2) ∧ (d.answers ptpPage =
    true) ∧ (e = d.wrW ptpPage (PTP_EVI.FRAC.at input).off (BitVec.ofNat 32 (nth 0 d.time.eviNew input))) :=
  ⟨D0, 1, _, by decide +kernel, by decide +kernel, rfl⟩

theorem witness_HartCommandsComplete_1_hartInstruction : ∃ (s u t : State) (core w len raw : Nat) (ecc : EccFact), (s.runs
    core = true) ∧ ((s.hart core).wait = none) ∧ ((s.hart core).wfi = false ∨ s.wfiEnds core = true) ∧ ((s.hart core).trigger 2
    (s.hart core).pc.toNat = none) ∧ (u = s.onHart core fun h => { h with wfi := false }) ∧ (t = (if ecc = .corrected then
    u.onHart core (·.corrected) else u)) ∧ ((t.fetch core).2 = .ok (some w, len, raw)) ∧ (ecc = .clean ∨ ecc = .corrected ∨ ecc =
    .uncorrectable 0) :=
  ⟨sHart, _, _, 1, 0x13, 4, 0x13, .clean, by decide +kernel, by decide +kernel, by decide +kernel, by decide +kernel, rfl, rfl, by decide +kernel, by decide +kernel⟩

theorem witness_HartCommandsComplete_2_cboClean : ∃ (s : State) (core rs1 : Nat), (s.runs core = true) ∧ ((s.hart core).wait =
    none) ∧ ((s.hart core).wfi = false) :=
  ⟨sHart, 1, 5, by decide +kernel, by decide +kernel, by decide +kernel⟩

theorem witness_HartCommandsComplete_3_cboFlush : ∃ (s : State) (core rs1 : Nat), (s.runs core = true) ∧ ((s.hart core).wait =
    none) ∧ ((s.hart core).wfi = false) :=
  ⟨sHart, 1, 5, by decide +kernel, by decide +kernel, by decide +kernel⟩

theorem witness_HartCommandsComplete_4_cboInval : ∃ (s : State) (core rs1 : Nat), (s.runs core = true) ∧ ((s.hart core).wait =
    none) ∧ ((s.hart core).wfi = false) :=
  ⟨sHart, 1, 5, by decide +kernel, by decide +kernel, by decide +kernel⟩

theorem witness_HartCommandsComplete_5_hartInterruptEntry : ∃ (s : State) (core i : Nat), (s.runs core = true) ∧ ((s.hart
    core).wait = none) ∧ ((s.hart core).wfi = false ∨ s.dev.pstate ≠ 2) ∧ (s.nextIrq core = some i) :=
  ⟨sIrq, 1, 3, by decide +kernel, by decide +kernel, by decide +kernel, by decide +kernel⟩

theorem witness_HartCommandsComplete_6_parkedHartMsip : ∃ (s : State) (hart : Nat) (h : Hart) (f : Dev × Bool), (hart < 8) ∧
    (s.awake = true) ∧ ((s.hart hart).halted = false) ∧ ((s.hart hart).parked = true ∨ (s.hart hart).running = false) ∧ (bit
    s.dev.ctl.msip hart = true) ∧ (h = (if (s.hart hart).parked then s.hart hart else Hart.parkedAt)) ∧ (f = (s.dev.setMsip hart
    false).fillLine (lineOf (mailbox + 0x40 + 8 * hart))) :=
  ⟨sParked, 1, _, _, by decide +kernel, by decide +kernel, by decide +kernel, by decide +kernel, by decide +kernel, rfl, rfl⟩

theorem witness_InterruptControllerCommandsComplete_1_plicClaim : ∃ (d : Dev) (context src : Nat), (context < 16) ∧
    (d.plicBest context = some src) :=
  ⟨dPlic, 1, 5, by decide +kernel, by decide +kernel⟩

theorem witness_InterruptControllerCommandsComplete_2_plicComplete : ∃ (d : Dev) (context source : Nat), (context < 16) ∧
    (source < 1024) ∧ (d.plicEnabled context source = true) :=
  ⟨dPlic, 1, 5, by decide +kernel, by decide +kernel, by decide +kernel⟩

theorem witness_InterruptControllerCommandsComplete_4_mtimerCompare : ∃ (d : Dev) (hart : Nat), (hart < 8) :=
  ⟨D0, 7, by decide +kernel⟩

theorem witness_PcieCommandsComplete_1_pcieLinkChange : ∃ (d : Dev) (gen width : Nat) (reversed : Bool), (d.linkUp = false) ∧
    (d.rdB 0x130 PCIE_CTL.LTSSM_EN = true) ∧ (d.pcie.perst = false) ∧ (1 ≤ gen) ∧ (gen ≤ d.rd 0x130 PCIE_CTL.MAX_GEN + 1) ∧ (1 ≤
    width) ∧ (width ≤ (if d.rdB 0x130 PCIE_CTL.X1 then 1 else 2)) :=
  ⟨{ (D0.wr 0x130 PCIE_CTL.LTSSM_EN 1) with pcie := { D0.pcie with perst := false } }, 1, 1, true, by decide +kernel, by decide +kernel, by decide +kernel, by decide +kernel, by decide +kernel, by decide +kernel, by decide +kernel⟩

theorem witness_PcieCommandsComplete_2_pcieLinkChange : ∃ (d : Dev) (gen width : Nat) (reversed : Bool), (d.linkUp = true) :=
  ⟨D0.wr 0x130 PCIE_LINK.UP 1, 1, 1, false, by decide +kernel⟩

theorem witness_PcieCommandsComplete_3_pcieOutboundCompletion : ∃ (d : Dev) (index outcome data : Nat) (r : OutRead) (a : Code
    × Nat), (d.pcie.reads[index]? = some r) ∧ (r.answer = none) ∧ (a = (outcomeCode outcome, if outcomeCode outcome = .okay then
    data % 256 ^ r.size else 0)) :=
  ⟨dOutRead, 0, 0, 7, outRead0, _, by decide +kernel, by decide +kernel, rfl⟩

theorem witness_PcieCommandsComplete_4_pcieCplTimeout : ∃ (d : Dev) (index : Nat) (r : OutRead) (e : Dev),
    (d.pcie.reads[index]? = some r) ∧ (r.answer = none) ∧ (e = ((d.reach ((r.since + d.cplTo * 1000) * nsU)).cnt 0x130
    PCIE_ERR_CNT.CPL_TO_CNT).pcieInt 2) :=
  ⟨dOutRead, 0, outRead0, _, by decide +kernel, by decide +kernel, rfl⟩

theorem witness_PcieCommandsComplete_5_pcieIntxMessage : ∃ (d : Dev) (pin : Nat) (high : Bool), (d.endpoint = false) ∧
    (d.linkUp = true) ∧ (pin < 4) :=
  ⟨D0.wr 0x130 PCIE_LINK.UP 1, 3, true, by decide +kernel, by decide +kernel, by decide +kernel⟩

theorem witness_PcieCommandsComplete_6_msixVectorSignal : ∃ (d : Dev) (v : Nat), (v < 64) ∧ (d.endpoint = true) ∧ (d.linkUp =
    true) ∧ (d.rdB 0x132 (PCIE_MSIX_MAP.EN.at v) = true) ∧ (d.plicRaised (d.rd 0x132 (PCIE_MSIX_MAP.SOURCE.at v)) = true) :=
  ⟨dMsix, 0, by decide +kernel, by decide +kernel, by decide +kernel, by decide +kernel, by decide +kernel⟩

theorem witness_PcieCommandsComplete_7_pcieFlr : ∃ (d : Dev), (d.endpoint = true) ∧ (d.linkUp = true) :=
  ⟨sPcie.dev, by decide +kernel, by decide +kernel⟩

theorem witness_PcieCommandsComplete_8_perstAssert : ∃ (d : Dev), (d.pcie.perst = false) :=
  ⟨{ D0 with pcie := { D0.pcie with perst := false } }, by decide +kernel⟩

theorem witness_PcieCommandsComplete_9_perstRelease : ∃ (d : Dev), (d.pcie.perst = true) :=
  ⟨{ D0 with pcie := { D0.pcie with perst := true } }, by decide +kernel⟩

theorem witness_PcieCommandsComplete_10_pcieCfgRead : ∃ (d : Dev) (status data ty : Nat), (d.answers 0x133 = true) ∧
    (d.cfgType = some ty) :=
  ⟨D0.wr 0x130 PCIE_LINK.UP 1, 0, 7, 0, by decide +kernel, by decide +kernel⟩

theorem witness_PcieCommandsComplete_11_pcieCfgWrite : ∃ (d : Dev) (value status ty : Nat), (d.answers 0x133 = true) ∧
    (d.cfgType = some ty) :=
  ⟨D0.wr 0x130 PCIE_LINK.UP 1, 7, 0, 0, by decide +kernel, by decide +kernel⟩

theorem witness_PcieCommandsComplete_12_pcieCfgRead : ∃ (d : Dev) (status data : Nat), (d.answers 0x133 = true) ∧ (d.cfgType =
    none) :=
  ⟨D0, 0, 7, by decide +kernel, by decide +kernel⟩

theorem witness_PcieCommandsComplete_13_pcieL1Change : ∃ (d : Dev), (d.linkUp = true) :=
  ⟨D0.wr 0x130 PCIE_LINK.UP 1, by decide +kernel⟩

theorem witness_PcieCommandsComplete_14_pcieL1Change : ∃ (d : Dev) (kind : Nat), (2 ≤ kind) ∧ (d.linkUp = true) ∧ (d.rdB 0x130
    PCIE_LINK.L1 = true) :=
  ⟨(D0.wr 0x130 PCIE_LINK.UP 1).wr 0x130 PCIE_LINK.L1 1, 2, by decide +kernel, by decide +kernel, by decide +kernel⟩

theorem witness_PcieCommandsComplete_15_pcieL1Change : ∃ (d : Dev), (d.linkUp = true) ∧ (d.rdB 0x130 PCIE_CTL.ASPM_L1 = true)
    :=
  ⟨(D0.wr 0x130 PCIE_LINK.UP 1).wr 0x130 PCIE_CTL.ASPM_L1 1, by decide +kernel, by decide +kernel⟩

theorem witness_PcieCommandsComplete_16_pcieErrorMessage : ∃ (d : Dev), (d.linkUp = true ∨ d.endpoint = true) :=
  ⟨D0.wr 0x130 PCIE_LINK.UP 1, by decide +kernel⟩

theorem witness_DispatcherCommandsComplete_1_threadPost : ∃ (d : Dev) (handle level aff : Nat), (d.inService dspPage = true) ∧
    (d.handleOk handle = true) ∧ (handle < 65536) ∧ (level < 64) ∧ (aff < 256) :=
  ⟨(D0.setState dspPage .running).wr dspPage DSP_CFG.THREADS_LOG2 8, 255, 9, 0, by decide +kernel, by decide +kernel, by decide +kernel, by decide +kernel, by decide +kernel⟩

theorem witness_DispatcherCommandsComplete_2_threadCancel : ∃ (d : Dev) (handle : Nat), (d.inService dspPage = true) ∧
    (d.handleOk handle = true) ∧ (handle < 65536) :=
  ⟨(D0.setState dspPage .running).wr dspPage DSP_CFG.THREADS_LOG2 8, 255, by decide +kernel, by decide +kernel, by decide +kernel⟩

theorem witness_DispatcherCommandsComplete_3_dspAsk : ∃ (d : Dev) (core : Nat) (r : Dev × Option Nat), (core < 8) ∧ (d.active
    dspPage = true) ∧ ((d.port core).wait = none) ∧ (r = d.ask core false) :=
  ⟨D0.setState dspPage .running, 7, _, by decide +kernel, by decide +kernel, by decide +kernel, rfl⟩

theorem witness_DispatcherCommandsComplete_4_dspYield : ∃ (d : Dev) (core : Nat) (r : Dev × Option Nat), (core < 8) ∧
    (d.active dspPage = true) ∧ ((d.port core).wait = none) ∧ (r = d.ask core true) :=
  ⟨D0.setState dspPage .running, 7, _, by decide +kernel, by decide +kernel, by decide +kernel, rfl⟩

theorem witness_DispatcherCommandsComplete_5_askTimeout : ∃ (d : Dev) (core t : Nat) (e : Dev), (core < 8) ∧ ((d.port
    core).wait = some t) ∧ (e = d.reach ((t + 1000 * d.rd dspPage DSP_CFG.ASK_WAIT) * nsU)) :=
  ⟨dWait, 1, 5, _, by decide +kernel, by decide +kernel, rfl⟩

theorem witness_DispatcherCommandsComplete_6_askInterrupted : ∃ (d : Dev) (core t : Nat), (core < 8) ∧ ((d.port core).wait =
    some t) :=
  ⟨dWait, 1, 5, by decide +kernel, by decide +kernel⟩

theorem witness_DispatcherCommandsComplete_7_dspFloorWrite : ∃ (d : Dev) (value : Nat), (d.answers dspPage = true) :=
  ⟨D0, 9, by decide +kernel⟩

theorem witness_DispatcherCommandsComplete_8_dspCoreEnWrite : ∃ (d : Dev) (core : Nat) (en : Bool), (core < 8) ∧ (d.answers
    dspPage = true) :=
  ⟨D0, 7, true, by decide +kernel, by decide +kernel⟩

theorem witness_MemoryCommandsComplete_1_scrubStep : ∃ (d : Dev) (addr : Nat), (d.bstate srmPage = .running) ∧ (d.rdB srmPage
    SRM_SCRUB.SCRUB_EN = true) ∧ ((sramBase ≤ addr ∧ addr < hamperBase ∧ d.group (d.groupOf addr) = 0) ∨ (hamperBase ≤ addr ∧ addr
    < hamperBase + 0x100000 ∧ d.rdB srmPage SRM_HAMPER.WIPING = false)) :=
  ⟨(D0.setState srmPage .running).wr srmPage SRM_SCRUB.SCRUB_EN 1, 0x10000000, by decide +kernel, by decide +kernel, by decide +kernel⟩

theorem witness_MemoryCommandsComplete_2_scrubStep : ∃ (d : Dev) (addr o : Nat), (d.bstate srmPage = .running) ∧ (d.rdB
    srmPage SRM_SCRUB.SCRUB_EN = true) ∧ ((sramBase ≤ addr ∧ addr < hamperBase ∧ d.group (d.groupOf addr) = 0) ∨ (hamperBase ≤
    addr ∧ addr < hamperBase + 0x100000 ∧ d.rdB srmPage SRM_HAMPER.WIPING = false)) :=
  ⟨(D0.setState srmPage .running).wr srmPage SRM_SCRUB.SCRUB_EN 1, 0x10300000, 0, by decide +kernel, by decide +kernel, by decide +kernel⟩

theorem witness_MemoryCommandsComplete_3_srmThermosWrite : ∃ (d : Dev) (value : Nat), (d.answers srmPage = true) :=
  ⟨D0, 1, by decide +kernel⟩

theorem witness_MemoryCommandsComplete_4_groupWakeDone : ∃ (d : Dev) (group : Nat) (e : Dev), (group < 8) ∧ (d.group group =
    1) ∧ (e = (d.setGroup group 0).heldServe) :=
  ⟨D0.setGroup 7 1, 7, _, by decide +kernel, by decide +kernel, rfl⟩

theorem witness_MemoryCommandsComplete_5_groupZeroingDone : ∃ (d : Dev) (group : Nat), (group < 8) ∧ (d.group group = 4) :=
  ⟨D0.setGroup 7 4, 7, by decide +kernel, by decide +kernel⟩

theorem witness_MemoryCommandsComplete_6_groupIdleReturn : ∃ (d : Dev) (group : Nat), (group < 8) ∧ (d.bstate srmPage =
    .running) ∧ (d.group group = 0) ∧ (d.groupMode group = 1) ∧ (group ∈ d.ms.woken) ∧ (d.rd srmPage SRM_THERMOS_CFG.IDLE_RET ≠ 0)
    :=
  ⟨dWoken, 7, by decide +kernel, by decide +kernel, by decide +kernel, by decide +kernel, by decide +kernel, by decide +kernel⟩

theorem witness_MemoryCommandsComplete_7_hamperWipeRequest : ∃ (d : Dev) (e : Dev), (d.answers 0x078 = true) ∧ (e =
    d.freshCells hamperBase (hamperBase + 0x100000)) :=
  ⟨D0, _, by decide +kernel, rfl⟩

theorem witness_MemoryCommandsComplete_8_hamperWipeDone : ∃ (d : Dev) (e : Dev), (d.rdB srmPage SRM_HAMPER.WIPING = true) ∧ (e
    = d.freshCells hamperBase (hamperBase + 0x100000)) :=
  ⟨D0.wr srmPage SRM_HAMPER.WIPING 1, _, by decide +kernel, rfl⟩

theorem witness_DramCommandsComplete_1_dramRefreshDue : ∃ (d : Dev) (channel rank bg ba k : Nat), (d.active drmPage = true) ∧
    (k = channel * 32 + rank * 16 + bg * 4 + ba) ∧ (d.bankUrgent k = false ∨ d.rdB drmPage DRM_REFRESH.PER_BANK = false ∨ min 8
    (d.rd drmPage DRM_REFRESH.POSTPONE) ≤ lookOr 0 d.ms.postponed k) :=
  ⟨D0.setState drmPage .running, 0, 0, 0, 0, _, by decide +kernel, rfl, by decide +kernel⟩

theorem witness_DramCommandsComplete_2_dramRefreshDue : ∃ (d : Dev) (channel rank bg ba k : Nat), (d.active drmPage = true) ∧
    (k = channel * 32 + rank * 16 + bg * 4 + ba) ∧ (d.bankUrgent k = true) ∧ (d.rdB drmPage DRM_REFRESH.PER_BANK = true) ∧ (lookOr
    0 d.ms.postponed k < min 8 (d.rd drmPage DRM_REFRESH.POSTPONE)) :=
  ⟨dUrgent, 0, 0, 0, 0, _, by decide +kernel, rfl, by decide +kernel, by decide +kernel, by decide +kernel⟩

theorem witness_DramCommandsComplete_3_mr4Poll : ∃ (d : Dev) (channel rate : Nat) (high trip : Bool) (e f : Dev), (channel <
    4) ∧ (d.active drmPage = true) ∧ (e = d.wr (phyPage channel) DRM_PHY_STAT.REF_RATE rate) ∧ (f = (if high then e.ev drmPage 12
    else e)) :=
  ⟨D0.setState drmPage .running, 3, 5, true, false, _, _, by decide +kernel, by decide +kernel, rfl, rfl⟩

theorem witness_DramCommandsComplete_4_dramPowerDownEntry : ∃ (d : Dev) (channel : Nat), (channel < 4) ∧ (d.active drmPage =
    true) ∧ (d.rd drmPage DRM_SR.PD_IDLE ≠ 0) ∧ (d.channelIdle channel = true) :=
  ⟨(D0.setState drmPage .running).wr drmPage DRM_SR.PD_IDLE 1, 3, by decide +kernel, by decide +kernel, by decide +kernel, by decide +kernel⟩

theorem witness_DramCommandsComplete_5_dramSelfRefreshEntry : ∃ (d : Dev) (channel : Nat) (e : Dev), (channel < 4) ∧ (d.active
    drmPage = true) ∧ (d.pstate = 2) ∧ (d.channelIdle channel = true) ∧ (e =
    { d with ms := { d.ms with rows := d.ms.rows.filter fun r => decide (r.1 / 32 ≠ channel) } }) :=
  ⟨(D0.setState drmPage .running).wr 0x001 PWR_STATE.STATE 2, 3, _, by decide +kernel, by decide +kernel, by decide +kernel, by decide +kernel, rfl⟩

theorem witness_DramCommandsComplete_6_dramReadReturn : ∃ (d : Dev) (channel ns i data : Nat) (near : NearFact) (ecc :
    EccFact) (r : DramReq) (e : Dev), (d.active drmPage = true) ∧ (d.ms.dq.zipIdx.find? (fun r => decide (r.1.ch = channel) &&
    r.1.issued.isSome && r.1.answer.isNone) = some (r, i)) ∧ (r.issued = some data) ∧ (e = (((d.reach ((r.atNs + ns) *
    nsU)).dramLatency (dramPort r.who) ns).dramReturn i r data ecc)) :=
  ⟨dDq, 0, 90, 0, 7, ⟨false, false⟩, .clean, dramReq0, _, by decide +kernel, by decide +kernel, by decide +kernel, rfl⟩

theorem witness_DramCommandsComplete_7_dramPeriodicUpdate : ∃ (d : Dev) (channel : Nat) (zq : Bool), (channel < 4) ∧ (d.active
    drmPage = true) :=
  ⟨D0.setState drmPage .running, 3, false, by decide +kernel, by decide +kernel⟩

theorem witness_DramCommandsComplete_8_dramTrain : ∃ (d : Dev) (steps ch : Nat) (e f : Dev), (d.rdB drmPage
    DRM_TRAIN_STAT.BUSY = false) ∧ (d.bstate drmPage = .stopped) ∧ (∀ k < 4, bit ch k = true → d.bstate (phyPage k) = .running) ∧
    (d.answers 0x079 = true) ∧ (e = ((d.wr drmPage DRM_TRAIN_CMD.OP 0).wr drmPage DRM_TRAIN_CMD.STEPS steps).wr drmPage
    DRM_TRAIN_CMD.CH ch) ∧ (f = (e.wr drmPage DRM_TRAIN_STAT.REFUSED 0).wr drmPage DRM_TRAIN_STAT.BUSY 1) :=
  ⟨D0.setState (phyPage 1) .running, 63, 2, _, _, by decide +kernel, by decide +kernel, by decide +kernel, by decide +kernel, rfl, rfl⟩

theorem witness_DramCommandsComplete_9_dramTrainSave : ∃ (d : Dev) (ch : Nat) (e f : Dev), (d.rdB drmPage DRM_TRAIN_STAT.BUSY
    = false) ∧ (d.bstate drmPage = .stopped) ∧ (∀ k < 4, bit ch k = true → d.bstate (phyPage k) = .running) ∧ (d.answers 0x079 =
    true) ∧ (e = ((d.wr drmPage DRM_TRAIN_CMD.OP 1).wr drmPage DRM_TRAIN_CMD.STEPS 0).wr drmPage DRM_TRAIN_CMD.CH ch) ∧ (f = (e.wr
    drmPage DRM_TRAIN_STAT.REFUSED 0).wr drmPage DRM_TRAIN_STAT.BUSY 1) :=
  ⟨D0.setState (phyPage 1) .running, 2, _, _, by decide +kernel, by decide +kernel, by decide +kernel, by decide +kernel, rfl, rfl⟩

theorem witness_DramCommandsComplete_10_dramTrainRestore : ∃ (d : Dev) (ch : Nat) (e f : Dev), (d.rdB drmPage
    DRM_TRAIN_STAT.BUSY = false) ∧ (d.bstate drmPage = .stopped) ∧ (∀ k < 4, bit ch k = true → d.bstate (phyPage k) = .running) ∧
    (d.answers 0x079 = true) ∧ (e = ((d.wr drmPage DRM_TRAIN_CMD.OP 2).wr drmPage DRM_TRAIN_CMD.STEPS 0).wr drmPage
    DRM_TRAIN_CMD.CH ch) ∧ (f = (e.wr drmPage DRM_TRAIN_STAT.REFUSED 0).wr drmPage DRM_TRAIN_STAT.BUSY 1) :=
  ⟨D0.setState (phyPage 1) .running, 2, _, _, by decide +kernel, by decide +kernel, by decide +kernel, by decide +kernel, rfl, rfl⟩

theorem witness_DramCommandsComplete_11_dramTrainDone : ∃ (d : Dev) (fails : List Nat) (op steps ch : Nat), (d.ms.train = some
    (op, steps, ch)) :=
  ⟨{ D0 with ms := { D0.ms with train := some (0, 63, 15) } }, [0, 0, 0, 0], 0, 63, 15, by decide +kernel⟩

theorem witness_DramCommandsComplete_12_drmErrLoRead : ∃ (d : Dev), (d.answers 0x079 = true) :=
  ⟨D0, by decide +kernel⟩

theorem witness_SecurityCommandsStart_1_rand : ∃ (d : Dev) (e g : Dev) (l : List Nat), (d.answers secPage = true) ∧ (d.rdB
    secPage SEC_CMD_STAT.BUSY = false) ∧ (e = (((d.wr secPage SEC_CMD.OP 1).wr secPage SEC_CMD.GO 1).wr secPage SEC_CMD_STAT.BUSY
    1).wr secPage SEC_CMD_STAT.OP 1) ∧ (e.inService secPage = true) ∧ (e.secRead (e.rd secPage SEC_CMD_ADDR.ADDR * 64) 64 = (g,
    some l)) :=
  ⟨dSec, _, _, List.replicate 64 0, by decide +kernel, by decide +kernel, rfl, by decide +kernel, Prod.ext rfl (by decide +kernel)⟩

theorem witness_SecurityCommandsStart_2_genKey : ∃ (d : Dev) (e g : Dev) (l : List Nat), (d.answers secPage = true) ∧ (d.rdB
    secPage SEC_CMD_STAT.BUSY = false) ∧ (e = (((d.wr secPage SEC_CMD.OP 2).wr secPage SEC_CMD.GO 1).wr secPage SEC_CMD_STAT.BUSY
    1).wr secPage SEC_CMD_STAT.OP 2) ∧ (e.inService secPage = true) ∧ (e.rdB secPage SEC_STATUS.TAMPERED = false) ∧ (e.rdB secPage
    SEC_STATUS.LC_PENDING = false) ∧ (e.secRead (e.rd secPage SEC_CMD_ADDR.ADDR * 64) 64 = (g, some l)) :=
  ⟨dSec, _, _, List.replicate 64 0, by decide +kernel, by decide +kernel, rfl, by decide +kernel, by decide +kernel, by decide +kernel, Prod.ext rfl (by decide +kernel)⟩

theorem witness_SecurityCommandsStart_3_derive : ∃ (d : Dev) (e g : Dev) (l : List Nat), (d.answers secPage = true) ∧ (d.rdB
    secPage SEC_CMD_STAT.BUSY = false) ∧ (e = (((d.wr secPage SEC_CMD.OP 3).wr secPage SEC_CMD.GO 1).wr secPage SEC_CMD_STAT.BUSY
    1).wr secPage SEC_CMD_STAT.OP 3) ∧ (e.inService secPage = true) ∧ (e.rdB secPage SEC_STATUS.TAMPERED = false) ∧ (e.rdB secPage
    SEC_STATUS.LC_PENDING = false) ∧ (e.secRead (e.rd secPage SEC_CMD_ADDR.ADDR * 64) 64 = (g, some l)) :=
  ⟨dSec, _, _, List.replicate 64 0, by decide +kernel, by decide +kernel, rfl, by decide +kernel, by decide +kernel, by decide +kernel, Prod.ext rfl (by decide +kernel)⟩

theorem witness_SecurityCommandsStart_4_importKey : ∃ (d : Dev) (e g : Dev) (l : List Nat), (d.answers secPage = true) ∧
    (d.rdB secPage SEC_CMD_STAT.BUSY = false) ∧ (e = (((d.wr secPage SEC_CMD.OP 4).wr secPage SEC_CMD.GO 1).wr secPage
    SEC_CMD_STAT.BUSY 1).wr secPage SEC_CMD_STAT.OP 4) ∧ (e.inService secPage = true) ∧ (e.rdB secPage SEC_STATUS.TAMPERED =
    false) ∧ (e.rdB secPage SEC_STATUS.LC_PENDING = false) ∧ (e.secRead (e.rd secPage SEC_CMD_ADDR.ADDR * 64) 64 = (g, some l)) :=
  ⟨dSec, _, _, List.replicate 64 0, by decide +kernel, by decide +kernel, rfl, by decide +kernel, by decide +kernel, by decide +kernel, Prod.ext rfl (by decide +kernel)⟩

theorem witness_SecurityCommandsStart_5_wrap : ∃ (d : Dev) (e g : Dev) (l : List Nat), (d.answers secPage = true) ∧ (d.rdB
    secPage SEC_CMD_STAT.BUSY = false) ∧ (e = (((d.wr secPage SEC_CMD.OP 5).wr secPage SEC_CMD.GO 1).wr secPage SEC_CMD_STAT.BUSY
    1).wr secPage SEC_CMD_STAT.OP 5) ∧ (e.inService secPage = true) ∧ (e.rdB secPage SEC_STATUS.TAMPERED = false) ∧ (e.rdB secPage
    SEC_STATUS.LC_PENDING = false) ∧ (e.secRead (e.rd secPage SEC_CMD_ADDR.ADDR * 64) 64 = (g, some l)) :=
  ⟨dSec, _, _, List.replicate 64 0, by decide +kernel, by decide +kernel, rfl, by decide +kernel, by decide +kernel, by decide +kernel, Prod.ext rfl (by decide +kernel)⟩

theorem witness_SecurityCommandsStart_6_loadKey : ∃ (d : Dev) (e g : Dev) (l : List Nat), (d.answers secPage = true) ∧ (d.rdB
    secPage SEC_CMD_STAT.BUSY = false) ∧ (e = (((d.wr secPage SEC_CMD.OP 6).wr secPage SEC_CMD.GO 1).wr secPage SEC_CMD_STAT.BUSY
    1).wr secPage SEC_CMD_STAT.OP 6) ∧ (e.inService secPage = true) ∧ (e.rdB secPage SEC_STATUS.TAMPERED = false) ∧ (e.rdB secPage
    SEC_STATUS.LC_PENDING = false) ∧ (e.secRead (e.rd secPage SEC_CMD_ADDR.ADDR * 64) 64 = (g, some l)) :=
  ⟨dSec, _, _, List.replicate 64 0, by decide +kernel, by decide +kernel, rfl, by decide +kernel, by decide +kernel, by decide +kernel, Prod.ext rfl (by decide +kernel)⟩

theorem witness_SecurityCommandsStart_7_clearEntry : ∃ (d : Dev) (e g : Dev) (l : List Nat), (d.answers secPage = true) ∧
    (d.rdB secPage SEC_CMD_STAT.BUSY = false) ∧ (e = (((d.wr secPage SEC_CMD.OP 7).wr secPage SEC_CMD.GO 1).wr secPage
    SEC_CMD_STAT.BUSY 1).wr secPage SEC_CMD_STAT.OP 7) ∧ (e.inService secPage = true) ∧ (e.rdB secPage SEC_STATUS.TAMPERED =
    false) ∧ (e.rdB secPage SEC_STATUS.LC_PENDING = false) ∧ (e.secRead (e.rd secPage SEC_CMD_ADDR.ADDR * 64) 64 = (g, some l)) :=
  ⟨dSec, _, _, List.replicate 64 0, by decide +kernel, by decide +kernel, rfl, by decide +kernel, by decide +kernel, by decide +kernel, Prod.ext rfl (by decide +kernel)⟩

theorem witness_SecurityCommandsStart_8_slotClear : ∃ (d : Dev) (e g : Dev) (l : List Nat), (d.answers secPage = true) ∧
    (d.rdB secPage SEC_CMD_STAT.BUSY = false) ∧ (e = (((d.wr secPage SEC_CMD.OP 9).wr secPage SEC_CMD.GO 1).wr secPage
    SEC_CMD_STAT.BUSY 1).wr secPage SEC_CMD_STAT.OP 9) ∧ (e.inService secPage = true) ∧ (e.rdB secPage SEC_STATUS.TAMPERED =
    false) ∧ (e.rdB secPage SEC_STATUS.LC_PENDING = false) ∧ (e.secRead (e.rd secPage SEC_CMD_ADDR.ADDR * 64) 64 = (g, some l)) :=
  ⟨dSec, _, _, List.replicate 64 0, by decide +kernel, by decide +kernel, rfl, by decide +kernel, by decide +kernel, by decide +kernel, Prod.ext rfl (by decide +kernel)⟩

theorem witness_SecurityCommandsStart_9_ctxSetup : ∃ (d : Dev) (e g : Dev) (l : List Nat), (d.answers secPage = true) ∧ (d.rdB
    secPage SEC_CMD_STAT.BUSY = false) ∧ (e = (((d.wr secPage SEC_CMD.OP 10).wr secPage SEC_CMD.GO 1).wr secPage SEC_CMD_STAT.BUSY
    1).wr secPage SEC_CMD_STAT.OP 10) ∧ (e.inService secPage = true) ∧ (e.rdB secPage SEC_STATUS.TAMPERED = false) ∧ (e.rdB
    secPage SEC_STATUS.LC_PENDING = false) ∧ (e.secRead (e.rd secPage SEC_CMD_ADDR.ADDR * 64) 64 = (g, some l)) :=
  ⟨dSec, _, _, List.replicate 64 0, by decide +kernel, by decide +kernel, rfl, by decide +kernel, by decide +kernel, by decide +kernel, Prod.ext rfl (by decide +kernel)⟩

theorem witness_SecurityCommandsStart_10_ctxSave : ∃ (d : Dev) (e g : Dev) (l : List Nat), (d.answers secPage = true) ∧ (d.rdB
    secPage SEC_CMD_STAT.BUSY = false) ∧ (e = (((d.wr secPage SEC_CMD.OP 11).wr secPage SEC_CMD.GO 1).wr secPage SEC_CMD_STAT.BUSY
    1).wr secPage SEC_CMD_STAT.OP 11) ∧ (e.inService secPage = true) ∧ (e.rdB secPage SEC_STATUS.TAMPERED = false) ∧ (e.rdB
    secPage SEC_STATUS.LC_PENDING = false) ∧ (e.secRead (e.rd secPage SEC_CMD_ADDR.ADDR * 64) 64 = (g, some l)) :=
  ⟨dSec, _, _, List.replicate 64 0, by decide +kernel, by decide +kernel, rfl, by decide +kernel, by decide +kernel, by decide +kernel, Prod.ext rfl (by decide +kernel)⟩

theorem witness_SecurityCommandsStart_11_ctxRestore : ∃ (d : Dev) (e g : Dev) (l : List Nat), (d.answers secPage = true) ∧
    (d.rdB secPage SEC_CMD_STAT.BUSY = false) ∧ (e = (((d.wr secPage SEC_CMD.OP 12).wr secPage SEC_CMD.GO 1).wr secPage
    SEC_CMD_STAT.BUSY 1).wr secPage SEC_CMD_STAT.OP 12) ∧ (e.inService secPage = true) ∧ (e.rdB secPage SEC_STATUS.TAMPERED =
    false) ∧ (e.rdB secPage SEC_STATUS.LC_PENDING = false) ∧ (e.secRead (e.rd secPage SEC_CMD_ADDR.ADDR * 64) 64 = (g, some l)) :=
  ⟨dSec, _, _, List.replicate 64 0, by decide +kernel, by decide +kernel, rfl, by decide +kernel, by decide +kernel, by decide +kernel, Prod.ext rfl (by decide +kernel)⟩

theorem witness_SecurityCommandsStart_12_forerunner : ∃ (d : Dev) (e g : Dev) (l : List Nat), (d.answers secPage = true) ∧
    (d.rdB secPage SEC_CMD_STAT.BUSY = false) ∧ (e = (((d.wr secPage SEC_CMD.OP 13).wr secPage SEC_CMD.GO 1).wr secPage
    SEC_CMD_STAT.BUSY 1).wr secPage SEC_CMD_STAT.OP 13) ∧ (e.inService secPage = true) ∧ (e.rdB secPage SEC_STATUS.TAMPERED =
    false) ∧ (e.rdB secPage SEC_STATUS.LC_PENDING = false) ∧ (e.secRead (e.rd secPage SEC_CMD_ADDR.ADDR * 64) 64 = (g, some l)) :=
  ⟨dSec, _, _, List.replicate 64 0, by decide +kernel, by decide +kernel, rfl, by decide +kernel, by decide +kernel, by decide +kernel, Prod.ext rfl (by decide +kernel)⟩

theorem witness_SecurityCommandsStart_13_otpProg : ∃ (d : Dev) (e g : Dev) (l : List Nat), (d.answers secPage = true) ∧ (d.rdB
    secPage SEC_CMD_STAT.BUSY = false) ∧ (e = (((d.wr secPage SEC_CMD.OP 14).wr secPage SEC_CMD.GO 1).wr secPage SEC_CMD_STAT.BUSY
    1).wr secPage SEC_CMD_STAT.OP 14) ∧ (e.inService secPage = true) ∧ (e.rdB secPage SEC_STATUS.TAMPERED = false) ∧ (e.rdB
    secPage SEC_STATUS.LC_PENDING = false) ∧ (e.secRead (e.rd secPage SEC_CMD_ADDR.ADDR * 64) 64 = (g, some l)) :=
  ⟨dSec, _, _, List.replicate 64 0, by decide +kernel, by decide +kernel, rfl, by decide +kernel, by decide +kernel, by decide +kernel, Prod.ext rfl (by decide +kernel)⟩

theorem witness_SecurityCommandsStart_14_lcAdvance : ∃ (d : Dev) (e g : Dev) (l : List Nat), (d.answers secPage = true) ∧
    (d.rdB secPage SEC_CMD_STAT.BUSY = false) ∧ (e = (((d.wr secPage SEC_CMD.OP 15).wr secPage SEC_CMD.GO 1).wr secPage
    SEC_CMD_STAT.BUSY 1).wr secPage SEC_CMD_STAT.OP 15) ∧ (e.inService secPage = true) ∧ (e.rdB secPage SEC_STATUS.TAMPERED =
    false) ∧ (e.rdB secPage SEC_STATUS.LC_PENDING = false) ∧ (e.secRead (e.rd secPage SEC_CMD_ADDR.ADDR * 64) 64 = (g, some l)) :=
  ⟨dSec, _, _, List.replicate 64 0, by decide +kernel, by decide +kernel, rfl, by decide +kernel, by decide +kernel, by decide +kernel, Prod.ext rfl (by decide +kernel)⟩

theorem witness_SecurityCommandsStart_15_ctxClear : ∃ (d : Dev) (e g : Dev) (l : List Nat), (d.answers secPage = true) ∧
    (d.rdB secPage SEC_CMD_STAT.BUSY = false) ∧ (e = (((d.wr secPage SEC_CMD.OP 16).wr secPage SEC_CMD.GO 1).wr secPage
    SEC_CMD_STAT.BUSY 1).wr secPage SEC_CMD_STAT.OP 16) ∧ (e.inService secPage = true) ∧ (e.rdB secPage SEC_STATUS.TAMPERED =
    false) ∧ (e.rdB secPage SEC_STATUS.LC_PENDING = false) ∧ (e.secRead (e.rd secPage SEC_CMD_ADDR.ADDR * 64) 64 = (g, some l)) :=
  ⟨dSec, _, _, List.replicate 64 0, by decide +kernel, by decide +kernel, rfl, by decide +kernel, by decide +kernel, by decide +kernel, Prod.ext rfl (by decide +kernel)⟩

theorem witness_SecurityCommandsStart_16_slotLoad : ∃ (d : Dev) (e f g : Dev) (l k : List Nat), (d.answers secPage = true) ∧
    (d.rdB secPage SEC_CMD_STAT.BUSY = false) ∧ (e = (((d.wr secPage SEC_CMD.OP 8).wr secPage SEC_CMD.GO 1).wr secPage
    SEC_CMD_STAT.BUSY 1).wr secPage SEC_CMD_STAT.OP 8) ∧ (e.inService secPage = true) ∧ (e.rdB secPage SEC_STATUS.TAMPERED =
    false) ∧ (e.rdB secPage SEC_STATUS.LC_PENDING = false) ∧ (e.secRead (e.rd secPage SEC_CMD_ADDR.ADDR * 64) 64 = (f, some l)) ∧
    (f.slotLoadCheck (secArgs (toWords l 16)) = (g, .ok k)) :=
  ⟨dSecSlot, _, _, _, slotBlock, List.replicate 16 7, by decide +kernel, by decide +kernel, rfl, by decide +kernel, by decide +kernel, by decide +kernel, Prod.ext rfl (by decide +kernel), Prod.ext rfl (by decide +kernel)⟩

theorem witness_SecurityCommandsComplete_1_slotReady : ∃ (d : Dev) (k : Nat) (e : Dev), (d.loadingSlot = some k) ∧ (e = (d.wr
    0x033 (MAC_KEYSLOT.STATE.at k) 2).setSlotPn k 1) :=
  ⟨dSecLoading, 3, _, by decide +kernel, rfl⟩

theorem witness_SecurityCommandsComplete_2_secCmdComplete : ∃ (d : Dev) (fact : SecFact) (r : SecRun) (a : SecArgs) (p : Dev ×
    Nat), (d.sec.cmd = some r) ∧ (d.loadingSlot = none) ∧ (r.early = none) ∧ (a = secArgs r.words) ∧ (p = d.secFinish r.op a fact)
    :=
  ⟨dSecCmd 1 [0, 0, 0, 0, 0], secFact0, secRun 1 [0, 0, 0, 0, 0], _, _, by decide +kernel, by decide +kernel, by decide +kernel, rfl, rfl⟩

theorem witness_SecurityCommandsComplete_3_secCmdComplete : ∃ (d : Dev) (fact : SecFact) (r : SecRun) (code : Nat), (d.sec.cmd
    = some r) ∧ (d.loadingSlot = none) ∧ (r.early = some code) :=
  ⟨dSecEarly, secFact0, { secRun 2 [] with early := some 0x12 }, 0x12, by decide +kernel, by decide +kernel, by decide +kernel⟩

theorem witness_SecurityCommandsComplete_4_secCmdComplete : ∃ (d : Dev) (fact : SecFact) (r : SecRun) (a : SecArgs),
    (d.sec.cmd = some r) ∧ (r.op = 2) ∧ (r.early = none) ∧ (a = secArgs r.words) ∧ (fact.mismatch = false) ∧ (4 ≤ a.entry) :=
  ⟨dSecCmd 2 [0, 0x400, 0, 0, 0], secFact0, secRun 2 [0, 0x400, 0, 0, 0], _, by decide +kernel, by decide +kernel, by decide +kernel, rfl, by decide +kernel, by decide +kernel⟩

theorem witness_SecurityCommandsComplete_5_secCmdComplete : ∃ (d : Dev) (fact : SecFact) (r : SecRun) (a : SecArgs),
    (d.sec.cmd = some r) ∧ (r.op = 7) ∧ (r.early = none) ∧ (a = secArgs r.words) ∧ (fact.mismatch = false) ∧ (4 ≤ a.entry) :=
  ⟨dSecCmd 7 [0, 0x400, 0, 0, 0], secFact0, secRun 7 [0, 0x400, 0, 0, 0], _, by decide +kernel, by decide +kernel, by decide +kernel, rfl, by decide +kernel, by decide +kernel⟩

theorem witness_SecurityCommandsComplete_6_secCmdComplete : ∃ (d : Dev) (fact : SecFact) (r : SecRun) (a : SecArgs),
    (d.sec.cmd = some r) ∧ (r.op = 9) ∧ (r.early = none) ∧ (a = secArgs r.words) ∧ (a.slot < 2304) :=
  ⟨dSecCmd 9 [], secFact0, secRun 9 [], _, by decide +kernel, by decide +kernel, by decide +kernel, rfl, by decide +kernel⟩

theorem witness_SecurityCommandsComplete_7_secCmdComplete : ∃ (d : Dev) (fact : SecFact) (r : SecRun) (a : SecArgs),
    (d.sec.cmd = some r) ∧ (r.op = 16) ∧ (r.early = none) ∧ (a = secArgs r.words) ∧ (fact.mismatch = false) :=
  ⟨dSecCmd 16 [], secFact0, secRun 16 [], _, by decide +kernel, by decide +kernel, by decide +kernel, rfl, by decide +kernel⟩

theorem witness_SecurityCommandsComplete_8_secCmdComplete : ∃ (d : Dev) (fact : SecFact) (r : SecRun) (a : SecArgs),
    (d.sec.cmd = some r) ∧ (r.op = 15) ∧ (r.early = none) ∧ (a = secArgs r.words) ∧ (d.lcByFirmware a.target = 0) :=
  ⟨dSecLc, secFact0, secRun 15 [0, 0, 0, 0, 0x14000000], _, by decide +kernel, by decide +kernel, by decide +kernel, rfl, by decide +kernel⟩

theorem witness_SecurityCommandsComplete_9_secJobPosted : ∃ (d : Dev) (sw : Nat), (d.answers 0x004 = true) ∧ ((sw % 65536 +
    65536 - d.rd secPage SEC_JOB_HW.INDEX) % 65536 ≤ 2 ^ d.rd secPage SEC_JOB_CFG.LOG2) :=
  ⟨D0, 0, by decide +kernel, by decide +kernel⟩

theorem witness_SecurityCommandsComplete_10_secJobDone : ∃ (d : Dev) (e f : Dev) (l : List Nat) (j : SecJob) (x : SecCtx) (r :
    Dev × SecCtx × Nat), (d.secJobs ≠ 0) ∧ (d.inService secPage = true) ∧ (d.secRead (d.rd secPage SEC_JOB_BASE.BASE * 64 + d.rd
    secPage SEC_JOB_HW.INDEX % 2 ^ d.rd secPage SEC_JOB_CFG.LOG2 * 64) 64 = (e, some l)) ∧ (j = secJob (toWords l 16)) ∧ (look
    e.sec.ctx j.ctx = some x) ∧ (1 ≤ j.op) ∧ (j.op ≤ 6) ∧ ((modeOps x.mode).contains j.op = true) ∧ (jobOk x j = true) ∧ (r =
    e.runJob x j) ∧ (f = (if r.2.2 = 1 then (r.1.setCtx j.ctx r.2.1).cnt secPage SEC_CNT_AUTHFAIL.COUNT else r.1.setCtx j.ctx
    r.2.1)) :=
  ⟨dSecJob, _, _, secJobBlock, _, ctx0, _, by decide +kernel, by decide +kernel, Prod.ext rfl (by decide +kernel), rfl, by decide +kernel, by decide +kernel, by decide +kernel, by decide +kernel, by decide +kernel, rfl, rfl⟩

theorem witness_TamperAndDebugCommandsComplete_1_tamperTrip : ∃ (d : Dev) (source : Nat) (e : Dev), (source < 6) ∧
    (d.tamperResp source ≠ 0) ∧ (source < 2 ∨ d.pstate < 4) ∧ (source ≠ 5 ∨ d.fchkTrips = true) ∧ (e = ((d.wr secPage
    (SEC_TAMPER_LATCH.LATCH.bitOf source) 1).ev secPage 10).cnt secPage SEC_CNT_TAMPER.COUNT) :=
  ⟨D0.wr secPage (SEC_TAMPER_CFG.RESP 2) 1, 2, _, by decide +kernel, by decide +kernel, by decide +kernel, by decide +kernel, rfl⟩

theorem witness_TamperAndDebugCommandsComplete_2_tamperLatchClear : ∃ (d : Dev) (mask : Nat) (e : Dev), (d.answers 0x004 =
    true) ∧ (e = d.wr secPage SEC_TAMPER_LATCH.LATCH (d.rd secPage SEC_TAMPER_LATCH.LATCH - (d.rd secPage SEC_TAMPER_LATCH.LATCH
    &&& mask))) :=
  ⟨D0, 0x3F, _, by decide +kernel, rfl⟩

theorem witness_TamperAndDebugCommandsComplete_4_dbgReadNonce : ∃ (d : Dev) (p : Dev × List Nat) (e : Dev), (d.answers 0x004 =
    true) ∧ (p = d.drawOctets 16) ∧ (e = p.1.each 4 fun k e => e.wr secPage (SEC_DBG_NONCE.NONCE.at k) (ofLeBytes ((p.2.drop (4 *
    k)).take 4))) :=
  ⟨D0, _, _, by decide +kernel, rfl, rfl⟩

theorem witness_TamperAndDebugCommandsComplete_5_dbgUnlock : ∃ (s : State) (level : Nat) (token : List Nat), (s.dev.answers
    secPage = true) ∧ (level < 4) ∧ (level ≤ s.dev.rd secPage SEC_STATUS.DBG_LEVEL ∨ levelNeeds s.dev.lc level = 0) :=
  ⟨{ State.reset with dev := D0.wr secPage SEC_STATUS.LC 4 }, 2, [], by decide +kernel, by decide +kernel, by decide +kernel⟩

theorem witness_TamperAndDebugCommandsComplete_6_dbgUnlock : ∃ (s : State) (level : Nat) (token : List Nat) (k : TokCheck),
    (s.dev.answers secPage = true) ∧ (level < 4) ∧ (s.dev.rd secPage SEC_STATUS.DBG_LEVEL < level) ∧ (levelNeeds s.dev.lc level ≠
    0) ∧ (token ≠ []) ∧ (s.dev.sec.check = none) ∧ (k =
    { unlock := true, arg := level, token := token, nonce := s.dev.sec.nonce }) :=
  ⟨{ State.reset with dev := (D0.wr secPage SEC_STATUS.LC 3).wr secPage SEC_STATUS.DBG_LEVEL 0 }, 2, [1], _, by decide +kernel, by decide +kernel, by decide +kernel, by decide +kernel, by decide +kernel, by decide +kernel, rfl⟩

theorem witness_TamperAndDebugCommandsComplete_7_dbgLower : ∃ (s : State) (level : Nat), (s.dev.answers secPage = true) ∧
    (level < s.dev.rd secPage SEC_STATUS.DBG_LEVEL) ∧ (s.dev.rd secPage SEC_STATUS.DBG_LEVEL < 4) :=
  ⟨{ State.reset with dev := D0.wr secPage SEC_STATUS.DBG_LEVEL 2 }, 1, by decide +kernel, by decide +kernel, by decide +kernel⟩

theorem witness_TamperAndDebugCommandsComplete_8_dbgLifeCycle : ∃ (d : Dev) (token : List Nat), (d.answers secPage = true) ∧
    (d.sec.check = none) :=
  ⟨D0, [], by decide +kernel, by decide +kernel⟩

theorem witness_TamperAndDebugCommandsComplete_9_tokenCheckDone : ∃ (s : State) (k : TokCheck) (e f g : Dev), (s.dev.sec.check
    = some k) ∧ (e =
    { s.dev.wr secPage SEC_DBG_STAT.CHECKING 0 with sec := { s.dev.sec with check := none, nonce := if s.dev.sec.nonce ≠ k.nonce then s.dev.sec.nonce else none } })
    ∧ (f = e.wr secPage SEC_DBG_STAT.NONCE_VALID (b2n e.sec.nonce.isSome)) ∧ (g = (if k.unlock then f.setLevel k.arg else
    f.lcTransition k.arg)) :=
  ⟨sToken, tok0, _, _, _, by decide +kernel, rfl, rfl, rfl⟩

theorem witness_TamperAndDebugCommandsComplete_10_debugModuleAccess : ∃ (s : State) (q : DbgReq), (s.dev.balls.resetLow =
    false) ∧ (s.dev.pstate < 3) ∧ (s.dev.actLevel ≠ 0) :=
  ⟨{ State.reset with dev := D0.wr secPage SEC_STATUS.DBG_LEVEL 2 }, .bus ⟨0x10000000, 4, none⟩, by decide +kernel, by decide +kernel, by decide +kernel⟩

theorem witness_TamperAndDebugCommandsComplete_11_debugModuleAccess : ∃ (s : State) (c r : Nat) (a : Access), (c < 8) ∧
    ((s.hart c).running = true) ∧ ((s.hart c).halted = true) :=
  ⟨sHalted, 1, 0, ⟨0x10000000, 4, none⟩, by decide +kernel, by decide +kernel, by decide +kernel⟩

theorem witness_TamperAndDebugCommandsComplete_12_boundaryScanInstruction : ∃ (d : Dev) (inst : Nat), (d.pstate < 4) :=
  ⟨D0.wr secPage SEC_STATUS.DBG_LEVEL 2, 4, by decide +kernel⟩

theorem witness_SleepCommandsComplete_1_sleepIdle : ∃ (d : Dev) (e f : Dev), (d.answers pwrPage = true) ∧ (d.dark = false) ∧
    (d.rd pwrPage PWR_STATE.PHASE = 0) ∧ (e = (d.wr pwrPage PWR_SLEEP.TARGET 1).wr pwrPage PWR_SLEEP.NAP_XO_OFF (b2n false)) ∧
    (e.notQuiet 1 = none) ∧ (f = ((e.wr pwrPage PWR_STATE.RESULT 0).wr pwrPage PWR_STATE.PHASE 1).cnt pwrPage PWR_CNT_SLEEP.COUNT)
    :=
  ⟨dQuiet, _, _, by decide +kernel, by decide +kernel, by decide +kernel, rfl, by decide +kernel, rfl⟩

theorem witness_SleepCommandsComplete_2_sleepDoze : ∃ (d : Dev) (e f : Dev), (d.answers pwrPage = true) ∧ (d.dark = false) ∧
    (d.rd pwrPage PWR_STATE.PHASE = 0) ∧ (e = (d.wr pwrPage PWR_SLEEP.TARGET 2).wr pwrPage PWR_SLEEP.NAP_XO_OFF (b2n false)) ∧
    (e.notQuiet 2 = none) ∧ (f = ((e.wr pwrPage PWR_STATE.RESULT 0).wr pwrPage PWR_STATE.PHASE 1).cnt pwrPage PWR_CNT_SLEEP.COUNT)
    :=
  ⟨dQuiet, _, _, by decide +kernel, by decide +kernel, by decide +kernel, rfl, by decide +kernel, rfl⟩

theorem witness_SleepCommandsComplete_3_sleepNap : ∃ (d : Dev) (xoOff : Bool) (e f : Dev), (d.answers pwrPage = true) ∧
    (d.dark = false) ∧ (d.rd pwrPage PWR_STATE.PHASE = 0) ∧ (e = (d.wr pwrPage PWR_SLEEP.TARGET 3).wr pwrPage PWR_SLEEP.NAP_XO_OFF
    (b2n xoOff)) ∧ (e.notQuiet 3 = none) ∧ (e.wakeMask 0xFFFF 3 ≠ 0) ∧ (f = ((e.wr pwrPage PWR_STATE.RESULT 0).wr pwrPage
    PWR_STATE.PHASE 1).cnt pwrPage PWR_CNT_SLEEP.COUNT) :=
  ⟨dQuiet, true, _, _, by decide +kernel, by decide +kernel, by decide +kernel, rfl, by decide +kernel, by decide +kernel, rfl⟩

theorem witness_SleepCommandsComplete_4_sleepHibernate : ∃ (d : Dev) (e f : Dev), (d.answers pwrPage = true) ∧ (d.dark =
    false) ∧ (d.rd pwrPage PWR_STATE.PHASE = 0) ∧ (e = (d.wr pwrPage PWR_SLEEP.TARGET 4).wr pwrPage PWR_SLEEP.NAP_XO_OFF (b2n
    false)) ∧ (e.notQuiet 4 = none) ∧ (e.wakeMask 0xFFFF 4 ≠ 0) ∧ (f = ((e.wr pwrPage PWR_STATE.RESULT 0).wr pwrPage
    PWR_STATE.PHASE 1).cnt pwrPage PWR_CNT_SLEEP.COUNT) :=
  ⟨dQuiet, _, _, by decide +kernel, by decide +kernel, by decide +kernel, rfl, by decide +kernel, by decide +kernel, rfl⟩

theorem witness_SleepCommandsComplete_5_sleepOff : ∃ (d : Dev) (e f : Dev), (d.answers pwrPage = true) ∧ (d.dark = false) ∧
    (d.rd pwrPage PWR_STATE.PHASE = 0) ∧ (e = (d.wr pwrPage PWR_SLEEP.TARGET 5).wr pwrPage PWR_SLEEP.NAP_XO_OFF (b2n false)) ∧
    (e.notQuiet 5 = none) ∧ (f = ((e.wr pwrPage PWR_STATE.RESULT 0).wr pwrPage PWR_STATE.PHASE 1).cnt pwrPage PWR_CNT_SLEEP.COUNT)
    :=
  ⟨dQuiet, _, _, by decide +kernel, by decide +kernel, by decide +kernel, rfl, by decide +kernel, rfl⟩

theorem witness_SleepCommandsComplete_6_sleepEntryDone : ∃ (s : State) (t : Nat) (e f : Dev), (s.dev.rd pwrPage
    PWR_STATE.PHASE = 1) ∧ (t = s.dev.gov.target) ∧ (e = ((s.dev.enterState t).wr pwrPage PWR_STATE.PHASE 0).wr pwrPage
    PWR_STATE.STATE t) ∧ (f = (if e.gov.seen ≠ 0 then (e.cnt pwrPage PWR_CNT_WAKE_RACE.COUNT).wakeDetect true else e)) :=
  ⟨{ State.reset with dev := (D0.wr pwrPage PWR_STATE.PHASE 1).wr pwrPage PWR_SLEEP.TARGET 1 }, 0, _, _, by decide +kernel, by decide +kernel, rfl, rfl⟩

theorem witness_SleepCommandsComplete_7_wakeDetected : ∃ (d : Dev) (n m : Nat) (e f g h : Dev), (n = d.pstate) ∧ (1 ≤ n) ∧ (n
    ≠ 5) ∧ (d.rd pwrPage PWR_STATE.PHASE = 0) ∧ (m = d.gov.seen ||| d.wakeMask d.wakeLevels n) ∧ (m ≠ 0) ∧ (e = ((d.wr pwrPage
    PWR_WAKE_REC0.SOURCE (((List.range 16).find? (bit m)).getD 0)).wr pwrPage PWR_WAKE_REC0.FROM n).wr pwrPage
    PWR_WAKE_REC0.DURING_ENTRY 0) ∧ (f = e.wr pwrPage PWR_WAKE_REC0.ASSERTED m) ∧ (g = ((f.wr pwrPage PWR_WAKE_REC1.TICKS
    f.ticks).wr pwrPage PWR_WAKE_REC2.TICKS (f.ticks / 2 ^ 32)).wr pwrPage PWR_STATE.PHASE 2) ∧ (h = (if 3 ≤ n then g.wr pwrPage
    PWR_STATE.STATE 0 else g)) :=
  ⟨dIdleWake, 1, 4, _, _, _, _, by decide +kernel, by decide +kernel, by decide +kernel, by decide +kernel, by decide +kernel, by decide +kernel, rfl, rfl, rfl, rfl⟩

theorem witness_SleepCommandsComplete_8_returnToRun : ∃ (s : State) (tau : Nat) (e : Dev), (s.dev.rd pwrPage PWR_STATE.PHASE =
    2) ∧ (s.dev.rd pwrPage PWR_WAKE_REC0.FROM = 1 ∨ s.dev.rd pwrPage PWR_WAKE_REC0.FROM = 2) ∧ (e = ((s.dev.wr pwrPage
    PWR_STATE.PHASE 0).wr pwrPage PWR_STATE.STATE 0).ev pwrPage 8) :=
  ⟨{ State.reset with dev := (D0.wr pwrPage PWR_STATE.PHASE 2).wr pwrPage PWR_WAKE_REC0.FROM 2 }, 0, _, by decide +kernel, by decide +kernel, rfl⟩

theorem witness_SleepCommandsComplete_9_returnToRun : ∃ (s : State) (tau : Nat), (s.dev.rd pwrPage PWR_STATE.PHASE = 2) ∧
    (s.dev.rd pwrPage PWR_WAKE_REC0.FROM = 3) :=
  ⟨{ State.reset with dev := (D0.wr pwrPage PWR_STATE.PHASE 2).wr pwrPage PWR_WAKE_REC0.FROM 3 }, 0, by decide +kernel, by decide +kernel⟩

theorem witness_SleepCommandsComplete_10_returnToRun : ∃ (s : State) (tau : Nat), (s.dev.rd pwrPage PWR_STATE.PHASE = 2) ∧
    (s.dev.rd pwrPage PWR_WAKE_REC0.FROM = 4) :=
  ⟨{ State.reset with dev := (D0.wr pwrPage PWR_STATE.PHASE 2).wr pwrPage PWR_WAKE_REC0.FROM 4 }, 0, by decide +kernel, by decide +kernel⟩

theorem witness_SleepCommandsComplete_11_wakePin : ∃ (d : Dev) (pin : Nat), (pin < 2) :=
  ⟨D0, 1, by decide +kernel⟩

theorem witness_SleepCommandsComplete_12_hostWakeWrite : ∃ (d : Dev), (d.answers 0x001 = true) :=
  ⟨D0, by decide +kernel⟩

theorem witness_PowerCommandsComplete_1_plReqWrite : ∃ (d : Dev) (value : Nat), (d.answers 0x001 = true) :=
  ⟨D0, 5, by decide +kernel⟩

theorem witness_PowerCommandsComplete_2_pmbusTxnDone : ∃ (d : Dev) (dom : Nat) (ack : Bool) (k : LevelChange) (e : Dev), (look
    d.gov.change dom = some k) ∧ (k.acked = false) ∧ (e = (if ack then
    { d with gov := { d.gov with change := put d.gov.change dom { k with acked := true } } } else ((d.levelFails dom).cnt pwrPage
    PWR_CNT_PMB_ERR.COUNT).ev pwrPage 14)) :=
  ⟨{ D0 with gov := { D0.gov with change := [(1, plChange0)] } }, 1, true, plChange0, _, by decide +kernel, by decide +kernel, rfl⟩

theorem witness_PowerCommandsComplete_3_vsettleDone : ∃ (d : Dev) (dom : Nat) (k : LevelChange), (look d.gov.change dom = some
    k) ∧ (k.acked = true) :=
  ⟨{ D0 with gov := { D0.gov with change := [(1, { plChange0 with acked := true })] } }, 1, { plChange0 with acked := true }, by decide +kernel, by decide +kernel⟩

theorem witness_PowerCommandsComplete_4_classStrobe : ∃ (d : Dev) (code : Nat) (e : Dev), (e =
    ({ d with balls := { d.balls with cls := code % 8 } } : Dev).raiseWake 9) :=
  ⟨D0, 3, _, rfl⟩

theorem witness_PowerCommandsComplete_5_classStrobe : ∃ (d e : Dev) (code : Nat), (code < 8) ∧ (code < d.rd pwrPage
    PWR_CLASS.CODE) ∧ (e = (((d.wr pwrPage PWR_CLASS.CODE code).wr pwrPage PWR_CLASS.CLASS_MW (classMw code)).wr pwrPage
    PWR_LLDP.VALID 0).wr pwrPage PWR_AUX.VALID 0) :=
  ⟨D0.wr pwrPage PWR_CLASS.CODE 5, _, 2, by decide +kernel, by decide +kernel, rfl⟩

theorem witness_PowerCommandsComplete_7_modeSelect : ∃ (d : Dev) (mode : Nat) (e f g : Dev), (d.answers 0x001 = true) ∧ (mode
    ≤ 5) ∧ (e = (((d.wr pwrPage PWR_MODE.MODE mode).wr pwrPage PWR_SHARE.SHARE_A (nth 0 (pwrPreset mode) 0)).wr pwrPage
    PWR_SHARE.SHARE_B (nth 0 (pwrPreset mode) 1)).wr pwrPage PWR_SHARE.SHARE_C (nth 0 (pwrPreset mode) 2)) ∧ (f = ((e.wr pwrPage
    PWR_GOV_CFG.MARGIN (nth 0 (pwrPreset mode) 3)).wr pwrPage PWR_THROT.FLOOR_THROT (nth 0 (pwrPreset mode) 4)).wr pwrPage
    PWR_THROT.CHIP_CAP (nth 0 (pwrPreset mode) 8)) ∧ (g = (if mode = 5 then f.silence else f)) :=
  ⟨D0, 5, _, _, _, by decide +kernel, by decide +kernel, rfl, rfl, rfl⟩

theorem witness_PowerCommandsComplete_8_thermalShutdown : ∃ (s : State) (e : Dev), (s.dev.pstate < 4) ∧ (e =
    (s.dev.enterOff.wr pwrPage PWR_STATE.PHASE 0).wr pwrPage PWR_STATE.STATE 5) :=
  ⟨State.reset, _, by decide +kernel, rfl⟩

theorem witness_ClockCommandsComplete_1_rtcSet : ∃ (d : Dev) (e : Dev), (d.answers 0x002 = true) ∧ (d.rtc.staged = none) ∧ (e
    = d.wr rtcPage RTC_SET_CMD.OP 1) :=
  ⟨D0, _, by decide +kernel, by decide +kernel, rfl⟩

theorem witness_ClockCommandsComplete_2_rtcAdd : ∃ (d : Dev) (e : Dev), (d.answers 0x002 = true) ∧ (d.rtc.staged = none) ∧ (e
    = d.wr rtcPage RTC_SET_CMD.OP 2) :=
  ⟨D0, _, by decide +kernel, by decide +kernel, rfl⟩

theorem witness_ClockCommandsComplete_3_rtcCmdApply : ∃ (d : Dev) (op n r : Nat) (e f g : Dev), (d.rtc.staged = some op) ∧
    (d.rtc.edges = true) ∧ (d.rtc.powered = true) ∧ (n = (if op = 1 then d.rtcStagedCount else d.rtcSum.toNat)) ∧ (r = (if op = 2
    ∧ d.rtcSum < 0 then 1 else 0)) ∧ (e = (d.setCount n).rtcEnd r) ∧ (f = { e with rtc := { e.rtc with spoilt := true } }) ∧ (g =
    (if f.rtc.count < d.rtc.count then f.alarmsBack else f)) :=
  ⟨{ D0 with rtc := { D0.rtc with staged := some 1, edges := true, powered := true } }, 1, _, _, _, _, _, by decide +kernel, by decide +kernel, by decide +kernel, rfl, rfl, rfl, rfl, rfl⟩

theorem witness_ClockCommandsComplete_4_rtcCancel : ∃ (d : Dev) (op : Nat), (d.answers 0x002 = true) ∧ (d.rtc.staged = some
    op) :=
  ⟨{ D0 with rtc := { D0.rtc with staged := some 1 } }, 1, by decide +kernel, by decide +kernel⟩

theorem witness_ClockCommandsComplete_5_rtcCntLoRead : ∃ (d : Dev) (e : Dev), (d.answers 0x002 = true) ∧ (e = (d.wr rtcPage
    RTC_CNT_HI.VALUE (d.ticks / 2 ^ 32)).wr rtcPage RTC_CNT_FRAC.VALUE (d.rtc.count / 2 ^ 16 % 2 ^ 16)) :=
  ⟨D0, _, by decide +kernel, rfl⟩

theorem witness_ClockCommandsComplete_7_oscStopClear : ∃ (d : Dev), (d.answers 0x002 = true) ∧ (d.rtc.edges = true) :=
  ⟨{ D0 with rtc := { D0.rtc with edges := true } }, by decide +kernel, by decide +kernel⟩

theorem witness_ClockCommandsComplete_8_alarmFire : ∃ (d : Dev) (alarm : Nat), (alarm < 4) ∧ (d.rtc.staged = none) ∧
    (d.rtc.edges = true) ∧ (d.rtc.powered = true) ∧ (d.rdB rtcPage (RTC_ALARM.EN.at alarm) = true) ∧ (d.rdB rtcPage
    (RTC_ALARM.ARMED.at alarm) = true) :=
  ⟨dAlarm, 3, by decide +kernel, by decide +kernel, by decide +kernel, by decide +kernel, by decide +kernel, by decide +kernel⟩

theorem witness_ClockCommandsComplete_9_alarmArm : ∃ (d : Dev) (alarm word value : Nat) (e : Dev), (d.answers 0x002 = true) ∧
    (alarm < 4) ∧ (word < 2) ∧ (e = d.wr rtcPage (if word = 0 then RTC_ALARM.CMP_LO.at alarm else RTC_ALARM.CMP_HI.at alarm)
    value) :=
  ⟨D0, 3, 1, 77, _, by decide +kernel, by decide +kernel, by decide +kernel, rfl⟩

theorem witness_ClockCommandsComplete_10_alarmArm : ∃ (d : Dev) (alarm value : Nat), (d.answers 0x002 = true) ∧ (alarm < 4) :=
  ⟨D0, 3, 77, by decide +kernel, by decide +kernel⟩

theorem witness_ClockCommandsComplete_11_alarmArm : ∃ (d : Dev) (alarm value : Nat) (e f g : Dev), (d.answers 0x002 = true) ∧
    (alarm < 4) ∧ (e = (d.wr rtcPage (RTC_ALARM.EN.at alarm) value).wr rtcPage (RTC_ALARM.WAKE.at alarm) (value / 2)) ∧ (f = (if
    bit value 3 then e.wr rtcPage (RTC_ALARM.FIRED.at alarm) 0 else e)) ∧ (g = (if bit value 4 then f.wr rtcPage
    (RTC_ALARM.BY_WRITE.at alarm) 0 else f)) :=
  ⟨D0, 3, 77, _, _, _, by decide +kernel, by decide +kernel, rfl, rfl, rfl⟩

theorem witness_ClockCommandsComplete_13_vaonReturn : ∃ (d : Dev), (d.rdB rtcPage RTC_STAT.ON_BATT = true) :=
  ⟨D0.wr rtcPage RTC_STAT.ON_BATT 1, by decide +kernel⟩

theorem witness_ClockCommandsComplete_14_aonLockoutBegin : ∃ (d : Dev) (e : Dev), (e = (if d.rtc.staged.isSome then d.rtcEnd 3
    else d)) :=
  ⟨{ D0 with rtc := { D0.rtc with staged := some 1 } }, _, rfl⟩

theorem witness_ClockCommandsComplete_16_vbatMeasure : ∃ (d : Dev) (low : Bool), (d.rdB rtcPage RTC_STAT.BATT_LOW ≠ low) :=
  ⟨D0, true, by decide +kernel⟩

theorem witness_ClockCommandsComplete_17_trimWindowEnd : ∃ (d : Dev) (dc dd : Nat) (e f : Dev) (err t : Int), (d.bstate
    rtcPage = .running) ∧ (d.rdB rtcPage RTC_TRIM_CFG.AUTO_TRIM = true) ∧ (dd ≠ 0) ∧ (e = (d.setCount (d.rtc.count + dc * 2 ^
    16)).reach (d.now + dd * nsU)) ∧ (f = { e with rtc := { e.rtc with spoilt := false } }) ∧ (err = roundDiv (((dc : Int) *
    1000000000 - (dd : Int) * 2 ^ 31) * 1000000000) (2 ^ 31 * dd)) ∧ (t = clampInt (-128000000) 128000000 (f.rdS rtcPage
    RTC_TRIM.TRIM - roundDiv (err * 256) (2 ^ f.rd rtcPage RTC_TRIM_CFG.ALPHA))) :=
  ⟨dTrim, 5, 1000, _, _, _, _, by decide +kernel, by decide +kernel, by decide +kernel, rfl, rfl, rfl, rfl⟩

theorem witness_ClockCommandsComplete_18_ageUpdate : ∃ (d : Dev) (temps : List Int) (drifts : List Nat) (n : Nat) (e f : Dev),
    (d.bstate agePage = .running) ∧ (n = max 1 (d.rd agePage AGE_CFG.AGE_PERIOD)) ∧ (e = d.ageClock n) ∧ (f = e.each 4 fun k g =>
    g.ageDomain k n (nth 0 temps k) (nth 0 drifts k)) :=
  ⟨D0.setState agePage .running, [], [], _, _, _, by decide +kernel, rfl, rfl, rfl⟩

theorem witness_TwinFrameCommandsComplete_1_helloSend : ∃ (d : Dev) (e : Dev), (d.inService twnPage = true) ∧ (d.role =
    rolePairing ∨ (d.role = roleActive ∧ d.paired = false)) ∧ (d.twin.helloBeat ≠ some d.beat) ∧ (e = (d.reach (d.beat * beatU +
    d.rd twnPage TWN_CFG.HB_OFS * usU)).setTwin fun t => { t with helloBeat := some d.beat, helloSent := true }) :=
  ⟨dTwinPair, _, by decide +kernel, by decide +kernel, by decide +kernel, rfl⟩

theorem witness_TwinFrameCommandsComplete_2_heartbeatSend : ∃ (d : Dev) (b : Nat) (t : Twin) (e f g : Dev), (d.active twnPage
    = true) ∧ (d.twin.hbFrom = some b) ∧ (b ≤ d.beat) ∧ (d.role ≠ roleNone) ∧ (d.role ≠ roleDeposed) ∧ (d.twin.hbBeat ≠ some
    d.beat) ∧ (t = d.twin) ∧ (e = (d.reach (d.beat * beatU + d.rd twnPage TWN_CFG.HB_OFS * usU)).setTwin fun u =>
    { u with hbBeat := some d.beat, resync := false, yieldOut := false }) ∧ (f = e.cnt twnPage TWN_CNT_HB_TX.COUNT) ∧ (g =
    f.twinSend 2 (d.beat % 2 ^ 32) (beBytes 4 t.rxSeq ++ [d.rd 0x001 PWR_MODE.MODE, d.rd twnPage TWN_ROLE.MIR_OK + 2 * b2n
    t.resync + 4 * b2n t.yieldOut + 8 * b2n ((t.win ++ t.queue).any (·.snap))] ++ beBytes 2 (t.win.length + t.queue.length) ++
    zeros 8)) :=
  ⟨dTwinHb, 0, _, _, _, _, by decide +kernel, by decide +kernel, by decide +kernel, by decide +kernel, by decide +kernel, by decide +kernel, rfl, rfl, rfl, rfl⟩

theorem witness_TwinFrameCommandsComplete_3_helloReceived : ∃ (d : Dev) (lane atNs : Nat) (octets : List Nat) (e : Dev) (g :
    TwinFrame), (e = (d.twinCheck 1 lane atNs octets).1) ∧ ((d.twinCheck 1 lane atNs octets).2 = some g) :=
  ⟨dTwinRx, 0, 5, twinOct 1, _, twinFr 1, rfl, by decide +kernel⟩

theorem witness_TwinFrameCommandsComplete_4_heartbeatReceived : ∃ (d : Dev) (lane atNs : Nat) (octets : List Nat) (e : Dev) (g
    : TwinFrame), (e = (d.twinCheck 2 lane atNs octets).1) ∧ ((d.twinCheck 2 lane atNs octets).2 = some g) :=
  ⟨dTwinRx, 0, 5, twinOct 2, _, twinFr 2, rfl, by decide +kernel⟩

theorem witness_TwinFrameCommandsComplete_5_staFrameReceived : ∃ (d : Dev) (lane atNs : Nat) (octets : List Nat) (e : Dev) (g
    : TwinFrame), (e = (d.twinCheck 3 lane atNs octets).1) ∧ ((d.twinCheck 3 lane atNs octets).2 = some g) ∧ (g.typ = 3) :=
  ⟨dTwinRx, 0, 5, twinOct 3, _, twinFr 3, rfl, by decide +kernel, by decide +kernel⟩

theorem witness_TwinFrameCommandsComplete_6_keyFrameReceived : ∃ (d : Dev) (lane atNs : Nat) (octets : List Nat) (e : Dev) (g
    : TwinFrame), (e = (d.twinCheck 4 lane atNs octets).1) ∧ ((d.twinCheck 4 lane atNs octets).2 = some g) ∧ (g.typ = 4) :=
  ⟨dTwinRx, 0, 5, twinOct 4, _, twinFr 4, rfl, by decide +kernel, by decide +kernel⟩

theorem witness_TwinFrameCommandsComplete_7_markFrameReceived : ∃ (d : Dev) (lane atNs : Nat) (octets : List Nat) (e : Dev) (g
    : TwinFrame), (e = (d.twinCheck 5 lane atNs octets).1) ∧ ((d.twinCheck 5 lane atNs octets).2 = some g) ∧ (g.typ = 5) :=
  ⟨dTwinRx, 0, 5, twinOct 5, _, twinFr 5, rfl, by decide +kernel, by decide +kernel⟩

theorem witness_TwinFrameCommandsComplete_8_userFrameReceived : ∃ (d : Dev) (lane atNs : Nat) (octets : List Nat) (e : Dev) (g
    : TwinFrame), (e = (d.twinCheck 6 lane atNs octets).1) ∧ ((d.twinCheck 6 lane atNs octets).2 = some g) ∧ (g.typ = 6) :=
  ⟨dTwinRx, 0, 5, twinOct 6, _, twinFr 6, rfl, by decide +kernel, by decide +kernel⟩

theorem witness_TwinFrameCommandsComplete_9_twinKeyRequest : ∃ (d : Dev) (i a w p : Nat) (e : Dev), (d.active twnPage = true)
    ∧ (i = d.twin.ringNext) ∧ (i ≠ d.rd twnPage TWN_TXQ_WR.INDEX) ∧ (a = d.rd twnPage TWN_TXQ_BASE.BASE * 4096 + i % 2 ^ d.rd
    twnPage TWN_RING_CFG.TXQ_LOG2 * 16) ∧ (d.rdOk a 16 = true) ∧ (w = d.ld a 4) ∧ (w % 256 = 4) ∧ (d.role = roleActive) ∧
    (twinLenOk 4 (bits w 16 10) = true) ∧ (d.paired = true) ∧ (d.twin.queue.length < 4096) ∧ (p = d.ld (a + 4) 4 + d.ld (a + 8) 4
    % 16 * 2 ^ 32) ∧ (d.rdOk p (bits w 16 10) = true) ∧ (e = d.setTwin fun t =>
    { t with ringNext := (i + 1) % 65536, reqs := t.reqs ++ [i], queue := t.queue ++ [{ typ := 4, payload := d.ldBytes p (bits w 16 10), snap := false, req := some i, seq := 0 }] })
    :=
  ⟨dTwinReq 4, _, _, _, _, _, by decide +kernel, rfl, by decide +kernel, rfl, by decide +kernel, rfl, by decide +kernel, by decide +kernel, by decide +kernel, by decide +kernel, by decide +kernel, rfl, by decide +kernel, rfl⟩

theorem witness_TwinFrameCommandsComplete_10_twinUserRequest : ∃ (d : Dev) (i a w p : Nat) (e : Dev), (d.active twnPage =
    true) ∧ (i = d.twin.ringNext) ∧ (i ≠ d.rd twnPage TWN_TXQ_WR.INDEX) ∧ (a = d.rd twnPage TWN_TXQ_BASE.BASE * 4096 + i % 2 ^
    d.rd twnPage TWN_RING_CFG.TXQ_LOG2 * 16) ∧ (d.rdOk a 16 = true) ∧ (w = d.ld a 4) ∧ (w % 256 = 6) ∧ (twinLenOk 6 (bits w 16 10)
    = true) ∧ (d.paired = true) ∧ (d.twin.queue.length < 4096) ∧ (p = d.ld (a + 4) 4 + d.ld (a + 8) 4 % 16 * 2 ^ 32) ∧ (d.rdOk p
    (bits w 16 10) = true) ∧ (e = d.setTwin fun t =>
    { t with ringNext := (i + 1) % 65536, reqs := t.reqs ++ [i], queue := t.queue ++ [{ typ := 6, payload := d.ldBytes p (bits w 16 10), snap := false, req := some i, seq := 0 }] })
    :=
  ⟨dTwinReq 6, _, _, _, _, _, by decide +kernel, rfl, by decide +kernel, rfl, by decide +kernel, rfl, by decide +kernel, by decide +kernel, by decide +kernel, by decide +kernel, rfl, by decide +kernel, rfl⟩

theorem witness_TwinFrameCommandsComplete_11_retxTimeout : ∃ (d : Dev) (e : Dev), (d.active twnPage = true) ∧ (d.paired =
    true) ∧ (d.twin.win ≠ []) ∧ (d.twin.ackBeat + max 1 (d.rd twnPage TWN_TIMING.RETX_BEATS) ≤ d.beat) ∧ (e = (d.cnt twnPage
    TWN_CNT_RETX.COUNT).setTwin fun t => { t with ackBeat := d.beat }) :=
  ⟨dTwinWin, _, by decide +kernel, by decide +kernel, by decide +kernel, by decide +kernel, rfl⟩

theorem witness_TwinRoleCommandsComplete_1_soloWaitExpiry : ∃ (d : Dev), (d.inService twnPage = true) ∧ (d.role = rolePairing)
    ∧ (d.twin.hello = none) ∧ (d.twin.since + d.soloWait ≤ d.beat) ∧ (d.balls.fenceLow = false) :=
  ⟨{ dTwinPair with beat := 100000 }, by decide +kernel, by decide +kernel, by decide +kernel, by decide +kernel, by decide +kernel⟩

theorem witness_TwinRoleCommandsComplete_2_kickTimeout : ∃ (d : Dev), (d.inService twnPage = true) ∧ (d.role = roleActive) ∧
    (d.rd twnPage TWN_TIMING.KICK_BEATS ≠ 0) ∧ (d.twin.kicked + d.rd twnPage TWN_TIMING.KICK_BEATS ≤ d.beat) ∧ ((d.twin.yieldOut
    && d.twin.hbFrom.isSome) = false) :=
  ⟨dTwinKick, by decide +kernel, by decide +kernel, by decide +kernel, by decide +kernel, by decide +kernel⟩

theorem witness_TwinRoleCommandsComplete_3_kick : ∃ (d : Dev), (d.answers 0x080 = true) ∧ (d.inService twnPage = true) ∧
    (d.role = roleActive) :=
  ⟨dTwinKick, by decide +kernel, by decide +kernel, by decide +kernel⟩

theorem witness_TwinRoleCommandsComplete_4_handover : ∃ (d : Dev), (d.answers 0x080 = true) ∧ (d.inService twnPage = true) ∧
    (d.role = roleActive) :=
  ⟨dTwinKick, by decide +kernel, by decide +kernel, by decide +kernel⟩

theorem witness_TwinRoleCommandsComplete_5_resync : ∃ (d : Dev), (d.answers 0x080 = true) ∧ (d.inService twnPage = true) ∧
    (d.role = roleShadow) :=
  ⟨dTwinHb, by decide +kernel, by decide +kernel, by decide +kernel⟩

theorem witness_TwinRoleCommandsComplete_6_fenceInChange : ∃ (d : Dev) (low : Bool) (e f g : Dev), (e =
    { d with balls := { d.balls with fenceLow := low } }) ∧ (f = (e.wr twnPage TWN_ROLE.FENCE_OUT (b2n (decide (e.role =
    roleActive)))).wr twnPage TWN_ROLE.SELF_FENCE (b2n (e.twin.started && !decide (e.role = roleActive)))) ∧ (g = f.wr twnPage
    TWN_ROLE.FENCE_IN (b2n low)) :=
  ⟨D0, true, _, _, _, rfl, rfl, rfl⟩

theorem witness_TwinRoleCommandsComplete_7_twnLaneChange : ∃ (d : Dev) (lane : Nat) (up : Bool), (lane < 2) ∧ (d.rdB twnPage
    (TWN_ROLE.LANE_UP.bitOf lane) ≠ up) :=
  ⟨D0, 1, true, by decide +kernel, by decide +kernel⟩

theorem witness_BootCommandsComplete_3_sysRstRelease : ∃ (s : State) (pcieEp xspi1s testmode : Bool) (cls tau : Nat) (e :
    Dev), (s.dev.balls.resetLow = true) ∧ (s.dev.gov.rails.length = 4) ∧ (e =
    { s.dev with balls := { s.dev.balls with pcieEp := pcieEp, xspi1s := xspi1s, testmode := testmode, cls := cls % 8 } }) :=
  ⟨sReset, false, false, false, 4, 0, _, by decide +kernel, by decide +kernel, rfl⟩

theorem witness_BootCommandsComplete_4_railEnableStep : ∃ (s : State) (l : List Nat), (s.dev.pstate ≠ 5) ∧
    (s.dev.balls.resetLow = true) ∧ (l = (if 3 ∈ s.dev.gov.rails then (if 1 ∈ s.dev.gov.rails then [0, 1, 2, 3] else [1, 3]) else
    [3])) :=
  ⟨sReset, _, by decide +kernel, by decide +kernel, rfl⟩

theorem witness_BootCommandsComplete_5_railEnableStep : ∃ (s : State) (e : Dev), (s.dev.pstate = 5) ∧ (e =
    s.dev.deviceReset.wrW pwrPage PWR_WAKE_REC0.word.off (BitVec.ofNat 32 ((if s.dev.gov.shutdown then 14 else 15) + 80))) :=
  ⟨{ State.reset with dev := D0.wr pwrPage PWR_STATE.STATE 5 }, _, by decide +kernel, rfl⟩

theorem witness_BootCommandsComplete_6_bootImageAccepted : ∃ (s : State) (flash : BootFlash) (b : List Nat) (e f : Dev) (pb :
    Bool) (x y : Option BootImg) (hx hy : List Nat) (r q : Dev × Option Nat), (s.inRom .flow = true) ∧ (s.dev.balls.testmode =
    false) ∧ (s.dev.lc ≠ 5) ∧ (e = s.dev.romStart secPage) ∧ (e.rdB secPage SEC_STATUS.SELFTEST_OK = true) ∧ (flash.dir = some b)
    ∧ (dirOk b = true) ∧ (pb = decide (nth 0 b 7 = 1)) ∧ (x = (if pb then flash.b else flash.a)) ∧ (y = (if pb then flash.a else
    flash.b)) ∧ (hx = (x.getD { header := [], body := [] }).header) ∧ (hy = (y.getD { header := [], body := [] }).header) ∧ (f =
    (e.wr srmPage SRM_MAP.ILV_GROUPS (nth 0 b 6)).romStart srmPage) ∧ (f.bstate srmPage = .running) ∧ (r = f.checkSlot x) ∧ (q =
    r.1.checkSlot y) :=
  ⟨sBoot, flash0, dir0, _, _, _, _, _, _, _, _, _, by decide +kernel, by decide +kernel, by decide +kernel, rfl, by decide +kernel, by decide +kernel, by decide +kernel, rfl, rfl, rfl, rfl, rfl, rfl, by decide +kernel, rfl, rfl⟩

theorem witness_BootCommandsComplete_7_recoveryDoorbell : ∃ (s t : State) (h : List Nat) (k : Option Nat), (s.inRom .recovery
    = true) ∧ (s.dev.dark = false) ∧ (t = { s with dev := (s.dev.st (mailbox + 12) 4 0x52454356).st (mailbox + 12) 4 0 }) ∧ (h =
    t.dev.ldBytes 0x10FFFC00 512) ∧ (k = (t.dev.headerCheck h).orElse fun _ => bodyCheck h (t.dev.ldBytes (hdrNum h 16 4) (hdrNum
    h 20 4))) :=
  ⟨sRecov, _, _, _, by decide +kernel, by decide +kernel, rfl, rfl, rfl⟩

theorem witness_BootCommandsComplete_8_recoveryDoorbell : ∃ (s : State) (value : Nat), (s.dev.dark = false) ∧ (value ≠
    0x52454356) :=
  ⟨State.reset, 1, by decide +kernel, by decide +kernel⟩

theorem witness_CommandsLeaveTheQueue_1 : ∃ (c : Instr) (s t : State), exec c s = .next t :=
  ⟨.msipWrite 0 0, State.reset, _, rfl⟩

theorem witness_CommandsLeaveTheQueue_2 : ∃ s t : State, step s = .next t :=
  ⟨State.reset, _, rfl⟩

theorem witness_OnlyTheseCommandsMoveTheSequencer : ∃ (c : Instr) (s t : State), exec c s = .next t ∧ t.seq ≠ s.seq :=
  ⟨.deviceReset, { State.reset with seq := { last := some 7, first := 0 } }, _, rfl, by decide +kernel⟩

theorem witness_OnlyTheseCommandsTouchTheCores : ∃ (c : Instr) (s t : State), exec c s = .next t ∧ t.harts ≠ s.harts :=
  ⟨.deviceReset, { State.reset with harts := List.replicate 8 { Hart.reset with pc := 5 } }, _, rfl, by decide +kernel⟩

theorem witness_BoundaryIndexOnlyRises_1 : ∃ (s t : State) (m : Nat), step s = .next t ∧ s.seq.last = some m :=
  ⟨{ State.reset with seq := { last := some 7, first := 0 }, pending := [.msipWrite 0 0] }, _, 7, rfl, rfl⟩

theorem witness_BoundaryIndexOnlyRises_2 : ∃ (s : State) (m : Nat), s.dev.rdB 0x008 PTP_BEAT_CTL.BEAT_EN = true ∧ s.dev.dark = false ∧ s.seq.last = some m :=
  ⟨{ State.reset with dev := D0.wr 0x008 PTP_BEAT_CTL.BEAT_EN 1, seq := { last := some 7, first := 0 } }, 7, by decide, by decide, rfl⟩

theorem witness_CoresStayWellFormed : ∃ s t : State, s.hartsWf ∧ step s = .next t :=
  ⟨State.reset, _, by unfold State.hartsWf Hart.wf; decide, rfl⟩

theorem witness_ResetLeaves_2 : ∃ h : Hart, h ∈ State.reset.harts :=
  ⟨Hart.reset, by decide⟩

theorem witness_RefusedClaimsAreRecorded_1 : ∃ (d : Dev) (kind index owner func : Nat),
    d.answers 0x000 = true ∧ resourceExists kind index = true ∧ d.claimable kind index (owner % 0x10000) (func % 64) = false :=
  ⟨D0.wr 0x000 (ownerFld 1 3) 0xF001, 1, 3, 0xF002, 0, by decide, by decide, by decide⟩

theorem witness_RefusedClaimsAreRecorded_2 : ∃ (d : Dev) (kind index owner : Nat), d.answers 0x000 = true ∧
    resourceExists kind index = true ∧
    ((kind = 0 ∧ ballExists index = false) ∨ (d.owner kind index ≠ owner % 0x10000 ∧ d.owner kind index ≠ 0)) :=
  ⟨D0.wr 0x000 (ownerFld 1 3) 0xF001, 1, 3, 0xF002, by decide, by decide, by decide⟩

theorem witness_RegisterNetworkTakesAlignedWords_1 : ∃ a : Access, regionOf a.addr = .regs ∧ (a.size ≠ 4 ∨ a.addr % 4 ≠ 0) :=
  ⟨⟨0x2FFFFFFE, 4, none⟩, by decide, by decide⟩

theorem witness_PageAddresses : ∃ p : Nat, p < 4096 :=
  ⟨4095, by decide⟩

theorem witness_BeatEnClearIsRefusedWhileRadioPagesRun_1 : ∃ (d : Dev) (value p : Nat),
    p ∈ [0x020, 0x021, 0x022, 0x028, 0x029, 0x02A, 0x030, 0x031, 0x032, 0x038, 0x039, 0x03A, 0x023, 0x041] ∧
    d.bstate p ≠ .stopped ∧ d.answers 0x008 = true ∧ d.rdB 0x008 PTP_BEAT_CTL.BEAT_EN = true ∧ value % 2 = 0 :=
  ⟨(D0.wr 0x008 PTP_BEAT_CTL.BEAT_EN 1).setState 0x041 .draining, 0, 0x041, by decide, by decide, by decide, by decide, by decide⟩

theorem witness_BeatEnClearIsRefusedWhileRadioPagesRun_2 : ∃ d : Dev,
    ∀ p ∈ [0x020, 0x021, 0x022, 0x028, 0x029, 0x02A, 0x030, 0x031, 0x032, 0x038, 0x039, 0x03A, 0x023, 0x041], d.bstate p = .stopped :=
  ⟨D0, by decide⟩

theorem witness_LevelChangeWithoutAcknowledgement : ∃ (d : Dev) (dom : Nat) (c : LevelChange),
    dom < 4 ∧ look d.gov.change dom = some c ∧ c.acked = false :=
  ⟨{ D0 with gov := { D0.gov with change := [(3, plChange0)] } }, 3, plChange0, by decide, rfl, rfl⟩

theorem witness_PcieRequestsAreShutOut : ∃ (s : State) (addr size f : Nat), s.dev.linkUp = true ∧ s.dev.pcie.perst = false ∧
    s.dev.dark = false ∧ s.dev.inWindow addr = some f ∧
    (s.dev.endpoint = true ∨ addr ≠ s.dev.rd 0x132 PCIE_MSI_LO.ADDR / 4 * 4 + 2 ^ 32 * s.dev.rd 0x132 PCIE_MSI_HI.ADDR) ∧
    size ≠ 0 ∧ regionOf (f + size - 1) = regionOf f ∧ (regionOf f = .regs → size = 4 ∧ f % 4 = 0) ∧
    (regionOf f = .hamper ∨ regionOf f = .rom ∨ regionOf f = .xspi ∨ (regionOf f = .regs ∧ pageOf f = 0x004)
      ∨ (regionOf f = .regs ∧ s.dev.rdB secPage SEC_ACCESS.PCIE_REG_DENY = true)) :=
  ⟨sPcie, 0x40000, 4, 0x20040000, by decide, by decide, by decide, by decide, by decide, by decide, by decide, by decide, by decide⟩

theorem witness_SramMappingIsOneToOne : ∃ k o : Nat, k ∈ [1, 2, 4, 8] ∧ o < 0x1000000 :=
  ⟨4, 0xFFFFFF, by decide, by decide⟩

theorem witness_SramStoreFrame : ∃ (s : State) (who : Initiator) (machine : Bool) (a : Access) (v : Nat) (ecc : EccFact),
    a.write = some v ∧ a.size ≠ 0 ∧ regionOf a.addr = .sram ∧ regionOf (a.addr + a.size - 1) = .sram ∧ s.dev.dark = false ∧
    s.dev.denies (s.reqOf who machine) a = false ∧ s.dev.ilv ∈ [1, 2, 4, 8] ∧ s.dev.inReset srmPage = false ∧
    (∀ h ∈ s.dev.ms.held, h.who ≠ who) ∧ s.dev.group (s.dev.groupOf a.addr) = 0 ∧ (∀ b ∈ readBytes a, s.dev.wordBad b = false) ∧
    (ecc = .clean ∨ ecc = .corrected) :=
  ⟨State.reset, .hart 7, false, ⟨0x10FFFFFC, 4, some 0x11223344⟩, _, .corrected, rfl, by decide, by decide, by decide, by decide,
    by decide, by decide, by decide, by decide, by decide, by decide, by decide⟩

theorem witness_FabricRequestsKeepMemoryForm : ∃ (s t : State) (who : Initiator) (machine : Bool) (a : Access) (ecc : EccFact),
    (regionOf a.addr = .sram ∨ regionOf a.addr = .hamper ∨ regionOf a.addr = .kov) ∧ Memory.wf s.dev.mem = true ∧
    exec (.fabricRequest who machine ⟨a, ecc⟩) s = .next t :=
  ⟨State.reset, _, .hart 0, true, ⟨0x11000000, 8, some 1⟩, .clean, by decide, rfl, rfl⟩

theorem witness_TwinStartNeedsKeyAndLane : ∃ d : Dev, d.runs twnPage = true ∧ d.bstate twnPage = .starting ∧ look d.disc twnPage ≠ some true ∧
    ((d.svcKey (d.rd twnPage TWN_CFG.AUTH_CTX)).isNone = true
      ∨ (d.rdB twnPage TWN_CFG.LANE0_EN = false ∧ d.rdB twnPage TWN_CFG.LANE1_EN = false)) :=
  ⟨D0.setState twnPage .starting, by decide, by decide, by decide, by decide⟩

theorem witness_PageInterruptLine : ∃ (d : Dev) (p : Nat), hasHeader p = true ∧ (pageKind p).isSome = true ∧ d.shut p = false ∧
    d.inReset p = false ∧ d.unpowered p = false :=
  ⟨D0, 0x080, by decide, by decide, by decide, by decide, by decide⟩

end Sys2Proof.Tests
end

section
/-! PROOFS. R20: what a refused write records (`Dev.cfgReject`, also R47), what a clear of BEAT_EN does in each of its cases, and
O53 from the two. -/

namespace Sys2Proof.Machine

/-! ### The record of a refused write -/

section
variable (d : Dev)

/-- The word CFG_REJECT holds after a refusal: VALID, CAUSE, the word offset and the low half of the value. -/
def rejectWord (cause off v : Nat) : Nat := 1 + 2 * (cause % 2) + off % 2 ^ 16 / 4 * 4 + v % 2 ^ 16 * 2 ^ 16

/-- INT_RAW, where the refusal sets its event afterwards, is a word of its own. -/
theorem Dev.rd_cfgReject_record (p cause off v : Nat) (f : Fld) (hf : f.off = CFG_REJECT.word.off) :
    (d.cfgReject p cause off v).rd p f = rejectWord cause off v % 2 ^ 32 / 2 ^ f.lo % 2 ^ f.w := by
  have hword : regKey p f.off ≠ regKey p (INT_RAW.word.bitOf 1).off := by
    simp [hf, regKey, CFG_REJECT.word, INT_RAW.word, Fld.bitOf]
  rw [Dev.cfgReject, Dev.ev, Dev.rd_wr_word _ 1 hword, Dev.rd, hf, Dev.rdW_wrW_same, BitVec.extractLsb'_toNat,
    BitVec.toNat_ofNat, Nat.shiftRight_eq_div_pow]
  rfl

theorem Dev.rd_cfgReject_valid (p cause off v : Nat) : (d.cfgReject p cause off v).rd p CFG_REJECT.VALID = 1 := by
  rw [Dev.rd_cfgReject_record d p cause off v CFG_REJECT.VALID rfl]
  simp only [rejectWord, CFG_REJECT.VALID]
  omega

theorem Dev.rd_cfgReject_cause (p cause off v : Nat) : (d.cfgReject p cause off v).rd p CFG_REJECT.CAUSE = cause % 2 := by
  rw [Dev.rd_cfgReject_record d p cause off v CFG_REJECT.CAUSE rfl]
  simp only [rejectWord, CFG_REJECT.CAUSE]
  omega

theorem Dev.rd_cfgReject_offset (p cause off v : Nat) :
    (d.cfgReject p cause off v).rd p CFG_REJECT.OFFSET = off % 2 ^ 16 / 4 := by
  rw [Dev.rd_cfgReject_record d p cause off v CFG_REJECT.OFFSET rfl]
  simp only [rejectWord, CFG_REJECT.OFFSET]
  omega

theorem Dev.rd_cfgReject_valueLo (p cause off v : Nat) :
    (d.cfgReject p cause off v).rd p CFG_REJECT.VALUE_LO = v % 2 ^ 16 := by
  rw [Dev.rd_cfgReject_record d p cause off v CFG_REJECT.VALUE_LO rfl]
  simp only [rejectWord, CFG_REJECT.VALUE_LO]
  omega

theorem Dev.rd_cfgReject_refused (p cause off v : Nat) : (d.cfgReject p cause off v).rd p INT_RAW.CFG_REFUSED = 1 :=
  Dev.rd_wr_same _ p (INT_RAW.word.bitOf 1) 1 (by decide)

/-- A refusal leaves every word but CFG_REJECT and INT_RAW of its page as it was. -/
theorem Dev.rd_cfgReject_ne {p q : Nat} {f : Fld} (cause off v : Nat) (hrec : regKey q f.off ≠ regKey p CFG_REJECT.word.off)
    (hint : regKey q f.off ≠ regKey p INT_RAW.word.off) : (d.cfgReject p cause off v).rd q f = d.rd q f := by
  rw [Dev.cfgReject, Dev.ev, Dev.rd_wr_word (f := INT_RAW.word.bitOf 1) _ 1 hint, Dev.rd, Dev.rdW_wrW_ne _ _ hrec]
  rfl

@[simp] theorem Dev.rdB_complete (c : Code) (n p : Nat) (f : Fld) : (d.complete c n).rdB p f = d.rdB p f := by
  simp [Dev.rdB]

end

/-! ### A clear of BEAT_EN -/

/-- `beatPages` lists the fourteen pages by address, R20 by block. -/
theorem beatPages_perm : beatPages.Perm
    [0x020, 0x021, 0x022, 0x028, 0x029, 0x02A, 0x030, 0x031, 0x032, 0x038, 0x039, 0x03A, 0x023, 0x041] := by
  decide

section
variable {d : Dev}

theorem Dev.beatEnClear_of_stopped (value : Nat) (h : ∀ p ∈ beatPages, d.bstate p = .stopped) :
    d.beatEnClear value = d.wr 0x008 PTP_BEAT_CTL.BEAT_EN 0 := by
  have hall : (beatPages.all fun p => decide (d.bstate p = .stopped)) = true := by simpa using h
  rw [Dev.beatEnClear, if_pos hall]

theorem Dev.beatEnClear_of_busy {p : Nat} (value : Nat) (hp : p ∈ beatPages) (hbusy : d.bstate p ≠ .stopped)
    (hen : d.rdB 0x008 PTP_BEAT_CTL.BEAT_EN = true) : d.beatEnClear value = d.cfgReject 0x008 0 0x408 value := by
  have hall : ¬ (beatPages.all fun p => decide (d.bstate p = .stopped)) = true := fun h =>
    hbusy (of_decide_eq_true (List.all_eq_true.1 h p hp))
  rw [Dev.beatEnClear, if_neg hall, if_pos hen]

/-- Bit 0 of the value is BEAT_EN itself, which a clear writes as 0. -/
theorem gives_beatEnClear (value : Nat) (h : d.answers 0x008 = true) :
    Gives (.beatEnClear value) d ((d.beatEnClear (value / 2 * 2)).complete .okay) := by
  have hg := gives_of_onDev (i := .beatEnClear value) (d := d)
    (f := fun e => e.regDo 0x008 fun e => (e.beatEnClear (value / 2 * 2)).complete .okay) fun _ => rfl
  rwa [Dev.regDo, if_pos h] at hg

end

/-- Settles O53: a busy beat page turns the clear into a refusal, which leaves the word of PTP_BEAT_CTL alone; fourteen STOPPED
pages let it through. -/
theorem beatEnClearIsRefusedWhileRadioPagesRun : Obligations.BeatEnClearIsRefusedWhileRadioPagesRun := by
  refine ⟨fun d value p hp hbusy hans hen heven => ?_, fun d value hstop hans => ?_⟩
  case refine_1 =>
    have hvalue : value / 2 * 2 = value := by omega
    have hgives := gives_beatEnClear value hans
    rw [hvalue, Dev.beatEnClear_of_busy value (beatPages_perm.mem_iff.2 hp) hbusy hen] at hgives
    have hkept : (d.cfgReject 0x008 0 0x408 value).rd 0x008 PTP_BEAT_CTL.BEAT_EN = d.rd 0x008 PTP_BEAT_CTL.BEAT_EN :=
      d.rd_cfgReject_ne 0 0x408 value (by decide) (by decide)
    refine ⟨_, hgives, ?_, ?_, ?_, ?_, ?_, ?_⟩
    · rwa [Dev.rdB_complete, Dev.rdB, hkept]
    · simp [Dev.rdB, Dev.rd_cfgReject_valid]
    · simp [Dev.rd_cfgReject_cause]
    · simp [Dev.rd_cfgReject_offset]
    · simp [Dev.rd_cfgReject_valueLo]
    · simp [Dev.rdB, Dev.rd_cfgReject_refused]
  case refine_2 =>
    have hgives := gives_beatEnClear value hans
    rwa [Dev.beatEnClear_of_stopped _ fun p hp => hstop p (beatPages_perm.mem_iff.1 hp)] at hgives

end Sys2Proof.Machine
end

section
/-! PROOFS. R70: what a refused claim or release writes (`Dev.refuseClaim`), which claims and releases are refused, and O50 from the
two. R42 and R38: which addresses are register pages, what the register network answers to anything but an aligned word, O51 and O52. -/

namespace Sys2Proof.Machine

/-- A register access completes, where its page answers, with what it does there. -/
theorem gives_of_regDo {i : Instr} {p : Nat} {f : Dev → Dev} {d : Dev} (h : ∀ s : State, exec i s = s.onDev fun e => e.regDo p f)
    (hans : d.answers p = true) : Gives i d (f d) := by
  have hgives := gives_of_onDev (d := d) h
  rwa [Dev.regDo, if_pos hans] at hgives

/-! ### The record of a refused claim -/

section
variable (d : Dev) (kind index requester : Nat)

/-- The index and kind of a resource that exists fit their fields of PIN_CLAIM_REJ_RES. -/
theorem resourceExists_bounds {kind index : Nat} (h : resourceExists kind index = true) : kind < 2 ^ 2 ∧ index < 2 ^ 10 := by
  simp only [resourceExists, Bool.or_eq_true, Bool.and_eq_true, decide_eq_true_eq] at h
  omega

/-- Every OWNER field is 16 bits wide. -/
theorem Dev.owner_lt : d.owner kind index < 2 ^ 16 := by
  have hw : (ownerFld kind index).w = 16 := by
    unfold ownerFld
    split_ifs <;> rfl
  rw [← hw]
  exact BitVec.isLt _

/-- The counter and the event stand in words of their own: a field of PIN_CLAIM_REJ_RES reads what the three writes to it left. -/
theorem Dev.rd_refuseClaim_res (f : Fld) (hf : f.off = PIN_CLAIM_REJ_RES.word.off) :
    (d.refuseClaim kind index requester).rd 0x000 f =
      (((d.wr 0x000 PIN_CLAIM_REJ_RES.INDEX index).wr 0x000 PIN_CLAIM_REJ_RES.KIND kind).wr 0x000
        PIN_CLAIM_REJ_RES.REQUESTER requester).rd 0x000 f := by
  have hint : regKey 0x000 f.off ≠ regKey 0x000 (INT_RAW.word.bitOf 8).off := by rw [hf]; decide
  have hcnt : regKey 0x000 f.off ≠ regKey 0x000 PIN_CLAIM_REJ_CNT.COUNT.off := by rw [hf]; decide
  rw [Dev.refuseClaim, Dev.ev, Dev.rd_wr_word _ _ hint, Dev.cnt, Dev.rd_wr_word _ _ hcnt]
  rfl

theorem Dev.rd_refuseClaim_index :
    (d.refuseClaim kind index requester).rd 0x000 PIN_CLAIM_REJ_RES.INDEX = index % 2 ^ 10 := by
  rw [Dev.rd_refuseClaim_res _ _ _ _ PIN_CLAIM_REJ_RES.INDEX rfl, Dev.rd_wr_bits _ _ _ (by decide) (by decide) (by decide),
    Dev.rd_wr_bits _ _ _ (by decide) (by decide) (by decide), Dev.rd_wr_same _ _ _ _ (by decide)]
  rfl

theorem Dev.rd_refuseClaim_kind :
    (d.refuseClaim kind index requester).rd 0x000 PIN_CLAIM_REJ_RES.KIND = kind % 2 ^ 2 := by
  rw [Dev.rd_refuseClaim_res _ _ _ _ PIN_CLAIM_REJ_RES.KIND rfl,
    Dev.rd_wr_bits _ _ _ (by decide) (by decide) (by decide), Dev.rd_wr_same _ _ _ _ (by decide)]
  rfl

theorem Dev.rd_refuseClaim_requester :
    (d.refuseClaim kind index requester).rd 0x000 PIN_CLAIM_REJ_RES.REQUESTER = requester % 2 ^ 16 := by
  rw [Dev.rd_refuseClaim_res _ _ _ _ PIN_CLAIM_REJ_RES.REQUESTER rfl, Dev.rd_wr_same _ _ _ _ (by decide)]
  rfl

theorem Dev.rd_refuseClaim_count : (d.refuseClaim kind index requester).rd 0x000 PIN_CLAIM_REJ_CNT.COUNT =
    min (d.rd 0x000 PIN_CLAIM_REJ_CNT.COUNT + 1) 0xFFFFFFFF := by
  have hold : ∀ (e : Dev) (own : Nat), ({ e with rejOwn := own } : Dev).rd 0x000 PIN_CLAIM_REJ_CNT.COUNT =
      e.rd 0x000 PIN_CLAIM_REJ_CNT.COUNT := fun _ _ => rfl
  have hfit : ∀ n : Nat, min n 0xFFFFFFFF % 2 ^ 32 = min n 0xFFFFFFFF := fun n => by omega
  rw [Dev.refuseClaim, Dev.ev, Dev.rd_wr_word _ _ (by decide), Dev.cnt, Dev.rd_wr_same _ _ _ _ (by decide), hold,
    Dev.rd_wr_word _ _ (by decide), Dev.rd_wr_word _ _ (by decide), Dev.rd_wr_word _ _ (by decide)]
  exact hfit _

theorem Dev.rd_refuseClaim_event :
    (d.refuseClaim kind index requester).rd 0x000 (INT_RAW.word.bitOf 8) = 1 :=
  Dev.rd_wr_same _ 0x000 (INT_RAW.word.bitOf 8) 1 (by decide)

@[simp] theorem Dev.refuseClaim_rejOwn : (d.refuseClaim kind index requester).rejOwn =
    if kind = 0 ∧ ballExists index = false then 0 else d.owner kind index := by
  simp [Dev.refuseClaim]

/-- A refusal writes no word that says whether the pin page answers. -/
theorem Dev.answers_refuseClaim : (d.refuseClaim kind index requester).answers 0x000 = d.answers 0x000 := by
  have hold : ∀ (e : Dev) (own : Nat), ({ e with rejOwn := own } : Dev).answers 0x000 = e.answers 0x000 := fun _ _ => rfl
  rw [Dev.refuseClaim, Dev.ev, Dev.answers_wr _ _ (by decide), Dev.cnt, Dev.answers_wr _ _ (by decide), hold,
    Dev.answers_wr _ _ (by decide), Dev.answers_wr _ _ (by decide), Dev.answers_wr _ _ (by decide)]

end

section
variable {d : Dev} {kind index : Nat}

theorem gives_pinClaimRejResRead (hans : d.answers 0x000 = true) :
    Gives .pinClaimRejResRead d ((d.wr 0x000 PIN_CLAIM_REJ_OWN.OWNER d.rejOwn).complete .okay
      (d.rdW 0x000 PIN_CLAIM_REJ_RES.word.off).toNat) :=
  gives_of_regDo (i := .pinClaimRejResRead) (p := 0x000)
    (f := fun e => (e.wr 0x000 PIN_CLAIM_REJ_OWN.OWNER e.rejOwn).complete .okay (e.rdW 0x000 PIN_CLAIM_REJ_RES.word.off).toNat)
    (fun _ => rfl) hans

/-- The owner a refusal keeps fits PIN_CLAIM_REJ_OWN, where the read of PIN_CLAIM_REJ_RES captures it. -/
theorem Dev.recordsRefusal_refuseClaim {requester : Nat} (hans : d.answers 0x000 = true) (hres : resourceExists kind index = true)
    (hreq : requester < 2 ^ 16) : ((d.refuseClaim kind index requester).complete .okay).recordsRefusal d kind index requester := by
  obtain ⟨hkind, hindex⟩ := resourceExists_bounds hres
  have hansE : ((d.refuseClaim kind index requester).complete .okay).answers 0x000 = true :=
    (Dev.answers_refuseClaim d kind index requester).trans hans
  refine ⟨?_, ?_, ?_, ?_, ?_, _, gives_pinClaimRejResRead hansE, rfl, ?_⟩
  · rw [Dev.rd_complete, Dev.rd_refuseClaim_index, Nat.mod_eq_of_lt hindex]
  · rw [Dev.rd_complete, Dev.rd_refuseClaim_kind, Nat.mod_eq_of_lt hkind]
  · rw [Dev.rd_complete, Dev.rd_refuseClaim_requester, Nat.mod_eq_of_lt hreq]
  · rw [Dev.rd_complete, Dev.rd_refuseClaim_count]
  · rw [Dev.rdB_complete, Dev.rdB, Dev.rd_refuseClaim_event]
    rfl
  · rw [Dev.rd_complete, Dev.rd_wr_same _ _ _ _ (by decide), Dev.complete_rejOwn, Dev.refuseClaim_rejOwn]
    refine Nat.mod_eq_of_lt ?_
    split
    · decide
    · exact d.owner_lt kind index

/-! ### The claims and releases that are refused -/

theorem gives_ownerClaim_refused {owner func : Nat} (hans : d.answers 0x000 = true) (hres : resourceExists kind index = true)
    (hclaim : d.claimable kind index (owner % 0x10000) (func % 64) = false) :
    Gives (.ownerClaim kind index owner func) d ((d.refuseClaim kind index (owner % 0x10000)).complete .okay) := by
  have hgives := gives_of_regDo (i := .ownerClaim kind index owner func) (p := 0x000) (d := d)
    (f := fun e => (if resourceExists kind index then e.claim kind index (owner % 0x10000) (func % 64) else e).complete .okay)
    (fun _ => rfl) hans
  rwa [if_pos hres, Dev.claim, hclaim, if_neg Bool.false_ne_true] at hgives

/-- What a release of a resource does, case by case (R68). -/
def Dev.releaseClaim (d : Dev) (kind index x : Nat) : Dev :=
  if resourceExists kind index = false then d
  else if kind = 0 ∧ ballExists index = false then d.refuseClaim kind index x
  else if d.owner kind index = x then d.freeOwner kind index
  else if d.owner kind index = 0 then d
  else d.refuseClaim kind index x

theorem Dev.releaseClaim_refused {x : Nat} (hres : resourceExists kind index = true)
    (hrefuse : (kind = 0 ∧ ballExists index = false) ∨ (d.owner kind index ≠ x ∧ d.owner kind index ≠ 0)) :
    d.releaseClaim kind index x = d.refuseClaim kind index x := by
  rw [Dev.releaseClaim, if_neg (by simp [hres])]
  by_cases hball : kind = 0 ∧ ballExists index = false
  · rw [if_pos hball]
  · obtain ⟨hother, htaken⟩ := hrefuse.resolve_left hball
    rw [if_neg hball, if_neg hother, if_neg htaken]

theorem gives_ownerRelease (owner : Nat) (hans : d.answers 0x000 = true) :
    Gives (.ownerRelease kind index owner) d ((d.releaseClaim kind index (owner % 0x10000)).complete .okay) :=
  gives_of_regDo (i := .ownerRelease kind index owner) (p := 0x000)
    (f := fun e => (e.releaseClaim kind index (owner % 0x10000)).complete .okay) (fun _ => rfl) hans

end

/-- Settles O50: either command ends in `Dev.refuseClaim`, which leaves the record. -/
theorem refusedClaimsAreRecorded : Obligations.RefusedClaimsAreRecorded := by
  have hfits : ∀ owner : Nat, owner % 0x10000 < 2 ^ 16 := fun owner => Nat.mod_lt owner (by decide)
  refine ⟨fun d kind index owner func hans hres hclaim => ?_, fun d kind index owner hans hres hrefuse => ?_⟩
  case refine_1 =>
    exact ⟨_, gives_ownerClaim_refused hans hres hclaim, Dev.recordsRefusal_refuseClaim hans hres (hfits owner)⟩
  case refine_2 =>
    have hgives := gives_ownerRelease (kind := kind) (index := index) owner hans
    rw [Dev.releaseClaim_refused hres hrefuse] at hgives
    exact ⟨_, hgives, Dev.recordsRefusal_refuseClaim hans hres (hfits owner)⟩

/-! ### The register network -/

/-- The regions below the register pages end before them, those above begin after. -/
theorem regionOf_eq_regs_iff (a : Nat) : regionOf a = .regs ↔ 0x20000000 ≤ a ∧ a < 0x30000000 := by
  unfold regionOf
  split_ifs <;> simp only [true_iff, false_iff] <;> omega

/-- Neither decode check of a request has an effect of its own, so their order does not show. -/
theorem State.access_regs_unaligned (s : State) (q : Req) {a : Access} (hregs : regionOf a.addr = .regs)
    (hword : a.size ≠ 4 ∨ a.addr % 4 ≠ 0) : s.access q a = s.on (·.complete .decodeError) := by
  unfold State.access
  by_cases hspan : a.size = 0 ∨ regionOf a.addr = .none ∨ regionOf (a.addr + a.size - 1) ≠ regionOf a.addr
  · exact if_pos hspan
  · exact (if_neg hspan).trans (if_pos ⟨hregs, hword⟩)

/-- ECC looks at no request to the register pages. -/
theorem Dev.eccSeen_regs (d : Dev) {a : Access} (hregs : regionOf a.addr = .regs) : d.eccSeen a = false := by
  simp [Dev.eccSeen, hregs]

/-- Settles O51: the checks of size and alignment come before every other. -/
theorem registerNetworkTakesAlignedWords : Obligations.RegisterNetworkTakesAlignedWords := by
  refine ⟨fun s who machine a ecc hregs hword => ?_, fun s page off value hoff => ?_⟩
  case refine_1 =>
    have hseen : (s.on fun d => d.when (d.eccSeen a && !d.denies (s.reqOf who machine) a) (·.eccFound a ecc)) = s := by
      rw [State.on, Dev.eccSeen_regs _ hregs, Bool.false_and, Dev.when_false]
    change Host.Outcome.next (State.access (s.on _) _ a) = _
    rw [hseen, State.access_regs_unaligned s _ hregs hword]
    rfl
  case refine_2 =>
    exact if_pos (Or.inl hoff)

/-- Settles O52: page numbers below 4096 are the whole of the register region. -/
theorem pageAddresses : Obligations.PageAddresses := by
  intro p a hp
  rw [regionOf_eq_regs_iff, pageOf]
  omega

end Sys2Proof.Machine
end

section
/-! PROOFS. R664: how a level change fails (`Dev.levelFails`), what its transaction leaves when no acknowledgement comes, and O54
from the two. -/

namespace Sys2Proof.Machine

/-- A saturating counter reads what was counted, up to its largest value. -/
theorem Dev.rd_cnt_same (d : Dev) (p : Nat) (f : Fld) (n : Nat) (h : f.lo + f.w ≤ 32) :
    (d.cnt p f n).rd p f = min (d.rd p f + n) (2 ^ f.w - 1) := by
  have hpos : 0 < 2 ^ f.w := Nat.two_pow_pos f.w
  rw [Dev.cnt, Dev.rd_wr_same d p f _ h]
  exact Nat.mod_eq_of_lt (by omega)

/-! ### A level change fails -/

/-- Four fields of three bits: the LEVEL of a domain lies below BUSY and ERR. -/
theorem plStat_level_end_le {dom : Nat} (hdom : dom < 4) : (PWR_PL_STAT.LEVEL dom).lo + (PWR_PL_STAT.LEVEL dom).w ≤ 12 := by
  simp only [PWR_PL_STAT.LEVEL]
  omega

/-- One bit per domain: its BUSY lies below every ERR. -/
theorem plStat_busy_end_le (dom : Nat) :
    (PWR_PL_STAT.BUSY.bitOf dom).lo + (PWR_PL_STAT.BUSY.bitOf dom).w ≤ (PWR_PL_STAT.ERR.bitOf dom).lo := by
  simp only [PWR_PL_STAT.BUSY, PWR_PL_STAT.ERR, Fld.bitOf]
  omega

theorem plStat_err_end_le {dom : Nat} (hdom : dom < 4) : (PWR_PL_STAT.ERR.bitOf dom).lo + (PWR_PL_STAT.ERR.bitOf dom).w ≤ 32 := by
  simp only [PWR_PL_STAT.ERR, Fld.bitOf]
  omega

section
variable {d : Dev} {dom : Nat} {c : LevelChange}

/-- On the registers, the failure of a change is three writes to PWR_PL_STAT. -/
theorem Dev.rd_levelFails (hc : look d.gov.change dom = some c) (p : Nat) (f : Fld) :
    (d.levelFails dom).rd p f =
      (((d.wr pwrPage (PWR_PL_STAT.LEVEL dom) c.old).wr pwrPage (PWR_PL_STAT.BUSY.bitOf dom) 0).wr pwrPage
        (PWR_PL_STAT.ERR.bitOf dom) 1).rd p f := by
  rw [Dev.levelFails, hc]
  exact Dev.rd_of_regs rfl p f

theorem Dev.rd_levelFails_level (hdom : dom < 4) (hc : look d.gov.change dom = some c) :
    (d.levelFails dom).rd pwrPage (PWR_PL_STAT.LEVEL dom) = c.old % 8 := by
  have hlevel := plStat_level_end_le hdom
  have hbusy := plStat_busy_end_le dom
  have herr := plStat_err_end_le hdom
  have hlo : 12 ≤ (PWR_PL_STAT.BUSY.bitOf dom).lo := Nat.le_add_right 12 dom
  rw [Dev.rd_levelFails hc, Dev.rd_wr_bits _ _ _ (by rfl) herr (by omega),
    Dev.rd_wr_bits _ _ _ (by rfl) (by omega) (by omega), Dev.rd_wr_same _ _ _ _ (by omega)]
  rfl

theorem Dev.rd_levelFails_busy (hdom : dom < 4) (hc : look d.gov.change dom = some c) :
    (d.levelFails dom).rd pwrPage (PWR_PL_STAT.BUSY.bitOf dom) = 0 := by
  have hbusy := plStat_busy_end_le dom
  have herr := plStat_err_end_le hdom
  rw [Dev.rd_levelFails hc, Dev.rd_wr_bits _ _ _ (by rfl) herr (.inl hbusy), Dev.rd_wr_same _ _ _ _ (by omega)]
  exact Nat.zero_mod _

theorem Dev.rd_levelFails_err (hdom : dom < 4) (hc : look d.gov.change dom = some c) :
    (d.levelFails dom).rd pwrPage (PWR_PL_STAT.ERR.bitOf dom) = 1 := by
  rw [Dev.rd_levelFails hc, Dev.rd_wr_same _ _ _ _ (plStat_err_end_le hdom)]
  rfl

/-- The failure of a change leaves every word but PWR_PL_STAT as it was. -/
theorem Dev.rd_levelFails_ne (hc : look d.gov.change dom = some c) {p : Nat} {f : Fld}
    (h : regKey p f.off ≠ regKey pwrPage PWR_PL_STAT.word.off) : (d.levelFails dom).rd p f = d.rd p f := by
  rw [Dev.rd_levelFails hc, Dev.rd_wr_word (f := PWR_PL_STAT.ERR.bitOf dom) _ _ h,
    Dev.rd_wr_word (f := PWR_PL_STAT.BUSY.bitOf dom) _ _ h, Dev.rd_wr_word (f := PWR_PL_STAT.LEVEL dom) _ _ h]

theorem Dev.look_change_levelFails (hc : look d.gov.change dom = some c) : look (d.levelFails dom).gov.change dom = none := by
  rw [Dev.levelFails, hc]
  exact look_del_same d.gov.change dom

end

/-! ### The transaction that is not acknowledged -/

/-- What a transaction without an acknowledgement leaves (R664): the change fails, is counted and reported. -/
def Dev.transactionFails (d : Dev) (dom : Nat) : Dev :=
  ((d.levelFails dom).cnt pwrPage PWR_CNT_PMB_ERR.COUNT).ev pwrPage 14

theorem gives_pmbusTxnDone_unacknowledged {d : Dev} {dom : Nat} {c : LevelChange}
    (hc : look d.gov.change dom = some c) (hack : c.acked = false) :
    Gives (.pmbusTxnDone dom false) d
      (if (d.transactionFails dom).gov.trip ∧ dom < 3 ∧ (d.transactionFails dom).inService pwrPage = true
        then (d.transactionFails dom).emergencyLevel dom else d.transactionFails dom) := by
  intro s hs
  subst hs
  change execPmbusTxnDone dom false s = _
  simp [execPmbusTxnDone, State.onDev, hc, hack, Dev.when, Dev.transactionFails, and_assoc]

/-- Count and event stand in words of their own: PWR_PL_STAT reads what the failure of the change left. -/
theorem Dev.rd_transactionFails_plStat (d : Dev) (dom : Nat) (f : Fld) (hf : f.off = PWR_PL_STAT.word.off) :
    (d.transactionFails dom).rd pwrPage f = (d.levelFails dom).rd pwrPage f := by
  have hint : regKey pwrPage f.off ≠ regKey pwrPage (INT_RAW.word.bitOf 14).off := by rw [hf]; decide
  have hcnt : regKey pwrPage f.off ≠ regKey pwrPage PWR_CNT_PMB_ERR.COUNT.off := by rw [hf]; decide
  rw [Dev.transactionFails, Dev.ev, Dev.rd_wr_word _ _ hint, Dev.cnt, Dev.rd_wr_word _ _ hcnt]

theorem Dev.rd_transactionFails_count {d : Dev} {dom : Nat} {c : LevelChange} (hc : look d.gov.change dom = some c) :
    (d.transactionFails dom).rd pwrPage PWR_CNT_PMB_ERR.COUNT =
      min (d.rd pwrPage PWR_CNT_PMB_ERR.COUNT + 1) (2 ^ PWR_CNT_PMB_ERR.COUNT.w - 1) := by
  rw [Dev.transactionFails, Dev.ev, Dev.rd_wr_word _ _ (by decide), Dev.rd_cnt_same _ _ _ _ (by decide),
    Dev.rd_levelFails_ne hc (by decide)]

theorem Dev.rd_transactionFails_event (d : Dev) (dom : Nat) :
    (d.transactionFails dom).rd pwrPage (INT_RAW.word.bitOf 14) = 1 :=
  Dev.rd_wr_same _ pwrPage (INT_RAW.word.bitOf 14) 1 (by decide)

@[simp] theorem Dev.transactionFails_gov (d : Dev) (dom : Nat) : (d.transactionFails dom).gov = (d.levelFails dom).gov := by
  simp [Dev.transactionFails]

/-- Settles O54: the state before an emergency's own command is `Dev.transactionFails`. -/
theorem levelChangeWithoutAcknowledgement : Obligations.LevelChangeWithoutAcknowledgement := by
  intro d dom c hdom hc hack
  refine ⟨d.transactionFails dom, gives_pmbusTxnDone_unacknowledged hc hack, ?level, ?done, ?busy, ?err, ?count, ?event⟩
  case level => rw [Dev.rd_transactionFails_plStat d dom (PWR_PL_STAT.LEVEL dom) rfl, Dev.rd_levelFails_level hdom hc]
  case done => rw [Dev.transactionFails_gov, Dev.look_change_levelFails hc]
  case busy =>
    rw [Dev.rdB, Dev.rd_transactionFails_plStat d dom (PWR_PL_STAT.BUSY.bitOf dom) rfl, Dev.rd_levelFails_busy hdom hc]
    rfl
  case err =>
    rw [Dev.rdB, Dev.rd_transactionFails_plStat d dom (PWR_PL_STAT.ERR.bitOf dom) rfl, Dev.rd_levelFails_err hdom hc]
    rfl
  case count => exact Dev.rd_transactionFails_count hc
  case event =>
    rw [Dev.rdB, Dev.rd_transactionFails_event]
    rfl

end Sys2Proof.Machine
end

section
/-! PROOFS. What the operations of a control core leave alone (`State.Calm`): the beat sequencer and the queue of commands, and the
shape of the eight cores. Loads and stores that reach the register network keep less (`State.Keeps`, below). -/

namespace Sys2Proof.Machine

/-! ### Two preorders on states -/

/-- From `s` to `t` the beat sequencer and the queue stand as they were, and cores that were well-formed still are. -/
structure State.Calm (s t : State) : Prop where
  seq : t.seq = s.seq
  pending : t.pending = s.pending
  wf : s.hartsWf → t.hartsWf

/-- From `s` to `t` the queue stands as it was, cores that were well-formed still are, and the index of the last boundary issued has
not fallen. -/
structure State.Keeps (s t : State) : Prop where
  pending : t.pending = s.pending
  wf : s.hartsWf → t.hartsWf
  last : ∀ m, s.seq.last = some m → ∃ n, t.seq.last = some n ∧ m ≤ n

namespace State.Calm

variable {s t u : State}

theorem refl (s : State) : s.Calm s := ⟨rfl, rfl, id⟩

theorem trans (h : s.Calm t) (g : t.Calm u) : s.Calm u :=
  ⟨g.seq.trans h.seq, g.pending.trans h.pending, g.wf ∘ h.wf⟩

/-- An update of the device. -/
theorem dev (s : State) (d : Dev) : s.Calm { s with dev := d } := ⟨rfl, rfl, (State.hartsWf_of_harts · rfl)⟩

theorem on (s : State) (f : Dev → Dev) : s.Calm (s.on f) := dev s _

theorem setHart (s : State) (c : Nat) {h : Hart} (hw : s.hartsWf → h.wf) : s.Calm (s.setHart c h) :=
  ⟨rfl, rfl, fun w => State.hartsWf_setHart w c (hw w)⟩

theorem onHart (s : State) (c : Nat) {f : Hart → Hart} (hf : ∀ h : Hart, h.wf → (f h).wf) : s.Calm (s.onHart c f) :=
  ⟨rfl, rfl, fun w => State.hartsWf_onHart w c hf⟩

/-- Either branch of a choice. -/
theorem ite {p : Prop} [Decidable p] (ht : s.Calm t) (hu : s.Calm u) : s.Calm (if p then t else u) :=
  iteInduction (motive := s.Calm) (fun _ => ht) fun _ => hu

/-- Either branch of a choice that also answers a value. -/
theorem ite_fst {α : Type} {p : Prop} [Decidable p] {a b : State × α} (ha : s.Calm a.1) (hb : s.Calm b.1) :
    s.Calm (if p then a else b).1 :=
  iteInduction (motive := fun r : State × α => s.Calm r.1) (fun _ => ha) fun _ => hb

theorem keeps (h : s.Calm t) : s.Keeps t := ⟨h.pending, h.wf, fun m hm => ⟨m, by rw [h.seq, hm], le_rfl⟩⟩

end State.Calm

namespace State.Keeps

variable {s t u : State}

theorem refl (s : State) : s.Keeps s := (State.Calm.refl s).keeps

theorem trans (h : s.Keeps t) (g : t.Keeps u) : s.Keeps u := by
  refine ⟨g.pending.trans h.pending, g.wf ∘ h.wf, fun m hm => ?_⟩
  obtain ⟨n, hn, hmn⟩ := h.last m hm
  obtain ⟨k, hk, hnk⟩ := g.last n hn
  exact ⟨k, hk, hmn.trans hnk⟩

theorem dev (s : State) (d : Dev) : s.Keeps { s with dev := d } := (State.Calm.dev s d).keeps

theorem on (s : State) (f : Dev → Dev) : s.Keeps (s.on f) := dev s _

theorem ite {p : Prop} [Decidable p] (ht : s.Keeps t) (hu : s.Keeps u) : s.Keeps (if p then t else u) :=
  iteInduction (motive := s.Keeps) (fun _ => ht) fun _ => hu

theorem ite_fst {α : Type} {p : Prop} [Decidable p] {a b : State × α} (ha : s.Keeps a.1) (hb : s.Keeps b.1) :
    s.Keeps (if p then a else b).1 :=
  iteInduction (motive := fun r : State × α => s.Keeps r.1) (fun _ => ha) fun _ => hb

end State.Keeps

/-! ### Memory as a core reaches it -/

theorem State.calm_breakResv (s : State) (c a n : Nat) : s.Calm (s.breakResv c a n) :=
  ⟨rfl, rfl, fun w => State.hartsWf_breakResv w c a n⟩

theorem State.calm_lineError (s : State) (c a : Nat) : s.Calm (s.lineError c a) :=
  ⟨rfl, rfl, fun w => State.hartsWf_lineError w c a⟩

/-- Bytes stored into the caches take away the reservations on their lines. -/
theorem State.calm_cachePuts (s : State) (c a n : Nat) (l : List Nat) : s.Calm ((s.on (·.cachePuts a l)).breakResv c a n) :=
  (Calm.on s _).trans (calm_breakResv _ c a n)

theorem State.calm_walk (c prv acc va : Nat) : ∀ (k base : Nat) (s : State), s.Calm (s.walk c prv acc va k base).1
  | 0, _, s => .refl s
  | k + 1, base, s => by
    have hfill := fun d => Calm.dev s d
    rw [State.walk]
    dsimp only
    refine .ite_fst (.refl s) (.ite_fst (hfill _) (.ite_fst (hfill _) (.ite_fst ?table (.ite_fst (hfill _)
      (.ite_fst (hfill _) ?leaf)))))
    case table => exact .ite_fst (hfill _) ((hfill _).trans (calm_walk c prv acc va k _ _))
    case leaf => exact (hfill _).trans (.ite (calm_cachePuts _ c _ _ _) (.refl _))

theorem State.calm_translate {s t : State} {c prv acc va : Nat} {r : Except Nat Nat} (h : s.translate c prv acc va = (t, r)) :
    s.Calm t := by
  have hcalm : s.Calm (s.translate c prv acc va).1 := by
    unfold State.translate
    exact .ite_fst (.refl s) (.ite_fst (.refl s) (calm_walk c prv acc va 3 _ s))
  rwa [h] at hcalm

theorem State.calm_cachedStore (s : State) (c pa va : Nat) (l : List Nat) (bad : Bool) : s.Calm (s.cachedStore c pa va l bad).1 := by
  have hfill := fun d => Calm.dev s d
  unfold State.cachedStore
  exact .ite_fst (.refl s) (.ite_fst (hfill _) (.ite_fst ((hfill _).trans (calm_lineError _ c pa))
    ((hfill _).trans (calm_cachePuts _ c pa _ l))))

theorem State.calm_atomicAt {s t : State} {c acc va n : Nat} {bad : Bool} {r : Except (Nat × Nat) Nat}
    (h : s.atomicAt c acc va n bad = (t, r)) : s.Calm t := by
  have hcalm : s.Calm (s.atomicAt c acc va n bad).1 := by
    unfold State.atomicAt
    dsimp only
    split
    · exact .refl s
    · refine .ite_fst (.refl s) ?_
      split
      · next htr => exact calm_translate htr
      · next htr =>
        have hfill := fun d => (calm_translate htr).trans (Calm.dev _ d)
        exact .ite_fst (calm_translate htr)
          (.ite_fst (hfill _) (.ite_fst ((hfill _).trans (calm_lineError _ c _)) (hfill _)))
  rwa [h] at hcalm

theorem State.calm_fetchHalf {s t : State} {c va : Nat} {r : Except Nat Nat} (h : s.fetchHalf c va = (t, r)) : s.Calm t := by
  have hcalm : s.Calm (s.fetchHalf c va).1 := by
    unfold State.fetchHalf
    dsimp only
    split
    · next htr => exact calm_translate htr
    · next htr =>
      have hfill := fun d => (calm_translate htr).trans (Calm.dev _ d)
      exact .ite_fst (calm_translate htr) (.ite_fst (hfill _) (hfill _))
  rwa [h] at hcalm

theorem State.calm_fetch {s t : State} {c : Nat} {r : Except (Nat × Nat) (Option Nat × Nat × Nat)} (h : s.fetch c = (t, r)) :
    s.Calm t := by
  have hcalm : s.Calm (s.fetch c).1 := by
    unfold State.fetch
    dsimp only
    split
    · next hlo => exact calm_fetchHalf hlo
    · next hlo =>
      refine .ite_fst (calm_fetchHalf hlo) ?_
      split
      · next hhi => exact (calm_fetchHalf hlo).trans (calm_fetchHalf hhi)
      · next hhi => exact (calm_fetchHalf hlo).trans (calm_fetchHalf hhi)
  rwa [h] at hcalm

/-! ### Instructions that do not load or store -/

theorem State.calm_retire (s : State) (c len rd v : Nat) : s.Calm (s.retire c len rd v).1 :=
  .onHart s c fun _ w => Hart.wf_setPc (Hart.wf_setX w _ _) _

theorem State.calm_aluEnd (s : State) (c len raw rd : Nat) (r : Option Nat) : s.Calm (s.aluEnd c len raw rd r).1 := by
  cases r with
  | none => exact .refl s
  | some v => exact calm_retire s c len rd v

theorem State.calm_branch (s : State) (c w len raw : Nat) : s.Calm (s.branch c w len raw).1 := by
  unfold State.branch
  dsimp only
  split
  · exact .refl s
  · exact .onHart s c fun _ w => Hart.wf_setPc w _

theorem State.calm_amoIns (s : State) (c w len raw : Nat) (bad : Bool) : s.Calm (s.amoIns c w len raw bad).1 := by
  have hresv : ∀ (u : State) (r : Option (Nat × Nat)), u.Calm (u.onHart c fun h => { h with resv := r }) := fun u _ =>
    .onHart u c fun _ w => w
  unfold State.amoIns
  dsimp only
  refine .ite_fst (.refl s) (.ite_fst (.ite_fst (.refl s) ?lr) (.ite_fst ?sc ?amo))
  case lr =>
    split
    · next hat => exact calm_atomicAt hat
    · next hat => exact ((calm_atomicAt hat).trans (hresv _ _)).trans (calm_retire _ c _ _ _)
  case sc =>
    split
    · next hat => exact calm_atomicAt hat
    · next hat =>
      exact (((calm_atomicAt hat).trans (hresv _ none)).trans (.ite (calm_cachePuts _ c _ _ _) (.refl _))).trans
        (calm_retire _ c _ _ _)
  case amo =>
    split
    · exact .refl s
    · split
      · next hat => exact calm_atomicAt hat
      · next hat => exact ((calm_atomicAt hat).trans (calm_cachePuts _ c _ _ _)).trans (calm_retire _ c _ _ _)

/-- A cache-block operation translates its address as a load, and where that fails as a store. -/
theorem State.calm_cboIns (s : State) (c w len raw : Nat) : s.Calm (s.cboIns c w len raw).1 := by
  unfold State.cboIns
  extract_lets op h prv m n off va demote p r
  refine .ite_fst (.refl s) ?_
  have hwalk : ∀ {t x}, r = (t, x) → s.Calm t := by
    intro t x hr
    simp only [r] at hr
    split at hr
    · next htr =>
      cases hr
      exact calm_translate htr
    · exact calm_translate hr
  clear_value r
  obtain ⟨t, _ | pa⟩ := r
  · exact hwalk rfl
  · exact .ite_fst (hwalk rfl) ((hwalk rfl).trans ((Calm.ite (.refl _) (.on _ _)).trans (calm_retire _ c _ _ _)))

theorem State.calm_fpIns (s : State) (c w len raw : Nat) : s.Calm (s.fpIns c w len raw).1 := by
  unfold State.fpIns
  dsimp only
  refine .ite_fst (.refl s) ?_
  split
  · exact .refl s
  · exact (Calm.onHart s c fun _ w => Hart.wf_raise w _).trans (calm_retire _ c _ _ _)
  · exact (Calm.onHart s c fun _ w => Hart.wf_raise (Hart.wf_setF w _ _ _) _).trans (calm_retire _ c _ _ _)

theorem State.calm_fmaIns (s : State) (c w len raw : Nat) : s.Calm (s.fmaIns c w len raw).1 := by
  unfold State.fmaIns
  extract_lets h dbl f
  split
  · exact .refl s
  · exact .ite_fst (.refl s)
      ((Calm.onHart s c fun _ w => Hart.wf_raise (Hart.wf_setF w _ _ _) _).trans (calm_retire _ c _ _ _))

theorem State.calm_csrIns (s : State) (c w len raw : Nat) : s.Calm (s.csrIns c w len raw).1 := by
  unfold State.csrIns
  dsimp only
  split
  · exact .refl s
  · exact .ite_fst (.refl s)
      ((Calm.ite (.onHart s c fun _ w => Hart.wf_csrWrite w _ _) (.refl s)).trans (calm_retire _ c _ _ _))

theorem State.calm_sysIns (s : State) (c w len raw : Nat) : s.Calm (s.sysIns c w len raw).1 := by
  have hrefl := Calm.refl s
  have hmret : s.Calm (s.onHart c (·.mret)) := .onHart s c fun _ w => Hart.wf_mret w
  have hsret : s.Calm (s.onHart c (·.sret)) := .onHart s c fun _ w => Hart.wf_sret w
  have hwfi : s.Calm (s.onHart c fun h => { h.setPc (h.pc.toNat + len) with wfi := !h.halted }) := .onHart s c fun _ w => w
  unfold State.sysIns
  extract_lets h st prv
  exact .ite_fst (.ite_fst hrefl (calm_csrIns s c w len raw)) (.ite_fst hrefl (.ite_fst hrefl (.ite_fst (.ite_fst hmret hrefl)
    (.ite_fst (.ite_fst hsret hrefl) (.ite_fst (.ite_fst hrefl hwfi)
      (.ite_fst (.ite_fst hrefl (calm_retire s c _ _ _)) hrefl))))))

/-! ### The end of an instruction -/

/-- The events of an instruction are counted one counter after the other. -/
theorem Hart.wf_countEvents (g : Nat → Nat) (l : List Nat) {h : Hart} (w : h.wf) :
    (l.foldl (fun h k => if h.csrW (0x320 + k) = 0 then h else h.count k (g k)) h).wf := by
  induction l generalizing h with
  | nil => exact w
  | cons k l ih => exact ih (iteInduction (motive := Hart.wf) (fun _ => w) fun _ => Hart.wf_count w _ _)

theorem State.calm_countCycles (s : State) (c : Nat) : s.Calm (s.countCycles c) := by
  unfold State.countCycles
  split
  next d v _ =>
    exact (Calm.dev s d).trans (.onHart _ c fun _ w =>
      Hart.wf_countEvents (fun k => v / 256 ^ (k % 3 + 1) % 256) [3, 4, 5, 6] (Hart.wf_count w _ _))

theorem State.Calm.endIns {s v : State} {c w : Nat} {step : Bool} {r : Ran} (h : s.Calm r.1) : s.Calm (v.endIns c w step r) := by
  obtain ⟨u, trap⟩ := r
  have hends : ∀ {t : State}, s.Calm t → s.Calm (if writesCsr w 0xB00 then t else t.countCycles c) := fun h =>
    .ite h (h.trans (calm_countCycles _ c))
  have hsteps : ∀ {t : State}, s.Calm t → s.Calm (t.onHart c fun h => h.enterDebug 4 h.pc.toNat) := fun h =>
    h.trans (.onHart _ c fun _ w => Hart.wf_enterDebug w _ _)
  unfold State.endIns
  dsimp only
  cases trap with
  | some e =>
    have htrap : s.Calm (u.onHart c (·.takes e.1 e.2)) := h.trans (.onHart u c fun _ w => Hart.wf_takes w _ _)
    exact .ite (hsteps (hends htrap)) (hends htrap)
  | none =>
    have hretire : s.Calm (if (u.hart c).wait.isSome ∨ writesCsr w 0xB02 then u else u.onHart c (·.count 2 1)) :=
      .ite h (h.trans (.onHart u c fun _ w => Hart.wf_count w _ _))
    exact .ite (hsteps (hends hretire)) (hends hretire)

end Sys2Proof.Machine
end

section
/-! PROOFS. What the networks keep (`State.Keeps`): steps of device time issue boundaries of rising index, and no access to memory or
to a register touches the queue or spoils a core. -/

namespace Sys2Proof.Machine

/-! ### Steps of device time -/

/-- From `s` to `t` the cores and the queue stand as they were, and the index of the last boundary issued has not fallen. -/
structure State.Ticks (s t : State) : Prop where
  harts : t.harts = s.harts
  pending : t.pending = s.pending
  last : ∀ m, s.seq.last = some m → ∃ n, t.seq.last = some n ∧ m ≤ n

namespace State.Ticks

variable {s t u : State}

theorem keeps (h : s.Ticks t) : s.Keeps t := ⟨h.pending, (State.hartsWf_of_harts · h.harts), h.last⟩

theorem dev (s : State) (d : Dev) : s.Ticks { s with dev := d } := ⟨rfl, rfl, fun m hm => ⟨m, hm, le_rfl⟩⟩

/-- The device, and the first boundary that may be issued. -/
theorem first (s : State) (d : Dev) (n : Nat) : s.Ticks { s with dev := d, seq := { s.seq with first := n } } :=
  ⟨rfl, rfl, fun m hm => ⟨m, hm, le_rfl⟩⟩

theorem refl (s : State) : s.Ticks s := dev s _

theorem trans (h : s.Ticks t) (g : t.Ticks u) : s.Ticks u := by
  refine ⟨g.harts.trans h.harts, g.pending.trans h.pending, fun m hm => ?_⟩
  obtain ⟨n, hn, hmn⟩ := h.last m hm
  obtain ⟨k, hk, hnk⟩ := g.last n hn
  exact ⟨k, hk, hmn.trans hnk⟩

theorem ite {p : Prop} [Decidable p] (ht : s.Ticks t) (hu : s.Ticks u) : s.Ticks (if p then t else u) :=
  iteInduction (motive := s.Ticks) (fun _ => ht) fun _ => hu

end State.Ticks

/-- The next boundary lies above every one issued (R24). -/
theorem State.lt_nextBoundary {s : State} {m : Nat} (h : s.seq.last = some m) : m < s.nextBoundary := by
  simp only [State.nextBoundary, h]
  omega

/-- A forward step issues a boundary only above the last one issued (R22). -/
theorem State.ticks_stepTo (s : State) (t : Nat) : s.Ticks (s.stepTo t) := by
  unfold State.stepTo
  extract_lets now b b' d0 d on
  split
  case isTrue h =>
    refine ⟨rfl, rfl, fun m hm => ⟨b', rfl, ?_⟩⟩
    have hlast : m ≤ b := by simp [b, hm]
    exact hlast.trans h.2.1.le
  case isFalse => exact .ite (.dev s _) (.dev s _)

/-- A step of time between two updates of the device. -/
theorem State.ticks_stepTo_dev (s : State) (d e : Dev) (t : Nat) :
    s.Ticks { ({ s with dev := d } : State).stepTo t with dev := e } :=
  ((Ticks.dev s d).trans (ticks_stepTo _ t)).trans (.dev _ e)

theorem State.ticks_timeCmd (s : State) (op : Nat) : s.Ticks (s.timeCmd op) := by
  unfold State.timeCmd
  dsimp only
  refine .ite (.dev s _) ?_
  split
  · exact .ite (.dev s _) (ticks_stepTo_dev s _ _ _)
  · exact ticks_stepTo_dev s _ _ _
  · exact .dev s _

theorem State.ticks_servoSample (s : State) (e : Int) : s.Ticks (s.servoSample e) := by
  unfold State.servoSample
  extract_lets d t u d'
  exact .ite (.refl s) (.ite (ticks_stepTo_dev s d _ _) (.dev s _))

theorem State.ticks_execServoSample (s : State) (ns : Nat) : ∃ t, execServoSample ns s = .next t ∧ s.Ticks t := by
  unfold execServoSample
  extract_lets u
  split_ifs
  · exact ⟨_, rfl, .dev s _⟩
  · exact ⟨_, rfl, .dev s _⟩
  · exact ⟨_, rfl, (Ticks.dev s _).trans (ticks_servoSample u _)⟩

theorem State.ticks_execBeatEnSet (s : State) : ∃ t, execBeatEnSet s = .next t ∧ s.Ticks t := by
  unfold execBeatEnSet
  split_ifs
  · exact ⟨_, rfl, .dev s _⟩
  · exact ⟨_, rfl, .dev s _⟩
  · exact ⟨_, rfl, .first s _ _⟩

/-! ### Register writes -/

/-- A register write with no behaviour of its own answers none; one that has a behaviour answers a state that keeps what `s` has. -/
def State.KeepsIn (s : State) (o : Option State) : Prop := ∀ t, o = some t → s.Keeps t

namespace State.KeepsIn

variable {s t : State} {o o' : Option State}

theorem none (s : State) : s.KeepsIn none := fun _ h => by cases h

theorem some (h : s.Keeps t) : s.KeepsIn (some t) := fun _ e => by cases e; exact h

/-- An update of the device. -/
theorem dev (s : State) (d : Dev) : s.KeepsIn (Option.some { s with dev := d }) := some (.dev s d)

theorem ite {p : Prop} [Decidable p] (h : s.KeepsIn o) (h' : s.KeepsIn o') : s.KeepsIn (if p then o else o') :=
  iteInduction (motive := s.KeepsIn) (fun _ => h) fun _ => h'

end State.KeepsIn

/-- The state a command that steps device time reaches. -/
theorem State.Ticks.by_of {s : State} {o : Host.Outcome State Fault Refusal} (h : ∃ t, o = .next t ∧ s.Ticks t) :
    s.Keeps (s.by o) := by
  obtain ⟨t, rfl, ht⟩ := h
  exact ht.keeps

theorem State.calm_afterLevel (s : State) : s.Calm s.afterLevel := by
  refine ⟨?_, ?_, State.hartsWf_afterLevel⟩
  all_goals
    unfold State.afterLevel
    split <;> rfl

theorem State.calm_setSsip (s : State) (h : Nat) : s.Calm (s.setSsip h) := by
  refine ⟨?_, ?_, (State.hartsWf_setSsip · h)⟩
  all_goals
    unfold State.setSsip
    split <;> rfl

/-- A write of an ownership register is a command of the device. -/
theorem State.keeps_ownWrite (s : State) (q : Req) (o v : Nat) : s.Keeps (s.ownWrite q o v) := by
  unfold State.ownWrite
  extract_lets reg
  clear_value reg
  cases reg with
  | none => exact .dev s _
  | some r => exact .ite (.dev s _) (.ite (.dev s _) (.dev s _))

theorem State.keepsIn_regCommand (s : State) (q : Req) (p o v : Nat) : s.KeepsIn (s.regCommand q p o v) := by
  have hnone := KeepsIn.none s
  have hdev := KeepsIn.dev s
  have hlevel : ∀ f g : Dev → Dev, s.KeepsIn (some ((s.on f).afterLevel.on g)) := fun f g =>
    .some (((Keeps.on s f).trans (calm_afterLevel _).keeps).trans (.on _ g))
  have htime : s.KeepsIn (some (if bit v 31 then s.timeCmd (v % 4) else s)) :=
    .some (.ite (ticks_timeCmd s _).keeps (.refl s))
  unfold State.regCommand
  extract_lets d go ok
  split
  case h_1 => exact .ite htime (.ite (hdev _) (.ite (hdev _) hnone))
  case h_2 => exact .ite (hdev _) hnone
  case h_3 => exact .ite (.ite (hdev _) hnone) hnone
  case h_4 => exact .ite (hdev _) hnone
  case h_5 =>
    refine .ite ?_ hnone
    split <;> exact hdev _
  case h_6 =>
    refine .ite ?_ hnone
    split <;> exact hdev _
  case h_7 =>
    refine .ite ?_ hnone
    split <;> exact hdev _
  case h_8 => exact .ite (hdev _) hnone
  case h_9 =>
    refine .ite (hdev _) (.ite ?_ hnone)
    split <;> exact hdev _
  case h_10 => exact .ite (hdev _) hnone
  case h_11 => exact .ite (hdev _) hnone
  case h_12 => exact .ite (hdev _) hnone
  case h_13 =>
    refine .ite (hdev _) (.ite ?_ hnone)
    split
    · exact hdev _
    · exact hlevel _ _
    · exact hlevel _ _
    · exact hdev _
    · exact hnone
  case h_14 => exact .ite (hdev _) (.ite (hdev _) (.ite (hdev _) hnone))
  case h_15 => exact .ite (hdev _) hnone
  case h_16 => exact hnone

theorem State.keepsIn_regOwn (s : State) (q : Req) (p o v : Nat) : s.KeepsIn (s.regOwn q p o v) := by
  have hnone := KeepsIn.none s
  have hdev := KeepsIn.dev s
  have hbeat : s.KeepsIn (some (if bit v 0 = s.dev.rdB ptpPage PTP_BEAT_CTL.BEAT_EN then s.on (·.complete .okay)
      else if bit v 0 then s.by (execBeatEnSet s) else s.by (execBeatEnClear v s))) :=
    .some (.ite (.on s _) (.ite (Ticks.by_of (ticks_execBeatEnSet s)) (.dev s _)))
  have hservo : s.KeepsIn (some (s.by (execServoSample v s))) := .some (Ticks.by_of (ticks_execServoSample s v))
  unfold State.regOwn
  extract_lets d ok
  split
  case h_1 => exact .ite (.some (keeps_ownWrite s q o v)) hnone
  case h_2 => exact .ite hbeat (.ite hservo hnone)
  case h_3 => exact .ite (hdev _) hnone
  case h_4 => exact .ite (hdev _) hnone
  case h_5 => exact .ite (hdev _) (.ite (hdev _) (.ite (hdev _) hnone))
  case h_6 => exact .ite (hdev _) (.ite (hdev _) hnone)
  case h_7 => exact .ite hnone (.ite (hdev _) (.ite (hdev _) (.ite (hdev _) hnone)))
  case h_8 => exact .ite (hdev _) (.ite (hdev _) (.ite (hdev _) hnone))
  case h_9 => exact .ite (hdev _) (.ite (hdev _) hnone)
  case h_10 => exact .ite (hdev _) (.ite (hdev _) hnone)
  case h_11 => exact .ite (hdev _) (.ite (hdev _) (.ite (hdev _) (.ite (hdev _) (.ite (hdev _) hnone))))
  case h_12 =>
    exact .ite (.ite (hdev _) hnone) (.ite (hdev _) (.ite (hdev _) (.ite (hdev _) hnone)))
  case h_13 => exact .ite (hdev _) hnone
  case h_14 => exact .ite (hdev _) hnone
  case h_15 => exact .ite (hdev _) (.ite (hdev _) (.ite (hdev _) hnone))
  case h_16 => exact hnone

theorem State.keeps_aclintWrite (s : State) (o v : Nat) : s.Keeps (s.aclintWrite o v) := by
  unfold State.aclintWrite
  exact .ite (.dev s _) (.ite (.dev s _) (.ite ((Keeps.dev s _).trans (calm_setSsip _ _).keeps) (.dev s _)))

/-- A register write runs what the page has for it, the fields beside a GO bit written first. -/
theorem State.keeps_regWrite (s : State) (q : Req) (p o v : Nat) : s.Keeps (s.regWrite q p o v) := by
  have hdev := Keeps.dev s
  unfold State.regWrite
  extract_lets w
  refine .ite (hdev _) (.ite (keeps_aclintWrite s o w) ?_)
  split
  · exact hdev _
  · refine .ite (hdev _) (.ite (hdev _) (.ite (hdev _) (.ite (hdev _) ?_)))
    split
    · next hown => exact keepsIn_regOwn s q p o w _ hown
    · extract_lets fields kept t
      refine .ite (hdev _) ?_
      split
      · next hcmd => exact (Keeps.on s _).trans (keepsIn_regCommand _ q p o w _ hcmd)
      · exact hdev _

/-! ### Any access -/

theorem State.keeps_access (s : State) (q : Req) (a : Access) : s.Keeps (s.access q a) := by
  have hdev := Keeps.dev s
  unfold State.access
  extract_lets d r code perform
  refine .ite (hdev _) (.ite (hdev _) (.ite (hdev _) (.ite (hdev _) ?_)))
  clear_value r
  cases r with
  | none => exact hdev _
  | rom => exact .ite (hdev _) (hdev _)
  | xspi => exact .ite (hdev _) (hdev _)
  | sram => exact hdev _
  | hamper => exact hdev _
  | dram => exact hdev _
  | kov => exact .ite (hdev _) (.ite (hdev _) (.ite (hdev _) (.ite (hdev _) (hdev _))))
  | pcie => exact hdev _
  | regs =>
    dsimp only
    split
    · exact keeps_regWrite s q _ _ _
    · exact hdev _

theorem State.keeps_inbound (s : State) (addr size : Nat) (write : Option Nat) : s.Keeps (s.inbound addr size write) := by
  have hdev := Keeps.dev s
  unfold State.inbound
  extract_lets d msi
  refine .ite (.refl s) ?_
  split
  · exact .ite (hdev _) (hdev _)
  · split
    · exact hdev _
    · exact .ite (keeps_access s _ _) ((keeps_access s _ _).trans (.dev _ _))

end Sys2Proof.Machine
end

section
/-! PROOFS. What the commands keep that reach beyond the device: instructions of the cores, the Debug Module, supply, sleep and boot.
Then O43 to O48 from that. -/

namespace Sys2Proof.Machine

/-! ### Loads and stores -/

theorem State.keeps_ioLoad (s : State) (c prv pa n va : Nat) : s.Keeps (s.ioLoad c prv pa n va).1 := by
  have hacc := keeps_access s (s.coreReq c prv) { addr := pa, size := n, write := none }
  unfold State.ioLoad
  dsimp only
  exact .ite_fst (.refl s) (.ite_fst hacc (.ite_fst hacc hacc))

theorem State.keeps_load {s t : State} {c va n : Nat} {bad : Bool} {r : LoadRes} (h : s.load c va n bad = (t, r)) :
    s.Keeps t := by
  have hkeeps : s.Keeps (s.load c va n bad).1 := by
    unfold State.load
    dsimp only
    split
    · exact .refl s
    · split
      · next htr => exact (calm_translate htr).keeps
      · next u pa htr =>
        have hu : s.Keeps u := (calm_translate htr).keeps
        have hfill : ∀ d, s.Keeps { u with dev := d } := fun d => hu.trans (.dev u d)
        refine .ite_fst (.ite_fst hu (.ite_fst (hu.trans (keeps_ioLoad u c _ _ _ _)) (.ite_fst (hfill _)
          (.ite_fst ((hfill _).trans (calm_lineError _ c pa).keeps) (hfill _))))) ?_
        split
        · next htr' => exact hu.trans (calm_translate htr').keeps
        · next u' pb htr' =>
          have hu' : s.Keeps u' := hu.trans (calm_translate htr').keeps
          have hfill' : ∀ d, s.Keeps { u' with dev := d } := fun d => hu'.trans (.dev u' d)
          exact .ite_fst hu' (.ite_fst (hfill' _) (.ite_fst ((hfill' _).trans (calm_lineError _ c pa).keeps) (hfill' _)))
  rwa [h] at hkeeps

theorem State.keeps_store {s t : State} {c va n v : Nat} {bad : Bool} {r : Option (Nat × Nat)} (h : s.store c va n v bad = (t, r)) :
    s.Keeps t := by
  have hcached : ∀ (u : State) (pa : Nat) (l : List Nat) (b : Bool), u.Keeps (u.cachedStore c pa va l b).1 := fun u pa l b =>
    (calm_cachedStore u c pa va l b).keeps
  have hkeeps : s.Keeps (s.store c va n v bad).1 := by
    unfold State.store
    dsimp only
    split
    · exact .refl s
    · split
      · next htr => exact (calm_translate htr).keeps
      · next u pa htr =>
        have hu : s.Keeps u := (calm_translate htr).keeps
        refine .ite_fst (.ite_fst hu (.ite_fst (hu.trans (hcached u _ _ _)) (.ite_fst hu
          (hu.trans (keeps_access u _ _))))) ?_
        split
        · next htr' => exact hu.trans (calm_translate htr').keeps
        · next u' pb htr' =>
          have hu' : s.Keeps u' := hu.trans (calm_translate htr').keeps
          have hfirst : s.Keeps (u'.cachedStore c pa va ((leBytes n v).take (min n (4096 - va % 4096))) bad).1 :=
            hu'.trans (hcached u' _ _ _)
          refine .ite_fst hu' ?_
          split
          · next hst =>
            rw [hst] at hfirst
            exact hfirst
          · next hst =>
            rw [hst] at hfirst
            exact hfirst.trans (hcached _ _ _ _)
  rwa [h] at hkeeps

theorem State.keeps_loadIns (s : State) (c w len raw : Nat) (fp bad : Bool) : s.Keeps (s.loadIns c w len raw fp bad).1 := by
  have hwait : ∀ (u : State) (r : Option HartWait), u.Calm (u.onHart c fun h => { h with wait := r }) := fun u _ =>
    .onHart u c fun _ w => w
  unfold State.loadIns
  dsimp only
  refine .ite_fst (.refl s) ?_
  split
  · next hload =>
    exact (keeps_load hload).trans (Calm.onHart _ c fun _ w => Hart.wf_setPc (Hart.wf_loaded w _ _ _ _) _).keeps
  · next hload => exact (keeps_load hload).trans (hwait _ _).keeps
  · next hload => exact keeps_load hload

theorem State.keeps_storeIns (s : State) (c w len raw : Nat) (fp bad : Bool) : s.Keeps (s.storeIns c w len raw fp bad).1 := by
  unfold State.storeIns
  dsimp only
  refine .ite_fst (.refl s) ?_
  split
  · next hstore => exact (keeps_store hstore).trans (calm_retire _ c _ _ _).keeps
  · next hstore => exact keeps_store hstore

/-! ### One instruction -/

theorem State.keeps_runWord (s : State) (c w len raw : Nat) (bad : Bool) : s.Keeps (s.runWord c w len raw bad).1 := by
  have hjump : ∀ (rd v : Nat) (pc : Hart → Nat), s.Keeps (s.onHart c fun h => (h.setX rd v).setPc (pc h)) := fun rd v pc =>
    (Calm.onHart s c fun _ w => Hart.wf_setPc (Hart.wf_setX w rd v) _).keeps
  have hretire := fun len rd v => (calm_retire s c len rd v).keeps
  unfold State.runWord
  extract_lets rd pc t
  split
  · exact hretire _ _ _
  · exact hretire _ _ _
  · exact hjump rd _ fun _ => ofSigned 64 ((pc : Int) + immJ w)
  · exact .ite_fst (.refl s) (hjump rd _ fun _ => t)
  · exact (calm_branch s c w len raw).keeps
  · exact keeps_loadIns s c w len raw false bad
  · exact keeps_loadIns s c w len raw true bad
  · exact keeps_storeIns s c w len raw false bad
  · exact keeps_storeIns s c w len raw true bad
  · exact (calm_aluEnd s c len raw _ _).keeps
  · exact (calm_aluEnd s c len raw _ _).keeps
  · exact (calm_aluEnd s c len raw _ _).keeps
  · exact (calm_aluEnd s c len raw _ _).keeps
  · exact (calm_amoIns s c w len raw bad).keeps
  · exact .ite_fst (hretire _ _ _) (.ite_fst (calm_cboIns s c w len raw).keeps (.refl s))
  · exact (calm_fpIns s c w len raw).keeps
  · exact (calm_fmaIns s c w len raw).keeps
  · exact (calm_fmaIns s c w len raw).keeps
  · exact (calm_fmaIns s c w len raw).keeps
  · exact (calm_fmaIns s c w len raw).keeps
  · exact (calm_sysIns s c w len raw).keeps
  · exact .refl s

theorem State.keeps_runIns (s : State) (c w len raw : Nat) (bad : Bool) : s.Keeps (s.runIns c w len raw bad) :=
  (keeps_runWord s c w len raw bad).trans (Calm.endIns (.refl _)).keeps

/-- A load that ends takes its data, or its fault. -/
theorem State.calm_loadEnds (s : State) (c : Nat) (w : HartWait) (v : Option Nat) : s.Calm (s.loadEnds c w v) := by
  have hgot : s.Calm (s.onHart c fun h => { h with wait := none }) := .onHart s c fun _ w => w
  unfold State.loadEnds
  refine .endIns ?_
  cases v with
  | none => exact hgot
  | some v => exact hgot.trans (.onHart _ c fun _ wf => Hart.wf_setPc (Hart.wf_loaded wf w.f3 w.fp w.rd v) _)

theorem State.calm_waitEnds (s : State) (c : Nat) (w : HartWait) : s.Calm (s.waitEnds c w) := by
  unfold State.waitEnds
  exact .ite (.ite (.refl s) (calm_loadEnds s c w _)) (.ite (.refl s) ((Calm.on s _).trans (calm_loadEnds _ c w _)))

theorem State.keeps_hartStep (s : State) (c : Nat) (ecc : EccFact) : s.Keeps (s.hartStep c ecc) := by
  have hwake : s.Calm (s.onHart c fun h => { h with wfi := false }) := .onHart s c fun _ w => w
  have hseen : s.Calm (if ecc = .corrected then (s.onHart c fun h => { h with wfi := false }).onHart c (·.corrected)
      else s.onHart c fun h => { h with wfi := false }) :=
    .ite (hwake.trans (.onHart _ c fun _ w => Hart.wf_corrected w)) hwake
  unfold State.hartStep
  refine .ite (.refl s) ?_
  dsimp only
  split
  · exact (calm_waitEnds s c _).keeps
  · refine .ite (.refl s) ?_
    split
    · exact (Calm.endIns hseen).keeps
    · split
      · next hf => exact (Calm.endIns (hseen.trans (calm_fetch hf))).keeps
      · next u w len raw hf =>
        have hu : s.Calm u := hseen.trans (calm_fetch hf)
        refine .ite (Calm.endIns (hu.trans ?_)).keeps ?_
        · split
          · next htr => exact (calm_translate htr).trans (calm_lineError _ c _)
          · next htr => exact calm_translate htr
        · split
          · exact hu.keeps.trans (keeps_runIns u c _ _ _ _)
          · exact (Calm.endIns hu).keeps

theorem State.runWord_cbo {w : Nat} (hop : w % 128 = 0x0F) (hfunct : bits w 12 3 = 2) (s : State) (c len raw : Nat) (bad : Bool) :
    s.runWord c w len raw bad = s.cboIns c w len raw := by
  unfold State.runWord
  simp [hop, hfunct]

theorem encI_opcode (op : Nat) (rs1 : Nat) (imm : Int) (h : op < 128) : encI op 2 0 rs1 imm % 128 = op := by
  unfold encI
  omega

theorem encI_funct (op : Nat) (rs1 : Nat) (imm : Int) (h : op < 128) : bits (encI op 2 0 rs1 imm) 12 3 = 2 := by
  unfold encI bits
  omega

/-- A cache-block operation does not reach the register network. -/
theorem State.calm_cboStep (s : State) (c op rs1 : Nat) : s.Calm (s.cboStep c op rs1) := by
  unfold State.cboStep
  extract_lets h w
  refine .ite (.refl s) (.endIns ?_)
  rw [runWord_cbo (encI_opcode 0x0F _ _ (by decide)) (encI_funct 0x0F _ _ (by decide))]
  exact calm_cboIns s c w 4 w

theorem State.calm_irqEntry (s : State) (c : Nat) : s.Calm (s.irqEntry c) := by
  unfold State.irqEntry
  dsimp only
  refine .ite (.refl s) ?_
  split
  · exact .onHart s c fun h w => Hart.wf_trap (h := { h with wfi := false }) w _ 0 true
  · exact .refl s

theorem State.calm_parkedMsip (s : State) (c : Nat) : s.Calm (s.parkedMsip c) := by
  unfold State.parkedMsip
  extract_lets h t f a
  clear_value a f
  refine .ite (.refl s) ((Calm.dev s f.1).trans (.setHart { s with dev := f.1 } c fun w => ?_))
  have hpark : (if h.parked then h else Hart.parkedAt).wf :=
    iteInduction (motive := Hart.wf) (fun _ => State.wf_hart w c) fun _ => Hart.wf_parkedAt
  exact hpark

/-! ### The Debug Module -/

theorem State.calm_haltAsk (s : State) (c : Nat) : s.Calm (s.haltAsk c) := by
  unfold State.haltAsk
  split
  · exact .ite ((Calm.on s _).trans (calm_waitEnds _ c _)) (.refl s)
  · exact .refl s

theorem State.calm_dmHalt (s : State) (c : Nat) : s.Calm (s.dmHalt c) := by
  have hwake := Calm.on s (·.raiseWake 7)
  unfold State.dmHalt
  dsimp only
  refine .ite (.on s _) (.ite (hwake.trans (.on _ _)) ?_)
  exact (hwake.trans (calm_haltAsk _ c)).trans
    ((Calm.ite (.refl _) (.onHart _ c fun _ w => by exact Hart.wf_enterDebug w _ _)).trans (.on _ _))

theorem State.calm_dmWrite {s t : State} {c r v : Nat} (h : s.dmWrite c r v = some t) : s.Calm t := by
  unfold State.dmWrite at h
  split_ifs at h <;> cases h
  · exact .onHart s c fun _ w => Hart.wf_csrWrite w _ _
  · exact .onHart s c fun _ w => Hart.wf_setX w _ _
  · exact .onHart s c fun _ w => ⟨w.1, by simpa using w.2.1, w.2.2⟩

/-- Every word of the program buffer runs as an instruction, and the core stays halted. -/
theorem State.keeps_runBuffer (c : Nat) : ∀ (l : List Nat) (s : State), s.Keeps (s.runBuffer c l).1
  | [], s => .refl s
  | w :: l, s => by
    have hhalt : ∀ (u : State) (pc : BitVec 64), u.Keeps (u.onHart c fun h => { h with pc := pc, wait := none, halted := true }) :=
      fun u pc => Calm.keeps (.onHart u c fun _ w => by exact w)
    have hword : s.Keeps (if w % 4 = 3 then s.runWord c w 4 w false else match expandC (w % 2 ^ 16) with
        | some e => s.runWord c e 2 (w % 2 ^ 16) false
        | none => illegal s w).1 := by
      refine .ite_fst (keeps_runWord s c w 4 w false) ?_
      split
      · exact keeps_runWord s c _ 2 _ false
      · exact .refl s
    rw [State.runBuffer]
    refine .ite_fst (.refl s) ?_
    exact .ite_fst (hword.trans (hhalt _ _)) ((hword.trans (hhalt _ _)).trans (keeps_runBuffer c l _))

theorem State.keeps_dmServe (s : State) (q : DbgReq) : s.Keeps (s.dmServe q) := by
  unfold State.dmServe
  extract_lets answer onHalted
  have hanswer : ∀ code v, s.Keeps (answer code v) := fun _ _ => .on s _
  have hhalted : ∀ (c : Nat) {t : State}, s.Keeps t → s.Keeps (onHalted c t) := fun c t h => .ite h (hanswer _ _)
  clear_value answer onHalted
  cases q with
  | halt c => exact (calm_dmHalt s c).keeps
  | resume c => exact hhalted c ((Calm.onHart s c fun _ w => Hart.wf_resume w).trans (.on _ _)).keeps
  | readReg c r =>
    refine hhalted c ?_
    split
    · exact hanswer _ _
    · exact hanswer _ _
  | writeReg c r v =>
    refine hhalted c ?_
    split
    · next hw => exact ((calm_dmWrite hw).trans (.on _ _)).keeps
    · exact hanswer _ _
  | buffer i w => exact .on s _
  | runBuffer c => exact hhalted c ((keeps_runBuffer c _ s).trans (.on _ _))
  | bus a => exact keeps_access s _ a

theorem State.keeps_debugAccess (s : State) (q : DbgReq) : s.Keeps (s.debugAccess q) := by
  unfold State.debugAccess
  extract_lets d
  refine .ite (.on s _) (.ite (.on s _) (.ite ?_ (keeps_dmServe s q)))
  split
  · exact (calm_dmHalt s _).keeps
  · exact .on s _

/-! ### Supply, sleep and boot -/

theorem State.calm_hartsOff (s : State) : s.Calm s.hartsOff := ⟨rfl, rfl, State.hartsWf_hartsOff⟩

theorem State.calm_hartsStart (s : State) : s.Calm s.hartsStart := ⟨rfl, rfl, fun _ => State.hartsWf_hartsStart s⟩

theorem State.calm_released (s : State) (tau : Nat) : s.Calm (s.released tau) := (Calm.dev s _).trans (calm_hartsStart _)

theorem State.calm_sleepEntryDone (s : State) : s.Calm s.sleepEntryDone := by
  unfold State.sleepEntryDone
  extract_lets t u
  exact .ite (.refl s) (.ite ((Calm.on s _).trans (calm_hartsOff _)) (.on s _))

/-- C0 as the ROM leaves it. -/
theorem State.calm_romLeaves (s : State) (pc : Nat) (a0 : Option Nat) : s.Calm (s.romLeaves pc a0) := by
  have hx : ∀ {h : Hart}, h.wf → ∀ v, ({ h with x := setAt h.x 10 v } : Hart).wf := fun w v =>
    ⟨by simpa using w.1, w.2.1, (nth_setAt_zero _ _ v (by decide)).trans w.2.2.1, w.2.2.2⟩
  unfold State.romLeaves
  extract_lets h x
  have hcore : s.hartsWf → h.wf := fun w => State.wf_hart w 0
  clear_value h
  cases a0 with
  | none => exact (Calm.setHart s 0 fun w => by exact hcore w).trans (.dev _ _)
  | some a => exact (Calm.setHart s 0 fun w => by exact hx (hcore w) (BitVec.ofNat 64 a)).trans (.dev _ _)

theorem State.calm_romHalts (s : State) (result failA failB : Nat) : s.Calm (s.romHalts result failA failB) := by
  unfold State.romHalts
  extract_lets h u
  have hcore : s.hartsWf → h.wf := fun w => State.wf_hart w 0
  have hu : s.Calm u := .on s _
  have hharts : u.harts = s.harts := State.on_harts s _
  clear_value h u
  rw [← hharts]
  exact ⟨hu.seq, hu.pending, fun w => State.hartsWf_setHart (hu.wf w) 0 (by exact hcore w)⟩

theorem State.calm_romRecovers (s : State) (result failA failB : Nat) : s.Calm (s.romRecovers result failA failB) :=
  .ite (.on s _) (calm_romHalts s _ _ _)

/-- The ROM's flow ends in a failure that halts, in recovery, or in an image that boots. -/
theorem State.calm_romFlow (s : State) (f : BootFlash) : s.Calm (s.romFlow f) := by
  unfold State.romFlow
  refine .ite (calm_romHalts s _ _ _) (.ite (calm_romHalts s _ _ _) ?_)
  extract_lets u
  have hu : s.Calm u := .on s _
  clear_value u
  refine .ite (hu.trans (calm_romHalts u _ _ _)) ?_
  split
  · exact hu.trans (calm_romRecovers u _ _ _)
  · refine .ite (hu.trans (calm_romRecovers u _ _ _)) ?_
    extract_lets v preferB first boots
    have hv : s.Calm v := hu.trans (.on u _)
    have hboots : ∀ d viaB fa fb, s.Calm (boots d viaB fa fb) := fun d viaB fa fb =>
      (hv.trans (.dev v _)).trans (calm_romLeaves _ _ _)
    clear_value boots v
    refine .ite (hv.trans (calm_romHalts v _ _ _)) ?_
    split
    · exact hboots _ _ _ _
    · split
      · exact hboots _ _ _ _
      · exact (hv.trans (.dev v _)).trans (calm_romRecovers _ _ _ _)

theorem State.calm_recoveryTry (s : State) (h : List Nat) : s.Calm (s.recoveryTry h) := by
  unfold State.recoveryTry
  extract_lets d e
  clear_value e
  cases e with
  | none => exact (Calm.dev s _).trans (calm_romLeaves _ _ _)
  | some k => exact .dev s _

theorem State.calm_recoveryDoorbell (s : State) (value : Nat) : s.Calm (s.recoveryDoorbell value) := by
  unfold State.recoveryDoorbell
  extract_lets t u
  have ht : s.Calm t := .dev s _
  have hu : s.Calm u := ht.trans (.dev t _)
  clear_value t u
  exact .ite (.refl s) (.ite (hu.trans (calm_recoveryTry u _)) ht)

/-- From `s` to `t` the machine was reset: no boundary is issued yet, the queue stands as it was, and cores that were well-formed
still are. -/
structure State.Resets (s t : State) : Prop where
  pending : t.pending = s.pending
  wf : s.hartsWf → t.hartsWf
  last : t.seq.last = none

theorem State.Resets.calm {s t u : State} (h : s.Resets t) (g : t.Calm u) : s.Resets u :=
  ⟨g.pending.trans h.pending, g.wf ∘ h.wf, by rw [g.seq, h.last]⟩

/-- Reset of the sequencer and the cores, with any device. -/
theorem State.resets_hartsOff (s : State) (d : Dev) :
    s.Resets ({ s with dev := d, seq := { last := none, first := 0 } } : State).hartsOff :=
  ⟨rfl, (State.hartsWf_hartsOff ·), rfl⟩

theorem State.keeps_napReturn (s : State) (tau : Nat) : s.Keeps (s.napReturn tau) := by
  have hnap : ∀ u : State, u.Calm u.napHarts := fun u => ⟨rfl, rfl, fun _ => State.hartsWf_napHarts u⟩
  unfold State.napReturn
  extract_lets u seq v
  have hu : s.Keeps u := .on s _
  clear_value u
  have hv : s.Keeps v := (hu.trans (Ticks.first u u.dev (ceilDiv u.dev.now beatU)).keeps).trans (hnap _).keeps
  clear_value v
  split
  · exact (hv.trans (.on v _)).trans (calm_romLeaves _ _ _).keeps
  · exact hv

/-- The return from Hibernate is a reset (R669). -/
theorem State.returnToRun_cases (s : State) (tau : Nat) : s.Keeps (s.returnToRun tau) ∨ s.Resets (s.returnToRun tau) := by
  unfold State.returnToRun
  extract_lets src run
  clear_value src run
  split_ifs with hphase
  · exact .inl (.refl s)
  · split
    · exact .inl ((Keeps.on s _).trans (keeps_napReturn _ tau))
    · exact .inr (((resets_hartsOff s _).calm (calm_released _ tau)).calm (.on _ _))
    · exact .inl (.on s _)
    · exact .inl (.on s _)

/-- The first rail that comes on takes the device out of Off, with a reset. -/
theorem State.railStep_cases (s : State) : s.Keeps s.railStep ∨ s.Resets s.railStep := by
  unfold State.railStep
  extract_lets d rails
  split_ifs
  · exact .inr (resets_hartsOff s _)
  · exact .inl (.refl s)
  · exact .inl (.on s _)
  · exact .inl (.on s _)
  · exact .inl (.on s _)

end Sys2Proof.Machine
end

section
/-! PROOFS. What any command does to the queue, the sequencer and the cores: O2 and O43 to O48. -/

namespace Sys2Proof.Machine

/-! ### How far a command reaches -/

/-- How far the meaning of a command reaches: the device record alone; the cores as well, but no step of time and no register; the
steps of time and boundaries, which leave the cores alone; whatever a register write may do; a reset of the machine. -/
inductive Reach where
  | device
  | cores
  | time
  | registers
  | reset

def reach : Instr → Reach
  | .cboInval .. | .cboClean .. | .cboFlush .. | .hartInterruptEntry _ | .parkedHartMsip _ | .setssipWrite .. | .dbgUnlock ..
  | .dbgLower _ | .tokenCheckDone _ | .bootImageAccepted _ | .recoveryDoorbell _ | .sysRstRelease .. | .sleepEntryDone
  | .thermalShutdown => .cores
  | .beatBoundary _ | .beatEnSet | .timeSet | .timeStep | .servoSample _ | .eventInputEdge .. => .time
  | .registerWrite .. | .fabricRequest .. | .pcieInboundRequest .. | .hartInstruction .. | .debugModuleAccess _ => .registers
  | .deviceReset | .aonPowerOn | .railEnableStep | .returnToRun _ => .reset
  | _ => .device

/-- A command of the device alone is an update of the device. -/
theorem exec_of_device {c : Instr} (h : reach c = .device) (s : State) : ∃ d, exec c s = .next { s with dev := d } := by
  cases c
  case beatBoundary | beatEnSet | timeSet | timeStep | servoSample | eventInputEdge | registerWrite | fabricRequest
      | pcieInboundRequest | hartInstruction | debugModuleAccess | deviceReset | aonPowerOn | railEnableStep | returnToRun
      | cboInval | cboClean | cboFlush | hartInterruptEntry | parkedHartMsip | setssipWrite | dbgUnlock | dbgLower | tokenCheckDone
      | bootImageAccepted | recoveryDoorbell | sysRstRelease | sleepEntryDone | thermalShutdown => cases h
  all_goals exact ⟨_, rfl⟩

theorem State.calm_levelCommand (s : State) (b : Bool) (d e : Dev) :
    ∃ t, (if b then Host.Outcome.next ({ s with dev := d } : State).afterLevel else .next { s with dev := e } :
      Host.Outcome State Fault Refusal) = .next t ∧ s.Calm t := by
  cases b
  · exact ⟨_, rfl, .dev s e⟩
  · exact ⟨_, rfl, (Calm.dev s d).trans (calm_afterLevel _)⟩

theorem exec_of_cores {c : Instr} (h : reach c = .cores) (s : State) : ∃ t, exec c s = .next t ∧ s.Calm t := by
  cases c
  case cboInval => exact ⟨_, rfl, State.calm_cboStep s _ _ _⟩
  case cboClean => exact ⟨_, rfl, State.calm_cboStep s _ _ _⟩
  case cboFlush => exact ⟨_, rfl, State.calm_cboStep s _ _ _⟩
  case hartInterruptEntry => exact ⟨_, rfl, State.calm_irqEntry s _⟩
  case parkedHartMsip => exact ⟨_, rfl, State.calm_parkedMsip s _⟩
  case setssipWrite => exact ⟨_, rfl, .ite ((State.Calm.ite (State.calm_setSsip s _) (.refl s)).trans (.on _ _)) (.refl s)⟩
  case dbgUnlock => exact State.calm_levelCommand s _ _ _
  case dbgLower => exact State.calm_levelCommand s _ _ _
  case tokenCheckDone => exact ⟨_, rfl, (State.Calm.dev s _).trans (State.calm_afterLevel _)⟩
  case bootImageAccepted => exact ⟨_, rfl, .ite (State.calm_romFlow s _) (.refl s)⟩
  case recoveryDoorbell => exact ⟨_, rfl, State.calm_recoveryDoorbell s _⟩
  case sysRstRelease => exact ⟨_, rfl, .ite ((State.Calm.on s _).trans (State.calm_released _ _)) (.refl s)⟩
  case sleepEntryDone => exact ⟨_, rfl, State.calm_sleepEntryDone s⟩
  case thermalShutdown => exact ⟨_, rfl, .ite (.refl s) ((State.Calm.on s _).trans (State.calm_hartsOff _))⟩
  all_goals cases h

/-- A boundary issued has the next index (R17, R24). -/
theorem State.ticks_boundary (s : State) (d : Dev) : s.Ticks { s with dev := d, seq := { s.seq with last := some s.nextBoundary } } :=
  ⟨rfl, rfl, fun _ hm => ⟨_, rfl, (lt_nextBoundary hm).le⟩⟩

theorem exec_of_time {c : Instr} (h : reach c = .time) (s : State) : ∃ t, exec c s = .next t ∧ s.Ticks t := by
  cases c
  case beatBoundary f =>
    change ∃ t, execBeatBoundary f s = .next t ∧ s.Ticks t
    unfold execBeatBoundary
    split_ifs
    · exact ⟨_, rfl, State.ticks_boundary s _⟩
    · exact ⟨s, rfl, .refl s⟩
  case beatEnSet => exact State.ticks_execBeatEnSet s
  case timeSet => exact ⟨_, rfl, State.ticks_timeCmd s 1⟩
  case timeStep => exact ⟨_, rfl, State.ticks_timeCmd s 2⟩
  case servoSample ns => exact State.ticks_execServoSample s ns
  case eventInputEdge i b f ns fr =>
    change ∃ t, execEventInputEdge i b f ns fr s = .next t ∧ s.Ticks t
    unfold execEventInputEdge
    extract_lets d e g t u
    split_ifs
    · exact ⟨_, rfl, (State.Ticks.dev s _).trans (State.ticks_servoSample u _)⟩
    · exact ⟨_, rfl, .dev s _⟩
    · exact ⟨_, rfl, .dev s _⟩
  all_goals cases h

theorem exec_of_registers {c : Instr} (h : reach c = .registers) (s : State) : ∃ t, exec c s = .next t ∧ s.Keeps t := by
  cases c
  case registerWrite page off value =>
    change ∃ t, execRegisterWrite page off value s = .next t ∧ s.Keeps t
    unfold execRegisterWrite
    split_ifs
    · exact ⟨_, rfl, .on s _⟩
    · exact ⟨_, rfl, .on s _⟩
    · exact ⟨_, rfl, State.keeps_regWrite s _ _ _ _⟩
  case fabricRequest => exact ⟨_, rfl, (State.Keeps.on s _).trans (State.keeps_access _ _ _)⟩
  case pcieInboundRequest => exact ⟨_, rfl, State.keeps_inbound s _ _ _⟩
  case hartInstruction => exact ⟨_, rfl, State.keeps_hartStep s _ _⟩
  case debugModuleAccess => exact ⟨_, rfl, State.keeps_debugAccess s _⟩
  all_goals cases h

theorem exec_of_reset {c : Instr} (h : reach c = .reset) (s : State) : ∃ t, exec c s = .next t ∧ (s.Keeps t ∨ s.Resets t) := by
  cases c
  case deviceReset => exact ⟨_, rfl, .inr (State.resets_hartsOff s _)⟩
  case aonPowerOn => exact ⟨_, rfl, .inr (State.resets_hartsOff s _)⟩
  case railEnableStep => exact ⟨_, rfl, State.railStep_cases s⟩
  case returnToRun tau => exact ⟨_, rfl, State.returnToRun_cases s tau⟩
  all_goals cases h

/-- What any command does: it answers a next state that keeps the queue and the shape of the cores, and but for the resets the index of
the last boundary does not fall. -/
theorem exec_next (c : Instr) (s : State) : ∃ t, exec c s = .next t ∧ (s.Keeps t ∨ reach c = .reset ∧ s.Resets t) := by
  cases h : reach c with
  | device =>
    obtain ⟨d, hd⟩ := exec_of_device h s
    exact ⟨_, hd, .inl (.dev s d)⟩
  | cores =>
    obtain ⟨t, ht, hcalm⟩ := exec_of_cores h s
    exact ⟨t, ht, .inl hcalm.keeps⟩
  | time =>
    obtain ⟨t, ht, hticks⟩ := exec_of_time h s
    exact ⟨t, ht, .inl hticks.keeps⟩
  | registers =>
    obtain ⟨t, ht, hkeeps⟩ := exec_of_registers h s
    exact ⟨t, ht, .inl hkeeps⟩
  | reset =>
    obtain ⟨t, ht, hcases⟩ := exec_of_reset h s
    exact ⟨t, ht, hcases.imp_right fun hr => ⟨rfl, hr⟩⟩

theorem exec_cases {c : Instr} {s t : State} (h : exec c s = .next t) : s.Keeps t ∨ reach c = .reset ∧ s.Resets t := by
  obtain ⟨u, hu, hcases⟩ := exec_next c s
  cases hu.symm.trans h
  exact hcases

/-- With nothing waiting, time passes, and no more. -/
theorem State.calm_tick (s : State) : s.Calm s.tick := by
  unfold State.tick
  extract_lets u
  have hu : s.Calm u := .on s _
  clear_value u
  exact .ite (hu.trans (.on u _)) hu

/-- A step is one cycle of time, or the front command on the rest of the queue. -/
theorem step_cases {s t : State} (h : step s = .next t) :
    (s.pending = [] ∧ t = s.tick) ∨ ∃ c r, s.pending = c :: r ∧ exec c { s with pending := r } = .next t := by
  unfold step at h
  cases hp : s.pending with
  | nil =>
    rw [hp] at h
    exact .inl ⟨rfl, (Host.Outcome.next.inj h).symm⟩
  | cons c r =>
    rw [hp] at h
    exact .inr ⟨c, r, rfl, h⟩

/-! ### The statements -/

/-- Settles O1. -/
theorem stepRunsFront : Obligations.StepRunsFront := fun _ _ _ => rfl

/-- Settles O2: a cycle of TCLK moves nothing but the device. -/
theorem idleStepIsOneTclkCycle : Obligations.IdleStepIsOneTclkCycle := by
  intro s hp
  have hharts : s.tick.harts = s.harts := by
    unfold State.tick
    extract_lets u
    have hu : u.harts = s.harts := State.on_harts s _
    clear_value u
    split
    · rw [State.on_harts, hu]
    · exact hu
  refine ⟨?_, (State.calm_tick s).pending.trans hp, hharts, (State.calm_tick s).seq⟩
  rw [step, hp]

/-- Settles O43: `exec_next` for a command, and the front command for a step. -/
theorem everyCommandAnswersANextState : Obligations.EveryCommandAnswersANextState := by
  have hexec : ∀ (c : Instr) (s : State), ∃ t, exec c s = .next t := fun c s =>
    let ⟨t, ht, _⟩ := exec_next c s
    ⟨t, ht⟩
  refine ⟨hexec, fun s => ?_⟩
  unfold State.stepsSafely step
  split
  · exact ⟨_, rfl⟩
  · exact hexec _ _

theorem exec_pending {c : Instr} {s t : State} (h : exec c s = .next t) : t.pending = s.pending := by
  rcases exec_cases h with hkeeps | ⟨-, hreset⟩
  · exact hkeeps.pending
  · exact hreset.pending

/-- Settles O44: neither what a command keeps nor a reset touches the queue. -/
theorem commandsLeaveTheQueue : Obligations.CommandsLeaveTheQueue := by
  refine ⟨fun c s t h => exec_pending h, fun s t h => ?_⟩
  rcases step_cases h with ⟨hp, ht⟩ | ⟨c, r, hp, hexec⟩
  · rw [ht, (State.calm_tick s).pending, hp, List.tail_nil]
  · rw [exec_pending hexec, hp, List.tail_cons]

theorem exec_seq_of_device {c : Instr} {s t : State} (hc : reach c = .device) (h : exec c s = .next t) : t.seq = s.seq := by
  obtain ⟨d, hd⟩ := exec_of_device hc s
  cases hd.symm.trans h
  rfl

theorem exec_seq_of_cores {c : Instr} {s t : State} (hc : reach c = .cores) (h : exec c s = .next t) : t.seq = s.seq := by
  obtain ⟨u, hu, hcalm⟩ := exec_of_cores hc s
  cases hu.symm.trans h
  exact hcalm.seq

/-- Settles O45: only steps of time, register writes and resets reach the sequencer. -/
theorem onlyTheseCommandsMoveTheSequencer : Obligations.OnlyTheseCommandsMoveTheSequencer := by
  intro c s t h hmoved
  have hdevice : reach c ≠ .device := fun hc => hmoved (exec_seq_of_device hc h)
  have hcores : reach c ≠ .cores := fun hc => hmoved (exec_seq_of_cores hc h)
  clear h hmoved
  unfold reach at hdevice hcores
  split at hdevice <;> simp_all

theorem exec_harts_of_device {c : Instr} {s t : State} (hc : reach c = .device) (h : exec c s = .next t) : t.harts = s.harts := by
  obtain ⟨d, hd⟩ := exec_of_device hc s
  cases hd.symm.trans h
  rfl

theorem exec_harts_of_time {c : Instr} {s t : State} (hc : reach c = .time) (h : exec c s = .next t) : t.harts = s.harts := by
  obtain ⟨u, hu, hticks⟩ := exec_of_time hc s
  cases hu.symm.trans h
  exact hticks.harts

/-- Settles O46: updates of the device and steps of time leave the cores alone. -/
theorem onlyTheseCommandsTouchTheCores : Obligations.OnlyTheseCommandsTouchTheCores := by
  intro c s t h hmoved
  have hdevice : reach c ≠ .device := fun hc => hmoved (exec_harts_of_device hc h)
  have htime : reach c ≠ .time := fun hc => hmoved (exec_harts_of_time hc h)
  clear h hmoved
  unfold reach at hdevice htime
  split at hdevice <;> simp_all

theorem reset_cases {c : Instr} (h : reach c = .reset) :
    c = .deviceReset ∨ c = .aonPowerOn ∨ c = .railEnableStep ∨ ∃ tau, c = .returnToRun tau := by
  unfold reach at h
  split at h <;> simp_all

/-- Settles O47: a step keeps the last index or raises it but for the four resets, and a boundary takes the next one. -/
theorem boundaryIndexOnlyRises : Obligations.BoundaryIndexOnlyRises := by
  refine ⟨fun s t m h hm => ?_, fun f s m hen hdark hm => ?_⟩
  case refine_1 =>
    rcases step_cases h with ⟨-, ht⟩ | ⟨c, r, hp, hexec⟩
    · rw [ht]
      exact .inr ((State.calm_tick s).keeps.last m hm)
    · rcases exec_cases hexec with hkeeps | ⟨hc, hreset⟩
      · exact .inr (hkeeps.last m hm)
      · exact .inl ⟨hreset.last, c, r, hp, reset_cases hc⟩
  case refine_2 =>
    have hissue : exec (.beatBoundary f) s = .next { s with
        dev := (s.dev.reach (s.nextBoundary * beatU)).boundary s.nextBoundary f,
        seq := { s.seq with last := some s.nextBoundary } } := by
      change execBeatBoundary f s = _
      rw [execBeatBoundary, hen, hdark]
      rfl
    exact ⟨_, _, hissue, rfl, State.lt_nextBoundary hm⟩

/-- Settles O48: every command keeps a core's shape (`Hart.wf`), as each operation on a core does. -/
theorem coresStayWellFormed : Obligations.CoresStayWellFormed := by
  intro s t w h
  rcases step_cases h with ⟨-, ht⟩ | ⟨c, r, -, hexec⟩
  · rw [ht]
    exact (State.calm_tick s).wf w
  · have hw : ({ s with pending := r } : State).hartsWf := State.hartsWf_of_harts w rfl
    rcases exec_cases hexec with hkeeps | ⟨-, hreset⟩
    · exact hkeeps.wf hw
    · exact hreset.wf hw

end Sys2Proof.Machine
end

section
/-! PROOFS. Requests on the data network: what PCI Express never reaches (O55), the cells of shared SRAM (O56), what a store to it leaves
(O57) and the canonical form of memory (O58). -/

namespace Sys2Proof.Machine

/-! ### Requests from PCI Express (R645) -/

section
variable {d : Dev} {f size : Nat} {write : Option Nat}

/-- The regions and pages that no inbound request reaches. -/
theorem Dev.denies_pcieHost (h : regionOf f = .hamper ∨ regionOf f = .rom ∨ regionOf f = .xspi
      ∨ (regionOf f = .regs ∧ pageOf f = 0x004) ∨ (regionOf f = .regs ∧ d.rdB secPage SEC_ACCESS.PCIE_REG_DENY = true)) :
    d.denies { who := .pcieHost, priv := 0, debug := false } { addr := f, size := size, write := write } = true := by
  rcases h with h | h | h | ⟨h, hpage⟩ | ⟨h, hdeny⟩
  · simp [Dev.denies, h]
  · simp [Dev.denies, h]
  · simp [Dev.denies, h]
  · simp [Dev.denies, h, hpage, secPage]
  · simp [Dev.denies, h, hdeny]

end

/-- A request inside one region, of a legal shape, on a fabric that answers, is denied where the rules refuse it. -/
theorem State.access_denied {s : State} {q : Req} {a : Access} (hsize : a.size ≠ 0)
    (hspan : regionOf (a.addr + a.size - 1) = regionOf a.addr) (hword : regionOf a.addr = .regs → a.size = 4 ∧ a.addr % 4 = 0)
    (hmapped : regionOf a.addr ≠ .none) (hdark : s.dev.dark = false) (hdenies : s.dev.denies q a = true) :
    s.access q a = s.on (·.complete .denied) := by
  have hshape : ¬ (regionOf a.addr = .regs ∧ (a.size ≠ 4 ∨ a.addr % 4 ≠ 0)) := fun ⟨hr, hbad⟩ => by
    obtain ⟨hs, ha⟩ := hword hr
    exact hbad.elim (· hs) (· ha)
  have hwhole : ¬ (a.size = 0 ∨ regionOf a.addr = .none ∨ regionOf (a.addr + a.size - 1) ≠ regionOf a.addr) := by
    simp [hsize, hmapped, hspan]
  have hlight : ¬ s.dev.dark = true := by simp [hdark]
  unfold State.access
  exact (if_neg hwhole).trans ((if_neg hshape).trans ((if_neg hlight).trans (if_pos hdenies)))

/-- A request a window takes and that is no message of MSI is an access, answered when it is not held. -/
theorem State.inbound_denied {s : State} {addr size f : Nat} {write : Option Nat} (hlink : s.dev.linkUp = true)
    (hperst : s.dev.pcie.perst = false) (hwin : s.dev.inWindow addr = some f)
    (hmsi : s.dev.endpoint = true ∨ addr ≠ s.dev.rd 0x132 PCIE_MSI_LO.ADDR / 4 * 4 + 2 ^ 32 * s.dev.rd 0x132 PCIE_MSI_HI.ADDR)
    (hacc : s.access { who := .pcieHost, priv := 0, debug := false } { addr := f, size := size, write := write } =
      s.on (·.complete .denied)) :
    s.inbound addr size write = s.on fun d => ((d.complete .denied).cnt 0x130 PCIE_ERR_CNT.INBOUND_ERR).emit (.inbound 2 0) := by
  have hanswer : ∀ w : Bool, (s.on (·.complete .denied)).on (fun e => e.inReply e.lastCode e.lastData w) =
      s.on fun d => ((d.complete .denied).cnt 0x130 PCIE_ERR_CNT.INBOUND_ERR).emit (.inbound 2 0) := fun w => by
    cases w <;> rfl
  have hnotMsi : ∀ v, ¬ (s.dev.endpoint = false ∧ decide (addr = s.dev.rd 0x132 PCIE_MSI_LO.ADDR / 4 * 4
      + 2 ^ 32 * s.dev.rd 0x132 PCIE_MSI_HI.ADDR) = true ∧ write = some v) := fun v ⟨hend, hat, _⟩ =>
    hmsi.elim (fun h => by rw [hend] at h; cases h) fun h => h (of_decide_eq_true hat)
  unfold State.inbound
  extract_lets d msi
  rw [if_neg (by simp [d, hlink, hperst])]
  split
  case h_1 v hend hat => exact absurd ⟨hend, hat, rfl⟩ (hnotMsi v)
  case h_2 =>
    simp only [d, hwin, hacc]
    simp [hanswer]

/-- Settles O55. -/
theorem pcieRequestsAreShutOut : Obligations.PcieRequestsAreShutOut := by
  intro s addr size f write hlink hperst hdark hwin hmsi hsize hspan hword hshut
  have hmapped : regionOf f ≠ .none := by
    rcases hshut with h | h | h | ⟨h, -⟩ | ⟨h, -⟩ <;> simp [h]
  exact congrArg Host.Outcome.next (State.inbound_denied hlink hperst hwin hmsi
    (State.access_denied hsize hspan hword hmapped hdark (Dev.denies_pcieHost hshut)))

/-! ### The cells of shared SRAM (R573) -/

theorem sramPlace_bounds {k o : Nat} (hk : k ∈ [1, 2, 4, 8]) (ho : o < 0x1000000) :
    (sramPlace k o).1 < 64 ∧ (sramPlace k o).2 < 0x8000 := by
  simp only [List.mem_cons, List.not_mem_nil, or_false] at hk
  rcases hk with rfl | rfl | rfl | rfl
  all_goals
    simp only [sramPlace, ilvLog, bits]
    split_ifs <;> omega

/-- Bank and row tell the word. -/
theorem sramPlace_injective {k o o' : Nat} (hk : k ∈ [1, 2, 4, 8]) (ho : o < 0x1000000) (ho' : o' < 0x1000000)
    (h : sramPlace k o' = sramPlace k o) : o' / 8 = o / 8 := by
  simp only [List.mem_cons, List.not_mem_nil, or_false] at hk
  rcases hk with rfl | rfl | rfl | rfl
  all_goals
    simp only [sramPlace, ilvLog, bits] at h
    have hhigh : o / 2 ^ 21 % 8 = o / 2 ^ 21 := Nat.mod_eq_of_lt (by omega)
    have hhigh' : o' / 2 ^ 21 % 8 = o' / 2 ^ 21 := Nat.mod_eq_of_lt (by omega)
    split_ifs at h <;> simp only [Prod.mk.injEq] at h <;> omega

/-- Settles O56. -/
theorem sramMappingIsOneToOne : Obligations.SramMappingIsOneToOne := fun _ hk _ ho =>
  ⟨(sramPlace_bounds hk ho).1, (sramPlace_bounds hk ho).2, fun _ ho' h => sramPlace_injective hk ho ho' h⟩

/-! ### A store to shared SRAM -/

/-- A request to shared SRAM in a group that is ON, by an initiator that nothing holds up, is served at once, after ECC has looked
at the words it reads (R579, R13). -/
theorem exec_fabricRequest_sram {s : State} {who : Initiator} {machine : Bool} {fact : AccessFact} {e : Dev}
    (hsize : fact.acc.size ≠ 0) (hregion : regionOf fact.acc.addr = .sram)
    (hspan : regionOf (fact.acc.addr + fact.acc.size - 1) = .sram) (hden : s.dev.denies (s.reqOf who machine) fact.acc = false)
    (hgroup : s.dev.group (s.dev.groupOf fact.acc.addr) = 0) (he : e = s.dev.eccFound fact.acc fact.ecc) (hdark : e.dark = false)
    (hden' : e.denies (s.reqOf who machine) fact.acc = false) (hreset : e.inReset srmPage = false)
    (hheld : ∀ h ∈ e.ms.held, h.who ≠ who) (hgroup' : e.group (e.groupOf fact.acc.addr) = 0) :
    exec (.fabricRequest who machine fact) s = .next { s with dev := e.srmDone fact.acc } := by
  have hseen : s.on (fun d => d.when (d.eccSeen fact.acc && !d.denies (s.reqOf who machine) fact.acc) (·.eccFound fact.acc fact.ecc))
      = { s with dev := e } := by
    simp [State.on, Dev.eccSeen, hregion, hgroup, hden, he]
  have hany : (e.ms.held.any fun h => decide (h.who = who)) = false := by
    simpa [List.any_eq_false] using hheld
  have hserve : ({ s with dev := e } : State).access (s.reqOf who machine) fact.acc = { s with dev := e.srmDone fact.acc } := by
    have hnow : e.sramAccess who fact.acc = e.srmDone fact.acc := by
      simp only [Dev.sramAccess, hreset, hany, hgroup', if_false, Bool.false_eq_true]
    simp only [State.access, hsize, hregion, hspan, hdark, hden', or_self, reduceCtorEq, false_and, if_false, ne_eq,
      not_true_eq_false, Bool.false_eq_true]
    exact congrArg (fun f => ({ s with dev := f } : State)) hnow
  exact congrArg Host.Outcome.next ((congrArg (·.access (s.reqOf who machine) fact.acc) hseen).trans hserve)

theorem Dev.rd_cnt_corr (d : Dev) {p : Nat} {f : Fld} (h : regKey p f.off ≠ regKey srmPage SRM_CNT_CORR.COUNT.off) :
    (d.cnt srmPage SRM_CNT_CORR.COUNT).rd p f = d.rd p f := d.rd_wr_word _ h

/-- What the way of a request to shared SRAM rests on does not see the count of corrected errors. -/
theorem Dev.cnt_corr_way (d : Dev) (a : Access) (q : Req) (h : regionOf a.addr = .sram) :
    (d.cnt srmPage SRM_CNT_CORR.COUNT).dark = d.dark ∧ (d.cnt srmPage SRM_CNT_CORR.COUNT).denies q a = d.denies q a
      ∧ (d.cnt srmPage SRM_CNT_CORR.COUNT).inReset srmPage = d.inReset srmPage
      ∧ (d.cnt srmPage SRM_CNT_CORR.COUNT).ilv = d.ilv ∧ ∀ g, (d.cnt srmPage SRM_CNT_CORR.COUNT).group g = d.group g := by
  refine ⟨?_, ?_, ?_, d.rd_cnt_corr (by decide), fun g => d.rd_cnt_corr (by simp [SRM_GROUP_STAT.STATE, regKey, srmPage, SRM_CNT_CORR.COUNT])⟩
  · simp only [Dev.dark, Dev.pstate, d.rd_cnt_corr (p := 0x001) (f := PWR_STATE.STATE) (by decide),
      d.rd_cnt_corr (p := 0x001) (f := PWR_STATE.PHASE) (by decide), d.rd_cnt_corr (p := 0x001) (f := PWR_WAKE_REC0.FROM) (by decide),
      Dev.cnt_balls]
    rfl
  · simp only [Dev.denies, h, Dev.level, d.rd_cnt_corr (p := secPage) (f := SEC_STATUS.DBG_LEVEL) (by decide)]
    rfl
  · simp only [Dev.inReset, Dev.rdB, d.rd_cnt_corr (p := srmPage) (f := STATE.IN_RESET) (by decide)]

theorem Dev.cell_cnt_corr (d : Dev) (a : Nat) : (d.cnt srmPage SRM_CNT_CORR.COUNT).cell a = d.cell a := by
  have hsegment : ∀ o, (d.cnt srmPage SRM_CNT_CORR.COUNT).dramSeg o = d.dramSeg o := fun o => by
    simp only [Dev.dramSeg, Dev.dramR, d.rd_cnt_corr (p := 0x079) (f := DRM_GEOM.DENSITY) (by decide)]
  have hilv : (d.cnt srmPage SRM_CNT_CORR.COUNT).ilv = d.ilv := d.rd_cnt_corr (by decide)
  simp only [Dev.cell, hilv, hsegment, Dev.cnt_ms]

/-- The cell of a byte of shared SRAM lies among the cells of the banks. -/
theorem Dev.cell_sram {d : Dev} {a : Nat} (ha : sramBase ≤ a ∧ a < hamperBase) :
    d.cell a = sramBase + (sramPlace d.ilv (a - sramBase)).1 * 0x40000 + (sramPlace d.ilv (a - sramBase)).2 * 8 + a % 8 := by
  simp only [Dev.cell, if_pos ha]

/-- Two bytes of shared SRAM share no cell (R573). -/
theorem Dev.cell_sram_injective {d : Dev} {a b : Nat} (hk : d.ilv ∈ [1, 2, 4, 8]) (ha : sramBase ≤ a ∧ a < hamperBase)
    (hb : sramBase ≤ b ∧ b < hamperBase) (h : d.cell b = d.cell a) : b = a := by
  rw [Dev.cell_sram ha, Dev.cell_sram hb] at h
  have hra : a - sramBase < 0x1000000 := by simp only [sramBase, hamperBase] at ha ⊢; omega
  have hrb : b - sramBase < 0x1000000 := by simp only [sramBase, hamperBase] at hb ⊢; omega
  obtain ⟨hba, hwa⟩ := sramPlace_bounds hk hra
  obtain ⟨hbb, hwb⟩ := sramPlace_bounds hk hrb
  have hplace : sramPlace d.ilv (b - sramBase) = sramPlace d.ilv (a - sramBase) := by
    ext <;> omega
  have hword := sramPlace_injective hk hra hrb hplace
  rw [hplace] at h
  simp only [sramBase] at *
  omega

/-- A byte elsewhere stands in no cell of shared SRAM. -/
theorem Dev.cell_ne_sram {d : Dev} {a b : Nat} (hk : d.ilv ∈ [1, 2, 4, 8]) (ha : sramBase ≤ a ∧ a < hamperBase)
    (hb : b < 0xC00000000) (hout : ¬ (sramBase ≤ b ∧ b < hamperBase)) : d.cell b ≠ d.cell a := by
  have hra : a - sramBase < 0x1000000 := by simp only [sramBase, hamperBase] at ha ⊢; omega
  obtain ⟨hba, hwa⟩ := sramPlace_bounds hk hra
  have hin : sramBase ≤ d.cell a ∧ d.cell a < hamperBase := by
    have hbase : sramBase = 0x10000000 := rfl
    have hend : hamperBase = 0x11000000 := rfl
    rw [Dev.cell_sram ha]
    omega
  intro h
  rw [← h] at hin
  simp only [Dev.cell, if_neg hout] at hin
  split_ifs at hin <;> simp only [sramBase, hamperBase, dramBase, kovBase] at * <;> omega

/-- The bytes stored read back, where no two of them share a cell. -/
theorem Dev.ldB_stBytes_same (l : List Nat) (d : Dev) {a : Nat}
    (hcells : ∀ i j, i < l.length → j < l.length → d.cell (a + i) = d.cell (a + j) → i = j) {i : Nat} (hi : i < l.length) :
    (d.stBytes a l).ldB (a + i) = BitVec.ofNat 8 l[i] := by
  induction l generalizing d a i with
  | nil => cases hi
  | cons v r ih =>
    cases i with
    | zero =>
      have hrest : ∀ j, j < r.length → (d.stB a (BitVec.ofNat 8 v)).cell (a + 0) ≠ (d.stB a (BitVec.ofNat 8 v)).cell (a + 1 + j) :=
        fun j hj heq => by
          simp only [Dev.cell_stB, Nat.add_assoc] at heq
          exact absurd (hcells 0 (1 + j) hi (by simp; omega) heq) (by omega)
      exact (Dev.ldB_stBytes_ne r (d.stB a (BitVec.ofNat 8 v)) hrest).trans (d.ldB_stB_same a _)
    | succ i =>
      have hrest : ∀ i j, i < r.length → j < r.length →
          (d.stB a (BitVec.ofNat 8 v)).cell (a + 1 + i) = (d.stB a (BitVec.ofNat 8 v)).cell (a + 1 + j) → i = j :=
        fun i j hi hj heq => by
          simp only [Dev.cell_stB, Nat.add_assoc] at heq
          exact Nat.add_left_cancel (hcells (1 + i) (1 + j) (by simp; omega) (by simp; omega) heq)
      have := ih (d.stB a (BitVec.ofNat 8 v)) hrest (Nat.lt_of_succ_lt_succ hi)
      rw [Nat.add_assoc, Nat.add_comm 1 i] at this
      exact this

theorem Dev.heal_regs (d : Dev) (a n : Nat) : (d.heal a n).regs = d.regs := rfl

/-- A word's code makes no difference to what a byte reads. -/
theorem Dev.ldB_heal (d : Dev) (a n b : Nat) : (d.heal a n).ldB b = d.ldB b :=
  congrArg (lookD memFill d.mem) (Dev.cell_of_regs (d.heal_regs a n) rfl b)

theorem Dev.ldB_complete (d : Dev) (c : Code) (n b : Nat) : (d.complete c n).ldB b = d.ldB b :=
  congrArg (lookD memFill d.mem) (Dev.cell_of_regs (d.complete_regs c n) (by simp) b)

theorem length_leBytes (n v : Nat) : (leBytes n v).length = n := by simp [leBytes]

/-- A store to shared SRAM that finds no uncorrectable word. -/
theorem Dev.srmDone_store {d : Dev} {a : Access} {v : Nat} (hwrite : a.write = some v) (hbad : ∀ b ∈ readBytes a, d.wordBad b = false) :
    d.srmDone a = ((d.st a.addr a.size v).heal a.addr a.size).complete .okay := by
  have hclean : (readBytes a).find? d.wordBad = none := by simpa [List.find?_eq_none] using hbad
  simp [Dev.srmDone, Dev.srmServe, hclean, Dev.memPerform, hwrite]

/-- A store to shared SRAM that finds no uncorrectable word leaves its own bytes, little-endian, and every other byte as it was. -/
theorem Dev.srmDone_store_bytes {d : Dev} {a : Access} {v : Nat} (hwrite : a.write = some v)
    (hbad : ∀ b ∈ readBytes a, d.wordBad b = false) (hk : d.ilv ∈ [1, 2, 4, 8])
    (hin : ∀ i, i < a.size → sramBase ≤ a.addr + i ∧ a.addr + i < hamperBase) :
    (∀ i, i < a.size → (d.srmDone a).ldB (a.addr + i) = BitVec.ofNat 8 (v / 256 ^ i % 256))
      ∧ ∀ b, b < 0xC00000000 → b < a.addr ∨ a.addr + a.size ≤ b → (d.srmDone a).ldB b = d.ldB b := by
  have hlen : (leBytes a.size v).length = a.size := length_leBytes _ _
  rw [Dev.srmDone_store hwrite hbad]
  simp only [Dev.ldB_complete, Dev.ldB_heal, Dev.st]
  refine ⟨fun i hi => ?stored, fun b hb hout => ?others⟩
  case stored =>
    have hcells : ∀ i j, i < (leBytes a.size v).length → j < (leBytes a.size v).length →
        d.cell (a.addr + i) = d.cell (a.addr + j) → i = j := fun i j hi hj heq =>
      Nat.add_left_cancel (Dev.cell_sram_injective hk (hin j (hlen ▸ hj)) (hin i (hlen ▸ hi)) heq)
    rw [Dev.ldB_stBytes_same _ d hcells (hlen.symm ▸ hi)]
    simp [leBytes]
  case others =>
    refine Dev.ldB_stBytes_ne _ d fun i hi heq => ?_
    have hi' := hin i (hlen ▸ hi)
    rw [hlen] at hi
    by_cases hsram : sramBase ≤ b ∧ b < hamperBase
    · have := Dev.cell_sram_injective hk hi' hsram heq
      omega
    · exact Dev.cell_ne_sram hk hi' hb hsram heq

theorem regionOf_eq_sram_iff {a : Nat} : regionOf a = .sram ↔ sramBase ≤ a ∧ a < hamperBase := by
  simp only [regionOf, sramBase, hamperBase]
  split_ifs <;> simp <;> omega

/-- What ECC leaves before a store to shared SRAM. -/
theorem Dev.eccFound_sram {d : Dev} {a : Access} {ecc : EccFact} (hregion : regionOf a.addr = .sram)
    (hecc : ecc = .clean ∨ ecc = .corrected) :
    d.eccFound a ecc = if ecc = .corrected ∧ readBytes a ≠ [] then d.cnt srmPage SRM_CNT_CORR.COUNT else d := by
  rcases hecc with rfl | rfl
  · simp [Dev.eccFound]
  · rcases hread : readBytes a with - | ⟨b, l⟩ <;> simp [Dev.eccFound, hread, hregion]

/-- Settles O57. -/
theorem sramStoreFrame : Obligations.SramStoreFrame := by
  intro s who machine a v ecc hwrite hsize hregion hspan hdark hden hk hreset hheld hgroup hbad hecc
  have he := Dev.eccFound_sram (d := s.dev) hregion hecc
  have hway := s.dev.cnt_corr_way a (s.reqOf who machine) hregion
  have hfound : (s.dev.eccFound a ecc).dark = s.dev.dark
      ∧ (s.dev.eccFound a ecc).denies (s.reqOf who machine) a = s.dev.denies (s.reqOf who machine) a
      ∧ (s.dev.eccFound a ecc).inReset srmPage = s.dev.inReset srmPage ∧ (s.dev.eccFound a ecc).ilv = s.dev.ilv
      ∧ ∀ g, (s.dev.eccFound a ecc).group g = s.dev.group g := by
    rw [he]
    split
    · exact hway
    · exact ⟨rfl, rfl, rfl, rfl, fun _ => rfl⟩
  have hsame : (s.dev.eccFound a ecc).ms = s.dev.ms ∧ (s.dev.eccFound a ecc).mem = s.dev.mem
      ∧ ∀ b, (s.dev.eccFound a ecc).cell b = s.dev.cell b := by
    rw [he]
    split
    · exact ⟨by simp, by simp, s.dev.cell_cnt_corr⟩
    · exact ⟨rfl, rfl, fun _ => rfl⟩
  obtain ⟨hdark', hden', hreset', hilv', hgroup'⟩ := hfound
  obtain ⟨hms, hmem, hcell⟩ := hsame
  have hbad' : ∀ b ∈ readBytes a, (s.dev.eccFound a ecc).wordBad b = false := fun b hb => by
    simpa [Dev.wordBad, hms, hcell] using hbad b hb
  have hin : ∀ i, i < a.size → sramBase ≤ a.addr + i ∧ a.addr + i < hamperBase := fun i hi => by
    have hfirst := regionOf_eq_sram_iff.mp hregion
    have hlast := regionOf_eq_sram_iff.mp hspan
    omega
  obtain ⟨hstored, hothers⟩ := Dev.srmDone_store_bytes hwrite hbad' (hilv'.symm ▸ hk) hin
  refine ⟨{ s with dev := (s.dev.eccFound a ecc).srmDone a }, ?taken, ?code, hstored, ?others, ?regs, rfl, rfl, rfl⟩
  case taken =>
    exact exec_fabricRequest_sram (fact := ⟨a, ecc⟩) hsize hregion hspan hden hgroup rfl (hdark'.trans hdark) (hden'.trans hden)
      (hreset'.trans hreset) (hms.symm ▸ hheld)
      ((hgroup' _).trans ((congrArg (fun k => s.dev.group ((sramPlace k (a.addr - sramBase)).1 / 8)) hilv').trans hgroup))
  case code => simp [Dev.srmDone_store hwrite hbad']
  case others =>
    exact fun b hb hout => (hothers b hb hout).trans (by simp only [Dev.ldB, hcell, hmem])
  case regs =>
    rw [Dev.srmDone_store hwrite hbad', Dev.complete_regs, Dev.heal_regs, Dev.st, Dev.stBytes_regs, he]
    split <;> rfl

/-! ### The canonical form of memory -/

theorem Dev.memPerform_wf (d : Dev) (a : Access) (h : Memory.wf d.mem = true) : Memory.wf (d.memPerform a).1.mem = true := by
  unfold Dev.memPerform
  split
  · exact Dev.st_wf _ _ _ _ h
  · exact h

theorem Dev.eccFound_mem (d : Dev) (a : Access) (ecc : EccFact) : (d.eccFound a ecc).mem = d.mem := by
  unfold Dev.eccFound
  split
  · rfl
  · rfl
  · split
    · exact (Dev.ev_mem _ _ _).trans (Dev.cnt_mem _ _ _ _)
    · exact Dev.cnt_mem _ _ _ _
  · rfl

theorem Dev.srmUncorr_mem (d : Dev) (a : Nat) : (d.srmUncorr a).mem = d.mem := by simp [Dev.srmUncorr]

theorem Dev.srmRefused_mem (d : Dev) : d.srmRefused.mem = d.mem := by simp [Dev.srmRefused]

theorem Dev.wakeByAccess_mem (d : Dev) (g : Nat) : (d.wakeByAccess g).mem = d.mem := by
  simp [Dev.wakeByAccess, Dev.wakeGroup, Dev.setGroup]

theorem Dev.srmServe_wf (d : Dev) (a : Access) (h : Memory.wf d.mem = true) : Memory.wf (d.srmServe a).1.mem = true := by
  unfold Dev.srmServe
  split
  · exact (d.srmUncorr_mem _).symm ▸ h
  · exact d.memPerform_wf a h

theorem Dev.srmDone_wf (d : Dev) (a : Access) (h : Memory.wf d.mem = true) : Memory.wf (d.srmDone a).mem = true := by
  simpa [Dev.srmDone] using d.srmServe_wf a h

theorem Dev.sramAccess_wf (d : Dev) (who : Initiator) (a : Access) (h : Memory.wf d.mem = true) :
    Memory.wf (d.sramAccess who a).mem = true := by
  unfold Dev.sramAccess
  extract_lets g hold
  split
  · simpa using h
  split
  · exact h
  split
  · exact d.srmDone_wf a h
  · exact h
  · split
    · exact (d.wakeByAccess_mem g).symm ▸ h
    · simpa [Dev.srmRefused_mem] using h
  · simpa [Dev.srmRefused_mem] using h

theorem Dev.hamperAccess_wf (d : Dev) (a : Access) (h : Memory.wf d.mem = true) : Memory.wf (d.hamperAccess a).mem = true := by
  unfold Dev.hamperAccess
  split
  · simpa using h
  · exact d.srmDone_wf a h

theorem memWf_ite {c : Prop} [Decidable c] {s t : State} (hs : Memory.wf s.dev.mem = true) (ht : Memory.wf t.dev.mem = true) :
    Memory.wf (if c then s else t).dev.mem = true := by
  split
  · exact hs
  · exact ht

/-- An access to shared SRAM, the hamper or a Koveton memory keeps the canonical form of memory. -/
theorem State.access_wf (s : State) (q : Req) (a : Access)
    (hregion : regionOf a.addr = .sram ∨ regionOf a.addr = .hamper ∨ regionOf a.addr = .kov) (h : Memory.wf s.dev.mem = true) :
    Memory.wf (s.access q a).dev.mem = true := by
  have hcode : ∀ c : Code, Memory.wf (s.on (·.complete c)).dev.mem = true := fun c => by simpa using h
  have hperform : Memory.wf (s.on fun d => (d.memPerform a).1.complete .okay (d.memPerform a).2).dev.mem = true := by
    simpa using s.dev.memPerform_wf a h
  unfold State.access
  extract_lets d r code perform c p o
  refine memWf_ite (hcode _) (memWf_ite (hcode _) (memWf_ite (hcode _) (memWf_ite (hcode _) ?_)))
  rcases hregion with hr | hr | hr <;> simp only [r, hr]
  case inl => exact s.dev.sramAccess_wf q.who a h
  case inr.inl => exact s.dev.hamperAccess_wf a h
  case inr.inr =>
    exact memWf_ite (hcode _) (memWf_ite (hcode _) (memWf_ite (hcode _) (memWf_ite (hcode _) hperform)))

/-- Settles O58. -/
theorem fabricRequestsKeepMemoryForm : Obligations.FabricRequestsKeepMemoryForm := by
  intro s t who machine a ecc hregion h hexec
  have hfound : Memory.wf (s.on fun d => d.when (d.eccSeen a && !d.denies (s.reqOf who machine) a) (·.eccFound a ecc)).dev.mem = true := by
    cases hseen : s.dev.eccSeen a && !s.dev.denies (s.reqOf who machine) a <;> simpa [hseen, Dev.eccFound_mem] using h
  exact Host.Outcome.next.inj hexec ▸ State.access_wf _ (s.reqOf who machine) a hregion hfound

end Sys2Proof.Machine
end

section
/-! PROOFS. The common header of a page: a fault of a page that starts and O59, its interrupt line (O60), and what reset leaves (O49). -/

namespace Sys2Proof.Machine

/-- A command on the device alone. -/
theorem gives_of_eq {i : Instr} {f : Dev → Dev} {d e : Dev} (h : ∀ s : State, exec i s = s.onDev f) (he : f d = e) : Gives i d e :=
  he ▸ gives_of_onDev h

/-! ### A fault of a STARTING page -/

/-- The two fault registers of a page as `enterFault` writes them. -/
def Dev.faultKept (d : Dev) (p : Nat) (f : FaultRec) : Dev :=
  (d.wrW p FAULT_CODE.CODE.off (BitVec.ofNat 32 (f.code % 256 + 256 * (f.detail % 256)))).wrW p FAULT_ADDR.ADDR.off
    (BitVec.ofNat 32 (if f.code = 0x01 ∨ f.code = 0x04 ∨ (f.code = 0x41 ∧ 0x050 ≤ p ∧ p < 0x060) then f.addr else 0))

theorem Dev.rdW_faultKept (d : Dev) (p : Nat) (f : FaultRec) :
    (d.faultKept p f).rdW p FAULT_CODE.CODE.off = BitVec.ofNat 32 (f.code % 256 + 256 * (f.detail % 256)) := by
  rw [Dev.faultKept, Dev.rdW_wrW_ne _ _ (by simp [regKey, FAULT_CODE.CODE, FAULT_ADDR.ADDR]), Dev.rdW_wrW_same]

theorem Dev.bstate_faultKept (d : Dev) (p : Nat) (f : FaultRec) : (d.faultKept p f).bstate p = d.bstate p := by
  simp only [Dev.bstate, Dev.rd, Dev.faultKept]
  rw [Dev.rdW_wrW_ne _ _ (by simp [regKey, STATE.STATE, FAULT_ADDR.ADDR]), Dev.rdW_wrW_ne _ _ (by simp [regKey, STATE.STATE, FAULT_CODE.CODE])]

/-- A page that is STARTING and discards nothing enters FAULT at once: the record is kept and FAULT is set (R51). -/
theorem Dev.enterFault_of_starting {d : Dev} {p : Nat} {f : FaultRec} (hstate : d.bstate p = .starting)
    (hdisc : look d.disc p ≠ some true) : d.enterFault p f = ((d.faultKept p f).setState p .fault).ev p 0 := by
  have hnot : ¬ d.bstate p = .fault := by simp [hstate]
  have hidle : ¬ ((d.faultKept p f).bstate p = .running ∨ (d.faultKept p f).bstate p = .draining) := by
    simp [Dev.bstate_faultKept, hstate]
  exact (if_neg hnot).trans ((if_neg hdisc).trans (if_neg hidle))

/-- What its registers show then. -/
theorem Dev.fault_of_starting {d : Dev} {p c : Nat} (hstate : d.bstate p = .starting) (hdisc : look d.disc p ≠ some true) :
    (d.fault p c).bstate p = .fault ∧ (d.fault p c).rd p FAULT_CODE.CODE = c % 256 ∧ (d.fault p c).rdB p INT_RAW.FAULT = true := by
  have hfault : d.fault p c = ((d.faultKept p ⟨c, 0, 0⟩).setState p .fault).ev p 0 := Dev.enterFault_of_starting hstate hdisc
  rw [hfault]
  refine ⟨?state, ?code, ?raised⟩
  case state =>
    rw [Dev.ev, Dev.bstate_wr_ne _ _ (by simp [regKey, STATE.STATE, INT_RAW.word, Fld.bitOf]), Dev.bstate_setState]
  case code =>
    rw [Dev.ev, Dev.rd_wr_word _ _ (by simp [regKey, FAULT_CODE.CODE, INT_RAW.word, Fld.bitOf]), Dev.setState,
      Dev.rd_wr_word _ _ (by simp [regKey, FAULT_CODE.CODE, STATE.STATE]), Dev.rd, Dev.rdW_faultKept]
    simp only [FAULT_CODE.CODE, BitVec.extractLsb'_toNat, BitVec.toNat_ofNat]
    omega
  case raised => exact Dev.rdB_wr_same _ p (INT_RAW.word.bitOf 0) true (by decide) rfl

/-- The checks of a STARTING page that fail (R51). -/
theorem Dev.checksPassed_of_startFault {d : Dev} {p c : Nat} (hruns : d.runs p = true) (hstate : d.bstate p = .starting)
    (hcheck : d.startFault p = some c) (hclaim : c ≠ 0x07) : d.checksPassed p = d.fault p c := by
  simp [Dev.checksPassed, hruns, hstate, hcheck, hclaim]

/-- Settles O59. -/
theorem twinStartNeedsKeyAndLane : Obligations.TwinStartNeedsKeyAndLane := by
  intro d hruns hstate hdisc hmissing
  have hcheck : d.startFault twnPage = some 0x03 :=
    if_pos (hmissing.elim Or.inl fun h => Or.inr (Or.inl h))
  obtain ⟨hfault, hcode, hraised⟩ := Dev.fault_of_starting (c := 0x03) hstate hdisc
  exact ⟨gives_of_eq (f := fun d => (d.checksPassed twnPage).settle) (fun _ => rfl)
    (congrArg Dev.settle (Dev.checksPassed_of_startFault hruns hstate hcheck (by decide))), hfault, hcode, hraised⟩

/-! ### The interrupt line (R48) -/

theorem BitVec.ne_zero_iff_exists_getLsbD {w : Nat} (v : BitVec w) : v ≠ 0 ↔ ∃ b, b < w ∧ v.getLsbD b = true := by
  constructor
  · intro h
    by_contra hnone
    push Not at hnone
    exact h (BitVec.eq_of_getLsbD_eq fun b hb => by simpa using hnone b hb)
  · rintro ⟨b, -, hb⟩ rfl
    simp at hb

/-- A read of INT_STAT of a page that answers. -/
theorem Dev.regRead_intStat {d : Dev} {q : Req} {p : Nat} (hp : hasHeader p = true) (hshut : d.shut p = false) :
    d.regRead q p 0x18 = d.complete .okay ((d.rdW p 0x10) &&& (d.rdW p 0x14)).toNat := by
  obtain ⟨k, hk, hlt⟩ : ∃ k, pageKind p = some k ∧ p < 0x100 := by
    simpa [hasHeader, Option.isSome_iff_exists] using hp
  have hplic : ¬ (0x100 ≤ p ∧ p ≤ 0x120) := by omega
  have haclint : ¬ p = 0x128 := by omega
  unfold Dev.regRead
  simp only [if_neg hplic, if_neg haclint, hk, hshut, hp, Bool.false_eq_true, false_and, if_false, true_and, if_true]

/-- Settles O60. -/
theorem pageInterruptLine : Obligations.PageInterruptLine := by
  intro d q p hp hkind hshut hreset hpower
  have hlt : p < 0x100 := by
    simpa [hasHeader, hkind] using hp
  have hpcie : ¬ p + 1 = 131 := fun h => by
    obtain rfl : p = 130 := by omega
    exact absurd hkind (by decide)
  have hline : d.plicLevel (p + 1) = decide (d.rdW p 0x10 &&& d.rdW p 0x14 ≠ 0) := by
    have hpage : 1 ≤ p + 1 ∧ p + 1 ≤ 256 := by omega
    simp only [Dev.plicLevel, if_neg hpcie, if_pos hpage, Nat.add_sub_cancel, Dev.pageLine, hkind, hlt, hreset, hpower, decide_true,
      Bool.not_false, Bool.and_self, Bool.true_and]
    rfl
  rw [Dev.regRead_intStat hp hshut, hline, Dev.complete_lastData, BitVec.ofNat_toNat, BitVec.setWidth_eq, decide_eq_true_iff]
  exact ⟨rfl, BitVec.ne_zero_iff_exists_getLsbD _⟩

/-! ### Reset -/

/-- No reset value of resetRegs is a STATE word. -/
theorem look_resetRegs_state (p : Nat) : look resetRegs (regKey p STATE.STATE.off) = none := by
  have hkeys : ∀ e ∈ resetRegs, e.1 % 0x10000 ≠ 0xC := by decide
  have hrest : ∀ m : List (Nat × BitVec 32), (∀ e ∈ m, e.1 % 0x10000 ≠ 0xC) → look m (regKey p STATE.STATE.off) = none := by
    intro m
    induction m with
    | nil => exact fun _ => rfl
    | cons e r ih =>
      intro h
      have hne : e.1 ≠ regKey p STATE.STATE.off := fun heq => h e List.mem_cons_self (by
        rw [heq]
        simp only [regKey, STATE.STATE]
        omega)
      simp only [look, if_neg hne]
      exact ih fun a ha => h a (List.mem_cons_of_mem e ha)
  exact hrest resetRegs hkeys

theorem bstate_reset {p : Nat} (h : p < 0x100) : Dev.reset.bstate p = .stopped := by
  have hdefault : Dev.reset.rdW p STATE.STATE.off = regReset p 0xC := by
    have hpage : regKey p STATE.STATE.off / 0x10000 = p ∧ regKey p STATE.STATE.off % 0x10000 = 0xC := by
      simp only [regKey, STATE.STATE]
      omega
    have hnone : look Dev.reset.regs (regKey p STATE.STATE.off) = none := look_resetRegs_state p
    simp only [Dev.rdW, lookD, hnone, Option.getD_none, regDefault, hpage]
  have hzero : regReset p 0xC = 0 := by
    cases hk : pageKind p with
    | none => simp [regReset, findRow, hk]
    | some k =>
      have hp : hasHeader p = true := by simp [hasHeader, hk, h]
      have hrow : findRow p 0xC = rowsOf_hdr.find? (·.covers 0xC) := by simp [findRow, hk, hp]
      rw [regReset, if_neg (by simp), hrow]
      rfl
  simp only [Dev.bstate, Dev.rd, hdefault, hzero]
  rfl

/-- Settles O49. -/
theorem resetLeaves : Obligations.ResetLeaves := by
  have hmem : ∀ h ∈ State.reset.harts, h = Hart.reset ∨ h = Hart.parkedAt := fun h hin =>
    (List.mem_cons.mp hin).imp_right fun hrest => List.eq_of_mem_replicate hrest
  have hparked : ∀ k, 1 ≤ k → k < 8 → State.reset.hart k = Hart.parkedAt := by decide
  refine ⟨State.hartsWf_hartsStart State.reset, ?priv, ?parked, fun p hp => bstate_reset hp, rfl, by decide, rfl, rfl⟩
  case priv =>
    intro h hin
    rcases hmem h hin with rfl | rfl
    · exact ⟨rfl, rfl⟩
    · exact ⟨rfl, rfl⟩
  case parked =>
    intro k hk hlt
    rw [hparked k hk hlt]
    exact ⟨rfl, rfl, rfl⟩

end Sys2Proof.Machine
end

section
/-! PROOFS. The commands of the beat sequencer and of plans (O3, O4), of page states, resets and power domains (O5, O6), of claims (O7) and
of the fabric (O8) complete. -/

namespace Sys2Proof.Machine

/-- A command that changes the device alone, by what it does to the device. -/
theorem gives_of_dev {i : Instr} {g : Dev → BeatSeq → List Hart → List Instr → Dev} {d e : Dev}
    (h : ∀ {d q hs p}, exec i ⟨d, q, hs, p⟩ = .next ⟨g d q hs p, q, hs, p⟩) (he : ∀ {q hs p}, g d q hs p = e) : Gives i d e := by
  rintro ⟨d, q, hs, p⟩ rfl
  exact h.trans (by rw [he])

/-- Settles O3. -/
theorem beatCommandsComplete : Obligations.BeatCommandsComplete := by
  refine ⟨?boundary, ?beatEnSet, ?beatEnClear, ?beatLoRead, ?allowanceMissed, ?airLast0Read⟩
  case boundary =>
    intro s fact hen hdark
    exact if_pos (by simp [hen, hdark])
  case beatEnSet =>
    intro s hans hen
    exact (if_neg (by simp [hans])).trans (if_neg (by simp [hen]))
  case beatEnClear =>
    intro d value hans hstopped
    exact Dev.beatEnClear_of_stopped (value / 2 * 2) hstopped ▸ gives_beatEnClear value hans
  case beatLoRead =>
    intro d hans
    exact gives_of_dev rfl (if_pos hans)
  case allowanceMissed =>
    intro d hen hissued
    exact gives_of_dev rfl (if_neg (by simp [hen, hissued]))
  case airLast0Read =>
    intro d x hx hans
    exact gives_of_dev rfl ((if_neg (by omega)).trans (if_pos hans))

/-- Settles O4. -/
theorem planCommandsComplete : Obligations.PlanCommandsComplete := by
  refine ⟨?snapshot, ?freeze, ?missed⟩
  case snapshot =>
    intro d hservice
    refine gives_of_dev rfl ?_
    intro q hs p
    have hreach : ∀ t, (d.reach t).inService 0x03B = true := fun _ => hservice
    simp only [Dev.snapshot, Dev.queueSnapshot, hreach, Bool.true_eq_false, if_false]
    rfl
  case freeze =>
    intro d x noLine draft left sn hx hsnap hgone hfrozen
    exact gives_of_dev rfl (by simp [hsnap, hgone, hfrozen, hx])
  case missed =>
    intro d radio sn e hr hsnap hst hbeat he
    exact gives_of_dev rfl (by simp [hsnap, hst, hbeat, hr, he])

/-! ### Page states (R51) -/

section
variable {d : Dev} {p : Nat}

theorem Dev.startPage_of_stopped (hdisc : d.discarding p = false) (hstate : d.bstate p = .stopped) (hp : p < 0x010 ∨ 0x015 < p) :
    d.startPage p = (d.setState p .starting).bbFollow p := by
  have hquad : ¬ (0x010 ≤ p ∧ p ≤ 0x015) := by omega
  simp only [Dev.startPage, hdisc, hstate, hquad, if_false, Bool.false_eq_true]

/-- A quad page makes its checks at once (R92). -/
theorem Dev.startPage_of_quad (hdisc : d.discarding p = false) (hstate : d.bstate p = .stopped) (hlo : 0x010 ≤ p) (hhi : p ≤ 0x015)
    (hcheck : ((d.setState p .starting).bbFollow p).quadStartCheck (p - 0x010) = none) :
    d.startPage p = ((d.setState p .starting).bbFollow p).quadOnStart (p - 0x010) := by
  have hquad : 0x010 ≤ p ∧ p ≤ 0x015 := ⟨hlo, hhi⟩
  simp only [Dev.startPage, hdisc, hstate, hquad, hcheck, if_false, if_true, and_self, Bool.false_eq_true]

theorem Dev.drainPage_of_starting (hdisc : d.discarding p = false) (hstate : d.bstate p = .starting) :
    d.drainPage p = (d.leave p).toStopped p := by
  simp only [Dev.drainPage, hdisc, hstate, if_false, Bool.false_eq_true]

theorem Dev.drainPage_of_running (hdisc : d.discarding p = false) (hstate : d.bstate p = .running) :
    d.drainPage p = (d.onDrain p).setState p .draining := by
  simp only [Dev.drainPage, hdisc, hstate, if_false, Bool.false_eq_true]

theorem Dev.stopPage_of_busy (hdisc : d.discarding p = false) (hstate : d.bstate p = .running ∨ d.bstate p = .draining) :
    d.stopPage p = ({ d with disc := put d.disc p false } : Dev).leave p := by
  rcases hstate with hstate | hstate <;> simp only [Dev.stopPage, hdisc, hstate, if_false, Bool.false_eq_true]

theorem Dev.stopPage_of_starting (hdisc : d.discarding p = false) (hstate : d.bstate p = .starting) :
    d.stopPage p = (d.leave p).toStopped p := by
  simp only [Dev.stopPage, hdisc, hstate, if_false, Bool.false_eq_true]

theorem Dev.abortPage_of_fault (hstate : d.bstate p = .fault) : d.abortPage p = d.toStopped p := by
  simp only [Dev.abortPage, hstate]

theorem Dev.checksPassed_of_ready (hruns : d.runs p = true) (hstate : d.bstate p = .starting) (hcheck : d.startFault p = none)
    (hp : p < 0x010 ∨ 0x015 < p) (hstays : (d.onStart p).bstate p = .starting) :
    d.checksPassed p = ((d.onStart p).toRunning p).bbFollow p := by
  have hquad : ¬ (0x010 ≤ p ∧ p ≤ 0x015) := by omega
  simp only [Dev.checksPassed, hruns, hstate, hcheck, hquad, hstays, decide_true, Bool.and_self, if_true, if_false]

theorem Dev.drainEnds_of_drained (hruns : d.runs p = true) (hstate : d.bstate p = .draining) (hdisc : d.discarding p = false)
    (hdrained : d.drained p = true) (hp : p ≠ 0x033) : d.drainEnds p = (d.leave p).toStopped p := by
  simp only [Dev.drainEnds, hruns, hstate, hdisc, hdrained, hp, decide_true, decide_false, Bool.not_false, Bool.and_self, if_true,
    Dev.when_false]

theorem Dev.discardEnds_to_fault (hdisc : look d.disc p = some true) :
    d.discardEnds p = ((({ d.leave p with disc := del (d.leave p).disc p } : Dev).setState p .fault).ev p 0).cascade p := by
  simp only [Dev.discardEnds, hdisc, if_true]

end

/-- A fault detected in a page that is in service and discards its work first (R63). -/
theorem Dev.faultPage_of_running {d : Dev} {p : Nat} {f : FaultRec} (hstate : d.bstate p = .running) :
    d.faultPage p f = (d.enterFault p f).leave p := by
  simp [Dev.faultPage, hstate]

/-! ### Writes of RUN -/

section
variable {d e : Dev} {p : Nat}

theorem gives_start (hruns : d.runs p = true) (he : (d.runBits p 1).startPage p = e) :
    Gives (.start p) d (e.settle.complete .okay) :=
  gives_of_dev rfl ((if_pos hruns).trans (by rw [he]))

theorem gives_drain (hruns : d.runs p = true) (he : (d.runBits p 2).drainPage p = e) :
    Gives (.drain p) d (e.settle.complete .okay) :=
  gives_of_dev rfl ((if_pos hruns).trans (by rw [he]))

theorem gives_stop (hruns : d.runs p = true) (he : (d.runBits p 0).stopPage p = e) :
    Gives (.stop p) d (e.settle.complete .okay) :=
  gives_of_dev rfl ((if_pos hruns).trans (by rw [he]))

theorem gives_abort (hruns : d.runs p = true) (he : (d.runBits p 4).abortPage p = e) :
    Gives (.abort p) d (e.settle.complete .okay) :=
  gives_of_dev rfl ((if_pos hruns).trans (by rw [he]))

end

/-- Settles O5. -/
theorem runControlCommandsComplete : Obligations.RunControlCommandsComplete := by
  refine ⟨?start, ?startQuad, ?drainStarting, ?drain, ?stop, ?stopStarting, ?abort, ?checks, ?drained, ?fault, ?discarded⟩
  case start =>
    exact fun d p hruns hdisc hstate hp => gives_start hruns (Dev.startPage_of_stopped hdisc hstate hp)
  case startQuad =>
    exact fun d p hruns hdisc hstate hlo hhi hcheck => gives_start hruns (Dev.startPage_of_quad hdisc hstate hlo hhi hcheck)
  case drainStarting =>
    exact fun d p hruns hdisc hstate => gives_drain hruns (Dev.drainPage_of_starting hdisc hstate)
  case drain =>
    exact fun d p hruns hdisc hstate => gives_drain hruns (Dev.drainPage_of_running hdisc hstate)
  case stop =>
    exact fun d p hruns hdisc hstate => gives_stop hruns (Dev.stopPage_of_busy hdisc hstate)
  case stopStarting =>
    exact fun d p hruns hdisc hstate => gives_stop hruns (Dev.stopPage_of_starting hdisc hstate)
  case abort =>
    exact fun d p hruns hstate => gives_abort hruns (Dev.abortPage_of_fault hstate)
  case checks =>
    intro d p hruns hstate hcheck hp hstays
    exact gives_of_dev rfl (congrArg Dev.settle (Dev.checksPassed_of_ready hruns hstate hcheck hp hstays))
  case drained =>
    intro d p hruns hstate hdisc hdrained hp
    exact gives_of_dev rfl (congrArg Dev.settle (Dev.drainEnds_of_drained hruns hstate hdisc hdrained hp))
  case fault =>
    intro d p f hruns hstate hrunning
    exact gives_of_dev rfl (by simp [hruns, Dev.faultPage_of_running hstate, hrunning])
  case discarded =>
    intro d p hdisc
    exact gives_of_dev rfl (congrArg Dev.settle (Dev.discardEnds_to_fault hdisc))

/-! ### Block resets and power domains (R58, R59) -/

section
variable {d : Dev} {k v : Nat}

theorem Dev.domSwitch_of_same (h : bit v k = d.rdB pwrPage (PWR_DOM.KOV.bitOf k)) : d.domSwitch k v = d := if_pos h

theorem Dev.domSwitch_on (hv : bit v k = true) (hoff : d.rdB pwrPage (PWR_DOM.KOV.bitOf k) = false) :
    d.domSwitch k v = { d.wr pwrPage (PWR_DOM.KOV.bitOf k) 1 with gov := { d.gov with domUp := d.gov.domUp ++ [k] } } :=
  (if_neg (by simp [hv, hoff])).trans (if_pos hv)

theorem Dev.domSwitch_blocked (hv : bit v k = false) (hon : d.rdB pwrPage (PWR_DOM.KOV.bitOf k) = true)
    (hbusy : (domPages k).find? (fun p => decide (d.bstate p ≠ .stopped)) = some p) :
    d.domSwitch k v = (d.wr pwrPage PWR_STATE.BLOCKER p).ev pwrPage 9 := by
  rw [Dev.domSwitch, if_neg (by simp [hv, hon]), if_neg (by simp [hv])]
  simp only [hbusy]

theorem Dev.domSwitch_off (hv : bit v k = false) (hon : d.rdB pwrPage (PWR_DOM.KOV.bitOf k) = true)
    (hfree : (domPages k).find? (fun p => decide (d.bstate p ≠ .stopped)) = none) : d.domSwitch k v = d.domOff k := by
  rw [Dev.domSwitch, if_neg (by simp [hv, hon]), if_neg (by simp [hv])]
  simp only [hfree]

end

/-- Settles O6. -/
theorem resetAndDomainCommandsComplete : Obligations.ResetAndDomainCommandsComplete := by
  refine ⟨?reset, ?write, fun d k v h => Dev.domSwitch_of_same h, fun d k v hv hoff => Dev.domSwitch_on hv hoff, ?off, ?blocked, ?up⟩
  case reset =>
    rintro d group value v hans hg rfl
    exact gives_of_dev rfl ((if_pos hans).trans (congrArg (fun e : Dev => e.settle.complete .okay) (if_neg (by omega))))
  case write =>
    intro d value hans
    exact gives_of_dev rfl (if_pos hans)
  case off =>
    intro d k v hv hon hstopped
    exact Dev.domSwitch_off hv hon (by simpa [List.find?_eq_none] using hstopped)
  case blocked =>
    intro d k v p hv hon hbusy
    exact Dev.domSwitch_blocked hv hon hbusy
  case up =>
    rintro d dom e hup rfl
    exact gives_of_dev rfl (if_pos hup)

/-! ### Claims (R70) -/

theorem Dev.releaseClaim_own {d : Dev} {kind index x : Nat} (hres : resourceExists kind index = true)
    (hball : kind ≠ 0 ∨ ballExists index = true) (hown : d.owner kind index = x) : d.releaseClaim kind index x = d.giveTo kind index 0 0 := by
  have hnamed : ¬ (kind = 0 ∧ ballExists index = false) := fun ⟨hk, hb⟩ => hball.elim (· hk) (by simp [hb])
  exact (if_neg (by simp [hres])).trans ((if_neg hnamed).trans (if_pos hown))

/-- A write of PIN_FORCE_REL by machine mode for a resource there is. -/
theorem gives_forcedRelease {d e : Dev} {kind index : Nat} (hans : d.answers 0x000 = true) (hres : resourceExists kind index = true)
    (he : (if kind = 0 ∧ ballExists index = false then (d.refuseClaim kind index 0).complete .okay
      else (((d.freeOwner kind index).cnt 0x000 PIN_CLAIM_FORCED.COUNT).when (decide (kind = 3)) (·.levelsFail)).complete .okay) = e) :
    Gives (.forcedRelease kind index true) d e := by
  exact gives_of_dev rfl ((if_pos hans).trans ((if_neg (by simp)).trans ((if_neg (by simp [hres])).trans he)))

/-- Settles O7. -/
theorem claimCommandsComplete : Obligations.ClaimCommandsComplete := by
  refine ⟨?claim, ?release, ?forcedNameless, ?forcedDenied, ?forced, fun d hans => gives_pinClaimRejResRead hans⟩
  case claim =>
    intro d kind index owner func hans hres hclaim
    exact gives_of_dev rfl ((if_pos hans).trans (congrArg (Dev.complete · .okay) ((if_pos hres).trans (if_pos hclaim))))
  case release =>
    intro d kind index owner hans hres hball hown
    exact Dev.releaseClaim_own hres hball hown ▸ gives_ownerRelease owner hans
  case forcedNameless =>
    intro d index hans hres hball
    exact gives_forcedRelease hans hres (if_pos ⟨rfl, hball⟩)
  case forcedDenied =>
    intro d kind index hans
    exact gives_of_dev rfl ((if_pos hans).trans (if_pos rfl))
  case forced =>
    intro d kind index hans hres hball
    exact gives_forcedRelease hans hres (if_neg fun ⟨hk, hb⟩ => hball.elim (· hk) (by simp [hb]))

/-! ### Register writes -/

/-- The word that a write of `v` leaves in a register of a page that is STOPPED and not locked (R45). -/
def writtenWord (r : RegRow) (old v : Nat) : Nat :=
  let eff := (r.rw ||| r.wo ||| r.cfg ||| r.lck) &&& 0xFFFFFFFF
  (((old &&& (eff ^^^ 0xFFFFFFFF)) ||| (v &&& eff)) &&& ((v &&& r.w1c) ^^^ 0xFFFFFFFF)) ||| (v &&& r.w1s)

theorem Dev.regPut_of_stopped {d : Dev} {p o v : Nat} {r : RegRow} (hrow : findRow p o = some r) (hstate : d.bstate p = .stopped)
    (hlock : d.pageLocked p = false) :
    d.regPut p o v = (d.wrW p o (BitVec.ofNat 32 (writtenWord r (d.rdW p o).toNat v))).complete .okay := by
  simp [Dev.regPut, hrow, hstate, hlock, writtenWord]

theorem hasHeader_lt {p : Nat} (h : hasHeader p = true) : p < 0x100 := by
  simp only [hasHeader, Bool.and_eq_true, decide_eq_true_eq] at h
  exact h.2

theorem pageKind_of_hasHeader {p : Nat} (h : hasHeader p = true) : ∃ k, pageKind p = some k := by
  simp only [hasHeader, Bool.and_eq_true, Option.isSome_iff_exists] at h
  exact h.1

/-- A write to a register of the common header that has no behaviour of its own. -/
theorem State.regWrite_header {s : State} {q : Req} {p o v : Nat} (hp : hasHeader p = true) (hshut : s.dev.shut p = false)
    (hlt : o < 0x80) (hrun : o ≠ 0x08) (hset : o ≠ 0x1C) : s.regWrite q p o v = s.on (·.regPut p o (v % 2 ^ 32)) := by
  obtain ⟨k, hk⟩ := pageKind_of_hasHeader hp
  have hlow := hasHeader_lt hp
  have hplic : ¬ (0x100 ≤ p ∧ p ≤ 0x120) := by omega
  have haclint : ¬ p = 0x128 := by omega
  simp only [State.regWrite, if_neg hplic, if_neg haclint, hk, hshut, hp, hlt, hrun, hset, Bool.false_eq_true, if_false, and_false,
    and_self, if_true]

/-- A write to a register of the page itself that neither is a command nor starts one. -/
theorem State.regWrite_plain {s : State} {q : Req} {p o v : Nat} {k : PageKind} (hkind : pageKind p = some k)
    (hplic : p < 0x100 ∨ 0x120 < p) (haclint : p ≠ 0x128) (hshut : s.dev.shut p = false) (hge : 0x80 ≤ o)
    (hgo : (goOffsets k).contains o = false) (htwn : k = .twn → o ≠ 0x90) (hpkp : k = .pkp → o ≠ 0x80) (hmachine : q.machine = true)
    (hown : s.regOwn q p o (v % 2 ^ 32) = none) (hcommand : (s.on (·.regPut p o (v % 2 ^ 32))).regCommand q p o (v % 2 ^ 32) = none) :
    s.regWrite q p o v = s.on (·.regPut p o (v % 2 ^ 32)) := by
  have hplic' : ¬ (0x100 ≤ p ∧ p ≤ 0x120) := by omega
  have hrun : ¬ o = 0x08 := by omega
  have hset : ¬ o = 0x1C := by omega
  have hheader : ¬ o < 0x80 := by omega
  have htwn' : ¬ (k = .twn ∧ o = 0x90) := fun h => htwn h.1 h.2
  have hpkp' : ¬ (k = .pkp ∧ o = 0x80) := fun h => hpkp h.1 h.2
  simp only [State.regWrite, if_neg hplic', if_neg haclint, hkind, hshut, hrun, hset, hheader, hgo, htwn', hpkp', hmachine, hown,
    hcommand, Bool.false_eq_true, Bool.true_eq_false, if_false, and_false]

/-- REGISTER_WRITE at an aligned offset, where the fabric answers. -/
theorem exec_registerWrite {s : State} {p o v : Nat} (halign : o % 4 = 0) (ho : o < 0x10000) (hp : p < 4096)
    (hdark : s.dev.dark = false) :
    exec (.registerWrite p o v) s = .next (s.regWrite { who := .hart 0, priv := 3, debug := false } p o v) := by
  have hlegal : ¬ (o % 4 ≠ 0 ∨ 0x10000 ≤ o ∨ 4096 ≤ p) := by omega
  exact (if_neg hlegal).trans (if_neg (by simp [hdark]))

/-- A request of PCI Express that a window takes and that nothing holds is answered with its completion. -/
theorem State.inbound_answered {s : State} {addr size f : Nat} {write : Option Nat} {t : State} (hlink : s.dev.linkUp = true)
    (hperst : s.dev.pcie.perst = false) (hend : s.dev.endpoint = true) (hwin : s.dev.inWindow addr = some f)
    (ht : t = s.access { who := .pcieHost, priv := 0, debug := false } { addr := f, size := size, write := write })
    (hheld : s.dev.ms.held.length = t.dev.ms.held.length) (hdq : s.dev.ms.dq.length = t.dev.ms.dq.length)
    (hreads : s.dev.pcie.reads.length = t.dev.pcie.reads.length) :
    s.inbound addr size write = t.on fun e => e.inReply e.lastCode e.lastData write.isSome := by
  unfold State.inbound
  rw [if_neg (by simp [hlink, hperst])]
  simp only [hend, hwin, ← ht, hheld, hdq, hreads, Nat.lt_irrefl, decide_false, Bool.or_self, Bool.false_eq_true, if_false]

/-- Settles O8. -/
theorem fabricCommandsComplete : Obligations.FabricCommandsComplete := by
  refine ⟨?sram, ?header, ?own, ?inbound, ?ssip, ?msip⟩
  case sram =>
    rintro s who machine fact acc e rfl hsize hregion hspan hden hgroup he hdark hden' hreset hheld hgroup'
    exact exec_fabricRequest_sram hsize hregion hspan hden hgroup he hdark hden' hreset hheld hgroup'
  case header =>
    rintro s p o value v eff new r halign hlt hp hdark hheader hshut hrun hset hrow hstate hlock rfl rfl rfl
    rw [exec_registerWrite halign (by omega) (by omega) hdark, State.regWrite_header hheader hshut hlt hrun hset, State.on,
      Dev.regPut_of_stopped hrow hstate hlock]
    rfl
  case own =>
    rintro s p o value v eff new k r halign hge hlt hp hplic haclint hdark hkind hshut hgo htwn hpkp rfl hown hcommand hrow hstate
      hlock rfl rfl
    rw [exec_registerWrite halign hlt hp hdark, State.regWrite_plain hkind hplic haclint hshut hge hgo htwn hpkp rfl hown hcommand,
      State.on, Dev.regPut_of_stopped hrow hstate hlock]
    rfl
  case inbound =>
    intro s addr size f write hlink hperst hend hwin hheld hdq hreads
    exact congrArg Host.Outcome.next (State.inbound_answered hlink hperst hend hwin rfl hheld hdq hreads)
  case ssip =>
    intro s hart value hlt hset
    exact congrArg Host.Outcome.next ((if_pos hlt).trans (by rw [if_pos hset]))
  case msip =>
    intro d hart value hlt
    exact gives_of_dev rfl (if_pos hlt)

end Sys2Proof.Machine
end

section
/-! PROOFS. The commands of the chain pool and the transmit path (O9, O10) and of the calibration engine (O11) complete. -/

namespace Sys2Proof.Machine

/-! ### Synthesisers -/

section
variable {d : Dev} {x : Nat}

/-- A hop to a channel, with no run of the calibration engine on its synthesiser. -/
theorem Dev.hopCommand_tune {centre width : Nat} (hcal : x = 3 → d.pool.cal = none) (hcentre : centre ≠ 0)
    (hcheck : d.hopCheck x centre width = none) : d.hopCommand x centre width = (d.hopAccept x centre width).hopTune x centre width := by
  have hfree : (if x = 3 then d.pool.cal else none) = none := by
    split
    · exact hcal ‹_›
    · rfl
  simp only [Dev.hopCommand, hcentre, hcheck, hfree, false_and, if_false]

/-- A hop to centre 0 in service. -/
theorem Dev.hopCommand_off {width : Nat} (hcal : x = 3 → d.pool.cal = none) (hservice : d.inService synPage = true) :
    d.hopCommand x 0 width = (((d.hopAccept x 0 width).hopDisturb x).synOff x 0xA).ev synPage 8 := by
  have hfree : (if x = 3 then d.pool.cal else none) = none := by
    split
    · exact hcal ‹_›
    · rfl
  simp only [Dev.hopCommand, hservice, hfree, if_true, Bool.true_eq_false, and_false, if_false]

theorem Dev.lockDetected_settling (hstate : d.synState x = 1) :
    d.lockDetected x = (d.reach ((d.synRec x).entered + (if (d.synRec x).slow then 60 else 30) * usU)).calBegin x :=
  if_pos hstate

theorem Dev.lockDetected_relocking (hstate : d.synState x = 4) (hfrom : (d.synRec x).fromCal = false) :
    d.lockDetected x = ((d.synEnter x 3).takeLo x).releaseHeld x :=
  (if_neg (by simp [hstate])).trans ((if_pos hstate).trans (if_neg (by simp [hfrom])))

/-- Lock again after a loss in CALIBRATING. -/
theorem Dev.lockDetected_again (hstate : d.synState x = 4) (hfrom : (d.synRec x).fromCal = true) (hcal : x = 3 → d.pool.cal = none)
    (hservice : d.inService calPage = true) : d.lockDetected x = d.calEnter x (d.synRec x).need := by
  have hfree : ¬ (x = 3 ∧ d.pool.cal.isSome = true) := fun ⟨hx, hsome⟩ => by simp [hcal hx] at hsome
  exact (if_neg (by simp [hstate])).trans ((if_pos hstate).trans ((if_pos hfrom).trans ((if_neg hfree).trans (if_neg (by simp [hservice])))))

end

/-- Settles O9. -/
theorem poolCommandsComplete : Obligations.PoolCommandsComplete := by
  refine ⟨?hop, ?off, ?settled, ?relocked, ?again, ?calibrated, ?lost, ?settling, ?relock⟩
  case hop =>
    intro d x centre width hans hx hcal hcentre hcheck
    exact gives_of_dev rfl ((if_pos hans).trans ((if_pos hx).trans
      (congrArg (fun e : Dev => e.settle.complete .okay) (Dev.hopCommand_tune hcal hcentre hcheck))))
  case off =>
    intro d x hans hx hcal hservice
    exact gives_of_dev rfl ((if_pos hans).trans ((if_pos hx).trans
      (congrArg (fun e : Dev => e.settle.complete .okay) (Dev.hopCommand_off hcal hservice))))
  case settled =>
    intro d x hstate
    exact gives_of_dev rfl (Dev.lockDetected_settling hstate)
  case relocked =>
    intro d x hstate hfrom
    exact gives_of_dev rfl (Dev.lockDetected_relocking hstate hfrom)
  case again =>
    intro d x hstate hfrom hcal hservice
    exact gives_of_dev rfl (Dev.lockDetected_again hstate hfrom hcal hservice)
  case calibrated =>
    rintro d x at' st failed bad e f g hstate hcal hbad hat hst rfl rfl rfl
    have hidle : ¬ (d.synState x ≠ 2 ∨ (x = 3 ∧ d.pool.cal.isSome = true)) := by
      rintro (h | ⟨hx, hsome⟩)
      · exact h hstate
      · simp [hcal hx] at hsome
    have hat' : (if (!(d.synRec x).need.isEmpty) = true then 902 else 18) = at' := by
      cases hneed : (d.synRec x).need.isEmpty <;> simp [hat, hneed]
    have hst' : (if (!bad.isEmpty) = true then 9 else if (!(d.synRec x).need.isEmpty) = true then 1 else 0) = st := by
      cases hneed : (d.synRec x).need.isEmpty <;> cases hempty : bad.isEmpty <;> simp [hst, hneed, hempty]
    exact gives_of_dev rfl ((if_neg hidle).trans (by simp only [← hbad, hat', hst']))
  case lost =>
    rintro d x e g hx hstate rfl rfl
    exact gives_of_dev rfl ((if_pos hx).trans (congrArg Dev.settle (if_pos hstate)))
  case settling =>
    intro d x hx hstate
    exact gives_of_dev rfl ((if_pos hx).trans (congrArg Dev.settle (if_pos hstate)))
  case relock =>
    intro d x hx hstate
    exact gives_of_dev rfl ((if_pos hx).trans (congrArg Dev.settle (if_pos hstate)))

/-! ### Transmission -/

section
variable {d : Dev} {x : Nat}

/-- A readied request that is taken, while its synthesiser is not OFF. -/
theorem Dev.txCommand_taken {q : TxReq} (hx : x < 3) (htakes : d.takesTx x = true) (hsyn : d.synState x ≠ 0)
    (hfree : d.txRefusal x (d.usableOf x q.chains) (d.clampLimit x ((d.usableOf x q.chains).map (·.2))) q.start q.dur = none) :
    d.txCommand x q = (d.noteClamp (d.clamps (d.usableOf x q.chains) (d.clampLimit x ((d.usableOf x q.chains).map (·.2))) q.powers)).placeTx x
      { kind := if q.isResponse then .response else .planned q.index, beat := d.beat,
        chains := ((d.usableOf x q.chains).map fun u => 2 ^ u.1).foldl (· + ·) 0, asked := q.powers,
        powers := d.ballPowers (d.usableOf x q.chains) (d.clampLimit x ((d.usableOf x q.chains).map (·.2))) q.powers, start := q.start,
        latest := q.latest, dur := q.sent, planned := q.dur, phase := if d.synState x = 3 then .armed else .held, wasHeld := false,
        first := 0, clamped := d.clamps (d.usableOf x q.chains) (d.clampLimit x ((d.usableOf x q.chains).map (·.2))) q.powers,
        scale := q.scale, chainLost := decide (((d.usableOf x q.chains).map fun u => 2 ^ u.1).foldl (· + ·) 0 ≠ q.chains), paOver := 0,
        underrun := q.short, ru := q.ru, ndp := q.ndp, ndpa := q.ndpa } := by
  have hknown : ¬ (d.synState x = 0 ∨ x ≥ 3) := by omega
  simp only [Dev.txCommand, htakes, Bool.true_eq_false, if_false, if_neg hknown, hfree]

theorem Dev.handOver_ready {q : TxReq} (hready : look d.tx.ready x = some q) (hlate : q.isResponse = true → q.start ≤ q.latest)
    (htakes : d.takesTx x = true) :
    d.handOver x = ({ d with tx := { d.tx with ready := del d.tx.ready x } } : Dev).txCommand x q := by
  have hin : ¬ (q.isResponse = true ∧ q.latest < q.start) := fun ⟨hr, hlt⟩ => absurd (hlate hr) (by omega)
  simp only [Dev.handOver, hready, if_neg hin, htakes, Bool.true_eq_false, if_false]

end

/-- Settles O10. -/
theorem transmitCommandsComplete : Obligations.TransmitCommandsComplete := by
  refine ⟨?command, ?dropFirst, ?dropWaiting, ?refused, ?sent, fun d x c use e f g he hf hg => by subst he hf hg; rfl, ?ended, ?overPower,
    ?cut, ?late, ?rcal, ?rcalDone⟩
  case command =>
    rintro d x mask q use lim clamped e hx hready hlate htakes rfl hsyn rfl rfl rfl hfree rfl
    exact gives_of_dev rfl ((if_pos hx).trans (congrArg Dev.settle ((Dev.handOver_ready hready hlate htakes).trans
      (Dev.txCommand_taken hx htakes hsyn hfree))))
  case dropFirst =>
    rintro d x c f l e hheld rfl hlocks rfl hfirst
    exact gives_of_dev rfl (by simp only [Dev.txDropPoint, hheld, hlocks, hfirst, Bool.false_eq_true, if_false, if_true, implies_true])
  case dropWaiting =>
    rintro d x c f l e hheld rfl hlocks rfl hfirst
    exact gives_of_dev rfl (by simp only [Dev.txDropPoint, hheld, hlocks, hfirst, Bool.false_eq_true, if_false, implies_true])
  case refused =>
    rintro d x st q use lim e htx hphase hlocked rfl rfl rfl hrefused
    exact gives_of_dev rfl (by simp only [Dev.txSequenceStart, htx, hphase, hlocked, hrefused, and_self, if_true, implies_true])
  case sent =>
    rintro d x m q use lim clamped e htx hphase hlocked rfl rfl rfl hfree rfl rfl
    exact gives_of_dev rfl (by simp only [Dev.txSequenceStart, htx, hphase, hlocked, hfree, and_self, if_true, implies_true])
  case ended =>
    rintro d x pdet temps q hx htx hphase
    exact gives_of_dev rfl ((if_pos hx).trans (by simp only [Dev.ppduEnd, htx, hphase, if_true]))
  case overPower =>
    rintro d chain x r n t e f hradio htx hphase hbit rfl rfl rfl
    exact gives_of_dev rfl (by simp only [Dev.paOverPower, hradio, htx, hphase, hbit, and_self, if_true, implies_true])
  case cut =>
    intro d chain x r t hradio htx hphase hbit
    simp only [Dev.maskCut, hradio, htx, hphase, hbit, and_self, if_true]
  case late =>
    intro d x q hready hresp hlate
    exact gives_of_dev rfl (by simp only [Dev.respLate, hready, hresp, hlate, and_self, if_true]; intros; rfl)
  case rcal =>
    rintro d x ref e f hx hans hbusy rfl hmac hservice rfl
    exact gives_of_dev rfl ((if_neg (by omega)).trans ((if_pos hans).trans ((if_neg (by simp [hbusy])).trans (if_pos ⟨hmac, hservice⟩))))
  case rcalDone =>
    rintro d x ref snrs loops bad e hrun rfl rfl
    exact gives_of_dev rfl (by simp only [hrun, implies_true])

/-! ### The calibration engine -/

/-- Settles O11. -/
theorem calibrationCommandsComplete : Obligations.CalibrationCommandsComplete := by
  refine ⟨?timeout, ?quad, ?hop, ?command, ?run, ?done, ?ended⟩
  case timeout =>
    intro d quad t hfrom hstate howner hlocked
    exact gives_of_dev rfl (by simp only [Dev.quadLockTimeout, hfrom, hstate, hlocked, howner, ne_eq, not_false_eq_true, and_self, if_true]; intros; rfl)
  case quad =>
    rintro d x o facts mine e f hstate hbusy rfl howner rfl rfl rfl
    exact gives_of_dev rfl ((if_pos rfl).trans (if_pos ⟨hstate, hbusy, howner⟩))
  case hop =>
    rintro d x facts mine e hstate hneed rfl rfl
    exact gives_of_dev rfl ((if_neg Bool.false_ne_true).trans (if_pos ⟨hstate, by simp [hneed]⟩))
  case command =>
    rintro d centre width quad e hans hservice hbusy rfl hquad howner hchannel
    refine gives_of_dev rfl ((if_pos hans).trans ((if_neg (by simp [hservice])).trans ((if_neg (by simp [hbusy])).trans
      (congrArg (Dev.complete · .okay) ((if_neg ?_).trans (if_neg (by simp [hchannel])))))))
    simp [Dev.parked, hquad, howner]
  case run =>
    rintro d centre width quad e f h rfl rfl rfl
    rfl
  case done =>
    rintro d facts mine r w failed hrun rfl rfl rfl
    exact gives_of_dev rfl (by simp only [Dev.calCmdDone, hrun, implies_true])
  case ended =>
    rintro d r result failed e hrun rfl
    simp only [Dev.calEnd, hrun]

end Sys2Proof.Machine
end

section
/-! PROOFS. The commands of the receive path (O12), of the WLAN MAC's channel access (O13) and of stations, queues and admission (O14)
complete. -/

namespace Sys2Proof.Machine

/-! ### The receive path -/

section
variable {d : Dev} {x : Nat}

/-- An OFDM detection in the AGC phase, at MIN_DET or above (R138). -/
theorem Dev.packetDetection_ofdm {det : Detect} {e : Dev} (hdsss : det.dsss = false) (hphase : (d.rxAt x).phase = .agc)
    (hlevel : d.rdS (rxPage x) RXP_DET.MIN_DET ≤ det.level)
    (he : e = (d.each (d.agcSteps x det - 1) fun _ f => f.agcRun x).reach
      (((d.rxAt x).acqNs + detectDelayNs false (d.agcSteps x det)) * nsU)) :
    d.packetDetection x det = (e.setRx x
      { e.rxAt x with phase := .found, ref := det.level, hold := none, tbActive := (e.rxAt x).tb.any fun t => e.inTbWindow x t,
                      coarse := clampInt (-31250) 31250 det.coarse, fine := clampInt (-7812) 7812 det.fine, format := 15 }).cnt
      (rxPage x) RXP_CNT_DETECT.COUNT := by
  simp only [Dev.packetDetection, hdsss, hphase, hlevel, decide_true, Bool.not_false, Bool.true_and, Bool.false_and, Bool.false_or,
    Bool.and_self, if_true, Bool.false_eq_true, if_false, false_and, ← he]
  cases (e.rxAt x).tb <;> rfl

/-- A SIG field that passes, agrees with its trigger and is supported (R142). -/
theorem Dev.sigGoesOn_passes {sig : SigFact} {tb : Option TbParams} (htb : tb = if (d.rxAt x).tbActive then (d.rxAt x).tb else none)
    (hagrees : (tb.any fun t => t.disagrees sig) = false) (hsupported : d.unsupported x sig tb = none) :
    d.sigGoesOn x sig = if sig.last then d.setRx x { d.rxAt x with phase := if (d.rxAt x).format ≤ 1 then .data else .ltf } else d := by
  simp only [Dev.sigGoesOn, ← htb, hsupported]
  cases tb with
  | none => rfl
  | some t => exact if_neg (by simpa using hagrees)

end

/-- Settles O12. -/
theorem receiveCommandsComplete : Obligations.ReceiveCommandsComplete := by
  refine ⟨?rise, fun d x => rfl, ?detected, ?idle, ?sigFails, ?sigPasses, ?restarted, ?restartAfterStop, ?ltf, ?ltfObss, ?hold, ?tbMissed,
    ?badFcs, ?goodFcs, ?undecided, ?ended⟩
  case rise =>
    rintro d x rise e f hx harmed henough rfl rfl
    exact gives_of_dev rfl (if_pos (by simp [hx, harmed, henough]))
  case detected =>
    rintro d x n det e hx hdsss hphase hlevel rfl rfl
    refine gives_of_dev rfl ((if_pos hx).trans ?_)
    exact Dev.packetDetection_ofdm hdsss hphase hlevel rfl
  case idle =>
    intro d x hx hphase
    exact gives_of_dev rfl (if_pos ⟨hx, hphase⟩)
  case sigFails =>
    intro d x sig hx hphase hfail hrise
    exact gives_of_dev rfl ((if_pos hx).trans ((if_pos hphase).trans ((if_pos hfail).trans (by simp only [Dev.sigFails, hrise]))))
  case sigPasses =>
    rintro d x sig e f tb hx hphase hfail rfl rfl rfl hagrees hsupported
    refine gives_of_dev rfl ((if_pos hx).trans ((if_pos hphase).trans ((if_neg (by simp [hfail])).trans ?_)))
    exact Dev.sigGoesOn_passes rfl hagrees hsupported
  case restarted =>
    rintro d x rise clip e hx hreceiving hends hrestarts rfl
    refine gives_of_dev rfl ((if_pos hx).trans ((if_neg (by simp [hrestarts, hends])).trans ((if_pos hreceiving).trans ?_)))
    exact rfl
  case restartAfterStop =>
    intro d x rise clip hx hreceiving hhold hrestarts harmed
    exact gives_of_dev rfl ((if_pos hx).trans ((if_neg (by simp [hrestarts, hreceiving])).trans ((if_neg (by simp [hreceiving])).trans
      ((if_pos hhold).trans (if_pos harmed)))))
  case ltf =>
    intro d x ltf foreign hx hphase hobss hrise
    refine gives_of_dev rfl ((if_pos hx).trans ?_)
    simp [Dev.ltfEnd, Dev.rxLtfEnd, hphase, hobss, hrise]
  case ltfObss =>
    rintro d x ltf foreign e hx hphase hobss hdecode hwant hrise rfl
    refine gives_of_dev rfl ((if_pos hx).trans ?_)
    simp [Dev.ltfEnd, Dev.rxLtfEnd, hphase, hobss, hdecode, hwant, hrise]
  case hold =>
    intro d x t hhold
    exact gives_of_dev rfl (by simp only [hhold, implies_true])
  case tbMissed =>
    intro d x t htb hactive
    exact gives_of_dev rfl (by simp only [htb, hactive, Bool.false_eq_true, if_false, implies_true])
  case badFcs =>
    rintro d x user data mpdu e hdecoding hcheck rfl
    exact gives_of_dev rfl ((if_pos hdecoding).trans (by simp [Dev.rxDelivers, hcheck]))
  case goodFcs =>
    rintro d x user data mpdu e hdecoding hcheck rfl
    exact gives_of_dev rfl ((if_pos hdecoding).trans (by simp [Dev.rxDelivers, hcheck, and_assoc]))
  case undecided =>
    intro d x user data mpdu hdecoding hcheck
    exact gives_of_dev rfl ((if_pos hdecoding).trans (by simp [Dev.rxDelivers, hcheck]))
  case ended =>
    rintro d x endNs lastNs meas rise users e hphase husers rfl
    have hheard : (match (d.rxAt x).tbActive, (d.rxAt x).tb with
        | true, some t => t.users
        | _, _ => []) = users := by
      cases hactive : (d.rxAt x).tbActive <;> cases htb : (d.rxAt x).tb <;> simp [husers, hactive, htb]
    subst hheard
    exact gives_of_dev rfl (if_pos hphase)

/-! ### Channel access and responses -/

section
variable {d : Dev} {x : Nat}

theorem Dev.backoffSlot_idle {med : Medium} {l : Dev × Bool} {f : Dev × List Nat}
    (hl : l = (d.reach (med.atNs * nsU)).listenSlot x med) (hf : f = l.1.countDown x med.atNs l.2) (hnext : f.1.nextPpdu x = none) :
    d.backoffSlot x med = f.1 := by
  simp only [Dev.backoffSlot, ← hl, ← hf, hnext, ite_self]

section
variable {i : Nat} {med : Medium} {l : Dev × Bool} {f : Dev × List Nat} {plan : Plan} {p : PlanPpdu}

theorem Dev.backoffSlot_waits (hl : l = (d.reach (med.atNs * nsU)).listenSlot x med) (hf : f = l.1.countDown x med.atNs l.2)
    (hfree : f.1.macFree x = true) (hheld : f.1.heldOff x = false) (hnext : f.1.nextPpdu x = some (plan, i, p))
    (hgrant : (f.1.drawBackoff x p.ac).grantCond x med.atNs plan.beat p l.2 = none) :
    d.backoffSlot x med = f.1.drawBackoff x p.ac := by
  simp only [Dev.backoffSlot, ← hl, ← hf, hfree, hheld, hnext, hgrant, Bool.true_eq_false, Bool.false_eq_true, or_self, if_false]

theorem Dev.backoffSlot_grants {counter : Bool} {dyn : Option Nat} {e g : Dev}
    (hl : l = (d.reach (med.atNs * nsU)).listenSlot x med) (hf : f = l.1.countDown x med.atNs l.2)
    (hfree : f.1.macFree x = true) (hheld : f.1.heldOff x = false) (hnext : f.1.nextPpdu x = some (plan, i, p))
    (hgrant : (f.1.drawBackoff x p.ac).grantCond x med.atNs plan.beat p l.2 = some (counter, dyn))
    (he : e = (f.1.drawBackoff x p.ac).internalLoss x
      (if f.2.contains p.ac then f.2.filter fun a => decide (acRank a < acRank p.ac) else []))
    (hg : g = dyn.elim e (fun q => e.repuncture x q)) :
    d.backoffSlot x med
      = g.grantSet x med.atNs plan.beat p counter (decide (p.latestNs plan.beat < med.atNs + 9000 + g.leadNs x)) := by
  simp only [Dev.backoffSlot, ← hl, ← hf, hfree, hheld, hnext, hgrant, Bool.true_eq_false, Bool.false_eq_true, or_self, if_false, ← he]
  cases dyn <;> rw [hg] <;> rfl

end

/-- One station without a CTS is counted once. -/
theorem Dev.ctsMissed_one {sta : Nat} (hemlsr : d.staEmlsr sta = true) (hnew : (d.macR x).noCts.contains sta = false) :
    d.ctsMissed x [sta] = (((d.setMacR x { d.macR x with noCts := (d.macR x).noCts ++ [sta] }).cnt
      (macPage x) MAC_CNT_EMLSR_NOCTS.COUNT).ev (macPage x) 10) := by
  have hone : ([sta].filter fun s => d.staEmlsr s && !(d.macR x).noCts.contains s) = [sta] :=
    List.filter_cons_of_pos (by rw [hemlsr, hnew]; rfl)
  simp only [Dev.ctsMissed, Dev.emlsrDeaf, hone]
  rfl

end

/-- Settles O13. -/
theorem macTimingCommandsComplete : Obligations.MacTimingCommandsComplete := by
  refine ⟨?idle, ?waits, ?grants, ?nav, ?txop, ?missed, ?missNext, ?underrun, ?cut, ?handover, ?timeout, ?noCts⟩
  case idle =>
    intro d x med l f hx hl hf hnext
    exact gives_of_dev rfl ((if_pos hx).trans (congrArg Dev.settle (Dev.backoffSlot_idle hl hf hnext)))
  case waits =>
    intro d x i med l f plan p hx hl hf hfree hheld hnext hgrant
    exact gives_of_dev rfl ((if_pos hx).trans (congrArg Dev.settle (Dev.backoffSlot_waits hl hf hfree hheld hnext hgrant)))
  case grants =>
    intro d x i med l f plan p counter dyn e g hx hl hf hfree hheld hnext hgrant he hg
    exact gives_of_dev rfl ((if_pos hx).trans (congrArg Dev.settle (Dev.backoffSlot_grants hl hf hfree hheld hnext hgrant he hg)))
  case nav =>
    intro d x hx hnav
    exact gives_of_dev rfl ((if_pos hx).trans (if_pos hnav))
  case txop =>
    intro d x a b fin htxop
    exact gives_of_dev rfl (by simp only [htxop]; intros; rfl)
  case missed =>
    rintro d x i plan p e hx hnext rfl
    exact gives_of_dev rfl ((if_pos hx).trans (by simp only [Dev.windowMissed, hnext]))
  case missNext =>
    intro d x i plan p e hexec hnext
    simp only [Dev.missNext, hexec, hnext]
  case underrun =>
    rintro d x sta ids q o late e hx htx hair hphase husers rfl rfl
    exact gives_of_dev rfl ((if_pos hx).trans (by simp only [Dev.dataUnderrun, htx, hair, hphase, husers, and_self, if_true]))
  case cut =>
    rintro d x p e hresp rfl
    exact gives_of_dev rfl (by simp only [hresp, implies_true])
  case handover =>
    intro d x dur p hresp hhanded hready hmay
    exact gives_of_dev rfl (by rcases hready with hc | hc <;> simp [hresp, hhanded, hc, hmay])
  case timeout =>
    rintro d x o last hx hair hawaiting rfl
    exact gives_of_dev rfl ((if_pos hx).trans (by simp only [Dev.responseTimeout, hair, hawaiting, if_true]))
  case noCts =>
    intro d x sta o hair hawaiting hasked hemlsr hnew
    exact gives_of_dev rfl (by simp only [hair, hawaiting, hasked, Bool.and_self, if_true, Dev.ctsMissed_one hemlsr hnew, implies_true])

/-! ### Stations, queues and admission -/

section
variable {d : Dev} {sta : Nat}

/-- A command that the shared MAC page takes is done on the entry it names (R223). -/
theorem Dev.staCommand_of_takes {f : Dev → Dev} (h : d.staTakes sta = true) : d.staCommand sta f = f d := by
  obtain ⟨-, hbusy, hrunning, hservice, hlt, hrecord⟩ := Dev.staTakes_iff.mp h
  have hout : ¬ (d.bstate 0x033 ≠ .running ∨ d.inService 0x033 = false) := by simp [hrunning, hservice]
  have hrange : ¬ 2048 ≤ sta := by omega
  simp only [Dev.staCommand, hbusy, if_neg hout, if_neg hrange, hrecord, Bool.false_eq_true, Bool.true_eq_false, if_false]

/-- A station command that ends OK is mirrored to the other controller. -/
theorem gives_staRun {i : Instr} {op : Nat} {f : Dev → Dev} {e : Dev}
    (hexec : ∀ s : State, exec i s = s.onDev fun d => d.regDo 0x033 fun d => (d.staRun op sta f).complete .okay)
    (htakes : d.staTakes sta = true) (he : f d = e) (hbusy : e.rdB 0x033 MAC_STA_STAT.BUSY = false)
    (hok : e.rd 0x033 MAC_STA_STAT.RESULT = 0) : Gives i d ((e.twinSta op sta).complete .okay) := by
  obtain ⟨hans, hfree, -⟩ := Dev.staTakes_iff.mp htakes
  have hrun : d.staRun op sta f = e.twinSta op sta := by
    simp [Dev.staRun, he, hfree, hbusy, hok]
  exact hrun ▸ gives_of_regDo hexec hans

theorem Dev.staAdd_entered (htakes : d.staTakes sta = true) (hvalid : d.staValid sta = false) (hfields : d.staFieldsOk sta = true)
    (haddrs : d.staAddrsFree sta = true) : d.staAdd sta = (((d.lookupEnter sta).dropRecs sta).setSta sta 0 0 1 1).staPost sta 0 := by
  simp only [Dev.staAdd, Dev.staCommand_of_takes htakes, hvalid, hfields, haddrs, Bool.false_eq_true, Bool.true_eq_false, if_false]

theorem Dev.staSuspend_taken (htakes : d.staTakes sta = true) (hvalid : d.staValid sta = true) (hlive : d.staSuspended sta = false) :
    d.staSuspend sta = { (d.wr 0x033 MAC_STA_STAT.BUSY 1).wr 0x033 MAC_STA_STAT.STA sta with
      mac := { ((d.wr 0x033 MAC_STA_STAT.BUSY 1).wr 0x033 MAC_STA_STAT.STA sta).mac with cmd := some { sta := sta, op := 2 } } } := by
  simp only [Dev.staSuspend, Dev.staCommand_of_takes htakes, hvalid, hlive, Bool.false_eq_true, Bool.true_eq_false, or_self, if_false]

theorem Dev.staResume_revived (htakes : d.staTakes sta = true) (hsuspended : d.staSuspended sta = true) (hfields : d.staFieldsOk sta = true)
    (haddrs : d.staAddrsFree sta = true) :
    d.staResume sta = (((d.lookupEnter sta).each 8 fun t e => e.endBa sta t).setSta sta 0 1 1 0).staPost sta 0 := by
  simp only [Dev.staResume, Dev.staCommand_of_takes htakes, hsuspended, hfields, haddrs, Bool.true_eq_false, if_false]

theorem Dev.staRemove_dropped (htakes : d.staTakes sta = true) (hsuspended : d.staSuspended sta = true) :
    d.staRemove sta = ((((d.staPurge sta 0xFF 3).dropRecs sta).lookupDrop sta).setSta sta 0 0 2 0).staPost sta 0 := by
  simp only [Dev.staRemove, Dev.staCommand_of_takes htakes, hsuspended, Bool.true_eq_false, if_false]

theorem Dev.staFlush_purged {tids : Nat} (htakes : d.staTakes sta = true) (hsuspended : d.staSuspended sta = true) :
    d.staFlush sta tids = (d.staPurge sta tids 4).staPost sta 0 := by
  simp only [Dev.staFlush, Dev.staCommand_of_takes htakes, hsuspended, Bool.true_eq_false, if_false]

/-- An enqueue request that passes its checks joins its queue; the pool is not low after it. -/
theorem Dev.enqueueRequest_joins {words : List Nat} {e f : Dev} {q q1 : QEntry} (hservice : d.inService 0x03B = true)
    (hq : q = parseEntry words d.air.nextId) (he : e = { d with air := { d.air with nextId := d.air.nextId + 1 } })
    (hcheck : e.enqueueCheck q = (q1, none)) (hkept : q1.demoted = false) (hf : f = e.setQueue q1.queue (e.queue q1.queue ++ [q1]))
    (hpool : f.rd 0x03B AIR_QPOOL_CFG.LOW_MARK * f.rd 0x03B AIR_QPOOL_CFG.ENTRIES / 256 ≤ f.poolFree) :
    d.enqueueRequest words = f.complete .okay := by
  have hhigh : ¬ f.poolFree < f.rd 0x03B AIR_QPOOL_CFG.LOW_MARK * f.rd 0x03B AIR_QPOOL_CFG.ENTRIES / 256 := by omega
  simp only [Dev.enqueueRequest, hservice, Bool.true_eq_false, if_false, ← he, ← hq, hcheck, hkept, Dev.when_false, ← hf, hhigh, decide_false]

end

/-- Settles O14. -/
theorem stationCommandsComplete : Obligations.StationCommandsComplete := by
  refine ⟨?reorder, ?fragment, ?uapsd, ?add, ?suspend, ?suspendDone, ?resume, ?remove, ?flush, ?enqueue, ?admission, ?release⟩
  case reorder =>
    intro d sta tid a l hactive hheld
    exact gives_of_dev rfl ((if_pos hactive).trans (by simp only [Dev.reorderTimeout, hheld]))
  case fragment =>
    intro d sta tid h r hfrags
    exact gives_of_dev rfl (by simp only [hfrags, implies_true])
  case uapsd =>
    rintro d x sta b e hsp rfl
    exact gives_of_dev rfl (by simp only [hsp, implies_true])
  case add =>
    rintro d sta e htakes hvalid hfields haddrs rfl hbusy hok
    exact gives_staRun (f := (·.staAdd sta)) (fun _ => rfl) htakes (Dev.staAdd_entered htakes hvalid hfields haddrs) hbusy hok
  case suspend =>
    rintro d sta e htakes hvalid hlive rfl
    exact gives_of_dev rfl ((if_pos (Dev.staTakes_iff.mp htakes).1).trans
      (congrArg (Dev.complete · .okay) (Dev.staSuspend_taken htakes hvalid hlive)))
  case suspendDone =>
    rintro d q e hcmd rfl hbusy hown hok
    exact gives_of_dev rfl (by simp only [Dev.suspendDone, hcmd, hbusy, hown, hok, Bool.false_eq_true, if_false, if_true, implies_true])
  case resume =>
    rintro d sta e htakes hsuspended hfields haddrs rfl hbusy hok
    exact gives_staRun (f := (·.staResume sta)) (fun _ => rfl) htakes (Dev.staResume_revived htakes hsuspended hfields haddrs) hbusy hok
  case remove =>
    rintro d sta e htakes hsuspended rfl hbusy hok
    exact gives_staRun (f := (·.staRemove sta)) (fun _ => rfl) htakes (Dev.staRemove_dropped htakes hsuspended) hbusy hok
  case flush =>
    intro d sta tids htakes hsuspended
    exact gives_of_dev rfl ((if_pos (Dev.staTakes_iff.mp htakes).1).trans
      (congrArg (Dev.complete · .okay) (Dev.staFlush_purged htakes hsuspended)))
  case enqueue =>
    intro d words e f q q1 hservice hq he hcheck hkept hf hpool
    exact gives_of_dev rfl (Dev.enqueueRequest_joins hservice hq he hcheck hkept hf hpool)
  case admission =>
    intro d sta cls dir radio resv a hans hservice hvalid hlink hnew hroom hfree
    have hknown : ¬ (d.staValid (sta % 2048) = false ∨ bit (d.staLinks (sta % 2048)) (radio % 4) = false) := by simp [hvalid, hlink]
    have hfits : ¬ d.rd 0x03B AIR_ADM_LIMIT.ADM_LIMIT < d.flowSum (radio % 4) + resv % 2 ^ 16 := by omega
    exact gives_of_dev rfl ((if_pos hans).trans ((if_neg (by simp [hservice])).trans ((if_neg hknown).trans (by
      simp only [hnew, if_neg hfits, hfree]))))
  case release =>
    intro d index hans hservice hflow
    exact gives_of_dev rfl ((if_pos hans).trans ((if_neg (by simp [hservice])).trans (if_neg (by simp [hflow]))))

end Sys2Proof.Machine
end

section
/-! PROOFS. The commands of venue coordination (O15) and of the tag lane (O16, O17) complete. -/

namespace Sys2Proof.Machine

/-! ### Venue coordination -/

section
variable {d : Dev} {l : List Nat} {at' : Nat}

/-- The oldest message is taken where its subtype is the one asked for. -/
theorem Dev.venTake_taken {leave : Bool} (hhead : d.venHead = some (l, at')) (hactive : d.active venPage = true)
    (hsubtype : decide (ob l 2 = 2) = leave) :
    d.venTake leave = ({ d with ven := { d.ven with inbox := d.ven.inbox.drop 1 } } : Dev).venMessage l at' := by
  simp only [Dev.venTake, hhead, hactive, hsubtype, decide_true, Bool.and_self, if_true]

/-- No entry lists an access point that `k` entries rule out one by one. -/
theorem Dev.venUnlisted {ap : Nat} (h : ∀ k < 32, d.venStatus k = 0 ∨ d.rd venPage (VEN_NBR.AP_ID.at k) ≠ ap) :
    ((List.range 32).any fun k => decide (d.venStatus k ≠ 0) && decide (d.rd venPage (VEN_NBR.AP_ID.at k) = ap)) = false := by
  rw [List.any_eq_false]
  intro k hk
  rcases h k (List.mem_range.mp hk) with hfree | hother
  · simp [hfree]
  · simp [hother]

end

/-- Settles O15. -/
theorem venueCommandsComplete : Obligations.VenueCommandsComplete := by
  refine ⟨?send, ?plan, ?leave, ?timeOk, ?add, ?remove⟩
  case send =>
    rintro d e hservice hpos hnew rfl
    exact gives_of_dev rfl (if_pos (by simp [hservice, hpos, hnew]))
  case plan =>
    intro d l at' hhead hactive hsubtype
    exact gives_of_dev rfl (Dev.venTake_taken hhead hactive (decide_eq_false hsubtype))
  case leave =>
    intro d l at' hhead hactive hsubtype
    exact gives_of_dev rfl (Dev.venTake_taken hhead hactive (decide_eq_true hsubtype))
  case timeOk =>
    intro d hservice hok hholdover hlong
    exact gives_of_dev rfl (if_pos (by simp [hservice, hok, hholdover, hlong]))
  case add =>
    rintro d index apId e f hans rfl hfree hunlisted hown rfl
    refine gives_of_dev rfl ((if_pos hans).trans ((if_neg (by simpa using hfree)).trans (if_neg ?_)))
    rw [not_or, Dev.venUnlisted hunlisted]
    exact ⟨hown, Bool.false_ne_true⟩
  case remove =>
    rintro d index e hans rfl hlisted
    exact gives_of_dev rfl ((if_pos hans).trans (if_neg hlisted))

/-! ### The tag lane receives -/

/-- The end of the frame in progress, whose channel request may then take effect. -/
theorem gives_tagFrameEnd {d e : Dev} {mod startNs : Nat} {frame : TagFrame} (hrx : d.tag.rx = some (mod, startNs))
    (he : d.tagFrameEnd mod startNs frame = e) : Gives (.tagFrameEnd frame) d e.tagApplyRx :=
  gives_of_dev rfl (by simp only [hrx, he, implies_true])

/-- Settles O16. -/
theorem tagReceiveCommandsComplete : Obligations.TagReceiveCommandsComplete := by
  refine ⟨?idle, ?ackWait, ?badFcs, ?awaited, ?forUs, ?badBurst, ?burst, ?ack, ?rxChan, ?retuned, ?idleEnd, ?atReached⟩
  case idle =>
    intro d mod startNs hactive hmod hrx hretune hack hocc hsilent
    exact gives_of_dev rfl (if_pos (by simp [hactive, hmod, hrx, hretune, hack, hocc, hsilent]))
  case ackWait =>
    intro d mod startNs r hactive hmod hrx hretune hack hreq hphase hsilent
    exact gives_of_dev rfl (if_pos (by simp [hactive, hmod, hrx, hretune, hack, hreq, hphase, hsilent]))
  case badFcs =>
    rintro d startNs frame e hrx rfl hfcs
    exact gives_tagFrameEnd hrx (by simp only [Dev.tagFrameEnd, if_true, hfcs])
  case awaited =>
    rintro d startNs frame r e hrx rfl hfcs hawaited hreq
    exact gives_tagFrameEnd hrx (by
      simp only [Dev.tagFrameEnd, if_true, hfcs, hawaited, hreq, Bool.true_eq_false, if_false])
  case forUs =>
    rintro d startNs frame m e g hrx rfl hfcs rfl hother hours rfl
    exact gives_tagFrameEnd hrx (by
      simp only [Dev.tagFrameEnd, if_true, hfcs, hother, hours, Bool.true_eq_false, Bool.false_eq_true, if_false])
  case badBurst =>
    rintro d mod startNs frame e g hrx hmod rfl rfl hcrc
    exact gives_tagFrameEnd hrx ((if_neg hmod).trans (if_pos (Or.inl hcrc)))
  case burst =>
    rintro d mod startNs id frame e g f hrx hmod rfl rfl hcrc hsync rfl hread hwrite rfl
    refine gives_tagFrameEnd hrx ((if_neg hmod).trans ((if_neg ?_).trans ((if_neg (by simp [hread])).trans (if_neg (by simp [hwrite])))))
    rw [not_or]
    exact ⟨by simp [hcrc], by omega⟩
  case ack =>
    rintro d seq due e hack rfl hfree
    exact gives_of_dev rfl (by simp only [hack, hfree, implies_true])
  case rxChan =>
    rintro d centre e hans hlo hhi rfl
    refine gives_of_dev rfl ((if_pos hans).trans (congrArg (Dev.complete · .okay) ((if_neg (by omega)).trans ?_)))
    cases hactive : (d.wr tagPage TAG_RX_CHAN.CENTRE (centre % 4096)).active tagPage <;> simp [hactive]
  case retuned =>
    rintro d ch t e hretune rfl
    exact gives_of_dev rfl (by simp only [hretune]; intros; rfl)
  case idleEnd =>
    intro d hocc hquiet
    exact gives_of_dev rfl (if_pos ⟨by simp [hocc], hquiet⟩)
  case atReached =>
    intro d r hreq hphase
    exact gives_of_dev rfl (by simp only [hreq, hphase, if_true, implies_true])

/-! ### The tag lane transmits -/

section
variable {d : Dev} {endNs : Nat} {energy : Int}

/-- A CCA slot in the window of a live beacon, with no reception to hear out (R392). -/
theorem Dev.tagCcaSlot_beacon {b : Nat} {e : Dev} (hactive : d.active tagPage = true) (hretune : d.tag.retune = none)
    (hocc : d.tag.occ = none) (hbeacon : d.tag.beacon = some b) (hslot : d.tag.slotEnd ≤ endNs - 1000 * d.rd tagPage TAG_LBT.CCA_SLOT)
    (hopen : max (d.bcnOpen b) d.tag.txEnd + 40000 ≤ endNs - 1000 * d.rd tagPage TAG_LBT.CCA_SLOT) (hend : endNs ≤ d.bcnEnd b)
    (hheard : d.tag.rx = none ∨ d.bcnOpen b ≤ d.tag.slotEnd)
    (he : e = (d.reach (endNs * nsU)).setTag { (d.reach (endNs * nsU)).tag with
      slotEnd := endNs, tuned := if d.tag.rx.isSome then d.tag.tuned else d.rd tagPage TAG_BCN_CHAN.PRI }) (hlive : e.bcnLive = true) :
    d.tagCcaSlot endNs energy
      = if (e.tagJudge energy).2 then (e.tagJudge energy).1.tagBeaconBegin b endNs else (e.tagJudge energy).1 := by
  have hready : ¬ (d.active tagPage = false ∨ d.tag.retune.isSome = true ∨ d.tag.occ.isSome = true
      ∨ endNs - 1000 * d.rd tagPage TAG_LBT.CCA_SLOT < d.tag.slotEnd) := by
    simp [hactive, hretune, hocc, hslot]
  have hin : ¬ (endNs - 1000 * d.rd tagPage TAG_LBT.CCA_SLOT
        < max (d.bcnOpen b) d.tag.txEnd + (if d.tag.tuned = d.rd tagPage TAG_BCN_CHAN.PRI then 0 else 40000)
      ∨ d.bcnEnd b < endNs ∨ (d.tag.rx.isSome = true ∧ d.tag.slotEnd < d.bcnOpen b)) := by
    rintro (hearly | hlate | ⟨hrx, hunheard⟩)
    · split_ifs at hearly <;> omega
    · omega
    · rcases hheard with hnone | hdone
      · simp [hnone] at hrx
      · omega
  simp only [Dev.tagCcaSlot, if_neg hready, hbeacon, if_neg hin, ← he, hlive, Bool.true_eq_false, if_false]

/-- A CCA slot of a waiting request. -/
theorem Dev.tagCcaSlot_request {r : TagReq} {e : Dev} (hactive : d.active tagPage = true) (hretune : d.tag.retune = none)
    (hocc : d.tag.occ = none) (hbeacon : d.tag.beacon = none) (hreq : d.tag.req = some r) (hphase : r.phase = .cca)
    (hslot : d.tag.slotEnd ≤ endNs - 1000 * d.rd tagPage TAG_LBT.CCA_SLOT)
    (hfrom : max (max r.from_ d.tag.txEnd) d.tag.quiet + 40000 ≤ endNs - 1000 * d.rd tagPage TAG_LBT.CCA_SLOT)
    (htrain : r.kind = 2 → r.start ≤ endNs)
    (he : e = (d.reach (endNs * nsU)).setTag
      { d.tag with slotEnd := endNs, tuned := if d.tag.rx.isSome then d.tag.tuned else r.chan }) :
    d.tagCcaSlot endNs energy = if (e.tagJudge energy).2 then (e.tagJudge energy).1.tagBegin r endNs else (e.tagJudge energy).1 := by
  have hready : ¬ (d.active tagPage = false ∨ d.tag.retune.isSome = true ∨ d.tag.occ.isSome = true
      ∨ endNs - 1000 * d.rd tagPage TAG_LBT.CCA_SLOT < d.tag.slotEnd) := by
    simp [hactive, hretune, hocc, hslot]
  have hin : ¬ (r.phase ≠ .cca ∨ endNs - 1000 * d.rd tagPage TAG_LBT.CCA_SLOT
        < max (max r.from_ d.tag.txEnd) (max d.tag.quiet 0) + (if d.tag.tuned = r.chan then 0 else 40000)
      ∨ (r.kind = 2 ∧ endNs < r.start)) := by
    rintro (hother | hearly | ⟨hkind, hbefore⟩)
    · exact hother hphase
    · split_ifs at hearly <;> omega
    · have := htrain hkind
      omega
  have he' : (d.reach (endNs * nsU)).setTag { (d.reach (endNs * nsU)).tag with
      slotEnd := endNs, tuned := if d.tag.rx.isSome then d.tag.tuned else r.chan } = e := he ▸ rfl
  simp only [Dev.tagCcaSlot, if_neg hready, hbeacon, hreq, if_neg hin, he']

end

/-- Settles O17. -/
theorem tagTransmitCommandsComplete : Obligations.TagTransmitCommandsComplete := by
  refine ⟨?take, ?ccaBeacon, ?ccaRequest, ?burst, ?data, ?move, ?sent, ?ackMissing, ?slot, ?lost⟩
  case take =>
    intro d hevent hservice hreq hqueue hmem
    exact gives_of_dev rfl (by simp only [Dev.tagFlush, hevent, implies_true])
  case ccaBeacon =>
    intro d endNs b energy e hactive hretune hocc hbeacon hslot hopen hend hheard he hlive
    exact gives_of_dev rfl (Dev.tagCcaSlot_beacon hactive hretune hocc hbeacon hslot hopen hend hheard he hlive)
  case ccaRequest =>
    intro d endNs energy r e hactive hretune hocc hbeacon hreq hphase hslot hfrom htrain he
    exact gives_of_dev rfl (Dev.tagCcaSlot_request hactive hretune hocc hbeacon hreq hphase hslot hfrom htrain he)
  case burst =>
    rintro d r o p e hreq hocc hphase hnext hfits hfree rfl rfl
    exact gives_of_dev rfl (by simp only [hreq, hocc, hphase, hnext, hfits, hfree, and_self, if_true, implies_true])
  case data =>
    rintro d r r2 o e hreq hocc hphase hfin hfits hfree rfl rfl
    exact gives_of_dev rfl (by simp only [hreq, hocc, hphase, hfin, hfits, hfree, and_self, if_true, implies_true])
  case move =>
    rintro d r e hreq hphase hkind hbursts hused rfl
    have hretry : ¬ r.retry ≤ r.used := by omega
    exact gives_of_dev rfl (by simp only [hreq, hphase, hkind, hbursts, and_self, if_true, if_neg hretry, implies_true])
  case sent =>
    intro d r o hreq hocc hphase
    exact gives_of_dev rfl (by simp only [Dev.tagOccupancyEnd, hreq, hocc, hphase, true_or, if_true, implies_true])
  case ackMissing =>
    rintro d r o e f hreq hocc hphase rfl rfl
    exact gives_of_dev rfl (by simp only [hreq, hocc, hphase, if_true, implies_true])
  case slot =>
    rintro d b e hdue hservice hlive hlast hbeacon rfl
    exact gives_of_dev rfl (by simp [hdue, hservice, hlive, hlast, hbeacon])
  case lost =>
    rintro d b run pri alt e f g hbeacon hocc hlive rfl rfl rfl rfl rfl rfl
    refine gives_of_dev rfl ?_
    intro q hs p
    simp only [hbeacon, hocc, hlive, Bool.true_eq_false, Bool.false_eq_true, if_false]

end Sys2Proof.Machine
end

section
/-! PROOFS. The commands of the Koveton cores complete: the bundles of each group of opcodes (O18 to O21), the ends of waits, barriers,
interrupts, mailboxes and the timer (O22), jobs and DMA (O23). -/

namespace Sys2Proof.Machine

/-! ### Bundles -/

/-- The command of an opcode, where its core is ready at a bundle of it, issues the bundle. -/
theorem gives_kovIssue {i : Instr} {k o : Nat} {ecc : EccFact} {f : Dev → Nat → KCore → Nat → KRes} {d : Dev}
    (hexec : ∀ s : State, exec i s = s.onDev (·.kovIssue k o ecc f)) (h : d.kovReady k o ecc = true) :
    Gives i d ((d.kovEcc k ecc).kovDo k f) :=
  Dev.kovIssue_of_ready h f ▸ gives_of_onDev hexec

/-- Settles O18: each command issues the bundle of its opcode. -/
theorem kovetonMultiplyAccumulateComplete : Obligations.KovetonMultiplyAccumulateComplete := by
  unfold Obligations.KovetonMultiplyAccumulateComplete
  constructorm* _ ∧ _
  all_goals exact fun _ _ _ h => gives_kovIssue (fun _ => rfl) h

/-- Settles O19: each command issues the bundle of its opcode. -/
theorem kovetonVectorOpsComplete : Obligations.KovetonVectorOpsComplete := by
  unfold Obligations.KovetonVectorOpsComplete
  constructorm* _ ∧ _
  all_goals exact fun _ _ _ h => gives_kovIssue (fun _ => rfl) h

/-- Settles O20: each command issues the bundle of its opcode. -/
theorem kovetonScalarOpsComplete : Obligations.KovetonScalarOpsComplete := by
  unfold Obligations.KovetonScalarOpsComplete
  constructorm* _ ∧ _
  all_goals exact fun _ _ _ h => gives_kovIssue (fun _ => rfl) h

section
variable {d : Dev} {k : Nat} {ecc : EccFact}

/-- A core that is ready waits where its bundle finds nothing to go on with. -/
theorem Dev.kovWait_of_ready {o : Nat} (h : d.kovReady k o ecc = true) (code : Nat) :
    d.kovWait k o code ecc = (d.kovEcc k ecc).setWait k code := by
  obtain ⟨hat, hidle, hlegal, hread⟩ := Dev.kovReady_iff.mp h
  have hissues : ¬ (d.kovAt k o = false ∨ d.coreWait k ≠ 0) := by simp [hat, hidle]
  rw [Dev.kovWait, if_neg hissues]
  cases ecc with
  | uncorrectable a => exact absurd rfl (hread a)
  | clean => exact if_neg (by simp [hlegal])
  | corrected => exact if_neg (by simp [hlegal])

/-- A core of the barrier's mask arrives and waits (R434). -/
theorem Dev.kovBar_arrives {n : Nat} {e : Dev} (h : d.kovReady k 0x3B ecc = true) (hn : n = (d.bundle k (d.corePc k)).1 % 8)
    (he : e = (d.kovEcc k ecc).setWait k 3) (hwaits : e.coreWait k = 3) (hmask : bit (d.rd kclPage (KOV_BAR.MASK.at n)) k = true) :
    d.kovBar k ecc = e.wr kclPage (KOV_BAR.ARRIVED.at n) (e.rd kclPage (KOV_BAR.ARRIVED.at n) ||| 2 ^ k) := by
  obtain ⟨hat, hidle, -⟩ := Dev.kovReady_iff.mp h
  have hissues : ¬ (d.kovAt k 0x3B = false ∨ d.coreWait k ≠ 0) := by simp [hat, hidle]
  simp only [Dev.kovBar, if_neg hissues, Dev.kovWait_of_ready h, ← he, hwaits, ne_eq, not_true_eq_false, if_false, ← hn, hmask, if_true]

end

/-- Settles O21. -/
theorem kovetonControlOpsComplete : Obligations.KovetonControlOpsComplete := by
  refine ⟨?br, ?call, ?ret, ?loop, ?reti, ?retf, ?jend, ?halt, ?send, ?receive, ?barrier, ?post, ?dmaWait⟩
  case send =>
    intro d k ecc h hroom
    exact gives_of_dev rfl ((if_pos hroom).trans (Dev.kovIssue_of_ready h _))
  case receive =>
    intro d k ecc h hentry
    exact gives_of_dev rfl ((if_neg (by simp [hentry])).trans (Dev.kovIssue_of_ready h _))
  case barrier =>
    intro d k n ecc e h hn he hwaits hmask
    exact gives_of_dev rfl (Dev.kovBar_arrives h hn he hwaits hmask)
  case post =>
    intro d k ecc h hroom
    exact gives_of_dev rfl ((if_neg (Nat.not_le.mpr hroom)).trans (Dev.kovIssue_of_ready h _))
  case dmaWait =>
    intro d k ecc h hdone
    exact gives_of_dev rfl ((if_pos hdone).trans (Dev.kovIssue_of_ready h _))
  all_goals exact fun _ _ _ h => gives_kovIssue (fun _ => rfl) h

/-! ### Events -/

/-- A wait that ends counts its cycles and issues the bundle. -/
theorem Dev.kovResume_waiting {d : Dev} {k o : Nat} {f : Dev → Nat → KCore → Nat → KRes} {v : Dev × Nat} {u : Dev × KCore}
    (hat : d.kovAt k o = true) (hwaits : d.coreWait k ≠ 0) (hv : v = d.draw 16) (hu : u = v.1.coreTick k v.2 (v.1.core k)) :
    d.kovResume k o f = (((u.1.setCore k u.2).cnt (corePage k) KOV_CNT_STALL_WAIT.COUNT v.2).setWait k 0).kovDo k f := by
  subst hv hu
  exact if_neg (by simp [hat, hwaits])

/-- Settles O22. -/
theorem kovetonEventsComplete : Obligations.KovetonEventsComplete := by
  refine ⟨?sendRoom, ?entry, ?chanRoom, ?dmaDone, ?barrier, ?mask, ?loop, ?fast, ?normal, ?mailbox, ?soft, ?timer⟩
  case sendRoom =>
    intro d k v u hroom hat hwaits hv hu
    exact gives_of_dev rfl ((if_pos hroom).trans (Dev.kovResume_waiting hat hwaits hv hu))
  case entry =>
    intro d k v u hentry hat hwaits hv hu
    exact gives_of_dev rfl ((if_neg (by simp [hentry])).trans (Dev.kovResume_waiting hat hwaits hv hu))
  case chanRoom =>
    intro d k v u hroom hat hwaits hv hu
    exact gives_of_dev rfl ((if_neg (Nat.not_le.mpr hroom)).trans (Dev.kovResume_waiting hat hwaits hv hu))
  case dmaDone =>
    intro d k v u hdone hat hwaits hv hu
    exact gives_of_dev rfl ((if_pos hdone).trans (Dev.kovResume_waiting hat hwaits hv hu))
  case barrier =>
    intro d bar hbar hcomplete
    exact gives_of_dev rfl ((if_pos hbar).trans (if_pos hcomplete))
  case mask =>
    intro d bar mask hbar hans hreset hpower
    exact gives_of_dev rfl ((if_pos hans).trans ((if_neg (by omega)).trans (if_neg (by simp [hreset, hpower]))))
  case loop =>
    rintro d k r u hk hexhaust hactive rfl rfl
    exact gives_of_dev rfl (if_pos (by simp [hk, hexhaust, hactive]))
  case fast =>
    intro d k hbetween hpending hfree
    exact gives_of_dev rfl (if_pos (by simp [hbetween, hpending, hfree]))
  case normal =>
    rintro d k e hbetween hpending hflag hfree hnone rfl
    exact gives_of_dev rfl (if_pos (by simp [hbetween, hpending, hflag, hfree, hnone]))
  case mailbox =>
    intro d k data hk hans hservice hroom
    exact gives_of_dev rfl ((if_pos hans).trans ((if_neg (by omega)).trans ((if_neg (by simp [hservice])).trans (if_pos hroom))))
  case soft =>
    intro d k hk hans hservice
    exact gives_of_dev rfl ((if_neg (by omega)).trans ((if_pos hans).trans (by simp only [hservice, Dev.when_true])))
  case timer =>
    rintro d k u hk hactive rfl
    exact gives_of_dev rfl (if_neg (by simp [hactive, hk]))

/-! ### Jobs and DMA -/

/-- Settles O23. -/
theorem kovetonJobCommandsComplete : Obligations.KovetonJobCommandsComplete := by
  refine ⟨?post, ?start, ?due, ?limit, ?fabricPost, ?descriptor, ?wait⟩
  case post =>
    rintro d addr host w hservice rfl
    exact gives_of_dev rfl (if_neg (by simp [hservice]))
  case start =>
    intro d k i j hactive hfirst
    exact gives_of_dev rfl ((if_neg (by simp [hactive])).trans (by simp only [hfirst]))
  case due =>
    intro d hactive
    exact gives_of_dev rfl (if_pos hactive)
  case limit =>
    intro d k j hjob hactive hlimit
    exact gives_of_dev rfl (by simp only [hjob, hactive, hlimit, ne_eq, not_false_eq_true, and_self, if_true, implies_true])
  case fabricPost =>
    rintro d ch addr host w hch hservice hroom rfl
    exact gives_of_dev rfl ((if_neg (by omega)).trans ((if_neg (by simp [hservice])).trans (if_neg (Nat.not_le.mpr hroom))))
  case descriptor =>
    intro d ch host hch hactive hqueue
    exact gives_of_dev rfl (if_neg (by simp [hactive, hch]))
  case wait =>
    rintro d k u hissues rfl
    exact gives_of_dev rfl (if_pos (by simp [hissues]))

end Sys2Proof.Machine
end

section
/-! PROOFS. The commands of packet menus and counters (O24), of packet rings (O25), of Ethernet (O26) and of device time (O27) complete. -/

namespace Sys2Proof.Machine

/-! ### Menus -/

section
variable {d e : Dev} {menu index : Nat}

theorem Dev.tcWrite_stored {anomaly : Bool} (hmenu : menu < 2) (hindex : index < 16384) (he : e = d.tcCmd index menu anomaly 1)
    (hidle : e.menuDrains menu = false) (haction : actCheck (e.staged 0x200 8) false = 0) :
    d.tcWrite menu index anomaly = (e.setTc menu index
      { valid := true, anomaly := anomaly, value := wide (e.staged 0xA0 10), mask := wide (e.staged 0xD0 10),
        action := e.staged 0x200 8 }).tcPost 0 := by
  simp only [Dev.tcWrite, Nat.mod_eq_of_lt hmenu, Nat.mod_eq_of_lt hindex, ← he, hidle, haction, Bool.false_eq_true, if_false, ne_eq,
    not_true_eq_false]

theorem Dev.tcInvalidate_cleared (hmenu : menu < 2) (hindex : index < 16384) (he : e = d.tcCmd index menu false 2)
    (hidle : e.menuDrains menu = false) :
    d.tcInvalidate menu index = (e.setTc menu index { e.tcEntry menu index with valid := false }).tcPost 0 := by
  simp only [Dev.tcInvalidate, Nat.mod_eq_of_lt hmenu, Nat.mod_eq_of_lt hindex, ← he, hidle, Bool.false_eq_true, if_false]

theorem Dev.tcRead_staged (hmenu : menu < 2) (hindex : index < 16384) (he : e = d.tcCmd index menu false 3) :
    d.tcRead menu index = (((e.setStaged 0xA0 (narrow (e.tcEntry menu index).value 10)).setStaged 0xD0
      (narrow (e.tcEntry menu index).mask 10)).setStaged 0x200 (e.tcEntry menu index).action).tcPost 0 := by
  simp only [Dev.tcRead, Nat.mod_eq_of_lt hmenu, Nat.mod_eq_of_lt hindex, ← he]

theorem Dev.tcWriteHdr_stored (hmenu : menu < 2) (he : e = d.tcCmd 0 menu false 4) (hidle : e.menuIdle menu = true)
    (haction : actCheck (e.staged 0x200 8) false = 0) (hsel : keySelBad (bits (e.rdW 0x060 0xA0).toNat 0 12) = false) :
    d.tcWriteHdr menu = { e.tcPost 0 with
      pkt := { (e.tcPost 0).pkt with hdr := put e.pkt.hdr menu (bits (e.rdW 0x060 0xA0).toNat 0 12, e.staged 0x200 8) } } := by
  simp only [Dev.tcWriteHdr, Nat.mod_eq_of_lt hmenu, ← he, hidle, haction, hsel, Bool.true_eq_false, Bool.false_eq_true, if_false, ne_eq,
    not_true_eq_false]

theorem Dev.tcReadHdr_staged (hmenu : menu < 2) (he : e = d.tcCmd 0 menu false 5) :
    d.tcReadHdr menu = ((e.setStaged 0xA0 [(e.rdW 0x060 0xA0).toNat - (e.rdW 0x060 0xA0).toNat % 4096 + (e.menuHdr menu).1]).setStaged
      0x200 (e.menuHdr menu).2).tcPost 0 := by
  simp only [Dev.tcReadHdr, Nat.mod_eq_of_lt hmenu, ← he]

theorem Dev.tcWriteDirect_stored (hindex : index < 1024) (he : e = d.tcCmd index 0 false 6) (haction : actCheck (e.staged 0x200 8) true = 0) :
    d.tcWriteDirect index = { e.tcPost 0 with
      pkt := { (e.tcPost 0).pkt with direct := put e.pkt.direct index (e.staged 0x200 8) } } := by
  have hmod : index % 16384 = index := Nat.mod_eq_of_lt (by omega)
  simp only [Dev.tcWriteDirect, hmod, ← he, if_neg (Nat.not_le.mpr hindex), haction, ne_eq, not_true_eq_false, if_false]

theorem Dev.tcReadDirect_staged (hindex : index < 1024) (he : e = d.tcCmd index 0 false 7) :
    d.tcReadDirect index = (e.setStaged 0x200 (e.directAction index)).tcPost 0 := by
  have hmod : index % 16384 = index := Nat.mod_eq_of_lt (by omega)
  simp only [Dev.tcReadDirect, hmod, ← he, if_neg (Nat.not_le.mpr hindex)]

end

/-- Settles O24. -/
theorem menuCommandsComplete : Obligations.MenuCommandsComplete := by
  refine ⟨?swap, ?drained, ?write, ?invalidate, ?read, ?writeHdr, ?readHdr, ?writeDirect, ?readDirect, ?ctrRead, ?ctrReadClear, ?first,
    ?second⟩
  case swap =>
    intro d hans hidle
    exact gives_of_dev rfl ((if_pos hans).trans (if_neg (by simp [hidle])))
  case drained =>
    intro d hdraining hgone
    exact gives_of_dev rfl (if_pos (by simpa [hdraining] using hgone))
  case write =>
    intro d menu index anomaly e hmenu hindex he hidle haction hans
    exact gives_of_dev rfl ((if_pos hans).trans (Dev.tcWrite_stored hmenu hindex he hidle haction))
  case invalidate =>
    intro d menu index e hmenu hindex he hidle hans
    exact gives_of_dev rfl ((if_pos hans).trans (Dev.tcInvalidate_cleared hmenu hindex he hidle))
  case read =>
    intro d menu index e hmenu hindex he hans
    exact gives_of_dev rfl ((if_pos hans).trans (Dev.tcRead_staged hmenu hindex he))
  case writeHdr =>
    intro d menu e hmenu he hidle haction hsel hans
    exact gives_of_dev rfl ((if_pos hans).trans (Dev.tcWriteHdr_stored hmenu he hidle haction hsel))
  case readHdr =>
    intro d menu e hmenu he hans
    exact gives_of_dev rfl ((if_pos hans).trans (Dev.tcReadHdr_staged hmenu he))
  case writeDirect =>
    intro d index e hindex he haction hans
    exact gives_of_dev rfl ((if_pos hans).trans (Dev.tcWriteDirect_stored hindex he haction))
  case readDirect =>
    intro d index e hindex he hans
    exact gives_of_dev rfl ((if_pos hans).trans (Dev.tcReadDirect_staged hindex he))
  case ctrRead =>
    intro d index hans
    exact gives_of_dev rfl (if_pos hans)
  case ctrReadClear =>
    intro d index hans
    exact gives_of_dev rfl (if_pos hans)
  case first =>
    intro d pipe host f l hruns hwaiting
    exact gives_of_dev rfl (by simp only [Dev.firstPass, hruns, hwaiting, implies_true])
  case second =>
    intro d pipe host f l hruns hwaiting
    exact gives_of_dev rfl (by simp only [Dev.secondPass, hruns, hwaiting, implies_true])

/-! ### Rings -/

section
variable {d : Dev} {ring : Nat}

theorem Dev.ringCfg_enabled {cfg : Nat} {e : Dev} (hring : ring < 256) (htype : cfg % 4 ≠ 0)
    (hactive : d.rdB 0x062 (PKT_RING_STAT.ACTIVE.at ring) = false) (hlo : 4 ≤ bits cfg 3 5) (hhi : bits cfg 3 5 ≤ 16)
    (he : e = d.wrW 0x062 (PKT_RING_CFG.word.at ring).off (BitVec.ofNat 32 (cfg % 2 ^ 16 - bits cfg 2 1 * 4))) :
    d.ringCfg ring cfg = ((e.wr 0x062 (PKT_RING_SW.INDEX.at ring) 0).wr 0x062 (PKT_RING_HW.INDEX.at ring) 0).wr 0x062
      (PKT_RING_STAT.ACTIVE.at ring) 1 := by
  subst he
  exact (if_neg (Nat.not_le.mpr hring)).trans ((if_neg (by simp [hactive])).trans ((if_neg htype).trans (if_neg (by omega))))

theorem Dev.ringCfg_disabled {cfg : Nat} (hring : ring < 256) (htype : cfg % 4 = 0)
    (hactive : d.rdB 0x062 (PKT_RING_STAT.ACTIVE.at ring) = true) :
    d.ringCfg ring cfg = (d.wrW 0x062 (PKT_RING_CFG.word.at ring).off (BitVec.ofNat 32 (cfg % 2 ^ 16 - bits cfg 2 1 * 4))).wr 0x062
      (PKT_RING_STAT.ACTIVE.at ring) 0 :=
  (if_neg (Nat.not_le.mpr hring)).trans ((if_pos hactive).trans (if_pos htype))

/-- A whole frame of a TX ring that the pipelines can take (R483). -/
theorem Dev.txRingFrameStart_frame {host : List (Nat × Nat)} {ws : List (List Nat)} {o : List Nat} {q : Dev × Bool}
    (htype : d.ringType ring = 2) (hring : ring < 256) (hservice : d.inService 0x062 = true)
    (hlook : d.txLook ring host (d.ringHeld ring false) (d.ringHw ring) [] = .frame ws)
    (hlen : (ws.map fun v => bits (nth 0 v 2) 0 16).foldl (· + ·) 0 ≤ 9728)
    (hformat : bit (nth 0 (nth [] ws 0) 2) 20 = false ∨ (bit (nth 0 (nth [] ws 0) 2) 18 = true
      ∧ actF (d.directAction (bits (nth 0 (nth [] ws 0) 3) 0 10)) 0 0 3 = 2))
    (hoctets : d.txOctets host ws = some o) (hpipes : d.inService 0x060 = true)
    (hq : q = d.pktIn
      { basket := 0, src := 0x10, dot11 := bit (nth 0 (nth [] ws 0) 2) 20, info := nth 0 (nth [] ws 0) 4, tsNs := 0, tsFrac := 0,
        cookie := nth 0 (nth [] ws 0) 5, tsReq := if bit (nth 0 (nth [] ws 0) 2) 19 then some (ring, d.ringHw ring) else none,
        direct := if bit (nth 0 (nth [] ws 0) 2) 18 then some (bits (nth 0 (nth [] ws 0) 3) 0 10) else none, menu := 0, kt2 := 0xF,
        inner := false } o) :
    d.txRingFrameStart ring host = if q.2 then (q.1.txReturn ring ws.length 0).cnt 0x062 PKT_CNT_TX_FRAMES.COUNT
      else q.1.txReturn ring ws.length 1 := by
  have hready : ¬ (d.ringType ring ≠ 2 ∨ 256 ≤ ring ∨ d.inService 0x062 = false) := by simp [htype, hservice, hring]
  have hgood : ¬ (9728 < (ws.map fun v => bits (nth 0 v 2) 0 16).foldl (· + ·) 0 ∨ (bit (nth 0 (nth [] ws 0) 2) 20 = true
      ∧ (bit (nth 0 (nth [] ws 0) 2) 18 = false ∨ actF (d.directAction (bits (nth 0 (nth [] ws 0) 3) 0 10)) 0 0 3 ≠ 2))) := by
    rintro (hlong | ⟨h11, hother⟩)
    · omega
    · rcases hformat with h | ⟨hdirect, hact⟩
      · simp [h11] at h
      · simp [hdirect, hact] at hother
  simp only [Dev.txRingFrameStart, if_neg hready, hlook, if_neg hgood, hoctets, hpipes, Bool.true_eq_false, if_false, hq]

end

/-- Settles O25. -/
theorem ringCommandsComplete : Obligations.RingCommandsComplete := by
  refine ⟨?enable, ?disable, ?sw, ?frame, ?completion, ?timer⟩
  case enable =>
    intro d ring cfg e hring htype hactive hlo hhi he hans
    exact gives_of_dev rfl ((if_pos hans).trans ((if_neg htype).trans (Dev.ringCfg_enabled hring htype hactive hlo hhi he)))
  case disable =>
    intro d ring cfg hring htype hactive hans
    exact gives_of_dev rfl ((if_pos hans).trans ((if_pos htype).trans (Dev.ringCfg_disabled hring htype hactive)))
  case sw =>
    intro d ring sw hring hsw hheld hans
    refine gives_of_dev rfl ((if_pos hans).trans ?_)
    simp only [Dev.ringSwWrite, Nat.mod_eq_of_lt hsw, if_neg (Nat.not_le.mpr hring), if_neg (Nat.not_lt.mpr hheld)]
  case frame =>
    intro d ring host ws o q htype hring hservice hlook hlen hformat hoctets hpipes hq
    exact gives_of_dev rfl (Dev.txRingFrameStart_frame htype hring hservice hlook hlen hformat hoctets hpipes hq)
  case completion =>
    rintro d k rest e f g hcpls rfl rfl rfl
    refine gives_of_dev rfl ?_
    intro q hs p
    simp only [Dev.wlanCompletion, hcpls, Dev.when, Bool.and_eq_true, decide_eq_true_eq, and_assoc]
    rcases look d.pkt.sent k.basket with _ | ⟨_ | _, r⟩ <;> rfl
  case timer =>
    intro d ring t hring husec hidle hsince
    refine gives_of_dev rfl ?_
    intro q hs p
    simp only [Dev.ringIrqTimer, hsince, hring, husec, hidle, ne_eq, not_false_eq_true, and_self, if_true]
    rfl

/-! ### Ethernet MACs, links and MDIO -/

section
variable {d : Dev} {m : Nat}

/-- A good unicast or group frame for this port whose octets the FIFO has room for enters pipeline 0 (R500). -/
theorem Dev.ethFrameReceived_good {ballQ corr uncorr : Nat} {octets l : List Nat} {e f : Dev} (hm : m < 5)
    (hservice : d.inService (ethPage m) = true) (hlink : d.ethLink m = true)
    (he : e = if d.fecOn m then (d.ethCnt m 22 corr).ethCnt m 23 uncorr else d)
    (hfec : d.fecOn m = false ∨ uncorr = 0) (hfcs : ethFcsOk octets = true) (hmin : 64 ≤ octets.length)
    (hmax : octets.length ≤ e.rd (ethPage m) ETH_MAX_LEN.MAX_LEN) (hl : l = octets.take (octets.length - 4))
    (htype : ob2 l 12 ≠ 0x8808) (hfilter : e.ethFilter m l = true) (hroom : e.rxFill m + (e.rxTag m l).length ≤ 131072)
    (hf : f = (e.ethCnt m 0).ethOct m false octets.length) :
    d.ethFrameReceived m octets false ballQ corr uncorr =
      ((if isBroadcast l then f.ethCnt m 4 else if isGroup l then f.ethCnt m 3 else f).pktIn
        { basket := 0, src := m, dot11 := false, info := 0, tsNs := (ballQ - e.rd (ethPage m) ETH_TS_ASYM.ING_DLY) / 4 % 2 ^ 32,
          tsFrac := (ballQ - e.rd (ethPage m) ETH_TS_ASYM.ING_DLY) % 4 * 0x4000, cookie := 0, tsReq := none, direct := none,
          menu := 0, kt2 := 0xF, inner := false } (e.rxTag m l)).1.fillCheck m := by
  have hlive : ¬ (5 ≤ m ∨ d.inService (ethPage m) = false ∨ d.ethLink m = false) := by simp [hm, hservice, hlink]
  have hclean : ¬ ((false || d.fecOn m && decide (uncorr ≠ 0)) = true) := by rcases hfec with h | h <;> simp [h]
  simp only [Dev.ethFrameReceived, if_neg hlive, if_neg hclean, Dev.when, ← he, hfcs, Bool.true_eq_false, if_false,
    if_neg (Nat.not_lt.mpr hmin), if_neg (Nat.not_lt.mpr hmax), ← hl, if_neg htype, hfilter, if_neg (Nat.not_lt.mpr hroom), ← hf]

/-- The frame a port serves goes on the line while the link is up, changed by its tag and its timestamps (R509, R533). -/
theorem Dev.ethTxStart_up {ballQ q ts : Nat} {t : EthTx} {e : Dev} {l : List Nat} {one : Option (List Nat)} (hm : m < 5)
    (hactive : d.active (ethPage m) = true) (hline : (d.ethM m).line = none) (hlink : d.ethLink m = true)
    (hnext : (d.ethM m).next true = some (q, t))
    (hbasket : ∀ b, t.basket = some b → (look d.pkt.chains b).isSome = true ∧ d.frameBad b = none)
    (he : e = d.setEth m ((d.ethM m).pop q)) (hts : ts = ballQ + d.rd (ethPage m) ETH_TS_ASYM.EGR_DLY)
    (hone : one = if d.rdB (ethPage m) ETH_CFG.ONE_STEP then oneStep (padTo60 (e.txTag m t.octets)) ts else none)
    (hl : l = one.getD (padTo60 (e.txTag m t.octets))) (octets : List Nat)
    (hoctets : octets = if t.ven then patch l ((if outerTagged l then 18 else 14) + 12) (beBytes 4 (ts / 4 % 2 ^ 32)) else l) :
    d.ethTxStart m ballQ = e.setEth m { (d.ethM m).pop q with line := some {
      tx := { t with octets := octets }, ts := ts, oneStep := one.isSome,
      whole := decide (octets.length ≤ d.rd (ethPage m) ETH_TX_THR.START_THR) } } := by
  have hlive : ¬ (5 ≤ m ∨ d.active (ethPage m) = false ∨ (d.ethM m).line.isSome) := by simp [hm, hactive, hline]
  have hregs (r : Fld) : e.rd (ethPage m) r = d.rd (ethPage m) r := by rw [he]; rfl
  have hbits (r : Fld) : e.rdB (ethPage m) r = d.rdB (ethPage m) r := by rw [he]; rfl
  simp only [Dev.ethTxStart, if_neg hlive, hlink, hnext, ← he, hregs, ← hts]
  cases hb : t.basket with
  | none =>
    simp only [Bool.false_eq_true, if_false, Option.bind_none, Bool.true_eq_false, hbits, ← hone, ← hl, ← hoctets]
  | some b =>
    obtain ⟨hchain, hgood⟩ := hbasket b hb
    have hlisted : (look d.pkt.chains b).isNone = false := by simpa [Option.isSome_iff_ne_none] using hchain
    simp only [hlisted, Bool.false_eq_true, if_false, Option.bind_some, hgood, Bool.true_eq_false, hbits, ← hone, ← hl, ← hoctets]

end

/-- Settles O26. -/
theorem ethernetCommandsComplete : Obligations.EthernetCommandsComplete := by
  refine ⟨?received, ?unpause, ?pauseAgain, ?belowXon, ?txStart, ?underrun, ?txDone, ?link, ?address, ?write, ?readInc, ?read,
    ?mdioDone, ?crumb, ?octets, ?lane⟩
  case received =>
    intro d m ballNs ballFrac corr uncorr octets l e f hm hservice hlink he hfec hfcs hmin hmax hl htype hfilter hroom hf
    exact gives_of_dev rfl (Dev.ethFrameReceived_good hm hservice hlink he hfec hfcs hmin hmax hl htype hfilter hroom hf)
  case unpause =>
    rintro d m queue t e hpause rfl
    exact gives_of_dev rfl (by simp only [Dev.pauseTimeExpiry, hpause, implies_true])
  case pauseAgain =>
    rintro d m t e hgen hxon hactive rfl
    exact gives_of_dev rfl (by simp only [Dev.pauseRepeat, hgen, hxon, hactive, and_self, if_true, implies_true])
  case belowXon =>
    intro d m t hgen hxon hactive
    exact gives_of_dev rfl (if_pos ⟨by simp [hgen], hxon, hactive⟩)
  case txStart =>
    rintro d m ballQ q ts t e l one hm hactive hline hlink hnext hbasket he hts hone hl
    exact gives_of_dev rfl (Dev.ethTxStart_up hm hactive hline hlink hnext hbasket he hts hone hl _ rfl)
  case underrun =>
    rintro d m sent g e f hline hpart hsent rfl rfl
    refine gives_of_dev rfl ?_
    intro q hs p
    simp only [Dev.ethTxUnderrun, hline, hpart, Bool.false_eq_true, false_or, if_neg (Nat.not_le.mpr hsent)]
  case txDone =>
    rintro d m g e f h hline rfl rfl rfl
    exact gives_of_dev rfl (by simp only [Dev.ethTxDone, hline, implies_true])
  case link =>
    rintro d m speed deskewed up e hm hlive rfl hchange rfl
    exact gives_of_dev rfl (if_neg (by simp [hm, hlive, hchange]))
  case address =>
    intro d c45 phyad reg data hans hfree hservice
    exact gives_of_dev rfl ((if_pos hans).trans (if_neg (by simp [hfree, hservice])))
  case write =>
    intro d c45 phyad reg data hans hfree hservice
    exact gives_of_dev rfl ((if_pos hans).trans (if_neg (by simp [hfree, hservice])))
  case readInc =>
    intro d c45 phyad reg hans hfree hservice
    exact gives_of_dev rfl ((if_pos hans).trans (if_neg (by simp [hfree, hservice])))
  case read =>
    intro d c45 phyad reg hans hfree hservice
    exact gives_of_dev rfl ((if_pos hans).trans (if_neg (by simp [hfree, hservice])))
  case mdioDone =>
    rintro d rdata op e f hop rfl rfl
    exact gives_of_dev rfl (by simp only [Dev.mdioDone, hop, Dev.when, decide_eq_true_eq, implies_true])
  case crumb =>
    rintro d m k e f hm hans rfl rfl rfl
    exact gives_of_dev rfl ((if_pos hans).trans (if_pos hm))
  case octets =>
    rintro d m tx n hm hans rfl
    exact gives_of_dev rfl ((if_pos hans).trans (if_pos hm))
  case lane =>
    intro d lane status hlane hactive hchange
    exact gives_of_dev rfl (if_pos ⟨hlane, hactive, hchange⟩)

/-! ### Device time and the servo -/

/-- A sample the servo takes that is small enough to be tracked (R514, R515). -/
theorem State.servoSample_track {s : State} {e : Int} (hon : s.dev.servoOn = true) (hcmd : s.dev.time.cmdAt ≠ some s.dev.now)
    (hsmall : (s.dev.servoNote e).servoSteps e = false) :
    s.servoSample e = { s with dev := (s.dev.servoNote e).servoTrack e } := by
  rw [State.servoSample, if_neg (by simp [hon, hcmd]), if_neg (by simp [hsmall])]

/-- A sample the servo takes that is so large that device time is stepped (R514, R515). -/
theorem State.servoSample_step {s u : State} {e : Int} {g : Dev} (hon : s.dev.servoOn = true)
    (hcmd : s.dev.time.cmdAt ≠ some s.dev.now) (hlarge : (s.dev.servoNote e).servoSteps e = true)
    (hu : u = ({ s with dev := s.dev.servoNote e } : State).stepTo
      ((((s.dev.servoNote e).now : Int) - e * (fracU : Int)) % ((2 ^ 48 * secU : Nat) : Int)).toNat)
    (hg : g = (u.dev.wr ptpPage PTP_SERVO_STAT.LOCK_CNT 0).servoEnter 1) :
    s.servoSample e = { u with dev := { g with time := { g.time with lastSample := g.now } } } := by
  rw [State.servoSample, if_neg (by simp [hon, hcmd]), if_pos hlarge, hg, hu]

/-- A sample written to an answering page whose servo takes its samples from software. -/
theorem exec_servoSample {s : State} {ns : Nat} (hans : s.dev.answers ptpPage = true)
    (hsrc : (s.dev.complete .okay).rdB ptpPage PTP_SERVO_CFG.SRC = false) :
    exec (.servoSample ns) s = .next (({ s with dev := s.dev.complete .okay } : State).servoSample
      (toSigned 32 ns * 65536 + (s.dev.complete .okay).rd ptpPage PTP_SERVO_OFS_FRAC.OFS_FRAC)) :=
  (if_neg (by simp [hans])).trans (if_neg (by simp [hsrc]))

/-- Settles O27. -/
theorem timeCommandsComplete : Obligations.TimeCommandsComplete := by
  refine ⟨?set, ?step, ?timeRead, ?track, ?sampleStep, ?holdover, ?fire, ?pulseEnd, ?edge, ?eviRead⟩
  case set =>
    rintro s u e hservice hns rfl rfl
    exact congrArg Host.Outcome.next ((if_neg (by simp [hservice])).trans (if_neg (Nat.not_le.mpr hns)))
  case step =>
    rintro s u e hservice rfl rfl
    exact congrArg Host.Outcome.next (if_neg (by simp [hservice]))
  case timeRead =>
    rintro d e hans rfl
    exact gives_of_dev rfl (if_pos hans)
  case track =>
    rintro s ns e f hans rfl hsrc hon hcmd rfl hsmall
    exact (exec_servoSample hans hsrc).trans (congrArg Host.Outcome.next (State.servoSample_track hon hcmd hsmall))
  case sampleStep =>
    rintro s u ns e f g hans rfl hsrc hon hcmd rfl hlarge rfl rfl
    exact (exec_servoSample hans hsrc).trans (congrArg Host.Outcome.next (State.servoSample_step hon hcmd hlarge rfl rfl))
  case holdover =>
    rintro d e hstate rfl
    exact gives_of_dev rfl (if_pos hstate)
  case fire =>
    intro d timer htimer hrunning hen
    exact gives_of_dev rfl (if_pos ⟨htimer, hrunning, hen⟩)
  case pulseEnd =>
    rintro d timer t e hpulse rfl
    exact gives_of_dev rfl (by simp only [hpulse, implies_true])
  case edge =>
    rintro s t input ball ns frac falling e f rfl rfl htakes rfl
    exact (if_pos htakes).trans (apply_ite Host.Outcome.next _ _ _).symm
  case eviRead =>
    rintro d input e hinput hans rfl
    exact gives_of_dev rfl ((if_pos hinput).trans (if_pos hans))

end Sys2Proof.Machine
end

section

/-! PROOFS. The control cores, the interrupt controllers, PCI Express and the dispatcher: what their commands do. -/

namespace Sys2Proof.Machine

/-! ### Control cores -/

/-- A core that no wait and no trigger stops fetches its instruction and runs it (R540, R545). -/
theorem State.hartStep_runs {s u t : State} {c w len raw : Nat} {ecc : EccFact} (hruns : s.runs c = true)
    (hwait : (s.hart c).wait = none) (hwfi : (s.hart c).wfi = false ∨ s.wfiEnds c = true)
    (htrigger : (s.hart c).trigger 2 (s.hart c).pc.toNat = none) (hu : u = s.onHart c fun h => { h with wfi := false })
    (ht : t = if ecc = .corrected then u.onHart c (·.corrected) else u) (hfetch : (t.fetch c).2 = .ok (some w, len, raw))
    (hecc : ecc = .clean ∨ ecc = .corrected ∨ ecc = .uncorrectable 0) :
    s.hartStep c ecc = (t.fetch c).1.runIns c w len raw (decide (ecc = .uncorrectable 0)) := by
  have hawake : ¬ ((s.hart c).wfi = true ∧ s.wfiEnds c = false) := by rcases hwfi with h | h <;> simp [h]
  simp only [State.hartStep, hruns, Bool.true_eq_false, if_false, hwait, if_neg hawake, htrigger, ← hu, ← ht]
  generalize t.fetch c = f at hfetch ⊢
  obtain ⟨v, r⟩ := f
  subst hfetch
  rcases hecc with rfl | rfl | rfl <;> rfl

/-- An inline cache-block operation runs as the instruction it is. -/
theorem State.cboStep_runs {s : State} {c rs1 : Nat} (op : Nat) (hruns : s.runs c = true) (hwait : (s.hart c).wait = none)
    (hwfi : (s.hart c).wfi = false) :
    s.cboStep c op rs1 = s.runIns c (encI 0x0F 2 0 (rs1 % 32) op) 4 (encI 0x0F 2 0 (rs1 % 32) op) false :=
  if_neg (by simp [hruns, hwait, hwfi])

/-- Settles O28. -/
theorem hartCommandsComplete : Obligations.HartCommandsComplete := by
  refine ⟨?instruction, ?clean, ?flush, ?inval, ?interrupt, ?parked⟩
  case instruction =>
    intro s u t core w len raw ecc hruns hwait hwfi htrigger hu ht hfetch hecc
    exact congrArg Host.Outcome.next (State.hartStep_runs hruns hwait hwfi htrigger hu ht hfetch hecc)
  case clean =>
    intro s core rs1 hruns hwait hwfi
    exact congrArg Host.Outcome.next (State.cboStep_runs 1 hruns hwait hwfi)
  case flush =>
    intro s core rs1 hruns hwait hwfi
    exact congrArg Host.Outcome.next (State.cboStep_runs 2 hruns hwait hwfi)
  case inval =>
    intro s core rs1 hruns hwait hwfi
    exact congrArg Host.Outcome.next (State.cboStep_runs 0 hruns hwait hwfi)
  case interrupt =>
    intro s core i hruns hwait hwfi hirq
    have hfree : ¬ (s.runs core = false ∨ (s.hart core).wait.isSome ∨ ((s.hart core).wfi = true ∧ s.dev.pstate = 2)) := by
      rcases hwfi with h | h <;> simp [hruns, hwait, h]
    refine congrArg Host.Outcome.next ?_
    simp only [State.irqEntry, if_neg hfree, hirq]
  case parked =>
    rintro s hart h f hhart hawake hhalted hparked hmsip rfl rfl
    have hlive : ¬ (8 ≤ hart ∨ s.awake = false ∨ (s.hart hart).halted ∨ ((s.hart hart).parked = false ∧ (s.hart hart).running)
        ∨ bit s.dev.ctl.msip hart = false) := by
      rcases hparked with h | h <;> simp [hhart, hawake, hhalted, hmsip, h]
    exact congrArg Host.Outcome.next (if_neg hlive)

/-! ### PLIC and ACLINT -/

/-- Settles O29. -/
theorem interruptControllerCommandsComplete : Obligations.InterruptControllerCommandsComplete := by
  refine ⟨?claim, ?complete, ?mtime, ?compare⟩
  case claim =>
    intro d context src hcontext hbest
    exact gives_of_dev rfl ((if_pos hcontext).trans (by simp only [Dev.plicClaim, hbest]))
  case complete =>
    intro d context source hcontext hsource henabled
    exact gives_of_dev rfl ((if_pos hcontext).trans
      (congrArg (Dev.complete · .okay) (if_pos ⟨by rwa [Nat.mod_eq_of_lt hsource], hsource⟩)))
  case mtime =>
    intro d
    exact gives_of_dev rfl rfl
  case compare =>
    intro d hart hhart
    exact gives_of_dev rfl (if_pos hhart)

/-! ### PCI Express -/

/-- Settles O30. -/
theorem pcieCommandsComplete : Obligations.PcieCommandsComplete := by
  refine ⟨?linkUp, ?linkDown, ?completion, ?timeout, ?intx, ?msix, ?flr, ?assert, ?release, ?cfgRead, ?cfgWrite, ?cfgMissed,
    ?l1Exit, ?l1Wake, ?l1Enter, ?error⟩
  case linkUp =>
    intro d gen width reversed hdown hltssm hperst hgen hmax hwidth hx1
    exact gives_of_dev rfl ((if_pos rfl).trans (if_neg (by
      simp [hdown, hltssm, hperst, Nat.not_lt.mpr hgen, Nat.not_lt.mpr hmax, Nat.not_lt.mpr hwidth, Nat.not_lt.mpr hx1])))
  case linkDown =>
    intro d gen width reversed hup
    exact gives_of_dev rfl ((if_neg Bool.false_ne_true).trans (if_pos hup))
  case completion =>
    rintro d index outcome data r a hread hwaits rfl
    exact gives_of_dev rfl (by simp only [Dev.outEnd, hread, hwaits, Option.isSome_none, Bool.false_eq_true, if_false, implies_true])
  case timeout =>
    rintro d index r e hread hwaits rfl
    exact gives_of_dev rfl (by simp only [Dev.cplTimeout, hread, hwaits, Option.isSome_none, Bool.false_eq_true, if_false, implies_true])
  case intx =>
    intro d pin high hroot hup hpin
    exact gives_of_dev rfl (if_neg (by simp [hroot, hup, hpin]))
  case msix =>
    intro d v hv hendpoint hup hen hraised
    exact gives_of_dev rfl (if_pos ⟨hv, hendpoint, hup, hen, hraised⟩)
  case flr =>
    intro d hendpoint hup
    exact gives_of_dev rfl (if_pos (by simp [hendpoint, hup]))
  case assert =>
    intro d hreleased
    exact gives_of_dev rfl (if_neg (by simp [hreleased]))
  case release =>
    intro d hasserted
    exact gives_of_dev rfl (if_pos hasserted)
  case cfgRead =>
    intro d status data ty hans htype
    exact gives_of_dev rfl ((if_pos hans).trans (by
      simp only [Dev.cfgAccess, htype, Option.isSome_none, Bool.false_eq_true, if_false]))
  case cfgWrite =>
    intro d value status ty hans htype
    exact gives_of_dev rfl ((if_pos hans).trans (by simp only [Dev.cfgAccess, htype, Option.isSome_some, if_true]))
  case cfgMissed =>
    intro d status data hans htype
    exact gives_of_dev rfl ((if_pos hans).trans (by simp only [Dev.cfgAccess, htype, Option.isNone_none, if_true]))
  case l1Exit =>
    intro d hup
    exact gives_of_dev rfl ((if_neg (by simp [hup])).trans (if_pos rfl))
  case l1Wake =>
    intro d kind hkind hup hl1
    exact gives_of_dev rfl ((if_neg (by simp [hup])).trans
      ((if_neg (by omega)).trans ((if_neg (by omega)).trans (if_pos hl1))))
  case l1Enter =>
    intro d hup haspm
    exact gives_of_dev rfl ((if_neg (by simp [hup])).trans
      ((if_neg Nat.one_ne_zero).trans ((if_pos rfl).trans (if_pos haspm))))
  case error =>
    intro d hlive
    exact gives_of_dev rfl (if_pos (by simpa using hlive))

/-! ### Thread dispatcher -/

/-- The handle, opcode, level and affinity that a post's value names. -/
theorem bits_postValue {handle level aff : Nat} (hhandle : handle < 65536) (hlevel : level < 64) (haff : aff < 256) :
    bits (handle % 65536 + 65536 * (level % 64) + 2 ^ 22 * (aff % 256)) 0 16 = handle
    ∧ bits (handle % 65536 + 65536 * (level % 64) + 2 ^ 22 * (aff % 256)) 16 6 = level
    ∧ bits (handle % 65536 + 65536 * (level % 64) + 2 ^ 22 * (aff % 256)) 22 8 = aff
    ∧ bits (handle % 65536 + 65536 * (level % 64) + 2 ^ 22 * (aff % 256)) 30 2 = 0 := by
  simp only [bits]
  omega

/-- The handle and opcode that a cancel's value names. -/
theorem bits_cancelValue {handle : Nat} (hhandle : handle < 65536) :
    bits (handle % 65536 + 2 ^ 30) 0 16 = handle ∧ bits (handle % 65536 + 2 ^ 30) 30 2 = 1 := by
  simp only [bits]
  omega

/-- An ask or yield of a port that is not waiting is answered by the dispatcher. -/
theorem Dev.askRead_of_free {d : Dev} {c : Nat} {yields : Bool} (hactive : d.active dspPage = true) (hfree : (d.port c).wait = none) :
    d.askRead c yields = (d.ask c yields).2.elim (d.ask c yields).1 ((d.ask c yields).1.complete .okay ·) := by
  simp only [Dev.askRead, hactive, hfree, Option.isSome_none, Bool.true_eq_false, Bool.false_eq_true, if_false]
  cases (d.ask c yields).2 <;> rfl

/-- Settles O31. -/
theorem dispatcherCommandsComplete : Obligations.DispatcherCommandsComplete := by
  refine ⟨?post, ?cancel, ?ask, ?yield, ?timeout, ?interrupted, ?floor, ?enable⟩
  case post =>
    intro d handle level aff hservice hok hhandle hlevel haff
    obtain ⟨hh, hl, ha, hop⟩ := bits_postValue hhandle hlevel haff
    refine gives_of_dev rfl ?_
    intro q hs p
    simp only [Dev.dspPost, hh, hl, ha, hop, hservice, hok, Bool.true_eq_false, if_false, false_or, Nat.le_zero_eq, OfNat.ofNat_ne_zero,
      Nat.zero_ne_one]
  case cancel =>
    intro d handle hservice hok hhandle
    obtain ⟨hh, hop⟩ := bits_cancelValue hhandle
    refine gives_of_dev rfl ?_
    intro q hs p
    simp only [Dev.dspPost, hh, hop, hservice, hok, Bool.true_eq_false, if_false, false_or, Nat.not_ofNat_le_one, if_true]
  case ask =>
    rintro d core r hcore hactive hfree rfl
    refine gives_of_dev rfl ((if_pos hcore).trans ((Dev.askRead_of_free hactive hfree).trans ?_))
    cases (d.ask core false).2 <;> rfl
  case yield =>
    rintro d core r hcore hactive hfree rfl
    refine gives_of_dev rfl ((if_pos hcore).trans ((Dev.askRead_of_free hactive hfree).trans ?_))
    cases (d.ask core true).2 <;> rfl
  case timeout =>
    rintro d core t e hcore hwait rfl
    exact gives_of_dev rfl ((if_neg (Nat.not_le.mpr hcore)).trans (by simp only [hwait, Dev.when, Dev.floorHolds]; rfl))
  case interrupted =>
    intro d core t hcore hwait
    exact gives_of_dev rfl ((if_pos hcore).trans (if_pos (by simp [hwait])))
  case floor =>
    intro d value hans
    obtain ⟨hreset, hpower⟩ := Dev.answers_open hans rfl
    exact gives_of_dev rfl ((if_pos hans).trans (if_neg (by simp [hreset, hpower])))
  case enable =>
    intro d core en hcore hans
    obtain ⟨hreset, hpower⟩ := Dev.answers_open hans rfl
    exact gives_of_dev rfl ((if_pos hans).trans ((if_neg (Nat.not_le.mpr hcore)).trans
      ((if_neg (by simp [hreset, hpower])).trans (if_neg (not_not_intro rfl)))))

end Sys2Proof.Machine
end

section

/-! PROOFS. Shared SRAM, the hamper and the DRAM controller: what their commands do. -/

namespace Sys2Proof.Machine

/-! ### Shared SRAM and the hamper -/

section
variable {d : Dev} {g : Nat}

/-- A scrub read reaches a word of a group that is ON or of a hamper that is not wiped (R583). -/
theorem Dev.scrubs_of_cell {addr : Nat} (h : (sramBase ≤ addr ∧ addr < hamperBase ∧ d.group (d.groupOf addr) = 0)
      ∨ (hamperBase ≤ addr ∧ addr < hamperBase + 0x100000 ∧ d.rdB srmPage SRM_HAMPER.WIPING = false)) :
    (decide (sramBase ≤ addr) && decide (addr < hamperBase) && decide (d.group (d.groupOf addr) = 0)) = true
      ∨ (decide (hamperBase ≤ addr) && decide (addr < hamperBase + 0x100000) && !d.rdB srmPage SRM_HAMPER.WIPING) = true := by
  simpa [and_assoc] using h

/-- A group that is ON and is to be in standby goes there, and no access keeps it awake (R582). -/
theorem Dev.applyMode_standby (hon : d.group g = 0) :
    d.applyMode g 1 = { d.setGroup g 2 with ms := { d.ms with woken := d.ms.woken.filter (· ≠ g) } } := by
  simp only [Dev.applyMode, hon]

end

/-- Settles O32. -/
theorem memoryCommandsComplete : Obligations.MemoryCommandsComplete := by
  refine ⟨?corrected, ?uncorrectable, ?thermos, ?woken, ?zeroed, ?idle, ?request, ?done⟩
  case corrected =>
    intro d addr hrunning hen hcell
    exact gives_of_dev rfl (if_pos ⟨hrunning, hen, Dev.scrubs_of_cell hcell⟩)
  case uncorrectable =>
    intro d addr o hrunning hen hcell
    exact gives_of_dev rfl (if_pos ⟨hrunning, hen, Dev.scrubs_of_cell hcell⟩)
  case thermos =>
    intro d value hans
    exact gives_of_dev rfl (if_pos hans)
  case woken =>
    rintro d group e hgroup hwaking rfl
    refine gives_of_dev rfl ((if_pos hgroup).trans ((if_neg (not_not_intro hwaking)).trans ?_))
    simp only [Bool.and_eq_true, decide_eq_true_eq, List.contains_iff_mem]
  case zeroed =>
    intro d group hgroup hzeroing
    exact gives_of_dev rfl (if_pos ⟨hgroup, hzeroing⟩)
  case idle =>
    intro d group hgroup hrunning hon hmode hwoken hreturn
    exact gives_of_dev rfl ((if_pos ⟨hgroup, hrunning, hon, hmode, List.contains_iff_mem.mpr hwoken, hreturn⟩).trans
      (Dev.applyMode_standby hon))
  case request =>
    rintro d e hans rfl
    exact gives_of_dev rfl (if_pos hans)
  case done =>
    rintro d e hwiping rfl
    exact gives_of_dev rfl (if_pos hwiping)

/-! ### DRAM controller -/

section
variable {d : Dev}

/-- The command register of a training shows what is asked for. -/
def Dev.trainAsked (d : Dev) (op steps ch : Nat) : Dev :=
  ((d.wr drmPage DRM_TRAIN_CMD.OP op).wr drmPage DRM_TRAIN_CMD.STEPS steps).wr drmPage DRM_TRAIN_CMD.CH ch

/-- A field of another word than DRM_TRAIN_CMD reads as it did. -/
theorem Dev.rd_trainAsked {op steps ch p : Nat} {f : Fld} (h : regKey p f.off ≠ regKey drmPage DRM_TRAIN_CMD.word.off) :
    (d.trainAsked op steps ch).rd p f = d.rd p f := by
  have hop : regKey p f.off ≠ regKey drmPage DRM_TRAIN_CMD.OP.off := h
  have hsteps : regKey p f.off ≠ regKey drmPage DRM_TRAIN_CMD.STEPS.off := h
  have hch : regKey p f.off ≠ regKey drmPage DRM_TRAIN_CMD.CH.off := h
  rw [Dev.trainAsked, Dev.rd_wr_word _ _ hch, Dev.rd_wr_word _ _ hsteps, Dev.rd_wr_word _ _ hop]

/-- No page's state is kept in DRM_TRAIN_CMD. -/
theorem Dev.bstate_trainAsked (op steps ch p : Nat) : (d.trainAsked op steps ch).bstate p = d.bstate p :=
  congrArg BState.ofCode (Dev.rd_trainAsked (by simp [regKey, STATE.STATE, drmPage, DRM_TRAIN_CMD.word]; omega))

theorem Dev.trainBusy_trainAsked (op steps ch : Nat) :
    (d.trainAsked op steps ch).rdB drmPage DRM_TRAIN_STAT.BUSY = d.rdB drmPage DRM_TRAIN_STAT.BUSY := by
  rw [Dev.rdB, Dev.rd_trainAsked (by decide), Dev.rdB]

/-- A training, save or restore that a free machine takes: the page STOPPED and the PHYs named RUNNING (R606, R608). -/
theorem Dev.trainCmd_taken {op steps ch : Nat} {e f : Dev} (hop : op ≠ 3) (hfree : d.rdB drmPage DRM_TRAIN_STAT.BUSY = false)
    (hstopped : d.bstate drmPage = .stopped) (hphys : ∀ k < 4, bit ch k = true → d.bstate (phyPage k) = .running)
    (he : e = d.trainAsked op steps ch) (hf : f = (e.wr drmPage DRM_TRAIN_STAT.REFUSED 0).wr drmPage DRM_TRAIN_STAT.BUSY 1) :
    d.trainCmd op steps ch = { f.wr drmPage DRM_TRAIN_CMD.GO 1 with ms := { f.ms with train := some (op, steps % 64, ch % 16) } } := by
  have hrunning : ((List.range 4).all fun k => !bit ch k || decide (e.bstate (phyPage k) = .running)) = true := by
    simp only [List.all_eq_true, List.mem_range, he, Dev.bstate_trainAsked, Bool.or_eq_true, Bool.not_eq_true', decide_eq_true_eq]
    intro k hk
    rcases hb : bit ch k
    · exact .inl rfl
    · exact .inr (hphys k hk hb)
  have hready : ¬ (op = 3 ∨ e.bstate drmPage ≠ .stopped
      ∨ ((List.range 4).all fun k => !bit ch k || decide (e.bstate (phyPage k) = .running)) = false) := by
    rw [hrunning, he, Dev.bstate_trainAsked, hstopped]
    simp [hop]
  have hbusy : ¬ (e.rdB drmPage DRM_TRAIN_STAT.BUSY = true) := by simp [he, Dev.trainBusy_trainAsked, hfree]
  have hasked : ((d.wr drmPage DRM_TRAIN_CMD.OP op).wr drmPage DRM_TRAIN_CMD.STEPS steps).wr drmPage DRM_TRAIN_CMD.CH ch = e := he.symm
  simp only [Dev.trainCmd, hasked, if_neg hbusy, if_neg hready, ← hf]

end

/-- Settles O33. -/
theorem dramCommandsComplete : Obligations.DramCommandsComplete := by
  refine ⟨?refreshed, ?postponed, ?mr4, ?powerDown, ?selfRefresh, ?readReturn, ?periodic, ?train, ?save, ?restore, ?done, ?err⟩
  case refreshed =>
    rintro d channel rank bg ba k hactive rfl hdue
    refine gives_of_dev rfl ((if_neg (by simp [hactive])).trans (if_neg ?_))
    rintro ⟨hurgent, hper, hleft⟩
    rcases hdue with h | h | h
    · simp [h] at hurgent
    · simp [h] at hper
    · exact Nat.not_lt.mpr h hleft
  case postponed =>
    rintro d channel rank bg ba k hactive rfl hurgent hper hleft
    exact gives_of_dev rfl ((if_neg (by simp [hactive])).trans (if_pos ⟨hurgent, hper, hleft⟩))
  case mr4 =>
    rintro d channel rate high trip e f hchannel hactive rfl rfl
    exact gives_of_dev rfl (if_neg (by simp [hactive, hchannel]))
  case powerDown =>
    intro d channel hchannel hactive hidle hquiet
    exact gives_of_dev rfl (if_pos ⟨hchannel, hactive, hidle, hquiet⟩)
  case selfRefresh =>
    rintro d channel e hchannel hactive hdoze hquiet rfl
    exact gives_of_dev rfl (if_pos ⟨hchannel, hactive, hdoze, hquiet⟩)
  case readReturn =>
    rintro d channel ns i data near ecc r e hactive hread hissued rfl
    exact gives_of_dev rfl ((if_pos hactive).trans (by simp only [Dev.dramReadReturn, hread, hissued, Option.getD_some]))
  case periodic =>
    intro d channel zq hchannel hactive
    refine gives_of_dev rfl ?_
    intro q hs p
    cases zq
    · exact if_pos ⟨hchannel, hactive, rfl⟩
    · exact if_neg (by simp)
  case train =>
    intro d steps ch e f hfree hstopped hphys hans he hf
    exact gives_of_dev rfl ((if_pos hans).trans (Dev.trainCmd_taken (by decide) hfree hstopped hphys he hf))
  case save =>
    intro d ch e f hfree hstopped hphys hans he hf
    exact gives_of_dev rfl ((if_pos hans).trans (Dev.trainCmd_taken (by decide) hfree hstopped hphys he hf))
  case restore =>
    intro d ch e f hfree hstopped hphys hans he hf
    exact gives_of_dev rfl ((if_pos hans).trans (Dev.trainCmd_taken (by decide) hfree hstopped hphys he hf))
  case done =>
    intro d fails op steps ch htrain
    exact gives_of_dev rfl (by simp only [htrain, implies_true])
  case err =>
    intro d hans
    exact gives_of_dev rfl (if_pos hans)

end Sys2Proof.Machine
end

section

/-! PROOFS. The security island: what its commands do when they are taken and when they end. -/

namespace Sys2Proof.Machine

/-! ### Commands taken -/

section
variable {d e g : Dev} {op : Nat} {l : List Nat}

/-- A command that the island takes: it reads the command block and keeps it with the opcode. -/
theorem Dev.secGo_taken (hop : 1 ≤ op) (hop' : op ≤ 0x10) (hload : op ≠ 8) (hfree : d.rdB secPage SEC_CMD_STAT.BUSY = false)
    (he : e = (((d.wr secPage SEC_CMD.OP op).wr secPage SEC_CMD.GO 1).wr secPage SEC_CMD_STAT.BUSY 1).wr secPage SEC_CMD_STAT.OP op)
    (hservice : e.inService secPage = true)
    (hsafe : op = 1 ∨ (e.rdB secPage SEC_STATUS.TAMPERED = false ∧ e.rdB secPage SEC_STATUS.LC_PENDING = false))
    (hread : e.secRead (e.rd secPage SEC_CMD_ADDR.ADDR * 64) 64 = (g, some l)) :
    d.secGo op = { g with sec := { g.sec with cmd := some { op := op, words := toWords l 16, early := none } } } := by
  have hlegal : ¬ (op = 0 ∨ 0x10 < op) := by omega
  have htamper : ¬ (op ≠ 1 ∧ e.rdB secPage SEC_STATUS.TAMPERED = true) := by rcases hsafe with h | ⟨h, _⟩ <;> simp [h]
  have hpending : ¬ (op ≠ 1 ∧ e.rdB secPage SEC_STATUS.LC_PENDING = true) := by rcases hsafe with h | ⟨_, h⟩ <;> simp [h]
  simp only [Dev.secGo, hfree, Bool.false_eq_true, if_false, ← he, hservice, Bool.true_eq_false, if_neg hlegal, if_neg htamper,
    if_neg hpending, hread, if_neg hload]

/-- A SLOT_LOAD that the island takes and whose checks pass makes its slot LOADING. -/
theorem Dev.secGo_slotLoad {f : Dev} {k : List Nat} (hfree : d.rdB secPage SEC_CMD_STAT.BUSY = false)
    (he : e = (((d.wr secPage SEC_CMD.OP 8).wr secPage SEC_CMD.GO 1).wr secPage SEC_CMD_STAT.BUSY 1).wr secPage SEC_CMD_STAT.OP 8)
    (hservice : e.inService secPage = true) (htamper : e.rdB secPage SEC_STATUS.TAMPERED = false)
    (hpending : e.rdB secPage SEC_STATUS.LC_PENDING = false)
    (hread : e.secRead (e.rd secPage SEC_CMD_ADDR.ADDR * 64) 64 = (f, some l))
    (hcheck : f.slotLoadCheck (secArgs (toWords l 16)) = (g, .ok k)) :
    d.secGo 8 = { ((g.wr 0x033 (MAC_KEYSLOT.STATE.at (secArgs (toWords l 16)).slot) 1).wr 0x033
        (MAC_KEYSLOT.CIPHER.at (secArgs (toWords l 16)).slot) (secArgs (toWords l 16)).cipher).wr 0x033
        (MAC_KEYSLOT.KEYID.at (secArgs (toWords l 16)).slot) (secArgs (toWords l 16)).keyid with
      mac := { g.mac with keys := put g.mac.keys (secArgs (toWords l 16)).slot (ofLeBytes k) },
      sec := { g.sec with cmd := some { op := 8, words := toWords l 16, early := none } } } := by
  have hlegal : ¬ (8 = 0 ∨ 0x10 < 8) := by decide
  simp only [Dev.secGo, hfree, Bool.false_eq_true, if_false, ← he, hservice, Bool.true_eq_false, if_neg hlegal, htamper,
    hpending, and_false, hread, if_true, hcheck]
  rfl

end

/-- A command other than RAND and SLOT_LOAD is taken by an island in service, not TAMPERED and with no life-cycle change pending. -/
theorem gives_secGo {i : Instr} (op : Nat) (hi : ∀ {d q hs p}, exec i ⟨d, q, hs, p⟩ = .next ⟨d.regDo 0x004 (·.secGo op), q, hs, p⟩)
    (hop : 1 ≤ op ∧ op ≤ 0x10 ∧ op ≠ 8) :
    ∀ (d e g : Dev) (l : List Nat), d.answers secPage = true → d.rdB secPage SEC_CMD_STAT.BUSY = false →
      e = (((d.wr secPage SEC_CMD.OP op).wr secPage SEC_CMD.GO 1).wr secPage SEC_CMD_STAT.BUSY 1).wr secPage SEC_CMD_STAT.OP op →
      e.inService secPage = true → e.rdB secPage SEC_STATUS.TAMPERED = false → e.rdB secPage SEC_STATUS.LC_PENDING = false →
      e.secRead (e.rd secPage SEC_CMD_ADDR.ADDR * 64) 64 = (g, some l) →
      Gives i d { g with sec := { g.sec with cmd := some { op := op, words := toWords l 16, early := none } } } := by
  intro d e g l hans hfree he hservice htamper hpending hread
  obtain ⟨hlo, hhi, hload⟩ := hop
  exact gives_of_dev hi ((if_pos hans).trans (Dev.secGo_taken hlo hhi hload hfree he hservice (.inr ⟨htamper, hpending⟩) hread))

/-- Settles O34. -/
theorem securityCommandsStart : Obligations.SecurityCommandsStart := by
  refine ⟨?rand, gives_secGo 2 rfl (by decide), gives_secGo 3 rfl (by decide), gives_secGo 4 rfl (by decide),
    gives_secGo 5 rfl (by decide), gives_secGo 6 rfl (by decide), gives_secGo 7 rfl (by decide), gives_secGo 9 rfl (by decide),
    gives_secGo 10 rfl (by decide), gives_secGo 11 rfl (by decide), gives_secGo 12 rfl (by decide), gives_secGo 13 rfl (by decide),
    gives_secGo 14 rfl (by decide), gives_secGo 15 rfl (by decide), gives_secGo 16 rfl (by decide), ?slotLoad⟩
  case rand =>
    intro d e g l hans hfree he hservice hread
    exact gives_of_dev rfl ((if_pos hans).trans
      (Dev.secGo_taken (by decide) (by decide) (by decide) hfree he hservice (.inl rfl) hread))
  case slotLoad =>
    intro d e f g l k hans hfree he hservice htamper hpending hread hcheck
    exact gives_of_dev rfl ((if_pos hans).trans (Dev.secGo_slotLoad hfree he hservice htamper hpending hread hcheck))

/-! ### Commands and jobs that end -/

section
variable {d : Dev} {r : SecRun} {fact : SecFact}

/-- Only a SLOT_LOAD keeps a slot LOADING. -/
theorem Dev.loadingSlot_of_op (hcmd : d.sec.cmd = some r) (hop : r.op ≠ 8) : d.loadingSlot = none := by
  simp only [Dev.loadingSlot, hcmd, hop, false_and, if_false]

/-- A command that was not decided when it was taken ends with what it does then. -/
theorem Dev.secComplete_late (hcmd : d.sec.cmd = some r) (hfree : d.loadingSlot = none) (hlate : r.early = none) :
    d.secComplete fact = if r.op = 15 ∧ (d.secFinish r.op (secArgs r.words) fact).2 = 0
      then ((d.secFinish r.op (secArgs r.words) fact).1.secResult (d.secFinish r.op (secArgs r.words) fact).2).lcTransition
        (secArgs r.words).target
      else (d.secFinish r.op (secArgs r.words) fact).1.secResult (d.secFinish r.op (secArgs r.words) fact).2 := by
  simp only [Dev.secComplete, hcmd, hfree, Option.isSome_none, Bool.false_eq_true, if_false, hlate]

/-- A command decided when it was taken posts that result. -/
theorem Dev.secComplete_early {code : Nat} (hcmd : d.sec.cmd = some r) (hfree : d.loadingSlot = none) (hearly : r.early = some code) :
    d.secComplete fact = d.secResult code := by
  simp only [Dev.secComplete, hcmd, hfree, Option.isSome_none, Bool.false_eq_true, if_false, hearly]

/-- A command that is neither SLOT_LOAD nor LC_ADVANCE posts the result of what it does at its end. -/
theorem Dev.secComplete_of_finish {e : Dev} {code : Nat} (hcmd : d.sec.cmd = some r) (hlate : r.early = none) (hop : r.op ≠ 8 ∧ r.op ≠ 15)
    (hfinish : d.secFinish r.op (secArgs r.words) fact = (e, code)) : d.secComplete fact = e.secResult code := by
  rw [Dev.secComplete_late hcmd (Dev.loadingSlot_of_op hcmd hop.1) hlate, if_neg fun h => hop.2 h.1, hfinish]

/-- A job whose descriptor can be read, whose context allows it and whose two computations agree is carried out (R633, R634). -/
theorem Dev.jobDone_runs {e f : Dev} {l : List Nat} {j : SecJob} {x : SecCtx} {q : Dev × SecCtx × Nat} (hjobs : d.secJobs ≠ 0)
    (hservice : d.inService secPage = true)
    (hread : d.secRead (d.rd secPage SEC_JOB_BASE.BASE * 64 + d.rd secPage SEC_JOB_HW.INDEX % 2 ^ d.rd secPage SEC_JOB_CFG.LOG2 * 64) 64
      = (e, some l))
    (hj : j = secJob (toWords l 16)) (hctx : look e.sec.ctx j.ctx = some x) (hlo : 1 ≤ j.op) (hhi : j.op ≤ 6)
    (hmode : (modeOps x.mode).contains j.op = true) (hok : jobOk x j = true) (hq : q = e.runJob x j)
    (hf : f = if q.2.2 = 1 then (q.1.setCtx j.ctx q.2.1).cnt secPage SEC_CNT_AUTHFAIL.COUNT else q.1.setCtx j.ctx q.2.1) :
    d.jobDone false = { (f.secJobStatus (d.rd secPage SEC_JOB_HW.INDEX) q.2.2).secJobStep with sec := { f.sec with lastJob := false } } := by
  have hruns : ¬ (d.secJobs = 0 ∨ (!(d.inService secPage
      || (decide (d.bstate secPage = .draining) && d.sec.lastJob && d.active secPage))) = true) := by simp [hjobs, hservice]
  have hlegal : ¬ (j.op = 0 ∨ 6 < j.op) := by omega
  subst hq
  simp only [Dev.jobDone, if_neg hruns, hread, ← hj, hctx, if_neg hlegal, hmode, hok, Bool.true_eq_false, Bool.false_eq_true,
    if_false, false_and, Dev.when, decide_eq_true_eq, ← hf]

end

/-- Settles O35. -/
theorem securityCommandsComplete : Obligations.SecurityCommandsComplete := by
  refine ⟨?ready, ?late, ?early, ?genKey, ?clearEntry, ?slotClear, ?ctxClear, ?advance, ?posted, ?job⟩
  case ready =>
    rintro d k e hslot rfl
    exact gives_of_dev rfl (by simp only [hslot, Dev.slotToReady, implies_true])
  case late =>
    rintro d fact r a p hcmd hfree hlate rfl rfl
    exact gives_of_dev rfl (Dev.secComplete_late hcmd hfree hlate)
  case early =>
    intro d fact r code hcmd hfree hearly
    exact gives_of_dev rfl (Dev.secComplete_early hcmd hfree hearly)
  case genKey =>
    rintro d fact r a hcmd hop hlate rfl hagree hentry
    exact gives_of_dev rfl (Dev.secComplete_of_finish hcmd hlate (by simp [hop])
      (by simp only [Dev.secFinish, hop, hagree, Bool.false_eq_true, false_and, if_false, Dev.cmdGenKey, if_neg (Nat.not_lt.mpr hentry)]))
  case clearEntry =>
    rintro d fact r a hcmd hop hlate rfl hagree hentry
    exact gives_of_dev rfl (Dev.secComplete_of_finish hcmd hlate (by simp [hop])
      (by simp only [Dev.secFinish, hop, hagree, Bool.false_eq_true, false_and, if_false, Dev.cmdClearEntry, if_neg (Nat.not_lt.mpr hentry)]))
  case slotClear =>
    rintro d fact r a hcmd hop hlate rfl hslot
    refine gives_of_dev rfl (Dev.secComplete_of_finish hcmd hlate (by simp [hop]) ?_)
    simp only [Dev.secFinish, hop, Nat.reduceEqDiff, Nat.reduceLeDiff, false_and, or_self, and_false, if_false,
      if_neg (Nat.not_le.mpr hslot)]
  case ctxClear =>
    rintro d fact r a hcmd hop hlate rfl hagree
    exact gives_of_dev rfl (Dev.secComplete_of_finish hcmd hlate (by simp [hop])
      (by simp only [Dev.secFinish, hop, hagree, Bool.false_eq_true, false_and, if_false]))
  case advance =>
    rintro d fact r a hcmd hop hlate rfl haccepted
    have hfinish : d.secFinish r.op (secArgs r.words) fact = (d, 0) := by
      simp only [Dev.secFinish, hop, Nat.reduceEqDiff, Nat.reduceLeDiff, and_false, or_self, if_false, haccepted]
    refine gives_of_dev rfl ((Dev.secComplete_late hcmd (Dev.loadingSlot_of_op hcmd (by simp [hop])) hlate).trans ?_)
    rw [hfinish]
    exact if_pos ⟨hop, rfl⟩
  case posted =>
    intro d sw hans hroom
    exact gives_of_dev rfl ((if_pos hans).trans (if_neg (Nat.not_lt.mpr hroom)))
  case job =>
    intro d e f l j x r hjobs hservice hread hj hctx hlo hhi hmode hok hr hf
    exact gives_of_dev rfl (Dev.jobDone_runs hjobs hservice hread hj hctx hlo hhi hmode hok hr hf)

/-! ### Tamper, debug levels and the Debug Module -/

/-- A tamper source that responds and trips sets its latch, its event and its count, and zeroises unless it only records (R621). -/
theorem Dev.tamperTrip_trips {d e : Dev} {src : Nat} (hsrc : src < 6) (hresp : d.tamperResp src ≠ 0)
    (hasleep : src < 2 ∨ d.pstate < 4) (hfault : src ≠ 5 ∨ d.fchkTrips = true)
    (he : e = ((d.wr secPage (SEC_TAMPER_LATCH.LATCH.bitOf src) 1).ev secPage 10).cnt secPage SEC_CNT_TAMPER.COUNT) :
    d.tamperTrip src = if e.tamperResp src = 1 then e else if 4 ≤ d.pstate then { e with sec := { e.sec with owed := true } }
      else e.zeroiseNow := by
  have htrips : ¬ (6 ≤ src ∨ d.tamperResp src = 0 ∨ (2 ≤ src ∧ 4 ≤ d.pstate) ∨ (src = 5 ∧ d.fchkTrips = false)) := by
    rintro (h | h | ⟨hlate, hdeep⟩ | ⟨hself, hquiet⟩)
    · omega
    · exact hresp h
    · omega
    · rcases hfault with h | h
      · exact h hself
      · simp [h] at hquiet
  simp only [Dev.tamperTrip, decide_eq_true_eq, if_neg htrips, ← he]

/-- A debug command of an answering page does its work, and the level it leaves acts at once. -/
theorem exec_dbgUnlock {s : State} {level : Nat} {token : List Nat} {d : Dev} (hans : s.dev.answers secPage = true) (hlevel : level < 4)
    (hd : s.dev.dbgUnlock level token = d) : exec (.dbgUnlock level token) s = .next ({ s with dev := d } : State).afterLevel := by
  refine (if_pos hans).trans ?_
  rw [Nat.mod_eq_of_lt hlevel, hd]

/-- An UNLOCK to a level that needs no token, or to a lower one, grants it (R647). -/
theorem Dev.dbgUnlock_granted {d : Dev} {level : Nat} {token : List Nat}
    (h : level ≤ d.rd secPage SEC_STATUS.DBG_LEVEL ∨ levelNeeds d.lc level = 0) :
    d.dbgUnlock level token = (d.setLevel level).dbgResult 0 := by
  by_cases hlower : level ≤ d.rd secPage SEC_STATUS.DBG_LEVEL
  · exact if_pos hlower
  · exact (if_neg hlower).trans (if_pos (h.resolve_left hlower))

/-- A token whose computations agree is judged, and an accepted one grants its level or makes its transition (R647). -/
theorem Dev.tokenDone_agreed {d e f g : Dev} {k : TokCheck} (hcheck : d.sec.check = some k)
    (he : e = { d.wr secPage SEC_DBG_STAT.CHECKING 0 with
      sec := { d.sec with check := none, nonce := if d.sec.nonce ≠ k.nonce then d.sec.nonce else none } })
    (hf : f = e.wr secPage SEC_DBG_STAT.NONCE_VALID (b2n e.sec.nonce.isSome))
    (hg : g = if k.unlock then f.setLevel k.arg else f.lcTransition k.arg) :
    d.tokenDone false = if f.tokenOk k then g.dbgResult 0 else (f.cnt secPage SEC_CNT_TOKEN_BAD.COUNT).dbgResult 0x0F := by
  have hvalid : f = e.wr secPage SEC_DBG_STAT.NONCE_VALID (b2n (if d.sec.nonce ≠ k.nonce then d.sec.nonce else none).isSome) := by
    rw [hf, he]
  simp only [Dev.tokenDone, hcheck, decide_eq_true_eq, ← he, ← hvalid, Bool.false_eq_true, if_false]
  rcases hok : f.tokenOk k
  · simp
  · rcases hunlock : k.unlock <;> simp [hg, hunlock]

/-- Settles O36. -/
theorem tamperAndDebugCommandsComplete : Obligations.TamperAndDebugCommandsComplete := by
  refine ⟨?trip, ?clear, ?selftest, ?nonce, ?unlock, ?check, ?lower, ?lifeCycle, ?token, ?access, ?served, ?scan⟩
  case trip =>
    intro d source e hsource hresp hasleep hfault he
    exact gives_of_dev rfl (Dev.tamperTrip_trips hsource hresp hasleep hfault he)
  case clear =>
    rintro d mask e hans rfl
    refine gives_of_dev rfl ((if_pos hans).trans (congrArg (Dev.complete · .okay) ?_))
    simp only [Dev.tamperClear, Dev.when, Bool.not_eq_true']
    split <;> simp_all
  case selftest =>
    intro d ok
    exact gives_of_dev rfl rfl
  case nonce =>
    rintro d p e hans rfl rfl
    exact gives_of_dev rfl (if_pos hans)
  case unlock =>
    intro s level token hans hlevel hgranted
    exact exec_dbgUnlock hans hlevel (Dev.dbgUnlock_granted hgranted)
  case check =>
    rintro s level token k hans hlevel hhigher hneeds htoken hfree rfl
    exact exec_dbgUnlock hans hlevel ((if_neg (Nat.not_le.mpr hhigher)).trans ((if_neg hneeds).trans
      ((if_neg htoken).trans (if_neg (by simp [hfree])))))
  case lower =>
    intro s level hans hlower hlegal
    refine (if_pos hans).trans ?_
    rw [Nat.mod_eq_of_lt (hlower.trans hlegal), Dev.dbgLower, if_pos hlower]
  case lifeCycle =>
    intro d token hans hfree
    exact gives_of_dev rfl ((if_pos hans).trans (if_neg (by simp [hfree])))
  case token =>
    intro s k e f g hcheck he hf hg
    exact congrArg (fun d => Host.Outcome.next ({ s with dev := d } : State).afterLevel) (Dev.tokenDone_agreed hcheck he hf hg)
  case access =>
    intro s q hreset hawake hlevel
    exact congrArg Host.Outcome.next ((if_neg (by simp [hreset]; omega)).trans ((if_neg hlevel).trans (if_neg (by omega))))
  case served =>
    intro s c r a hc hrunning hhalted
    have hhart : (decide (c < 8) && (s.hart c).running && (s.hart c).halted) = true := by simp [hc, hrunning, hhalted]
    refine ⟨rfl, if_pos hhart, (if_pos hhart).trans ?_⟩
    cases s.dmRead c r <;> rfl
  case scan =>
    intro d inst hawake
    exact gives_of_dev rfl (if_neg (Nat.not_le.mpr hawake))

end Sys2Proof.Machine
end

section

/-! PROOFS. Sleep and wake, power levels and the real-time clock: what their commands do. -/

namespace Sys2Proof.Machine

/-! ### Sleep and wake -/

section
variable {d e f : Dev} {n m target : Nat} {xoOff : Bool}

/-- A sleep request of machine mode that nothing refuses is accepted: RESULT 0, and the entry begins (R688 to R690). -/
theorem Dev.sleepReq_accepted (hlo : 1 ≤ target) (hhi : target ≤ 5) (hdark : d.dark = false) (hphase : d.rd pwrPage PWR_STATE.PHASE = 0)
    (he : e = (d.wr pwrPage PWR_SLEEP.TARGET target).wr pwrPage PWR_SLEEP.NAP_XO_OFF (b2n xoOff)) (hquiet : e.notQuiet target = none)
    (hwake : target = 3 ∨ target = 4 → e.wakeMask 0xFFFF target ≠ 0)
    (hf : f = ((e.wr pwrPage PWR_STATE.RESULT 0).wr pwrPage PWR_STATE.PHASE 1).cnt pwrPage PWR_CNT_SLEEP.COUNT) :
    d.sleepReq target true xoOff
      = { f.complete .okay with gov := { f.gov with target := target, xoOff := xoOff, seen := f.wakeMask f.wakeLevels target } } := by
  have hkept : e.rd pwrPage PWR_STATE.PHASE = 0 := by
    rw [he, Dev.rd_wr_word _ _ (by decide), Dev.rd_wr_word _ _ (by decide), hphase]
  have hlegal : ¬ (target = 0 ∨ 5 < target) := by omega
  have hsource : ¬ ((target = 3 ∨ target = 4) ∧ e.wakeMask 0xFFFF target = 0) := fun h => hwake h.1 h.2
  simp only [Dev.sleepReq, Bool.true_eq_false, if_false, hdark, Bool.false_eq_true, ← he, hkept, ne_eq, not_true_eq_false,
    if_neg hlegal, hquiet, if_neg hsource, ← hf]

/-- What the record of a wake from state `n` seen by the sources `m` says, the return under way (R691). -/
def Dev.wakeRecorded (d : Dev) (n m : Nat) (during : Bool) : Dev :=
  let e := ((d.wr pwrPage PWR_WAKE_REC0.SOURCE (((List.range 16).find? (bit m)).getD 0)).wr pwrPage PWR_WAKE_REC0.FROM n).wr
    pwrPage PWR_WAKE_REC0.DURING_ENTRY (b2n during)
  let f := e.wr pwrPage PWR_WAKE_REC0.ASSERTED m
  ((f.wr pwrPage PWR_WAKE_REC1.TICKS f.ticks).wr pwrPage PWR_WAKE_REC2.TICKS (f.ticks / 2 ^ 32)).wr pwrPage PWR_STATE.PHASE 2

/-- A wake in a sleep state that wakes writes its record and starts the return (R691). -/
theorem Dev.wakeDetect_wakes {h : Dev} {during : Bool} (hn : n = d.pstate) (hlo : 1 ≤ n) (hoff : n ≠ 5)
    (hphase : d.rd pwrPage PWR_STATE.PHASE = 0) (hm : m = d.gov.seen ||| d.wakeMask d.wakeLevels n) (hseen : m ≠ 0)
    (hh : h = if 3 ≤ n then (d.wakeRecorded n m during).wr pwrPage PWR_STATE.STATE 0 else d.wakeRecorded n m during) :
    d.wakeDetect during = { h with gov := { h.gov with seen := 0, rails := [0, 1, 2, 3], xo := true } } := by
  subst hn
  have hwakes : ¬ (d.pstate = 0 ∨ d.pstate = 5 ∨ d.rd pwrPage PWR_STATE.PHASE ≠ 0 ∨ m = 0) := by
    rintro (h | h | h | h)
    · omega
    · exact hoff h
    · exact h hphase
    · exact hseen h
  rw [Dev.wakeDetect, ← hm, if_neg hwakes, hh]
  simp only [Dev.when, decide_eq_true_eq]
  rfl

end

/-- Settles O37. -/
theorem sleepCommandsComplete : Obligations.SleepCommandsComplete := by
  refine ⟨?idle, ?doze, ?nap, ?hibernate, ?off, ?entered, ?wake, ?return_, ?fromNap, ?fromHibernate, ?pin, ?host⟩
  case idle =>
    intro d e f hans hdark hphase he hquiet hf
    exact gives_of_dev rfl ((if_pos hans).trans
      (Dev.sleepReq_accepted (by decide) (by decide) hdark hphase he hquiet (by omega) hf))
  case doze =>
    intro d e f hans hdark hphase he hquiet hf
    exact gives_of_dev rfl ((if_pos hans).trans
      (Dev.sleepReq_accepted (by decide) (by decide) hdark hphase he hquiet (by omega) hf))
  case nap =>
    intro d xoOff e f hans hdark hphase he hquiet hwake hf
    exact gives_of_dev rfl ((if_pos hans).trans
      (Dev.sleepReq_accepted (by decide) (by decide) hdark hphase he hquiet (fun _ => hwake) hf))
  case hibernate =>
    intro d e f hans hdark hphase he hquiet hwake hf
    exact gives_of_dev rfl ((if_pos hans).trans
      (Dev.sleepReq_accepted (by decide) (by decide) hdark hphase he hquiet (fun _ => hwake) hf))
  case off =>
    intro d e f hans hdark hphase he hquiet hf
    exact gives_of_dev rfl ((if_pos hans).trans
      (Dev.sleepReq_accepted (by decide) (by decide) hdark hphase he hquiet (by omega) hf))
  case entered =>
    rintro s t e f hphase rfl rfl rfl
    exact congrArg Host.Outcome.next (if_neg (not_not_intro hphase))
  case wake =>
    rintro d n m e f g h hn hlo hoff hphase hm hseen rfl rfl rfl hh
    exact gives_of_dev rfl (Dev.wakeDetect_wakes (during := false) hn hlo hoff hphase hm hseen hh)
  case return_ =>
    rintro s tau e hphase (hfrom | hfrom) rfl
    · refine congrArg Host.Outcome.next ((if_neg (not_not_intro hphase)).trans ?_)
      rw [if_pos hfrom]
      simp only [hfrom]
      rfl
    · refine congrArg Host.Outcome.next ((if_neg (not_not_intro hphase)).trans ?_)
      rw [if_neg (by simp [hfrom])]
      simp only [hfrom]
      rfl
  case fromNap =>
    intro s tau hphase hfrom
    refine congrArg Host.Outcome.next ((if_neg (not_not_intro hphase)).trans ?_)
    simp only [hfrom]
    rfl
  case fromHibernate =>
    intro s tau hphase hfrom
    refine congrArg Host.Outcome.next ((if_neg (not_not_intro hphase)).trans ?_)
    simp only [hfrom]
  case pin =>
    intro d pin hpin
    exact gives_of_dev rfl (if_pos hpin)
  case host =>
    intro d hans
    exact gives_of_dev rfl (if_pos hans)

/-! ### Power levels, budget and shutdown -/

/-- A lower class withdraws what was negotiated and declares an emergency (R677, R678, R684). -/
theorem Dev.classSample_lower {d e : Dev} {code : Nat} (hcode : code < 8) (hlower : code < d.rd pwrPage PWR_CLASS.CODE)
    (he : e = (((d.wr pwrPage PWR_CLASS.CODE code).wr pwrPage PWR_CLASS.CLASS_MW (classMw code)).wr pwrPage PWR_LLDP.VALID 0).wr
      pwrPage PWR_AUX.VALID 0) :
    d.classSample code = (e.ev pwrPage 12).budgetSync.emergency (e.ev pwrPage 12).budgetSync.emergencyFloors := by
  simp only [Dev.classSample, Nat.mod_eq_of_lt hcode, if_neg hlower.ne, if_pos hlower, ← he]

/-- Settles O38. -/
theorem powerCommandsComplete : Obligations.PowerCommandsComplete := by
  refine ⟨?request, ?txn, ?settled, ?strobe, fun d e code hcode hlower he => Dev.classSample_lower hcode hlower he, ?undervoltage,
    ?mode, ?shutdown⟩
  case request =>
    intro d value hans
    exact gives_of_dev rfl (if_pos hans)
  case txn =>
    rintro d dom ack k e hchange hwaits rfl
    exact gives_of_dev rfl (by
      simp only [hchange, hwaits, Bool.false_eq_true, if_false, Dev.when, Bool.and_eq_true, decide_eq_true_eq, and_assoc, implies_true])
  case settled =>
    intro d dom k hchange hacked
    exact gives_of_dev rfl (by simp only [hchange, hacked, if_true, implies_true])
  case strobe =>
    rintro d code e rfl
    exact gives_of_dev rfl rfl
  case undervoltage =>
    intro d low
    exact gives_of_dev rfl rfl
  case mode =>
    rintro d mode e f g hans hmode rfl rfl rfl
    refine gives_of_dev rfl ((if_pos hans).trans (congrArg (Dev.complete · .okay) ?_))
    simp only [Nat.mod_eq_of_lt (Nat.lt_of_le_of_lt hmode (by decide : 5 < 8)), Dev.modeSelect, if_neg (Nat.not_lt.mpr hmode), Dev.when,
      decide_eq_true_eq]
  case shutdown =>
    rintro s e hawake rfl
    exact congrArg Host.Outcome.next (if_neg (Nat.not_le.mpr hawake))

/-! ### Real-time clock -/

section
variable {d : Dev}

/-- An access through the interface to the always-on domain, where the clock's registers answer (R711). -/
theorem Dev.aonAccess_of_answers {g : Dev → Dev} (hans : d.answers 0x002 = true) : d.aonAccess g = (g d).complete .okay :=
  if_neg (by simp [Dev.answers_clock hans])

/-- The staged command is applied at a crystal edge, and the alarms follow the count (R700, R701). -/
theorem Dev.rtcApply_edge {op n r : Nat} {e f g : Dev} (hstaged : d.rtc.staged = some op) (hedges : d.rtc.edges = true)
    (hpowered : d.rtc.powered = true) (hn : n = if op = 1 then d.rtcStagedCount else d.rtcSum.toNat)
    (hr : r = if op = 2 ∧ d.rtcSum < 0 then 1 else 0) (he : e = (d.setCount n).rtcEnd r)
    (hf : f = { e with rtc := { e.rtc with spoilt := true } })
    (hg : g = if f.rtc.count < d.rtc.count then f.alarmsBack else f) : d.rtcApply = g.alarmsDue true := by
  have htake : d.rtcTake n r = g.alarmsDue true := by
    rw [hg, hf, he]
    simp only [Dev.rtcTake, Dev.when, decide_eq_true_eq]
  simp only [Dev.rtcApply, hstaged, hedges, hpowered, Bool.and_self, Bool.true_eq_false, if_false]
  by_cases hop : op = 1
  · rw [if_pos hop, ← htake, hn, hr, if_pos hop, if_neg (by omega)]
  · rw [if_neg hop, ← htake, hn, hr, if_neg hop]
    simp [b2n]

/-- The words of an alarm's compare, and arming by either (R702). -/
theorem Dev.alarmWrite_compare {alarm word value : Nat} (hans : d.answers 0x002 = true) (hword : word < 2) :
    d.alarmWrite alarm word value
      = ((((d.wr rtcPage (if word = 0 then RTC_ALARM.CMP_LO.at alarm else RTC_ALARM.CMP_HI.at alarm) value).wr rtcPage
          (RTC_ALARM.ARMED.at alarm) 1).wr rtcPage (RTC_ALARM.MISSED.at alarm) 0).complete .okay) := by
  refine (Dev.aonAccess_of_answers hans).trans ?_
  match word, hword with
  | 0, _ => rfl
  | 1, _ => rfl

/-- A trim window that ends is skipped where it is spoilt, and otherwise moves the trim (R706). -/
theorem Dev.trimEnd_running {dc dd : Nat} {e f : Dev} {err t : Int} (hrunning : d.bstate rtcPage = .running)
    (hauto : d.rdB rtcPage RTC_TRIM_CFG.AUTO_TRIM = true) (hdd : dd ≠ 0)
    (he : e = (d.setCount (d.rtc.count + dc * 2 ^ 16)).reach (d.now + dd * nsU))
    (hf : f = { e with rtc := { e.rtc with spoilt := false } })
    (herr : err = roundDiv (((dc : Int) * 1000000000 - (dd : Int) * 2 ^ 31) * 1000000000) (2 ^ 31 * dd))
    (ht : t = clampInt (-128000000) 128000000
      (f.rdS rtcPage RTC_TRIM.TRIM - roundDiv (err * 256) (2 ^ f.rd rtcPage RTC_TRIM_CFG.ALPHA))) :
    d.trimEnd dc dd = if e.rtc.spoilt ∨ e.sstate ≠ 2 ∨ e.rdB rtcPage RTC_STAT.OSC_STOP then f.cnt rtcPage RTC_TRIM_MEAS.SKIPPED
      else ((f.wrS rtcPage RTC_TRIM.TRIM t).wrS rtcPage RTC_TRIM_MEAS.ERROR (clampInt (-(2 ^ 23)) (2 ^ 23 - 1) err)).ev rtcPage 12 := by
  have hready : ¬ (d.bstate rtcPage ≠ .running ∨ d.rdB rtcPage RTC_TRIM_CFG.AUTO_TRIM = false ∨ dd = 0) := by
    simp [hrunning, hauto, hdd]
  simp only [Dev.trimEnd, if_neg hready, ← he, ← hf, ← herr, ← ht, Bool.or_eq_true, decide_eq_true_eq, or_assoc]

end

/-- Settles O39. -/
theorem clockCommandsComplete : Obligations.ClockCommandsComplete := by
  refine ⟨?set, ?add, ?apply, ?cancel, ?read, ?oscStop, ?oscClear, ?fire, ?armCompare, ?armPeriod, ?armEnables, ?battery, ?supply,
    ?lockout, ?lockoutEnd, ?measure, ?trim, ?age, ?resume⟩
  case set =>
    rintro d e hans hfree rfl
    refine gives_of_dev rfl ((if_pos hans).trans ((Dev.aonAccess_of_answers hans).trans (congrArg (Dev.complete · .okay) ?_)))
    simp only [hfree, Option.isSome_none, Bool.false_eq_true, if_false, true_or, if_true]
  case add =>
    rintro d e hans hfree rfl
    refine gives_of_dev rfl ((if_pos hans).trans ((Dev.aonAccess_of_answers hans).trans (congrArg (Dev.complete · .okay) ?_)))
    simp only [hfree, Option.isSome_none, Bool.false_eq_true, if_false, or_true, if_true]
  case apply =>
    intro d op n r e f g hstaged hedges hpowered hn hr he hf hg
    exact gives_of_dev rfl (Dev.rtcApply_edge hstaged hedges hpowered hn hr he hf hg)
  case cancel =>
    intro d op hans hstaged
    exact gives_of_dev rfl ((if_pos hans).trans ((Dev.aonAccess_of_answers hans).trans
      (congrArg (Dev.complete · .okay) (if_pos (by simp [hstaged])))))
  case read =>
    rintro d e hans rfl
    exact gives_of_dev rfl ((if_pos hans).trans (if_neg (by simp [Dev.answers_clock hans])))
  case oscStop =>
    intro d
    exact gives_of_dev rfl rfl
  case oscClear =>
    intro d hans hedges
    exact gives_of_dev rfl ((if_pos hans).trans ((Dev.aonAccess_of_answers hans).trans
      (congrArg (Dev.complete · .okay) (if_pos hedges))))
  case fire =>
    intro d alarm halarm hfree hedges hpowered hen harmed
    exact gives_of_dev rfl (if_neg (by simp [halarm, hfree, hedges, hpowered, hen, harmed]))
  case armCompare =>
    rintro d alarm word value e hans halarm hword rfl
    exact gives_of_dev rfl ((if_pos ⟨halarm, hword.trans (by decide)⟩).trans (Dev.alarmWrite_compare hans hword))
  case armPeriod =>
    intro d alarm value hans halarm
    exact gives_of_dev rfl ((if_pos ⟨halarm, by decide⟩).trans (Dev.aonAccess_of_answers hans))
  case armEnables =>
    rintro d alarm value e f g hans halarm rfl rfl rfl
    exact gives_of_dev rfl ((if_pos ⟨halarm, by decide⟩).trans (Dev.aonAccess_of_answers hans))
  case battery =>
    intro d
    exact gives_of_dev rfl rfl
  case supply =>
    intro d hbatt
    exact gives_of_dev rfl (if_neg (by simp [hbatt]))
  case lockout =>
    rintro d e rfl
    exact gives_of_dev rfl rfl
  case lockoutEnd =>
    intro d
    exact gives_of_dev rfl rfl
  case measure =>
    intro d low hchange
    exact gives_of_dev rfl (if_neg hchange)
  case trim =>
    intro d dc dd e f err t hrunning hauto hdd he hf herr ht
    exact gives_of_dev rfl (Dev.trimEnd_running hrunning hauto hdd he hf herr ht)
  case age =>
    rintro d temps drifts n e f hrunning rfl rfl rfl
    exact gives_of_dev rfl (if_neg (not_not_intro hrunning))
  case resume =>
    intro d
    exact gives_of_dev rfl rfl

end Sys2Proof.Machine
end

section

/-! PROOFS. The twin pair: its frames and its roles. -/

namespace Sys2Proof.Machine

/-! ### Frames of the Tuibivy link -/

section
variable {d e : Dev} {g : TwinFrame}

/-- A frame that passes the checks is taken on the device the checks leave (R728). -/
theorem Dev.twinReceive_of_passes {typ lane atNs : Nat} {octets : List Nat} (f : Dev → TwinFrame → Dev)
    (he : e = (d.twinCheck typ lane atNs octets).1) (hg : (d.twinCheck typ lane atNs octets).2 = some g) :
    d.twinReceive typ lane atNs octets f = f e g := by
  subst he
  rw [Dev.twinReceive]
  generalize d.twinCheck typ lane atNs octets = q at hg ⊢
  obtain ⟨e, r⟩ := q
  subst hg
  rfl

/-- A Shadow keeps a frame of the cycle of a boundary until then; any other frame acts by its type (R745, R747). -/
theorem Dev.streamTaken_eq (h : Dev) (happly : e.streamApply g = h) :
    e.streamTaken g = if e.role = roleShadow ∧ e.now = (e.beat + 1) * beatU
      then e.setTwin fun t => { t with late := t.late ++ [{ typ := g.typ, payload := g.payload, snap := false, req := none, seq := g.seq }] }
      else h := by
  rw [← happly]
  rfl

/-- A request that heads the ring, of the type asked for and with what it needs, joins the queue (R741). -/
theorem Dev.twinRequest_queued {typ i a w p : Nat} (hactive : d.active twnPage = true) (hi : i = d.twin.ringNext)
    (hposted : i ≠ d.rd twnPage TWN_TXQ_WR.INDEX)
    (ha : a = d.rd twnPage TWN_TXQ_BASE.BASE * 4096 + i % 2 ^ d.rd twnPage TWN_RING_CFG.TXQ_LOG2 * 16)
    (hread : d.rdOk a 16 = true) (hw : w = d.ld a 4) (htype : w % 256 = typ) (hknown : typ = 4 ∧ d.role = roleActive ∨ typ = 6)
    (hlen : twinLenOk typ (bits w 16 10) = true) (hpaired : d.paired = true) (hroom : d.twin.queue.length < 4096)
    (hp : p = d.ld (a + 4) 4 + d.ld (a + 8) 4 % 16 * 2 ^ 32) (hpayload : d.rdOk p (bits w 16 10) = true)
    (he : e = d.setTwin fun t => { t with
      ringNext := (i + 1) % 65536, reqs := t.reqs ++ [i],
      queue := t.queue ++ [{ typ := typ, payload := d.ldBytes p (bits w 16 10), snap := false, req := some i, seq := 0 }] }) :
    d.twinRequest typ = e.twinRingRd.twinPush := by
  have hready : ¬ (d.active twnPage = false ∨ i = d.rd twnPage TWN_TXQ_WR.INDEX) := by simp [hactive, hposted]
  have hgood : ¬ ((typ ≠ 4 ∧ typ ≠ 6) ∨ (typ = 4 ∧ d.role ≠ roleActive) ∨ twinLenOk typ (bits w 16 10) = false) := by
    rcases hknown with ⟨rfl, hrole⟩ | rfl
    · simp [hrole, hlen]
    · simp [hlen]
  have hqueued : ¬ (typ ≠ typ ∨ d.paired = false ∨ 4096 ≤ d.twin.queue.length) := by simp [hpaired, hroom]
  simp only [Dev.twinRequest, ← hi, if_neg hready, ← ha, hread, ← hw, htype, if_neg hgood, if_neg hqueued, ← hp, hpayload,
    Bool.true_eq_false, if_false, ← he]

end

/-- Settles O40. -/
theorem twinFrameCommandsComplete : Obligations.TwinFrameCommandsComplete := by
  refine ⟨?hello, ?heartbeat, ?helloIn, ?heartbeatIn, ?sta, ?key, ?mark, ?user, ?keyRequest, ?userRequest, ?retx⟩
  case hello =>
    rintro d e hservice hrole hbeat rfl
    refine gives_of_dev rfl (if_pos ?_)
    rcases hrole with h | ⟨h, hpaired⟩
    · simp [hservice, h, hbeat]
    · simp [hservice, h, hpaired, hbeat]
  case heartbeat =>
    rintro d b t e f g hactive hfrom hdue hnone hdeposed hbeat rfl rfl rfl rfl
    exact gives_of_dev rfl (if_pos (by simp [hactive, hfrom, hdue, hnone, hdeposed, hbeat]))
  case helloIn =>
    intro d lane atNs octets e g he hg
    exact gives_of_dev rfl (Dev.twinReceive_of_passes Dev.helloTaken he hg)
  case heartbeatIn =>
    intro d lane atNs octets e g he hg
    exact gives_of_dev rfl (Dev.twinReceive_of_passes Dev.heartbeatTaken he hg)
  case sta =>
    intro d lane atNs octets e g he hg htype
    exact gives_of_dev rfl ((Dev.twinReceive_of_passes Dev.streamTaken he hg).trans
      (Dev.streamTaken_eq _ (by simp [Dev.streamApply, htype])))
  case key =>
    intro d lane atNs octets e g he hg htype
    exact gives_of_dev rfl ((Dev.twinReceive_of_passes Dev.streamTaken he hg).trans
      (Dev.streamTaken_eq _ (by simp [Dev.streamApply, htype])))
  case mark =>
    intro d lane atNs octets e g he hg htype
    exact gives_of_dev rfl ((Dev.twinReceive_of_passes Dev.streamTaken he hg).trans
      (Dev.streamTaken_eq _ (by simp [Dev.streamApply, htype])))
  case user =>
    intro d lane atNs octets e g he hg htype
    exact gives_of_dev rfl ((Dev.twinReceive_of_passes Dev.streamTaken he hg).trans
      (Dev.streamTaken_eq _ (by simp [Dev.streamApply, htype])))
  case keyRequest =>
    intro d i a w p e hactive hi hposted ha hread hw htype hrole hlen hpaired hroom hp hpayload he
    exact gives_of_dev rfl
      (Dev.twinRequest_queued hactive hi hposted ha hread hw htype (.inl ⟨rfl, hrole⟩) hlen hpaired hroom hp hpayload he)
  case userRequest =>
    intro d i a w p e hactive hi hposted ha hread hw htype hlen hpaired hroom hp hpayload he
    exact gives_of_dev rfl
      (Dev.twinRequest_queued hactive hi hposted ha hread hw htype (.inr rfl) hlen hpaired hroom hp hpayload he)
  case retx =>
    rintro d e hactive hpaired hwindow hlate rfl
    exact gives_of_dev rfl (if_pos (by simp [hactive, hpaired, hwindow, hlate]))

/-! ### Roles of the twin pair -/

/-- Settles O41. -/
theorem twinRoleCommandsComplete : Obligations.TwinRoleCommandsComplete := by
  refine ⟨?solo, ?deposed, ?kick, ?handover, ?resync, ?fence, ?lane⟩
  case solo =>
    intro d hservice hrole hhello hsince hfence
    exact gives_of_dev rfl (if_pos (by simp [hservice, hrole, hhello, hsince, hfence]))
  case deposed =>
    intro d hservice hrole hbeats hlate hyield
    refine gives_of_dev rfl (if_pos ?_)
    rw [hyield]
    simp [hservice, hrole, hbeats, hlate]
  case kick =>
    intro d hans hservice hrole
    exact gives_of_dev rfl ((if_pos hans).trans (congrArg (Dev.complete · .okay) (if_pos (by simp [hservice, hrole]))))
  case handover =>
    intro d hans hservice hrole
    exact gives_of_dev rfl ((if_pos hans).trans (congrArg (Dev.complete · .okay) (if_pos (by simp [hservice, hrole]))))
  case resync =>
    intro d hans hservice hrole
    exact gives_of_dev rfl ((if_pos hans).trans (congrArg (Dev.complete · .okay) (if_pos (by simp [hservice, hrole]))))
  case fence =>
    rintro d low e f g rfl rfl rfl
    refine gives_of_dev rfl ?_
    intro q hs p
    simp only [Dev.fenceFollow, Dev.when, Bool.and_eq_true, Bool.not_eq_true']
    rfl
  case lane =>
    intro d lane up hlane hchange
    exact gives_of_dev rfl (if_neg (by simp [hlane, hchange]))

end Sys2Proof.Machine
end

section

/-! PROOFS. Supply, reset and boot. -/

namespace Sys2Proof.Machine

section
variable {s : State}

/-- The rails come on in the order of R761. -/
theorem State.railStep_ramp {l : List Nat} (hoff : s.dev.pstate ≠ 5) (hreset : s.dev.balls.resetLow = true)
    (hl : l = if 3 ∈ s.dev.gov.rails then (if 1 ∈ s.dev.gov.rails then [0, 1, 2, 3] else [1, 3]) else [3]) :
    s.railStep = { s with dev := { s.dev with gov := { s.dev.gov with rails := l, xo := true, shutdown := false } } } := by
  subst hl
  simp only [State.railStep, if_neg hoff, hreset, Bool.true_eq_false, if_false, State.on]
  by_cases h3 : 3 ∈ s.dev.gov.rails
  · by_cases h1 : 1 ∈ s.dev.gov.rails <;> simp [h3, h1]
  · simp [h3]

/-- A word stored does not take C0 out of the ROM. -/
theorem State.inRom_st (r : RomFlow) (a n v : Nat) : ({ s with dev := s.dev.st a n v } : State).inRom r = s.inRom r := by
  simp only [State.inRom, Dev.dark_st]
  rw [show (s.dev.st a n v).ctl = s.dev.ctl from Dev.stBytes_ctl _ _ _]

/-- The doorbell in the recovery flow clears its word and tries the header behind it (R781). -/
theorem State.recoveryDoorbell_rings {value : Nat} (hrom : s.inRom .recovery = true) (hdark : s.dev.dark = false)
    (hvalue : value = 0x52454356) {t : State}
    (ht : t = { s with dev := (s.dev.st (mailbox + 12) 4 value).st (mailbox + 12) 4 0 }) :
    s.recoveryDoorbell value = t.recoveryTry (t.dev.ldBytes 0x10FFFC00 512) := by
  rw [State.recoveryDoorbell, if_neg (by simp [hdark]), if_pos (by simp only [State.inRom_st, hrom, hvalue, decide_true, Bool.and_self]), ht]

theorem exec_recoveryDoorbell (value : Nat) : exec (.recoveryDoorbell value) s = .next (s.recoveryDoorbell value) := rfl

/-- A header and body in SRAM that pass every check are entered; the first failure is written otherwise (R781). -/
theorem State.recoveryTry_eq {h : List Nat} {k : Option Nat}
    (hk : k = (s.dev.headerCheck h).orElse fun _ => bodyCheck h (s.dev.ldBytes (hdrNum h 16 4) (hdrNum h 20 4))) :
    s.recoveryTry h = if k.isNone then
        ({ s with dev := s.dev.bootStatus 0x02 (s.dev.ld (mailbox + 1) 1) (s.dev.ld (mailbox + 2) 1) (hdrNum h 8 4) } : State).romLeaves
          (hdrNum h 24 4) (some mailbox)
      else { s with dev := s.dev.st (mailbox + 2) 1 (k.getD 0) } := by
  subst hk
  rw [State.recoveryTry]
  cases s.dev.headerCheck h with
  | some c => rfl
  | none => cases bodyCheck h (s.dev.ldBytes (hdrNum h 16 4) (hdrNum h 20 4)) <;> rfl

/-- The header of the image in a slot, or nothing where the slot is empty. -/
def BootImg.headerOf (x : Option BootImg) : List Nat := (x.getD { header := [], body := [] }).header

/-- The flow of R777 with a valid directory and the shared SRAM running: the preferred slot, then the other, then recovery. -/
theorem State.romFlow_slots {flash : BootFlash} {b : List Nat} {e f : Dev} {pb : Bool} {x y : Option BootImg} {r q : Dev × Option Nat}
    (htest : s.dev.balls.testmode = false) (hlc : s.dev.lc ≠ 5) (he : e = s.dev.romStart secPage)
    (hself : e.rdB secPage SEC_STATUS.SELFTEST_OK = true) (hdir : flash.dir = some b) (hok : dirOk b = true)
    (hpb : pb = decide (nth 0 b 7 = 1)) (hx : x = if pb then flash.b else flash.a) (hy : y = if pb then flash.a else flash.b)
    (hf : f = (e.wr srmPage SRM_MAP.ILV_GROUPS (nth 0 b 6)).romStart srmPage) (hsram : f.bstate srmPage = .running)
    (hr : r = f.checkSlot x) (hq : q = r.1.checkSlot y) :
    s.romFlow flash = if r.2.isNone then
        ({ s with dev := r.1.bootStatus (b2n pb) 0 0 (hdrNum (BootImg.headerOf x) 8 4) } : State).romLeaves
          (hdrNum (BootImg.headerOf x) 24 4) (some mailbox)
      else if q.2.isNone then
        ({ s with
            dev := q.1.bootStatus (b2n (!pb)) (if pb then 0 else r.2.getD 0) (if pb then r.2.getD 0 else 0)
              (hdrNum (BootImg.headerOf y) 8 4) } : State).romLeaves (hdrNum (BootImg.headerOf y) 24 4) (some mailbox)
      else ({ s with dev := q.1 } : State).romRecovers 0x11 (if pb then q.2.getD 0 else r.2.getD 0)
        (if pb then r.2.getD 0 else q.2.getD 0) := by
  have hwhich : (nth 0 b 7 = 1) = (pb = true) := by simp [hpb]
  have hslot : (if pb then flash.a else flash.b) = if !pb then flash.b else flash.a := by cases pb <;> rfl
  simp only [State.romFlow, htest, Bool.false_eq_true, if_false, if_neg hlc, State.on, ← he, hself, Bool.true_eq_false, hdir, hok, ← hf,
    hsram, ne_eq, not_true_eq_false, hwhich, ← hx, ← hy, ← hr, ← hq, Bool.decide_eq_true]
  rcases hfirst : r.2 with _ | c
  · simp only [Option.isNone_none, if_true, hx, BootImg.headerOf]
  · rcases hsecond : q.2 with _ | c'
    · simp only [Option.isNone_some, Option.isNone_none, Bool.false_eq_true, if_false, if_true, Option.getD_some, hy, hslot,
        BootImg.headerOf]
    · simp only [Option.isNone_some, Bool.false_eq_true, if_false, Option.getD_some]

end

/-- Settles O42. -/
theorem bootCommandsComplete : Obligations.BootCommandsComplete := by
  refine ⟨?powerOn, ?reset, ?release, ?rails, ?fromOff, ?boot, ?doorbell, ?otherWord⟩
  case powerOn =>
    intro s
    rfl
  case reset =>
    intro s
    rfl
  case release =>
    rintro s pcieEp xspi1s testmode cls tau e hlow hrails rfl
    exact congrArg Host.Outcome.next (if_pos (by simp [hlow, hrails]))
  case rails =>
    intro s l hoff hreset hl
    exact congrArg Host.Outcome.next (State.railStep_ramp hoff hreset hl)
  case fromOff =>
    rintro s e hoff rfl
    exact congrArg Host.Outcome.next (if_pos hoff)
  case boot =>
    rintro s flash b e f pb x y hx hy r q hrom htest hlc he hself hdir hok hpb hxs hys rfl rfl hf hsram hr hq
    exact congrArg Host.Outcome.next ((if_pos hrom).trans
      (State.romFlow_slots htest hlc he hself hdir hok hpb hxs hys hf hsram hr hq))
  case doorbell =>
    intro s t h k hrom hdark ht hh hk
    rw [exec_recoveryDoorbell, State.recoveryDoorbell_rings hrom hdark rfl ht, ← hh, State.recoveryTry_eq hk]
  case otherWord =>
    intro s value hdark hother
    refine congrArg Host.Outcome.next ?_
    rw [State.recoveryDoorbell, if_neg (by simp [hdark]), if_neg (by simp [hother])]

end Sys2Proof.Machine
end
